-- ==== Sys2Proof/Word.lean ====
section
/-! DEFINITION. The word types: byte, register word and mesh-time counter. -/

namespace Sys2Proof

/-- One byte (R9). -/
abbrev Byte := BitVec 8

/-- A byte string: frame, packet, key or signature. -/
abbrev Bytes := List Byte

/-- One 32-bit register word (R6). -/
abbrev Word := BitVec 32

/-- Mesh time, a 64-bit counter (R66). -/
abbrev MeshTime := BitVec 64

end Sys2Proof
end

