-- ==== Sys2Proof/Types.lean ====
section
/-! DEFINITION. The data types that commands and state share: register fields and access types, modes, ports, and the
operand records of the commands (what the outside determines about each event). -/

namespace Sys2Proof

/-- Access types of register fields (R12, R449). -/
inductive Acc where
  | ro | rw | rwl | w1c | rc | wo | rwRoot
  deriving DecidableEq, Repr

/-- A register field: its register's address, its lowest bit, its width, its reset value (R14) and its access type. -/
structure Field where
  addr : Nat
  lo : Nat
  width : Nat
  reset : Nat
  acc : Acc
  deriving DecidableEq, Repr

/-- The six modes (R34). -/
inductive Mode where
  | boot | commission | operate | roost | safehold | spare
  deriving DecidableEq, Repr

/-- The three host ports, in the order of R428. -/
inductive HostPort where
  | spi | uart | eth
  deriving DecidableEq, Repr

/-- The sources of register accesses that keep their own held halves and latches (R451). -/
inductive Src where
  | port (p : HostPort)
  | remote
  | firmware
  deriving DecidableEq, Repr

/-- What a requester asks leave for: a unit's own operation; of a port, a link's packet by its context, a random-access frame by its
number, a beacon, a test frame by its access slot, or listening on the radio (R47, R53, R179, R229, R520). -/
inductive LeaveFor where
  | unit
  | link (ctx : Nat)
  | access (id : Nat)
  | beacon
  | test (slot : Nat)
  | listen
  deriving DecidableEq, Repr

/-- What the outside decides for one request beyond its bytes: whether a fuse or flash read-back agrees; and what the peer chip has sent over the
link, should the request pair with it: its extended address, its fresh X25519 public key, and the signature of that key (R339, R385, log
entry 226). -/
structure Verdicts where
  hwOk : Bool
  peerExt : BitVec 64
  peerEpk : Bytes
  peerSig : Bytes
  deriving DecidableEq, Repr

/-- A host request whose carrier framing and CRC passed (step 1 of R427): port, SEQ, AUTH with its counter and MIC (R382), and the parameter
bytes of the opcode that the command names. -/
structure HostReq where
  port : HostPort
  seq : BitVec 16
  auth : Bool
  ctr : BitVec 64
  mic : Bytes
  params : Bytes
  v : Verdicts
  deriving DecidableEq, Repr

/-- Source and destination of an Ethernet datagram (R424), and whether its frame is one that the device takes: unfragmented IPv4 without options
and UDP, to its MAC address or the broadcast address, with good checksums. -/
structure EthMeta where
  srcIp : BitVec 32
  srcPort : BitVec 16
  dstIp : BitVec 32
  dstPort : BitVec 16
  accepted : Bool
  deriving DecidableEq, Repr

/-- The header of a line frame (R108), or of a radio frame with MODE and LMID read as 0 (R220). -/
structure FrameHdr where
  length : BitVec 11
  mode : BitVec 2
  lmid : BitVec 12
  src : BitVec 16
  dst : BitVec 16
  bcast : Bool
  epoch : BitVec 16
  fcf : BitVec 2
  deriving DecidableEq, Repr

/-- A receive sample at 1.92 MS/s: its code and its CLIP flag (R92). -/
structure RxSample where
  x : BitVec 16
  clip : Bool
  deriving DecidableEq, Repr

/-- What a line port hears while it searches for a preamble (R119): the access slot at which the searched position begins, and samples from
an instant on. -/
structure RxRun where
  slot : Fin 128
  from_ : MeshTime
  samples : List RxSample
  deriving DecidableEq, Repr

/-- What one own symbol gives ECHO (R130): the receive samples of its FFT window, and what the current sense holds at the same instants: of
the integrated driver its output current in µA, of an external amplifier the voltage at XISnP–XISnN in µV (R89, R91). -/
structure TxWin where
  sym : Nat
  v : List RxSample
  i : List (BitVec 32)
  deriving DecidableEq, Repr

/-- What a line port hears of a frame whose preamble has been declared (R119, R123): the FFT windows of the positions that follow the
preamble. -/
structure LineRx where
  syms : List (List RxSample)
  deriving DecidableEq, Repr

/-- A radio signal at RFIO as the demodulator decides it (R218, R219, R231): the instant of SFD detection, the RSSI over the SFD in
0.5 dB, the carrier offset in 100 Hz, the PHR with its first bit the most significant, and the symbols of the PSDU, still whitened: 0
the lowest of the four deviations, 3 the highest. -/
structure RadioSig where
  sfdAt : MeshTime
  rssi : BitVec 10
  fofs : BitVec 12
  phr : BitVec 16
  psdu : List (Fin 4)
  deriving DecidableEq, Repr

/-- What is on the air while the receiver listens: each signal alone, and what the demodulator makes of them together where none is much
the stronger (R233). -/
structure RadioAir where
  sigs : List RadioSig
  mix : RadioSig
  deriving DecidableEq, Repr

/-- What the radio hears in the allocation that begins at an access slot (R221). -/
structure RadioRx where
  slot : Fin 128
  air : RadioAir
  deriving DecidableEq, Repr

/-- What the outside decides about the ROM's check of an image slot (R361): whether its flash could be read, and the time from the
release of reset to the start of the firmware, in 10 µs. -/
structure ImageResult where
  readOk : Bool
  took : Nat
  deriving DecidableEq, Repr

/-- An output word of a modulator, or of the auxiliary converter: its 24 bits, signed, its overload flag, and the SAT flag of the
transimpedance stage that it converts (R237, R240, R253). -/
structure ConvWord where
  w : BitVec 24
  ovl : Bool
  sat : Bool
  deriving DecidableEq, Repr

/-- The words of a grid channel at one sampling instant: of a current channel the low path's and the high path's; of any other only `lo`
counts (R236, R238). -/
structure GridWord where
  lo : ConvWord
  hi : ConvWord
  deriving DecidableEq, Repr

/-- Consecutive words of a grid channel from an instant on, one every 30 ticks (R236). -/
structure GridRun where
  ch : Fin 9
  from_ : MeshTime
  words : List GridWord
  deriving DecidableEq, Repr

/-- Consecutive words of the auxiliary converter from an instant on, one every 120 ticks (R236). -/
structure AuxRun where
  from_ : MeshTime
  words : List ConvWord
  deriving DecidableEq, Repr

/-- What the converters have given since the last command that brought their words. -/
structure Streams where
  aux : AuxRun
  grid : List GridRun
  deriving DecidableEq, Repr

/-- The requester of one LCE operation (R326, R331): a host port by its number, or a remote node by its short address with
the generation and privilege of its packet; and its TAG. -/
inductive LceBy where
  | host (p : HostPort) (tag : BitVec 8)
  | remote (addr gen : BitVec 16) (priv : Bool) (tag : BitVec 8)
  deriving DecidableEq, Repr

/-- What the receivers of the Erfa link hear: the code groups of lane 0 and of lane 1 since the last command that brought any, a group's first
bit its most significant (R342). -/
structure ErfRx where
  lane0 : List (BitVec 10)
  lane1 : List (BitVec 10)
  deriving DecidableEq, Repr

/-- The body of a heartbeat (R346). -/
structure Heartbeat where
  role : BitVec 2
  unfit : Bool
  synced : Bool
  pairId : Bool
  own : Bool
  nak : Bool
  copyStart : Bool
  mode : BitVec 8
  lanes : BitVec 2
  epoch : BitVec 32
  ackSeq : BitVec 16
  nakSeq : BitVec 16
  sfn : BitVec 32
  mtime : MeshTime
  dbo : BitVec 16
  shift : BitVec 24
  count : BitVec 3
  deriving DecidableEq, Repr

end Sys2Proof
end

