-- ==== Sys2Proof/Machine/UnitsCtl.lean ====
section
/-! DEFINITION. The state of LCE, ERF with the ownership handshake, and SEC beyond their registers. -/

namespace Sys2Proof.Machine

/-! ### LCE -/

/-- An owner (R326): class 0 RULE, 1 HOST, 2 REMOTE, 3 none; identifier; generation. -/
structure Owner where
  cls : Nat
  id : Nat
  gen : Nat
  deriving DecidableEq, Repr

/-- One operation of R332. -/
structure LceOp where
  opc : Nat
  obj : Nat
  p1 : Nat
  p2 : Nat
  deriving DecidableEq, Repr

/-- One entry of a reply (R331); for a SET that has still to pass phase 6, its actuator. -/
structure OpResult where
  status : Nat
  data : Nat
  act : Option Nat
  deriving DecidableEq, Repr

/-- A reply to be committed in phase 7 (R333). `final` marks the reply that follows a queued ACQUIRE. The tag of a HOST
request is TAG plus 256 × SEQ. -/
structure LceReply where
  owner : Owner
  tag : Nat
  results : List OpResult
  final : Bool
  deriving DecidableEq, Repr

/-- A request waiting for phase 2 (R305): a mailbox entry by its slot, or a host request. -/
inductive LceWork where
  | mail (slot orig len : Nat) (priv : Bool)
  | ops (owner : Owner) (tag : Nat) (priv : Bool) (ops : List LceOp) (before : List OpResult) (final : Bool)
  deriving DecidableEq, Repr

/-- A queued ACQUIRE (R327): lease, tick at which its wait ends, operations after it. -/
structure Waiter where
  owner : Owner
  tag : Nat
  priv : Bool
  lease : Nat
  until_ : Nat
  before : List OpResult
  after : List LceOp
  deriving DecidableEq, Repr

inductive LockSt where
  | free | held | cleanup
  deriving DecidableEq, Repr

structure Lock where
  st : LockSt
  owner : Owner
  /-- expiry, mesh-time ticks -/
  expiry : Nat
  implicit : Bool
  waiters : List Waiter
  lostOwner : Option (Nat × Nat)
  /-- lost and not yet acted on: 2 expired, 3 owner reset (R329) -/
  lost : Option Nat
  /-- freed in this tick with a waiter, which is granted it at the end of the tick if it is then still FREE (R327) -/
  reserved : Bool
  deriving DecidableEq, Repr

structure Act where
  applied : Nat
  pending : Option Nat
  pendingOwner : Owner
  /-- tick at the end of which it was last turned off (R315) -/
  offTick : Option Nat
  /-- tick in whose phase 7 a PULSE ends (R312) -/
  pulseEnd : Option Nat
  /-- coil pulse of a BISTABLE actuator: PINB, and the tick in whose phase 7 it ends -/
  coil : Option (Bool × Nat)
  /-- the record that drives its pin: as LCE last read it whole, no word of it poisoned (R31, R32, R336) -/
  record : Bytes
  deriving DecidableEq, Repr

structure Rule where
  gen : Nat
  raw : Bool
  cond : Bool
  st : Bool
  count : Nat
  /-- ticks since the detector's last VALID result (R316, R319) -/
  quiet : Nat
  /-- tick of the last firing (R321) -/
  fired : Option Nat
  deriving DecidableEq, Repr

structure Seq where
  /-- state code of R324, step, last cause (R334) -/
  st : Nat
  step : Nat
  cause : Nat
  owner : Owner
  start : Nat
  /-- first tick at which the step in hand goes on: WAIT, and WAITPS in SEARCH -/
  waitTo : Option Nat
  /-- tick in which the WAITCOND in hand began -/
  condAt : Option Nat
  /-- jumps made, by step (R323) -/
  jumps : List (Nat × Nat)
  implicit : Bool
  /-- the abort runs under R329 -/
  lossAbort : Bool
  /-- the header as START read it; no commit replaces it while the sequence runs or aborts (R323) -/
  hdr : Bytes
  deriving DecidableEq, Repr

/-- Where a write of an actuator comes from (R306, R325). -/
inductive WriteSrc where
  | op | rule | seq (k : Nat) (body : Bool) | loss | init
  deriving DecidableEq, Repr

structure ActWrite where
  act : Nat
  val : Nat
  owner : Owner
  src : WriteSrc
  deriving DecidableEq, Repr

/-- What a DO pin's output stage does: it drives high or low, or lets go (R308). -/
inductive Level where
  | low | high | highZ
  deriving DecidableEq, Repr

/-- What an output pin does. -/
inductive Pin where
  | highZ | low | high
  /-- active for `duty` / 65,535 of each period of `period` × 10 ns; the levels of the active and the inactive part (R308, R312) -/
  | pwm (duty period : Nat) (active inactive : Level)
  | code (c : Nat)
  deriving DecidableEq, Repr

structure Lce where
  acts : List Act
  rules : List (Nat × Rule)
  seqs : List (Nat × Seq)
  locks : List Lock
  /-- the tick in progress, or the last one, by the count against which LCE holds its instants: that of the primary at a spare
  (R335, R348); LCE_TICK counts apart (R304) -/
  tick : Nat
  /-- the mesh time at which that tick began, and the TIME-domain cycle (R304) -/
  tickAt : Nat
  tickCyc : Nat
  /-- requests committed since the last tick, in commit order -/
  work : List LceWork
  /-- detector results since the last tick: slot, VAL0, VAL1, tag -/
  results : List (Nat × Nat × Nat × Nat)
  /-- events visible in the next tick, and in the tick in progress -/
  raised : List Nat
  visible : List Nat
  /-- TRIGGERs executed in the tick in progress: code and source (R317) -/
  triggers : List (Nat × Nat)
  writes : List ActWrite
  replies : List LceReply
  /-- DI levels accepted (R309) -/
  diLatched : Nat
  /-- commits awaiting the next tick, at most one per entry (R33): table, index, image -/
  commits : List (Nat × Nat × Bytes)
  /-- generations of the HOST owners (R326) -/
  hostGen : List Nat
  /-- actuators hold their latched values until the first tick after ROOST (R37) -/
  latched : Bool
  /-- what each DO pin took when SAFEHOLD was selected (R31) -/
  heldDo : List Pin
  deriving DecidableEq, Repr

/-- No owner (R326). -/
def Owner.none : Owner := { cls := 3, id := 0, gen := 0 }

/-- An actuator after reset. -/
def Act.fresh : Act :=
  { applied := 0, pending := none, pendingOwner := Owner.none, offTick := none, pulseEnd := none, coil := none,
    record := List.replicate 16 0 }

/-- A rule not yet evaluated. -/
def Rule.fresh : Rule := { gen := 0, raw := false, cond := false, st := false, count := 0, quiet := 0, fired := none }

/-- A sequence not started. -/
def Seq.fresh : Seq :=
  { st := 0, step := 0, cause := 0, owner := Owner.none, start := 0, waitTo := none, condAt := none, jumps := [],
    implicit := false, lossAbort := false, hdr := [] }

/-- A free lock (R327). -/
def Lock.fresh : Lock :=
  { st := .free, owner := Owner.none, expiry := 0, implicit := false, waiters := [], lostOwner := none, lost := none,
    reserved := false }

end Sys2Proof.Machine
end

