-- ==== Sys2Proof/Machine/UnitsHost.lean ====
section
/-! DEFINITION. The state of MQF, HCP and the chip's fixed values beyond the registers. -/

namespace Sys2Proof.Machine

/-! ### MQF -/

/-- A packet of queue SRAM: the header fields of R400 and the payload. -/
structure QPkt where
  priv : Bool
  bcast : Bool
  rx : Bool
  payload : Bytes
  ts : Nat
  ctx : Nat
  port : Nat
  src : Nat
  dst : Nat
  fc : Nat
  lsn : Nat
  mode : Nat
  lqi : Nat
  deriving DecidableEq, Repr

/-! ### Mirror records (R348) -/

/-- The mirrored state of LCE. -/
structure LceMirror where
  acts : List Act
  rules : List (Nat × Rule)
  seqs : List (Nat × Seq)
  locks : List Lock
  gen : Nat
  /-- the primary's tick, against which the instants above are held -/
  tick : Nat
  deriving DecidableEq, Repr

/-- The mirrored state of MRT: parent (address, context, port), own short address, NSEQ, path cost and HOPS, pending
route requests (target, superframe, LIMIT). -/
structure MrtMirror where
  parent : Nat
  ctx : Nat
  port : Nat
  short : Option Nat
  nseq : Nat
  cost : Nat
  hops : Nat
  rreqs : List (Nat × Nat × Nat)
  deriving DecidableEq, Repr

/-- The mirrored keys: the node key, in a record as the pair key seals it; certificate, domain authority key, operator and host keys, OPSEQ,
group key in force and pending (R357, R380, R385). -/
structure KeyMirror where
  nodeKey : Option Bytes
  cert : Option Bytes
  authKey : Option (Nat × Bytes)
  opKeys : List (Option Bytes)
  hostKeys : List (Option Bytes)
  opSeq : List Nat
  gkey : Option (Nat × Bytes)
  gpend : Option (Nat × Nat × Bytes)
  deriving DecidableEq, Repr

/-- A mirror record (R348), as its content: `mem` is a context, forwarding entry, lane map, link record, coefficient set or
LCE table entry by its main-SRAM address; `regs` are the configuration fields that differ from their reset value among those with keys from
`lo` up to `hi`; `slots` the allocations so, with the active bank; `scan` the scan list; `act`, `rule`, `seq` and `lock` one object of LCE
with the primary's tick, against which its instants are held, and `gen` LCE_GEN; `fc` the group counter; `txPkt` and `txEnd` name a packet by
its queue and the place of its first word. -/
inductive MirRec where
  | mem (addr : Nat) (data : Bytes)
  | regs (lo : Nat) (hi : Option Nat) (l : List (Nat × Nat))
  | slots (active lo : Nat) (hi : Option Nat) (l : List (Nat × Nat))
  | scan (l : List Nat)
  | keys (k : KeyMirror)
  | act (tick i : Nat) (a : Act)
  | rule (tick i : Nat) (r : Option Rule)
  | seq (tick i : Nat) (q : Option Seq)
  | lock (tick i : Nat) (l : Lock)
  | gen (tick g : Nat)
  | mrt (m : MrtMirror)
  | fc (n : Nat)
  | txPkt (q place : Nat) (p : QPkt)
  | txEnd (q place : Nat)
  deriving DecidableEq, Repr

/-- What a full copy has still to send (R350): `n` bytes of main SRAM from `a`, or the rest of a list from an index or key on. -/
inductive Piece where
  | mem (a n : Nat)
  | regs (lo : Nat)
  | slots (lo : Nat)
  | acts (i : Nat)
  | rules (i : Nat)
  | seqs (i : Nat)
  | locks (i : Nat)
  | scan
  | keys
  | gen
  | mrt
  | fc
  | tx (q place : Nat)
  deriving DecidableEq, Repr

/-- A GAP marker (R402). -/
structure Gap where
  flush : Bool
  pkts : Nat
  bytes : Nat
  oversize : Nat
  tfirst : Nat
  tlast : Nat
  deriving DecidableEq, Repr

inductive QItem where
  | pkt (p : QPkt)
  | gap (g : Gap)
  deriving DecidableEq, Repr

/-- A committed entry of a queue: what its words hold, how many there are, and whether it has been released. `tag` names the host request
that MESH_SEND answers when MRT takes the packet (R437): port index and SEQ. -/
structure QEntry where
  item : QItem
  words : Nat
  released : Bool
  tag : Option (Nat × Nat)
  deriving DecidableEq, Repr

/-- One packet queue (R399): RD, the entries from RD to CM, and the words of the packet in progress (none: no packet in
progress; MK is CM). -/
structure Queue where
  rd : Nat
  entries : List QEntry
  opened : Option Nat
  deriving DecidableEq, Repr

/-- The holder of a bank (R409): requester, words still to transfer, and the requesters that may preempt it, as bits: the classes
and the mode stand as they did when its grant was decided (R411, R412). -/
structure Hold where
  req : Nat
  left : Nat
  mayPreempt : Nat
  deriving DecidableEq, Repr

/-- One bank arbiter (R408–R414). The lists have one element per requester. -/
structure Arb where
  ranks : List Nat
  /-- words of the burst pending, 0 for none; raised in the current cycle and not yet pending -/
  pend : List Nat
  raised : List Nat
  /-- wait cycles of the burst pending so far -/
  waited : List Nat
  /-- the requester that transfers in the current cycle -/
  holder : Option Hold
  hintPos : List Nat
  hintWait : List Nat
  grants : List Nat
  waits : List Nat
  longest : List Nat
  deriving DecidableEq, Repr

/-- A packet committed in a producer's staging buffer of HOST-IN (R404): whether the producer is LCE, whether it is a SEND of LCE (R321), and
the host request that it answers (R437). -/
structure Staged where
  lce : Bool
  send : Bool
  tag : Option (Nat × Nat)
  pkt : QPkt
  deriving DecidableEq, Repr

structure Mqf where
  queues : List Queue
  /-- the staging buffers of HOST-IN in use, in order of commit: at most one of HCP and one of LCE; the first is being copied into the
  ring (R404) -/
  staged : List Staged
  arbs : List Arb
  /-- corrected words still to be written back, oldest first: the word, a queue word plus 262,144 (R393) -/
  writebacks : List Nat
  /-- stored words that differ from the code word of their data: the word, a queue word plus 262,144, and the bits that differ; the reserved
  check pattern of R395 is `eccMark` (R392) -/
  flips : List (Nat × Nat)
  /-- code counters: target 0–31 ↦ (single, double, uncorrectable) (R394) -/
  ecc : List (Nat × (Nat × Nat × Nat))
  /-- per-queue counters: queue ↦ (FULL, OVERSIZE, ZLP, REWINDS, POISON) (R415) -/
  qcnt : List (Nat × (Nat × Nat × Nat × Nat × Nat))
  deriving DecidableEq, Repr

/-! ### HCP -/

/-- A packet in a port's outbound buffer (R416), with the carrier settings that stood when it was committed (R436). -/
structure OutPkt where
  vf : Nat
  seq : Nat
  op : Nat
  params : Bytes
  /-- session counter, if authenticated, and MIC (R382) -/
  ctr : Option Nat
  mic : Bytes
  /-- UART rate; Ethernet source and destination -/
  baud : Nat
  srcIp : Nat
  dstIp : Nat
  dstPort : Nat
  /-- what follows once the packet has been sent: 1 the port reset of PORT_RESET, 2 the reset of DEVICE_RESET (R432, R436) -/
  then_ : Nat
  /-- its words in the port's outbound buffer (R389, R428; log entry 234) -/
  place : List Nat
  deriving DecidableEq, Repr

/-- A remembered request (R429). -/
structure Dup where
  seq : Nat
  op : Nat
  /-- the stored reply: STATUS and data; none while the request still runs -/
  reply : Option Bytes
  deriving DecidableEq, Repr

/-- State of the session on one port (R381, R382). -/
structure Session where
  state : Nat
  challenge : Bytes
  /-- opening: both public keys, the host's first; open: the session key -/
  keys : Bytes
  /-- opening: private half of the device's key pair -/
  priv : Bytes
  rx : Nat
  tx : Nat
  host : Nat
  /-- mesh time of the last authenticated packet -/
  used : Nat
  deriving DecidableEq, Repr

structure PortState where
  out : List OutPkt
  dups : List Dup
  evSeq : Nat
  /-- events dropped and not yet reported by a GAP event: packets, bytes (R439) -/
  gapPkts : Nat
  gapBytes : Nat
  sess : Session
  /-- SPI: room was reported in the previous transaction (R420) -/
  room : Bool
  /-- UART: bytes received of the packet in progress (R423) -/
  rxBuf : Bytes
  /-- Ethernet: address and port that the request in hand came from, and those of the last EVENT_SUBSCRIBE (R424) -/
  peerIp : Nat
  peerPort : Nat
  evIp : Nat
  evPort : Nat
  /-- words of the port's buffers whose stored bits differ from the code words of what was written: word number, and the bits (R392, R395) -/
  marks : List (Nat × Nat)
  deriving DecidableEq, Repr

/-- Held halves and latches of one source (R451). Index by port where the pair is per port. -/
structure SrcState where
  timeHi : Nat
  mapHi : List Nat
  ftHi : Nat
  det1 : Nat
  detTag : Nat
  obj1 : Nat
  heldTime : Nat
  heldFt : Nat
  heldScan : Nat
  deriving DecidableEq, Repr

/-- A request that passed step 1 of R427, and the source of its datagram on the Ethernet port (R424). -/
structure Req where
  port : HostPort
  seq : Nat
  op : Nat
  auth : Bool
  ctr : Nat
  mic : Bytes
  params : Bytes
  v : Verdicts
  ip : Nat
  udp : Nat
  /-- its words in the port's inbound buffer (R389; log entry 234) -/
  place : List Nat
  deriving DecidableEq, Repr

/-- The request that HCP executes while its reply waits for a later event: MESH_SEND, LCE_OPS, OTP_BURN, ROLLBACK_COMMIT, the
fragments of GALLERY_READ (R426, R428). -/
structure Current where
  port : HostPort
  /-- remote originator, if it came over the mesh -/
  orig : Option Nat
  seq : Nat
  op : Nat
  auth : Bool
  params : Bytes
  v : Verdicts
  /-- next byte and end of a GALLERY_READ -/
  from_ : Nat
  to_ : Nat
  /-- its port has been reset since: no reply goes out (R432) -/
  dead : Bool
  deriving DecidableEq, Repr

/-- A flash programming operation answered ACCEPTED (R436). -/
structure FlashOp where
  port : HostPort
  /-- remote originator, if it came over the mesh -/
  orig : Option Nat
  seq : Nat
  op : Nat
  auth : Bool
  /-- its port has been reset since: the completion is discarded (R432) -/
  dead : Bool
  v : Verdicts
  offset : Nat
  data : Bytes
  len : Nat
  /-- leave granted -/
  granted : Bool
  deriving DecidableEq, Repr

/-- An ARP cache entry (R425). -/
structure ArpEntry where
  ip : Nat
  mac : Nat
  expiry : Nat
  deriving DecidableEq, Repr

/-- A resolution in progress: address, requests sent (R425). -/
structure ArpWait where
  ip : Nat
  tries : Nat
  deriving DecidableEq, Repr

structure Hcp where
  ports : List PortState
  srcs : List SrcState
  /-- duplicate memory per remote originator (R441) -/
  remoteDups : List (Nat × List Dup)
  current : Option Current
  /-- requests received and not yet taken, in order (R428) -/
  waiting : List Req
  flash : Option FlashOp
  arpCache : List ArpEntry
  arpWait : List ArpWait
  /-- ARP frames to send on the port: kind 1 request, 2 reply, 3 announcement, and the address (R425) -/
  arpSent : List (Nat × Nat)
  /-- level of UCTS_N (R422) -/
  ctsHigh : Bool
  /-- bytes of the SPI device packet clocked out last (R420) -/
  miso : Bytes
  /-- a remote DEVICE_RESET awaits the sending of its reply (R436) -/
  resetDue : Bool
  deriving DecidableEq, Repr

/-! ### The chip -/

/-- Values fixed for each chip (R4, R449) and the one-time-programmable memory (R359). -/
structure Chip where
  part : Nat
  ext : Nat
  /-- the secret fields DEVSEED and STORESEED (R358) -/
  devSeed : Bytes
  storeSeed : Bytes
  /-- none while every fuse of it is unburnt -/
  rootHash : Option Bytes
  /-- the 64 anti-rollback fuses, as bits -/
  fuses : Nat
  trust : Nat
  dbgClosed : Bool
  rootLock : Bool
  deriving DecidableEq, Repr

/-- An empty queue (R399). -/
def Queue.empty : Queue := { rd := 0, entries := [], opened := none }

/-- No session. -/
def Session.none : Session :=
  { state := 0, challenge := [], keys := [], priv := [], rx := 0, tx := 0, host := 0, used := 0 }

/-- A host port after a port reset (R432). -/
def PortState.fresh : PortState :=
  { out := [], dups := [], evSeq := 0, gapPkts := 0, gapBytes := 0, sess := Session.none, room := false, rxBuf := [],
    peerIp := 0, peerPort := 0, evIp := 0, evPort := 0, marks := [] }

/-- Held halves and latches of a source: none. -/
def SrcState.fresh : SrcState :=
  { timeHi := 0, mapHi := [0, 0, 0, 0], ftHi := 0, det1 := 0, detTag := 0, obj1 := 0, heldTime := 0, heldFt := 0,
    heldScan := 0 }

/-- A bank arbiter after reset: requester i at rank i (R408). -/
def Arb.fresh : Arb :=
  { ranks := List.range 12, pend := List.replicate 12 0, raised := List.replicate 12 0, waited := List.replicate 12 0,
    holder := none, hintPos := List.replicate 12 0, hintWait := List.replicate 12 0,
    grants := List.replicate 12 0, waits := List.replicate 12 0, longest := List.replicate 12 0 }

end Sys2Proof.Machine
end

