-- ==== Sys2Proof/Syntax.lean ====
section
/-! DEFINITION. The commands: one constructor per row of spec/opcode_table.json, with the operands that the outside
determines (log entries 1 and 2). -/

namespace Sys2Proof

/-- The commands of the VH7460 (spec/opcode_table.json). -/
inductive Instr where
  /-- SUPPLY_UNDERVOLTAGE: the rail, in the order of PMU_SUPPLY -/
  | supplyUndervoltage (rail : Fin 4)
  /-- SUPPLY_OVERVOLTAGE: the rail, in the order of PMU_SUPPLY -/
  | supplyOvervoltage (rail : Fin 4)
  /-- RESET_N_LOW: RESET_N has been low for 1 µs -/
  | resetNLow
  /-- CLOCK_LOSS: PLL A, B, C, or XO -/
  | clockLoss (pll : Fin 4)
  /-- RTCK_LOSS: no RTCK edge in 128 AON cycles -/
  | rtckLoss
  /-- RESET_RELEASE: levels of PAIR_ID and CMSN_N -/
  | resetRelease (pairId : Bool) (cmsnN : Bool)
  /-- IMAGE_CHECK_DONE: the slot and what the ROM found there -/
  | imageCheckDone (slot : Fin 2) (r : ImageResult)
  /-- MODE_TRANSITION_END: the transition in progress completes -/
  | modeTransitionEnd
  /-- WATCHDOG_EXPIRY -/
  | watchdogExpiry (unused : Unit)
  /-- THERM_SAFEHOLD: junction temperature, signed, 0.25 °C -/
  | thermSafehold (tj : BitVec 12)
  /-- THERMAL_SHUTDOWN: junction temperature -/
  | thermalShutdown (tj : BitVec 12)
  /-- THERMAL_SHUTDOWN_END: junction temperature -/
  | thermalShutdownEnd (tj : BitVec 12)
  /-- THERMAL_CAP_SET: junction temperature -/
  | thermalCapSet (tj : BitVec 12)
  /-- THERMAL_CAP_CLEAR: junction temperature -/
  | thermalCapClear (tj : BitVec 12)
  /-- ROOST_WAKE: HWAKE_N low (none) or an edge of a DI, true for falling; whether the flash can be read -/
  | roostWake (di : Option (Fin 16 × Bool)) (readOk : Bool)
  /-- OWN_IN_CHANGE: accepted OWN_IN level, true for asserted; mesh-time ticks since the chip asserted OWN_OUT -/
  | ownInChange (level : Bool) (dt : Nat)
  /-- OWN_CLAIM: OWN_IN has been deasserted for 2 ms -/
  | ownClaim
  /-- GATE_OPEN: 10 µs have passed since OWN_OUT was asserted -/
  | gateOpen
  /-- LCE_STALL_RELEASE: LCE has completed no tick for 1 ms -/
  | lceStallRelease
  /-- PHASE_SLOT_BOUNDARY: the next phase slot begins; the words since the last command that brought any -/
  | phaseSlotBoundary (streams : Streams)
  /-- LEAVE_WAIT_EXPIRY: the requester whose WAITMAX has passed -/
  | leaveWaitExpiry (req : Fin 11)
  /-- CROSSING_CANDIDATE: a confirmed candidate and its timestamp -/
  | crossingCandidate (port : Fin 4) (ts : MeshTime)
  /-- CROSSING_MISS: a predicted crossing passed without an accepted candidate -/
  | crossingMiss (port : Fin 4)
  /-- SUPERFRAME_BOUNDARY: a superframe boundary falls -/
  | superframeBoundary
  /-- MESH_SECOND_CROSSING: mesh time crosses a multiple of 122,880,000 -/
  | meshSecondCrossing
  /-- TIMESET_ARM: REG_WRITE of TBU_TIMESET_HI; parameters are the value -/
  | timesetArm (r : HostReq)
  /-- HELD_HALF_WRITE: REG_WRITE of TBU_TIMESET_LO, MRT_FTDATALO or MFE_SCANDATA0 -/
  | heldHalfWrite (which : Fin 3) (r : HostReq)
  /-- LATCHING_READ: REG_READ of TBU_TIME_LO, LPHY_MAPDATALO0–3, MRT_FTDATALO, DCH_DETVAL0 or LCE_OBJSTAT0 -/
  | latchingRead (which : Fin 8) (r : HostReq)
  /-- REEPOCH_WRITE: REG_WRITE of TBU_REEPOCH -/
  | reepochWrite (r : HostReq)
  /-- SYNC_IN_EDGE: edge timestamp; at least 1 µs of low level preceded it -/
  | syncInEdge (ts : MeshTime) (lowOk : Bool)
  /-- VLD_FAULT: VLD in mV, at 7.6 V or less or at 18.5 V or more -/
  | vldFault (mv : BitVec 15)
  /-- VLD_FAULT_CLEAR: VLD has been inside 7.9–18.2 V for 1 ms -/
  | vldFaultClear (mv : BitVec 15)
  /-- CURRENT_LIMIT: the driver current reached ILIM -/
  | currentLimit (port : Fin 4)
  /-- PREAMBLE_DETECT: the samples heard, and the access slot at whose start SFM armed the search -/
  | preambleDetect (port : Fin 4) (run : RxRun)
  /-- FRAME_TX_START: access slot at which the send allocation begins; VLD in mV -/
  | frameTxStart (port : Fin 4) (slot : Fin 128) (vld : BitVec 15)
  /-- FRAME_TX_END: the last symbol ends; what its symbols gave ECHO -/
  | frameTxEnd (port : Fin 4) (own : List TxWin)
  /-- ACK_TAIL_TX: position A − 2 of the accepted frame's allocation begins; VLD in mV -/
  | ackTailTx (port : Fin 4) (vld : BitVec 15)
  /-- ACK_TAIL_RX: the FFT windows of the two ack-tail positions -/
  | ackTailRx (port : Fin 4) (first second : List RxSample)
  /-- BEACON_TX: the beacon slot begins -/
  | beaconTx (port : Fin 5) (vld : BitVec 15)
  /-- RANDOM_ACCESS_TX: the picked random-access allocation begins -/
  | randomAccessTx (port : Fin 5) (vld : BitVec 15)
  /-- RANDOM_ACCESS_BACKOFF_END: a backoff has run out -/
  | randomAccessBackoffEnd (port : Fin 5)
  /-- LINE_FRAME_RX: a received line frame -/
  | lineFrameRx (port : Fin 4) (rx : LineRx)
  /-- RADIO_FRAME_RX: what the radio hears -/
  | radioFrameRx (rx : RadioRx)
  /-- RADIO_FRAME_TX_START: access slot at which the radio send allocation begins -/
  | radioFrameTxStart (slot : Fin 128)
  /-- RADIO_ACK_TX: the ack instant of the accepted radio frame -/
  | radioAckTx
  /-- RADIO_ACK_RX: what the radio hears about the ack window, no signal included -/
  | radioAckRx (air : RadioAir)
  /-- REPORT_RX: an accepted REPORT -/
  | reportRx (ctx : BitVec 12) (elem : Bytes)
  /-- PROPOSE_RX: an accepted PROPOSE -/
  | proposeRx (ctx : BitVec 12) (elem : Bytes)
  /-- SWEEP_GO: REG_WRITE of LPHY_SWEEPn -/
  | sweepGo (port : Fin 4) (r : HostReq)
  /-- SWEEP_ABORT: REG_WRITE of LPHY_SWEEPn with ABORT -/
  | sweepAbort (port : Fin 4) (r : HostReq)
  /-- SWEEP_POINT_DONE: the point's phase slot, and from an instant on receive samples and, at the same instants, the sensed current in µA -/
  | sweepPointDone (port : Fin 4) (p : Fin 16) (from_ : MeshTime) (v : List RxSample) (i : List (BitVec 32))
  /-- SLOT_SWAP_REQUEST: REG_WRITE of SFM_SLOTCTL -/
  | slotSwapRequest (r : HostReq)
  /-- ALLOC_RX: an accepted ALLOC -/
  | allocRx (ctx : BitVec 12) (body : Bytes)
  /-- POLL_RX: an accepted POLL -/
  | pollRx (ctx : BitVec 12) (body : Bytes)
  /-- CARRIER_RX: an accepted CARRIER and its MAPX element -/
  | carrierRx (ctx : BitVec 12) (elem : Bytes)
  /-- DELAY_EXCHANGE_DUE: the DELAY exchange with the time parent is due -/
  | delayExchangeDue (ctx : BitVec 12)
  /-- DELAY_REQ_RX: an accepted DELAY_REQ and its reference instant -/
  | delayReqRx (ctx : BitVec 12) (t2 : MeshTime)
  /-- DELAY_RESP_RX: an accepted DELAY_RESP and its reference instant -/
  | delayRespRx (ctx : BitVec 12) (body : Bytes) (t4 : MeshTime)
  /-- DELAY_RESP_TIMEOUT: four superframes have passed since the DELAY_REQ -/
  | delayRespTimeout (ctx : BitVec 12)
  /-- BEACON_MISS: a due parent beacon was not accepted by the end of its span -/
  | beaconMiss
  /-- RF_REACQ_END: two superframes of re-acquisition have passed -/
  | rfReacqEnd
  /-- ORPHAN_SEARCH_END: an ORPHAN search ends -/
  | orphanSearchEnd
  /-- UPSTREAM_LOST_END: eight superframes of UPSTREAM_LOST have passed -/
  | upstreamLostEnd
  /-- ROOST_WAKE_WINDOW: the receive path is powered for the parent's beacon -/
  | roostWakeWindow
  /-- ROOST_SLEEP: the last allocation of the wake ends -/
  | roostSleep
  /-- MRT_PACKET_HANDLE: the queue whose front packet MRT takes -/
  | mrtPacketHandle (q : Fin 16) (unused1 unused2 : Unit)
  /-- OPERATOR_SIG_VERIFIED: the held class, PULUAC-REMOTE or LCE-COMMAND -/
  | operatorSigVerified (remote : Bool) (unused : Unit)
  /-- ADVERT_RX: an accepted ADVERT (from its mesh header) -/
  | advertRx (ctx : BitVec 12) (body : Bytes)
  /-- RREQ_RX: an accepted RREQ -/
  | rreqRx (ctx : BitVec 12) (body : Bytes)
  /-- RREP_RX: an accepted RREP -/
  | rrepRx (ctx : BitVec 12) (body : Bytes)
  /-- RERR_RX: an accepted RERR -/
  | rerrRx (ctx : BitVec 12) (body : Bytes)
  /-- ADVERT_PERIODIC: ADV_PERIOD superframes have passed -/
  | advertPeriodic
  /-- ROUTE_AGER_VISIT: the entry the ager visits -/
  | routeAgerVisit (dest : BitVec 16)
  /-- CONTEXT_AGER_VISIT: the context the ager visits -/
  | contextAgerVisit (ctx : BitVec 12)
  /-- RREQ_GO: REG_WRITE of MRT_RREQ -/
  | rreqGo (r : HostReq)
  /-- RREQ_TIMEOUT: 4 × LIMIT superframes have passed -/
  | rreqTimeout (target : BitVec 16)
  /-- FWD_ENTRY_COMMIT: REG_WRITE of MRT_FTDATAHI -/
  | fwdEntryCommit (r : HostReq)
  /-- JOIN_SEARCH_END: the joiner's search ends -/
  | joinSearchEnd
  /-- JOIN_REQ_RX: an accepted JOIN_REQ -/
  | joinReqRx (port : Fin 5) (src : BitVec 16) (body : Bytes)
  /-- JOIN_OFFER_RX: an accepted JOIN_OFFER -/
  | joinOfferRx (port : Fin 5) (src : BitVec 16) (body : Bytes)
  /-- JOIN_PROOF_RX: an accepted JOIN_PROOF segment -/
  | joinProofRx (ctx : BitVec 12) (body : Bytes) (unused1 unused2 : Unit)
  /-- PARENT_PROOF_RX: an accepted PARENT_PROOF segment -/
  | parentProofRx (ctx : BitVec 12) (body : Bytes) (unused1 unused2 : Unit)
  /-- ADDR_REQ_RX: an ADDR_REQ delivered to the root -/
  | addrReqRx (body : Bytes)
  /-- ADDR_GRANT_RX: an ADDR_GRANT delivered to the parent -/
  | addrGrantRx (body : Bytes)
  /-- JOIN_ACCEPT_RX: an accepted JOIN_ACCEPT -/
  | joinAcceptRx (ctx : BitVec 12) (body : Bytes)
  /-- JOIN_DENY_RX: an accepted JOIN_DENY -/
  | joinDenyRx (port : Fin 5) (src : BitVec 16) (body : Bytes)
  /-- JOIN_OFFER_TIMEOUT: no JOIN_OFFER within 4 superframes -/
  | joinOfferTimeout
  /-- JOIN_LIFE_EXPIRY: JOIN_LIFE superframes after EFFECT at the parent -/
  | joinLifeExpiry (ctx : BitVec 12)
  /-- JOIN_ACCEPT_TIMEOUT: no JOIN_ACCEPT within JOIN_LIFE superframes of EFFECT -/
  | joinAcceptTimeout
  /-- MODULATOR_OVERLOAD: 16 consecutive flagged samples of modulator M0–M12 -/
  | modulatorOverload (m : Fin 13)
  /-- MODULATOR_RESET_END: the 8 µs reset of the modulator ends -/
  | modulatorResetEnd (m : Fin 13)
  /-- PLL_M_UNLOCK: PLL M loses lock -/
  | pllMUnlock
  /-- PLL_M_RELOCK: PLL M locks again -/
  | pllMRelock
  /-- SCAN_GO: REG_WRITE of MFE_SCANCTL with GO -/
  | scanGo (r : HostReq)
  /-- SCAN_STOP: REG_WRITE of MFE_SCANCTL with STOP -/
  | scanStop (r : HostReq)
  /-- SCAN_VISIT_END: the DWELL-th sample ends the visit -/
  | scanVisitEnd
  /-- SCAN_ENTRY_COMMIT: REG_WRITE of MFE_SCANDATA1 -/
  | scanEntryCommit (r : HostReq)
  /-- SETTLE_COUNT_END: the channel's settle count ends -/
  | settleCountEnd (ch : Fin 64)
  /-- EXCITATION_WRITE: REG_WRITE of MFE_EXC, MFE_EXCFREQ or MFE_IDAC -/
  | excitationWrite (which : Fin 3) (r : HostReq)
  /-- XPCFG_WRITE: REG_WRITE of MFE_XPCFG -/
  | xpcfgWrite (r : HostReq)
  /-- TIA_RANGE_CHANGE: the stage; the auxiliary converter's words from an instant on, and which of them, by place, carry the overload flag and SAT; whether the stage is saturated now; the instant -/
  | tiaRangeChange (stage : Fin 2) (from_ : MeshTime) (words : List (BitVec 24)) (ovl sat : List Nat) (satNow : Bool) (till : MeshTime)
  /-- GAIN_PATH_SWITCH: the current channel I0–I3, and the words of the converters since the last command that brought any -/
  | gainPathSwitch (n : Fin 4) (streams : Streams)
  /-- DETECTOR_RESULT: the slot, the words from an instant on of its grid channel and of the auxiliary converter, and the instant of the result -/
  | detectorResult (det : Fin 64) (from_ : MeshTime) (words : List GridWord) (aux : List ConvWord) (till : MeshTime)
  /-- PHASOR_REPORT: the words since the last command that brought any, of voltage channels and of current channels -/
  | phasorReport (volts currents : List GridRun)
  /-- BASE_INTERVAL_END: the words since the last command that brought any -/
  | baseIntervalEnd (streams : Streams)
  /-- TEN_MINUTE_TICK: a 10-minute tick falls -/
  | tenMinuteTick
  /-- PQ_DIP_SWELL_EDGE: the words from an instant on of a voltage channel and of the auxiliary converter -/
  | pqDipSwellEdge (ch : Fin 4) (from_ : MeshTime) (words : List GridWord) (aux : List ConvWord)
  /-- SUPRA_WINDOW_END: the words of a grid channel from an instant on -/
  | supraWindowEnd (ch : Fin 9) (from_ : MeshTime) (words : List GridWord)
  /-- GALLERY_ARM: REG_WRITE of DCH_GALCTL with ARM -/
  | galleryArm (r : HostReq)
  /-- GALLERY_TRIGGER_WRITE: REG_WRITE of DCH_GALCTL with TRIG -/
  | galleryTriggerWrite (r : HostReq)
  /-- GALLERY_ABORT: REG_WRITE of DCH_GALCTL with ABORT; parameters are the value -/
  | galleryAbort (r : HostReq)
  /-- GALLERY_DONE: the words since the last command that brought any, with which every segment holds R_s records -/
  | galleryDone (streams : Streams)
  /-- LIN_LOAD: REG_WRITE of DCH_LINSET with LOAD -/
  | linLoad (r : HostReq)
  /-- LIN_COMMIT: REG_WRITE of DCH_LINSET with COMMIT -/
  | linCommit (r : HostReq)
  /-- LIN_COMMIT_COMPLETE: the fabric write of the set ends -/
  | linCommitComplete
  /-- CONTROL_TICK: the next control tick runs -/
  | controlTick
  /-- LEASE_EXPIRY: the lock -/
  | leaseExpiry (l : Fin 32)
  /-- RULE_HOLD_EXPIRY: the rule -/
  | ruleHoldExpiry (ix : Fin 256)
  /-- QTIME_EXPIRY: the rule -/
  | qtimeExpiry (ix : Fin 256)
  /-- SEQUENCE_WAIT_EXPIRY: the sequence -/
  | sequenceWaitExpiry (k : Fin 64)
  /-- WAITCOND_TIMEOUT: the sequence -/
  | waitcondTimeout (k : Fin 64)
  /-- SEQUENCE_MAXTIME: the sequence -/
  | sequenceMaxtime (k : Fin 64)
  /-- WAITER_TIMEOUT: the lock -/
  | waiterTimeout (l : Fin 32)
  /-- PULSE_END: the actuator -/
  | pulseEnd (ix : Fin 32)
  /-- BISTABLE_PULSE_END: the actuator -/
  | bistablePulseEnd (ix : Fin 32)
  /-- INTERLOCK_DEAD_EXPIRY: the actuator whose value is pending -/
  | interlockDeadExpiry (ix : Fin 32)
  /-- DI_LEVEL_ACCEPT: the pin and the level accepted -/
  | diLevelAccept (di : Fin 16) (level : Bool)
  /-- LCE_COMMAND_RX: originator, privilege and body of the packet -/
  | lceCommandRx (orig : BitVec 16) (priv : Bool) (body : Bytes)
  /-- LCE_ACQUIRE: requester, lock, lease and wait in ms -/
  | lceAcquire (by_ : LceBy) (l : BitVec 8) (lease : BitVec 16) (wait : BitVec 16)
  /-- LCE_RELEASE: requester and lock -/
  | lceRelease (by_ : LceBy) (l : BitVec 8)
  /-- LCE_SET: requester, actuator and value -/
  | lceSet (by_ : LceBy) (ix : BitVec 8) (v : BitVec 16)
  /-- LCE_START: requester and sequence -/
  | lceStart (by_ : LceBy) (k : BitVec 8)
  /-- LCE_ABORT: requester and sequence -/
  | lceAbort (by_ : LceBy) (k : BitVec 8)
  /-- LCE_TRIGGER: requester and code -/
  | lceTrigger (by_ : LceBy) (code : BitVec 8)
  /-- LCE_TABLE_LOAD: REG_WRITE of LCE_TBLWIN with LOAD -/
  | lceTableLoad (r : HostReq)
  /-- LCE_TABLE_COMMIT: REG_WRITE of LCE_TBLWIN with COMMIT -/
  | lceTableCommit (r : HostReq)
  /-- TEST_OUTPUT_WRITE: REG_WRITE of LCE_TESTDO, LCE_TESTAO0 or LCE_TESTAO1 -/
  | testOutputWrite (which : Fin 3) (r : HostReq)
  /-- HEARTBEAT_TX: 500 µs have passed on the chip's own XO -/
  | heartbeatTx
  /-- HEARTBEAT_RX: what the lanes carried when a heartbeat arrived -/
  | heartbeatRx (rx : ErfRx) (unused : Unit)
  /-- PEER_DEAD: the miss count reaches DEAD_COUNT -/
  | peerDead
  /-- ERF_FRAME_TX: the link is free for a record or a chunk -/
  | erfFrameTx
  /-- MIRROR_RECORD_RX: what the lanes carried when a mirror record frame arrived -/
  | mirrorRecordRx (rx : ErfRx) (unused1 unused2 : Unit)
  /-- COPY_CHUNK_RX: what the lanes carried when a copy chunk arrived -/
  | copyChunkRx (rx : ErfRx) (unused1 unused2 unused3 : Unit)
  /-- ACKSEQ_STALL: ACKSEQ has not advanced for DEAD_COUNT intervals -/
  | ackseqStall
  /-- RESYNC_WRITE: REG_WRITE of ERF_CTL with RESYNC; parameters are the value -/
  | resyncWrite (r : HostReq)
  /-- PROMOTE_WRITE: REG_WRITE of ERF_CTL with PROMOTE; parameters are the value -/
  | promoteWrite (r : HostReq)
  /-- PAIR_EN_WRITE: REG_WRITE of ERF_CFG; parameters are the value -/
  | pairEnWrite (r : HostReq)
  /-- LANE_SYNC_CHANGE: the code groups by which a receive lane gains or loses sync -/
  | laneSyncChange (lane : Fin 2) (groups : List (BitVec 10))
  /-- EPOCH_RECORD: the flash programming of the epoch ends -/
  | epochRecord
  /-- REKEY_REQ_RX: an accepted REKEY_REQ -/
  | rekeyReqRx (ctx : BitVec 12) (body : Bytes)
  /-- REKEY_RESP_RX: an accepted REKEY_RESP -/
  | rekeyRespRx (ctx : BitVec 12) (body : Bytes)
  /-- REKEY_RETRY: sixteen superframes without REKEY_RESP -/
  | rekeyRetry (ctx : BitVec 12)
  /-- GKEY_RX: an accepted GKEY -/
  | gkeyRx (ctx : BitVec 12) (body : Bytes)
  /-- TRNG_HEALTH_FAIL: a health test fails -/
  | trngHealthFail (unused : Unit)
  /-- TRNG_READY: 1,024 samples in a row have passed -/
  | trngReady
  /-- SESSION_IDLE_EXPIRY: SESSIDLE seconds without an authenticated packet -/
  | sessionIdleExpiry (port : HostPort)
  /-- SCRUB_READ: bits of the stored word that are wrong; whether the flash can be read, should an image be loaded again -/
  | scrubRead (errs : List (Fin 275)) (readOk : Bool)
  /-- ECC_WRITEBACK: the oldest corrected word is written back -/
  | eccWriteback
  /-- HOST_IN_COPY: whether the staged packet is LCE's -/
  | hostInCopy (lce : Bool)
  /-- BANK_REQUEST: the requester raises a burst (words less one) after `dt` cycles -/
  | bankRequest (bank : Fin 16) (req : Fin 12) (words : Fin 8) (dt : Nat)
  /-- BANK_WITHDRAW: the requester withdraws its burst after `dt` cycles -/
  | bankWithdraw (bank : Fin 16) (req : Fin 12) (dt : Nat)
  /-- BURST_COMPLETE: the burst that holds the bank ends -/
  | burstComplete (bank : Fin 16)
  /-- SPI_TRANSACTION: the bytes clocked on HMOSI while HCS_N was low -/
  | spiTransaction (mosi : Bytes) (v : Verdicts)
  /-- UART_BREAK: URXD has been low for 1 ms -/
  | uartBreak
  /-- UART_BYTE_GAP: 10 ms have passed since the last byte -/
  | uartByteGap
  /-- ARP_REQUEST_RX: the address asked for -/
  | arpRequestRx (ip : BitVec 32)
  /-- ARP_RETRY: 200 ms without an ARP reply for this hop -/
  | arpRetry (ip : BitVec 32)
  /-- ARP_CACHE_EXPIRY: 300 s have passed for a cache entry -/
  | arpCacheExpiry
  /-- PORT_BUFFER_ROOM: packets that the port has sent -/
  | portBufferRoom (port : HostPort) (sent : Nat)
  /-- PING: a request that passed step 1 of R427 -/
  | ping (r : HostReq)
  /-- REG_READ: a request that passed step 1 of R427 -/
  | regRead (r : HostReq)
  /-- REG_WRITE: a request that passed step 1 of R427 -/
  | regWrite (r : HostReq)
  /-- EVENT_SUBSCRIBE: a request that passed step 1 of R427 -/
  | eventSubscribe (r : HostReq)
  /-- PORT_RESET: a request that passed step 1 of R427 -/
  | portReset (r : HostReq)
  /-- PORT_CONFIG: a request that passed step 1 of R427 -/
  | portConfig (r : HostReq)
  /-- NET_CONFIG: a request that passed step 1 of R427 -/
  | netConfig (r : HostReq)
  /-- SESSION_OPEN: a request that passed step 1 of R427 -/
  | sessionOpen (r : HostReq)
  /-- SESSION_PROVE: a request that passed step 1 of R427 -/
  | sessionProve (r : HostReq)
  /-- SESSION_CLOSE: a request that passed step 1 of R427 -/
  | sessionClose (r : HostReq)
  /-- MESH_SEND: a request that passed step 1 of R427 -/
  | meshSend (r : HostReq)
  /-- DEVICE_RESET: a request that passed step 1 of R427 -/
  | deviceReset (r : HostReq)
  /-- MODE_SET: a request that passed step 1 of R427 -/
  | modeSet (r : HostReq)
  /-- MAP_READ: a request that passed step 1 of R427 -/
  | mapRead (r : HostReq)
  /-- SWEEP_READ: a request that passed step 1 of R427 -/
  | sweepRead (r : HostReq)
  /-- CONTEXT_READ: a request that passed step 1 of R427 -/
  | contextRead (r : HostReq)
  /-- ADDR_RESERVE: a request that passed step 1 of R427 -/
  | addrReserve (r : HostReq)
  /-- ADDR_RELEASE: a request that passed step 1 of R427 -/
  | addrRelease (r : HostReq)
  /-- LATERAL_OPEN: a request that passed step 1 of R427 -/
  | lateralOpen (r : HostReq)
  /-- FIT: a request that passed step 1 of R427 -/
  | fit (r : HostReq)
  /-- GALLERY_READ: a request that passed step 1 of R427 -/
  | galleryRead (r : HostReq)
  /-- LCE_OPS: a request that passed step 1 of R427 -/
  | lceOps (r : HostReq)
  /-- ATTEST: a request that passed step 1 of R427 -/
  | attest (r : HostReq)
  /-- NODEKEY_GEN: a request that passed step 1 of R427 -/
  | nodekeyGen (r : HostReq)
  /-- CERT_INSTALL: a request that passed step 1 of R427 -/
  | certInstall (r : HostReq)
  /-- KEY_INSTALL: a request that passed step 1 of R427 -/
  | keyInstall (r : HostReq)
  /-- GKEY_SET: a request that passed step 1 of R427 -/
  | gkeySet (r : HostReq)
  /-- REKEY: a request that passed step 1 of R427 -/
  | rekey (r : HostReq)
  /-- OTP_BURN: a request that passed step 1 of R427 -/
  | otpBurn (r : HostReq)
  /-- ROLLBACK_COMMIT: a request that passed step 1 of R427 -/
  | rollbackCommit (r : HostReq)
  /-- FLASH_ERASE: a request that passed step 1 of R427 -/
  | flashErase (r : HostReq)
  /-- FLASH_WRITE: a request that passed step 1 of R427 -/
  | flashWrite (r : HostReq)
  /-- FLASH_READ: a request that passed step 1 of R427 -/
  | flashRead (r : HostReq)
  /-- CONFIG_SAVE: a request that passed step 1 of R427 -/
  | configSave (r : HostReq)
  /-- FLASH_OP_COMPLETE: the flash programming operation ends -/
  | flashOpComplete
  /-- PULUAC_REMOTE_RX: HCP takes the PULUAC-REMOTE packet at the front of HOST-OUT -/
  | puluacRemoteRx (v : Verdicts)
  /-- RESET_STRETCH_START: RESET_N high, rails good, XO running -/
  | resetStretchStart
  /-- JTAG_SYSTEM_RESET: a system reset from JTAG -/
  | jtagSystemReset
  /-- NO_PRIMARY_TIMEOUT: no PRIMARY has been heard since reset -/
  | noPrimaryTimeout
  /-- HOST_PACKET_RX: bytes on the UART, or one packet on SPI or in a datagram -/
  | hostPacketRx (port : HostPort) (bytes : Bytes) (eth : EthMeta) (v : Verdicts)
  /-- ARP_REPLY_RX: an ARP reply -/
  | arpReplyRx (ip : BitVec 32) (mac : BitVec 48)
  /-- UART_CTS_CHANGE: the level of UCTS_N -/
  | uartCtsChange (high : Bool)
  /-- SYMBOL_BOUNDARY: the instant at which a symbol position ends, its receive peak in −0.5 dBFS steps and its samples, and what the
  symbols of an own transmission that ends here gave ECHO -/
  | symbolBoundary (port : Fin 4) (at_ : MeshTime) (peak : BitVec 8) (samples : List RxSample) (own : List TxWin)
  /-- RADIO_FRAME_TX_END: the last FCS bit of the radio frame ends -/
  | radioFrameTxEnd
  deriving DecidableEq, Repr

end Sys2Proof
end

