-- ==== Sys2Proof/WellFormed.lean ====
section
/-! DEFINITION. Well-formed commands: the operands lie in the ranges that the spec gives what they describe.  `exec` has a
meaning for every command, well-formed or not. -/

namespace Sys2Proof

/-- A host request (R417): PLEN is 0–4,096, and an authenticated one carries a MIC of 8 bytes. -/
def reqWf (r : HostReq) : Bool := decide (r.params.length ≤ 4096) && (!r.auth || r.mic.length == 8)

/-- An FFT window of 2,048 samples (R97). -/
def windowWf (w : List RxSample) : Bool := decide (w.length = 2048)

/-- What an own symbol gives ECHO (R130): as many current samples as receive samples, one FFT window. -/
def txWinWf (w : TxWin) : Bool := windowWf w.v && decide (w.i.length = 2048)

/-- A received line frame (R108, R123): whole FFT windows. -/
def lineRxWf (r : LineRx) : Bool := r.syms.all windowWf

/-- A received radio frame (R220, R221): something is on the air. -/
def radioRxWf (r : RadioRx) : Bool := !r.air.sigs.isEmpty

/-- Words of grid channels (R236): no channel stands twice. -/
def gridWf (runs : List GridRun) : Bool := decide ((runs.map (·.ch)).Nodup)

/-- A well-formed command. -/
def Instr.wf (i : Instr) : Bool :=
  match i with
  | .supplyUndervoltage _ => true
  | .supplyOvervoltage _ => true
  | .resetNLow => true
  | .clockLoss _ => true
  | .rtckLoss => true
  | .resetRelease _ _ => true
  | .imageCheckDone _ r => decide (r.took ≤ 2 ^ 32)
  | .modeTransitionEnd => true
  | .watchdogExpiry _ => true
  | .thermSafehold _ => true
  | .thermalShutdown _ => true
  | .thermalShutdownEnd _ => true
  | .thermalCapSet _ => true
  | .thermalCapClear _ => true
  | .roostWake _ _ => true
  | .ownInChange _ _ => true
  | .ownClaim => true
  | .gateOpen => true
  | .lceStallRelease => true
  | .phaseSlotBoundary w => gridWf w.grid
  | .leaveWaitExpiry _ => true
  | .crossingCandidate _ _ => true
  | .crossingMiss _ => true
  | .superframeBoundary => true
  | .meshSecondCrossing => true
  | .timesetArm r => reqWf r
  | .heldHalfWrite _ r => reqWf r
  | .latchingRead _ r => reqWf r
  | .reepochWrite r => reqWf r
  | .syncInEdge _ _ => true
  | .vldFault _ => true
  | .vldFaultClear _ => true
  | .currentLimit _ => true
  | .preambleDetect _ x => decide (4608 ≤ x.samples.length)
  | .frameTxStart _ _ _ => true
  | .frameTxEnd _ own => own.all txWinWf
  | .ackTailTx _ _ => true
  | .ackTailRx _ a b => windowWf a && windowWf b
  | .beaconTx _ _ => true
  | .randomAccessTx _ _ => true
  | .randomAccessBackoffEnd _ => true
  | .lineFrameRx _ rx => lineRxWf rx
  | .radioFrameRx rx => radioRxWf rx
  | .radioFrameTxStart _ => true
  | .radioAckTx => true
  | .radioAckRx _ => true
  | .reportRx _ elem => decide (elem.length ≤ 1280)
  | .proposeRx _ elem => decide (elem.length ≤ 1280)
  | .sweepGo _ r => reqWf r
  | .sweepAbort _ r => reqWf r
  | .sweepPointDone _ _ _ v i => decide (v.length = i.length)
  | .slotSwapRequest r => reqWf r
  | .allocRx _ body => decide (body.length ≤ 1280)
  | .pollRx _ body => decide (body.length ≤ 1280)
  | .carrierRx _ elem => decide (elem.length ≤ 1280)
  | .delayExchangeDue _ => true
  | .delayReqRx _ _ => true
  | .delayRespRx _ body _ => decide (body.length ≤ 1280)
  | .delayRespTimeout _ => true
  | .beaconMiss => true
  | .rfReacqEnd => true
  | .orphanSearchEnd => true
  | .upstreamLostEnd => true
  | .roostWakeWindow => true
  | .roostSleep => true
  | .mrtPacketHandle _ _ _ => true
  | .operatorSigVerified _ _ => true
  | .advertRx _ body => decide (body.length ≤ 1280)
  | .rreqRx _ body => decide (body.length ≤ 1280)
  | .rrepRx _ body => decide (body.length ≤ 1280)
  | .rerrRx _ body => decide (body.length ≤ 1280)
  | .advertPeriodic => true
  | .routeAgerVisit _ => true
  | .contextAgerVisit _ => true
  | .rreqGo r => reqWf r
  | .rreqTimeout _ => true
  | .fwdEntryCommit r => reqWf r
  | .joinSearchEnd => true
  | .joinReqRx _ _ body => decide (body.length ≤ 1280)
  | .joinOfferRx _ _ body => decide (body.length ≤ 1280)
  | .joinProofRx _ body _ _ => decide (body.length ≤ 1280)
  | .parentProofRx _ body _ _ => decide (body.length ≤ 1280)
  | .addrReqRx body => decide (body.length ≤ 1280)
  | .addrGrantRx body => decide (body.length ≤ 1280)
  | .joinAcceptRx _ body => decide (body.length ≤ 1280)
  | .joinDenyRx _ _ body => decide (body.length ≤ 1280)
  | .joinOfferTimeout => true
  | .joinLifeExpiry _ => true
  | .joinAcceptTimeout => true
  | .modulatorOverload _ => true
  | .modulatorResetEnd _ => true
  | .pllMUnlock => true
  | .pllMRelock => true
  | .scanGo r => reqWf r
  | .scanStop r => reqWf r
  | .scanVisitEnd => true
  | .scanEntryCommit r => reqWf r
  | .settleCountEnd _ => true
  | .excitationWrite _ r => reqWf r
  | .xpcfgWrite r => reqWf r
  | .tiaRangeChange _ _ words ovl sat _ _ => ovl.all (· < words.length) && sat.all (· < words.length)
  | .gainPathSwitch n w => gridWf w.grid && w.grid.any (fun r => r.ch.val == 4 + n.val && !r.words.isEmpty)
  | .detectorResult _ from_ _ _ till => decide (from_.toNat ≤ till.toNat)
  | .phasorReport v i => gridWf (v ++ i) && v.all (·.ch.val < 4) && i.all (4 ≤ ·.ch.val)
  | .baseIntervalEnd w => gridWf w.grid
  | .tenMinuteTick => true
  | .pqDipSwellEdge _ _ words _ => !words.isEmpty
  | .supraWindowEnd _ _ words => !words.isEmpty
  | .galleryArm r => reqWf r
  | .galleryTriggerWrite r => reqWf r
  | .galleryAbort r => reqWf r
  | .galleryDone w => gridWf w.grid
  | .linLoad r => reqWf r
  | .linCommit r => reqWf r
  | .linCommitComplete => true
  | .controlTick => true
  | .leaseExpiry _ => true
  | .ruleHoldExpiry _ => true
  | .qtimeExpiry _ => true
  | .sequenceWaitExpiry _ => true
  | .waitcondTimeout _ => true
  | .sequenceMaxtime _ => true
  | .waiterTimeout _ => true
  | .pulseEnd _ => true
  | .bistablePulseEnd _ => true
  | .interlockDeadExpiry _ => true
  | .diLevelAccept _ _ => true
  | .lceCommandRx _ _ body => decide (body.length ≤ 1280)
  | .lceAcquire _ _ _ _ => true
  | .lceRelease _ _ => true
  | .lceSet _ _ _ => true
  | .lceStart _ _ => true
  | .lceAbort _ _ => true
  | .lceTrigger _ _ => true
  | .lceTableLoad r => reqWf r
  | .lceTableCommit r => reqWf r
  | .testOutputWrite _ r => reqWf r
  | .heartbeatTx => true
  | .heartbeatRx _ _ => true
  | .peerDead => true
  | .erfFrameTx => true
  | .mirrorRecordRx _ _ _ => true
  | .copyChunkRx _ _ _ _ => true
  | .ackseqStall => true
  | .resyncWrite r => reqWf r
  | .promoteWrite r => reqWf r
  | .pairEnWrite r => reqWf r
  | .laneSyncChange _ _ => true
  | .epochRecord => true
  | .rekeyReqRx _ body => decide (body.length ≤ 1280)
  | .rekeyRespRx _ body => decide (body.length ≤ 1280)
  | .rekeyRetry _ => true
  | .gkeyRx _ body => decide (body.length ≤ 1280)
  | .trngHealthFail _ => true
  | .trngReady => true
  | .sessionIdleExpiry _ => true
  | .scrubRead errs _ => decide (errs.Nodup)
  | .eccWriteback => true
  | .hostInCopy _ => true
  | .bankRequest _ _ _ _ => true
  | .bankWithdraw _ _ _ => true
  | .burstComplete _ => true
  | .spiTransaction _ _ => true
  | .uartBreak => true
  | .uartByteGap => true
  | .arpRequestRx _ => true
  | .arpRetry _ => true
  | .arpCacheExpiry => true
  | .portBufferRoom _ sent => decide (1 ≤ sent)
  | .ping r => reqWf r
  | .regRead r => reqWf r
  | .regWrite r => reqWf r
  | .eventSubscribe r => reqWf r
  | .portReset r => reqWf r
  | .portConfig r => reqWf r
  | .netConfig r => reqWf r
  | .sessionOpen r => reqWf r
  | .sessionProve r => reqWf r
  | .sessionClose r => reqWf r
  | .meshSend r => reqWf r
  | .deviceReset r => reqWf r
  | .modeSet r => reqWf r
  | .mapRead r => reqWf r
  | .sweepRead r => reqWf r
  | .contextRead r => reqWf r
  | .addrReserve r => reqWf r
  | .addrRelease r => reqWf r
  | .lateralOpen r => reqWf r
  | .fit r => reqWf r
  | .galleryRead r => reqWf r
  | .lceOps r => reqWf r
  | .attest r => reqWf r
  | .nodekeyGen r => reqWf r
  | .certInstall r => reqWf r
  | .keyInstall r => reqWf r
  | .gkeySet r => reqWf r
  | .rekey r => reqWf r
  | .otpBurn r => reqWf r
  | .rollbackCommit r => reqWf r
  | .flashErase r => reqWf r
  | .flashWrite r => reqWf r
  | .flashRead r => reqWf r
  | .configSave r => reqWf r
  | .flashOpComplete => true
  | .puluacRemoteRx _ => true
  | .resetStretchStart => true
  | .jtagSystemReset => true
  | .noPrimaryTimeout => true
  | .hostPacketRx _ _ _ _ => true
  | .arpReplyRx _ _ => true
  | .uartCtsChange _ => true
  | .symbolBoundary _ _ _ x own => decide (x.length = 2304) && own.all txWinWf
  | .radioFrameTxEnd => true

end Sys2Proof
end

