-- ==== Sys2Proof/Decode.lean ====
section
/-! DEFINITION. The command that a word spells.  spec/opcode_table.json gives no row any bits (every row's fields are empty):
the commands are events of the device, not words that it decodes, so no word spells a command. The packets that carry
requests are parsed where HCP parses them (Sys2Proof/Machine/HcpWire.lean, R417). -/

namespace Sys2Proof

/-- No row of the table gives bits, so no word spells a command. -/
def decodeTableWord (_nbits _w : Nat) : Option Instr := none

end Sys2Proof
end

