-- ==== Sys2Proof/Machine/Bits.lean ====
section
/-! DEFINITION. Byte strings as little-endian numbers (R9), bit fields, signed readings and saturation. -/

namespace Sys2Proof.Machine

/-- The `k` bytes of `n`, least significant first (R9). -/
def leBytes (n : Nat) : Nat → Bytes
  | 0 => []
  | k + 1 => BitVec.ofNat 8 n :: leBytes (n / 256) k

/-- The number a byte string spells, least significant byte first (R9). -/
def leNat : Bytes → Nat
  | [] => 0
  | b :: bs => b.toNat + 256 * leNat bs

/-- The bytes from offset `o`, `n` of them (fewer where the string ends). -/
def slice (b : Bytes) (o n : Nat) : Bytes := (b.drop o).take n

/-- The little-endian number in the `n` bytes at offset `o`. -/
def u (b : Bytes) (o n : Nat) : Nat := leNat (slice b o n)

/-- Bits `[lo + w - 1 : lo]` of a number (R8). -/
def bits (x lo w : Nat) : Nat := x / 2 ^ lo % 2 ^ w

/-- Bit `i` of a number. -/
def bit (x i : Nat) : Bool := x / 2 ^ i % 2 == 1

/-- 1 for true, 0 for false. -/
def b2n (b : Bool) : Nat := if b then 1 else 0

/-- `x` with bit `i` set to `v`. -/
def withBit (x i : Nat) (v : Bool) : Nat :=
  if bit x i = v then x else if v then x + 2 ^ i else x - 2 ^ i

/-- The `w`-bit two's-complement reading of `x`. -/
def signed (x w : Nat) : Int :=
  let y := x % 2 ^ w
  if y < 2 ^ (w - 1) then (y : Int) else (y : Int) - (2 : Int) ^ w

/-- The `w`-bit two's-complement code of `x`, wrapping. -/
def code (x : Int) (w : Nat) : Nat := (x % (2 : Int) ^ w).toNat

/-- `x` held within `lo` and `hi`. -/
def clampI (lo hi x : Int) : Int := if x < lo then lo else if hi < x then hi else x

/-- `x` saturated to a `w`-bit two's-complement number, as its code. -/
def satCode (x : Int) (w : Nat) : Nat :=
  code (clampI (-((2 : Int) ^ (w - 1))) ((2 : Int) ^ (w - 1) - 1) x) w

/-- Rounded half up: `⌊(2a + b) / 2b⌋`. -/
def roundDiv (a : Int) (b : Nat) : Int := (2 * a + b) / (2 * b)

/-- The quotient rounded up; 0 for a zero divisor. -/
def ceilDiv (a b : Nat) : Nat := (a + b - 1) / b

/-- The number whose bits are given, least significant first. -/
def natOfBits : List Bool → Nat
  | [] => 0
  | b :: bs => b2n b + 2 * natOfBits bs

/-- The number of set bits among the lowest `w`. -/
def popCount (x : Nat) : Nat → Nat
  | 0 => 0
  | w + 1 => x % 2 + popCount (x / 2) w

/-- The indices below `w` whose bit is set, ascending. -/
def setBits (x w : Nat) : List Nat := (List.range w).filter (bit x)

/-- The sum of a list. -/
def sumN (l : List Nat) : Nat := l.foldl (· + ·) 0

/-- The first index below `n` that passes the test. -/
def findIdx? (n : Nat) (p : Nat → Bool) : Option Nat := (List.range n).find? p

/-- A list of bytes as wide as asked, zero bytes appended. -/
def padTo (n : Nat) (b : Bytes) : Bytes := b ++ List.replicate (n - b.length) 0

/-! ### CRC-32C (R343, R417) -/

/-- `n` bit steps of reflected CRC-32C. -/
def crc32cStep (c : Nat) : Nat → Nat
  | 0 => c
  | n + 1 => crc32cStep (if c % 2 = 1 then (c / 2) ^^^ 0x82F63B78 else c / 2) n

/-- CRC-32C (R417). -/
def crc32c (b : Bytes) : Nat := (b.foldl (fun c x => crc32cStep (c ^^^ x.toNat) 8) 0xFFFFFFFF) ^^^ 0xFFFFFFFF

end Sys2Proof.Machine
end

