-- ==== Sys2Proof/Machine/Sparse.lean ====
section
/-! DEFINITION. Finite maps from numbers, as lists of pairs with strictly rising keys: register fields, memory cells,
per-context and per-port records.  `cellGet`/`cellSet` keep the canonical form of a memory: no entry equal to the
default. -/

namespace Sys2Proof.Machine

/-- The value listed for key `k`, if any. -/
def assocFind? {α : Type} : List (Nat × α) → Nat → Option α
  | [], _ => none
  | (j, v) :: t, k => if j = k then some v else assocFind? t k

/-- The value listed for key `k`, or the default. -/
def assocGet {α : Type} (d : α) (m : List (Nat × α)) (k : Nat) : α := (assocFind? m k).getD d

/-- The map with `k ↦ v`, keys kept in rising order. -/
def assocSet {α : Type} : List (Nat × α) → Nat → α → List (Nat × α)
  | [], k, v => [(k, v)]
  | (j, w) :: t, k, v =>
    if j < k then (j, w) :: assocSet t k v
    else if j = k then (k, v) :: t
    else (k, v) :: (j, w) :: t

/-- The map without key `k`. -/
def assocErase {α : Type} : List (Nat × α) → Nat → List (Nat × α)
  | [], _ => []
  | (j, w) :: t, k => if j = k then assocErase t k else (j, w) :: assocErase t k

/-- A canonical write: a value equal to the default removes the entry. -/
def cellSet {α : Type} [DecidableEq α] (d : α) (m : List (Nat × α)) (k : Nat) (v : α) : List (Nat × α) :=
  if v = d then assocErase m k else assocSet m k v

/-- Keys strictly rise. -/
def keysRise {α : Type} : List (Nat × α) → Bool
  | [] => true
  | [_] => true
  | (j, _) :: (k, w) :: t => j < k && keysRise ((k, w) :: t)

/-- The canonical form of a memory whose unlisted cells read `d`. -/
def cellsWf {α : Type} [DecidableEq α] (d : Nat → α) (m : List (Nat × α)) : Bool :=
  keysRise m && m.all (fun e => e.2 != d e.1)

/-- Element `i` of a list, or the default. -/
def nth {α : Type} (d : α) (l : List α) (i : Nat) : α := l.getD i d

/-- The first `n` elements of a list, the default where it is shorter: a table of fixed size. -/
def table {α : Type} (n : Nat) (d : α) (l : List α) : List α := (List.range n).map (nth d l)

end Sys2Proof.Machine
end

