-- ==== Sys2Proof/Machine/UnitsLine.lean ====
section
/-! DEFINITION. The state of TBU, LPA, LPHY with ECHO, and SFM beyond their registers. -/

namespace Sys2Proof.Machine

/-! ### TBU -/

/-- States of a port's crossing detector (R58). -/
inductive DetState where
  | search | locked | lost
  deriving DecidableEq, Repr

/-- A port's crossing detector: candidates of the SEARCH in progress, newest first; the last accepted crossing (ticks);
its own prediction and period in 1/16 tick; missed predictions in a row; offset against LP0 last measured (R65). -/
structure Detector where
  st : DetState
  cands : List Nat
  last : Option Nat
  next : Nat
  period : Nat
  miss : Nat
  ofs : Option Int
  deriving DecidableEq, Repr

structure Tbu where
  time : MeshTime
  /-- cycles of the TIME domain since reset, which mesh time follows with its trim and slew (R66) -/
  cycles : Nat
  /-- fractional trim accumulator, 10⁻⁹ tick (R66) -/
  trimAcc : Int
  /-- slew still to be removed, ticks, and its accumulator in 1/2,000 tick (R68) -/
  slew : Int
  slewAcc : Nat
  dets : List Detector
  /-- crossing estimate Z, 1/16 tick (R59); the period P is TBU_MCPERIOD -/
  z : Nat
  /-- reference port; none while TBU holds over with no port as source (R65) -/
  src : Option Nat
  /-- LP0's consecutive accepted crossings in HOLDOVER (R65) -/
  good : Nat
  /-- period at the first transition to LOCKED since reset, 1/16 tick, by which an automatic nominal frequency is selected (R60) -/
  firstPer : Option Nat
  /-- SYMS code decided for the following superframe (R63) -/
  symsNext : Nat
  /-- a superframe boundary that follows the mains has occurred (R62) -/
  started : Bool
  /-- start of the current phase slot, and the superframe boundary, 1/16 tick -/
  slotAt : Nat
  boundAt : Nat
  /-- cycles from the domain reference crossing of Z to that of the superframe boundary (R62) -/
  cyc : Int
  /-- pending shift (R75): amount, superframes left, whether it is a re-epoch (R76) -/
  shift : Int
  countdown : Nat
  reepoch : Bool
  /-- shift decided from SYNC_IN, announced from the next superframe (R74) -/
  nextShift : Int
  /-- a SYNC_IN edge has been measured in this superframe (R74) -/
  edgeTaken : Bool
  /-- mesh-time step armed at the root (R67) -/
  armed : Option MeshTime
  /-- the next time-parent beacon is the first after SEARCH, join or ORPHAN (R68, R72) -/
  fresh : Bool
  /-- time-parent beacons in a row on `tlPort` with d measured (R70) -/
  tlCount : Nat
  tlPort : Nat
  /-- mesh time at the last time-parent beacon, and the boundary it implied with its superframe number (R65, R68) -/
  lastBeacon : Option Nat
  lastImplied : Option (Nat × Nat)
  /-- SYNCOUT_SEL in force (R33) -/
  syncSel : Nat
  /-- rising edge of the last SYNC_OUT pulse (R77) -/
  syncOut : Option Nat
  /-- where the root's first lock puts the boundary that ends the superframe in progress, 1/16 tick (R62) -/
  boundDue : Option Nat
  deriving DecidableEq, Repr

/-! ### LPA and LPHY -/

/-- What a line transmission is. -/
inductive TxKind where
  | data | beacon | access | ack | test
  deriving DecidableEq, Repr

/-- A line frame in flight, or the last one sent and not yet judged (R103–R106, R170). -/
structure LineTx where
  kind : TxKind
  /-- context of the peer; 0xFFFF for a broadcast -/
  ctx : Nat
  hdr : FrameHdr
  payload : Bytes
  /-- lane-map snapshot (R106) -/
  map : Bytes
  /-- positions of the frame (F) and of its allocation (A) (R103) -/
  size : Nat
  alloc : Nat
  /-- first access slot, and the position of the first symbol: 0, or A − 2 for an ack tail (R103) -/
  slot : Nat
  first : Nat
  /-- the symbol being sent, counted from 0 -/
  sym : Nat
  level0 : Nat
  /-- symbols flagged limited (R89) -/
  limited : List Nat
  /-- the frame carries a MAPX element of this type, 0 for none (R142) -/
  mapx : Nat
  /-- all symbols sent; the ack tail is awaited -/
  sent : Bool
  /-- what its leave was asked for -/
  leave : LeaveFor
  deriving DecidableEq, Repr

/-- A phase-impedance map cell (R132): impedance in 10 mΩ (0xFFFF unmeasured) and phase in 0.1°, erasures, noise in 0.25 dB
(0x3FF unmeasured), the stale mark, and the ages of both measurements. -/
structure MapCell where
  zmag : Nat
  zph : Int
  imp : Nat
  noise : Nat
  stale : Bool
  zage : Nat
  nage : Nat
  deriving DecidableEq, Repr

/-- A silent position just past, whose noise enters the map once no preamble is found to have begun in it (R129): its end, its
phase slot, and the noise of each preset lane. -/
structure Quiet where
  end_ : Nat
  p : Nat
  noise : List (Nat × Nat)
  deriving DecidableEq, Repr

/-- A declared preamble (R119, R120): the instant of its first sample, the first access slot of the frame's allocation and their number,
the preset lanes, the metric in 1/256, the tone energies of its two symbols and whether CLIP stood in them, the end of the allocation,
and whether LPHY has stopped demodulating the frame after its header (R123). -/
structure Acq where
  at_ : Nat
  slot : Nat
  len : Nat
  mask : Nat
  metric : Nat
  p0 : List Nat
  p1 : List Nat
  c0 : Bool
  c1 : Bool
  until_ : Nat
  done : Bool
  deriving DecidableEq, Repr

/-- One port of LPA and LPHY beyond its registers. -/
structure LinePort where
  /-- gain code that returns when the gain is no longer forced; none while it is not forced (R93, R94) -/
  agc : Option Nat
  /-- mesh time until which the gain is frozen (R93) -/
  frozenTo : Nat
  /-- the limit has engaged in the symbol being sent (R89) -/
  limitNow : Bool
  /-- a cap fall is due at the next symbol (R90) -/
  capDue : Bool
  /-- a VLD fault arose in the symbol being sent, which is not the last one (R83) -/
  cut : Bool
  /-- the transmission ends after the symbol being sent, as no try (R353) -/
  stop : Bool
  /-- XDRV_ENn (R91) -/
  xdrv : Bool
  /-- driver full scale held for the frame, µV (R86) -/
  vfs : Nat
  /-- interval in which the driver is out of high impedance, ticks, for TXGATE (R95) -/
  drvFrom : Nat
  drvTo : Nat
  tx : Option LineTx
  /-- the preamble declared last, while its frame is received (R119) -/
  acq : Option Acq
  /-- silent positions whose noise is still held back (R129) -/
  quiet : List Quiet
  /-- ack tail due: tail word, and the allocation's first access slot and length (R124, R168) -/
  ack : Option (Nat × Nat × Nat)
  /-- phase-impedance map (R132): an unlisted cell is unmeasured, with both ages at `cellAge` -/
  cells : List (Nat × MapCell)
  cellAge : Nat
  /-- preset and CUSTOM mask in force (R33, R101): code and 128-bit mask -/
  preset : Nat
  mask : Nat
  /-- the send allocation in progress that began with no frame queued for it, 1/16 tick (R149) -/
  unused : Option (Nat × Nat)
  /-- the port drives a sweep point in this phase slot (R148) -/
  sweepOn : Bool
  /-- sweep in progress: bin and phase slots of it still to be measured (R148) -/
  sweepBin : Nat
  sweepLeft : List Nat
  sweepAbort : Bool
  /-- sweep table: bin ↦ points taken: phase slot and complex Z, its parts and their divisor (R130, R148) -/
  sweepTab : List (Nat × List (Nat × Int × Int × Nat))
  deriving DecidableEq, Repr

/-! ### SFM -/

/-- A packet or message that SFM sends by random access (R156, R157). -/
structure AccessTx where
  port : Nat
  /-- context of the peer; 0xFFFF for a broadcast or a node without context -/
  ctx : Nat
  dst : Nat
  bcast : Bool
  /-- FCTL class, SEC flag and body -/
  cls : Nat
  sec : Bool
  body : Bytes
  be : Nat
  tries : Nat
  /-- its number, for its leave -/
  id : Nat
  /-- superframes still to wait (R157) -/
  wait : Nat
  /-- access slot picked in this superframe, if any -/
  slot : Option Nat
  /-- the frame is on the air or waits for its ack -/
  inFlight : Bool
  deriving DecidableEq, Repr

/-- State of the packet that a link has taken (R170). -/
inductive LinkState where
  | ready | leave | sending
  deriving DecidableEq, Repr

/-- SFM's and ECHO's view of one link, beyond its context and link record. -/
structure Link where
  st : LinkState
  /-- the leave point of a later allocation has passed while the packet was being sent (R170) -/
  armed : Bool
  tries : Nat
  /-- LSN-less SFM messages waiting for the link's next send allocation: MAC-CONTROL bodies (R171) -/
  ctl : List Bytes
  /-- pending MAPX elements, empty for none: a REPORT, a PROPOSE (R142); the PROPOSE in force, for a revert (R145); whether
  the pending one must go alone (R147) -/
  report : Bytes
  propose : Bytes
  proposed : Bytes
  mapxAlone : Bool
  /-- the next REPORT or PROPOSE must be FORM 0 (R143, R145) -/
  full : Bool
  /-- MODE of the last frame started (R117) -/
  lastMode : Nat
  /-- sums of starting levels and frames since the last report, and between the last two (R138) -/
  lvlSum : Nat
  lvlCnt : Nat
  prevSum : Nat
  prevCnt : Nat
  /-- superframe in which the sleepy child last polled (R175) -/
  polledAt : Option Nat
  /-- sleepy child's ROOST_PERIOD (R175) -/
  roostPeriod : Nat
  /-- NFLAGS.b of the last beacon accepted from the peer (R158) -/
  beaconB : Option Nat
  /-- DELAY exchange (R172): t1 and the superframe of the request at a child; t2 of a request to answer at a parent -/
  t1 : Option (Nat × Nat)
  t2 : Option Nat
  delayMeasured : Bool
  /-- a rekey, REPORT or PROPOSE has been sent in this superframe -/
  reported : Bool
  /-- the packet that the link has taken is a control message, not a queued packet -/
  ctlTaken : Bool
  /-- the packet that the link has taken is an ADVERT that goes ahead of older packets (R200) -/
  leadTaken : Bool
  /-- the open map in ALT came with a proposal of R144, so that the link is MAPLESS once it is CUR (R146) -/
  altMapless : Bool
  /-- a CARRIER goes ahead of a packet in its tries: the packet's tries, and whether it is a control message (R147) -/
  held : Option (Nat × Bool)
  /-- superframe in which the last exchange of R172 began -/
  delayAt : Option Nat
  /-- type and segments of a key-renewal message received in part (R206, R375) -/
  segs : Nat × List (Nat × Bytes)
  deriving DecidableEq, Repr

/-- Entries held for an ALLOC (R159) of one link: context, the entries to install, EFFECT, parts acked. -/
structure AllocHeld where
  ctx : Nat
  port : Nat
  /-- words in force until EFFECT, and words to install -/
  old : List Nat
  entries : List Nat
  effect : Nat
  acked : List Nat
  parts : Nat
  /-- automatic or host allocations whose acceptance ends a join's provisional allocations (R208) -/
  ends : Bool
  deriving DecidableEq, Repr

/-- ALLOC parts received from a parent (R159). -/
structure AllocRx where
  ctx : Nat
  port : Nat
  effect : Nat
  last : Nat
  got : List (Nat × List Nat)
  deriving DecidableEq, Repr

/-- What a beacon of a neighbour said last (R164, R190). -/
structure Neighbour where
  port : Nat
  addr : Nat
  cost : Nat
  hops : Nat
  b : Nat
  upLost : Bool
  permit : Bool
  epoch : Nat
  /-- its beacons, one a superframe, newest first: superframe, preamble metric or RSSI in 0.5 dB, and whether it was accepted or only
  read in clear (R164, R190) -/
  quality : List (Nat × Int × Bool)
  deriving DecidableEq, Repr

structure Sfm where
  /-- banks of allocation entries: bank, port, entry in one number (bank × 320 + port × 64 + entry) ↦ word (R158) -/
  slots : List (Nat × Nat)
  /-- own beacon group counter, and its KEY event raised (R167) -/
  groupFc : Nat
  /-- entries of the active bank that a deleted context left silent until the next swap (R196) -/
  silent : List Nat
  /-- RETRY_MAX and the beacon-slot indices in force (R33) -/
  retryMax : Nat
  bslots : List Nat
  links : List (Nat × Link)
  access : List AccessTx
  /-- random-access frames so far -/
  accessNo : Nat
  held : List AllocHeld
  allocRx : List AllocRx
  /-- ALLOCs accepted and waiting for EFFECT at the child -/
  allocDue : List AllocRx
  neighbours : List Neighbour
  /-- source addresses heard in the search in progress, or in the last one (R185) -/
  heard : List Nat
  /-- superframe of the parent beacon accepted last, and its reference instant as it was received (R174, R176) -/
  beaconAt : Option (Nat × Nat)
  /-- superframe whose parent beacon has been counted as missed (R176) -/
  missAt : Option Nat
  /-- superframes of UPSTREAM_LOST beacons left; some 0 once they have ended (R178) -/
  upLost : Option Nat
  /-- searching: superframes left of an ORPHAN search (R177) -/
  search : Option Nat
  /-- in ROOST: the node is awake (R174), for superframes of the wake left -/
  awake : Bool
  wakeLeft : Nat
  /-- ROOST_PERIOD in force (R181) -/
  roostNow : Nat
  /-- per-port counter of COMMISSION test frames (R520) -/
  testFc : List Nat
  /-- shift announcement held from the time parent: the countdown relayed (R164) is TBU's -/
  parentUpLost : Bool
  /-- frame counter exhausted and reported: contexts (R167) -/
  exhausted : List Nat
  deriving DecidableEq, Repr

/-- A line port after reset. -/
def LinePort.fresh : LinePort :=
  { agc := none, frozenTo := 0, limitNow := false, capDue := false, cut := false, stop := false, xdrv := false, vfs := 0, drvFrom := 0, drvTo := 0,
    tx := none, acq := none, quiet := [], ack := none, cells := [], cellAge := 0, preset := 0, mask := 2 ^ 128 - 1, unused := none, sweepOn := false,
    sweepBin := 0, sweepLeft := [], sweepAbort := false, sweepTab := [] }

/-- A crossing detector after reset: SEARCH (R58). -/
def Detector.fresh : Detector :=
  { st := .search, cands := [], last := none, next := 0, period := 0, miss := 0, ofs := none }

end Sys2Proof.Machine
end

