-- ==== Sys2Proof/Machine/UnitsMeas.lean ====
section
/-! DEFINITION. The state of MFE and DCH beyond their registers. -/

namespace Sys2Proof.Machine

/-! ### MFE -/

/-- The form of the excitation in force (R252, R256); `degradedOff` is the degraded form of outputs that are not driven. -/
inductive ExcForm where
  | undriven | full | degraded | degradedOff | withheld
  deriving DecidableEq, Repr

/-- A range change decided but not in force: the new code, the instant at which it takes effect, none while it waits for an entry's next
visit, and that entry, for a change decided on the sample that ended one of its visits (R254). -/
structure HeldRange where
  code : Nat
  at_ : Option Nat
  entry : Option Nat
  deriving DecidableEq, Repr

/-- A range change of a transimpedance stage in force from an instant on (R255). -/
structure RangeChange where
  at_ : Nat
  old : Nat
  new : Nat
  deriving DecidableEq, Repr

/-- A visit of the scanner (R246, R247): the entry and its content, its closure, and its last output instant once it has ended. -/
structure Visit where
  entry : Nat
  word : Nat
  close : Nat
  end_ : Option Nat
  deriving DecidableEq, Repr

structure Mfe where
  /-- scan entries 0–47 (R245), 64 bits each -/
  entries : List Nat
  /-- the scanner runs (R244) -/
  scanning : Bool
  /-- an entry has been closed to the converter since the scanner started: MFE_SCANSTAT.ENTRY converts -/
  converting : Bool
  /-- the boundary from which the last channel change runs, and the closure of the entry converting (R246), mesh-time ticks -/
  openAt : Nat
  closeAt : Nat
  form : ExcForm
  /-- E at the last governor refusal, which holds until a write changes E, and whether it was under FAIL (R252) -/
  refused : Option (Nat × Bool)
  /-- magnitudes, number of sine pins and limit in force, 10 µA units (R252) -/
  ia : Nat
  ib : Nat
  sinePins : Nat
  silim : Nat
  /-- range changes decided but not in force, stages 0 and 1 (R254) -/
  tiaHeld : List (Option HeldRange)
  /-- range changes that took effect, newest first, stages 0 and 1 (R255) -/
  tiaLog : List (List RangeChange)
  /-- the stages' last samples, in 2⁻¹⁴⁹ of full scale, and their VALID samples in a row at 0.08 or less (R254) -/
  tiaPrev : List (Option Int)
  tiaLow : List Nat
  /-- modulators in reset, as bits, and the resets, newest first: modulator, from and to (R237) -/
  inReset : Nat
  resets : List (Nat × Nat × Nat)
  /-- the sine's phase accumulator, newest first: an instant, the phase there and the increment from it on (R249) -/
  phases : List (Nat × Nat × Nat)
  /-- the last change of the sine, from which the synchronous demodulator's windows begin (R250, R270) -/
  sineAt : Nat
  /-- visits, newest first -/
  visits : List Visit
  /-- an instant of the modulators' sampling lattice (R236) -/
  lattice : Int
  deriving DecidableEq, Repr

/-! ### DCH -/

/-- A converter's word at its instant. -/
structure Raw where
  at_ : Nat
  w : Int
  ovl : Bool
  sat : Bool
  deriving DecidableEq, Repr

/-- An output sample: its value before and after linearisation, tag, output instant, and whether its path was LOW. -/
structure Out where
  x : Nat
  val : Nat
  tag : Nat
  at_ : Nat
  low : Bool
  deriving DecidableEq, Repr

/-- The path selection of a current channel (R264): the state, LOW or not, and the samples in a row that allow a return. -/
structure PathSel where
  low : Bool
  run : Nat
  deriving DecidableEq, Repr

/-- One channel (R259–R267). -/
structure Chan where
  /-- starts of the settle count, each with its end, newest first: of a current channel its low path's, and those of the high path (R263) -/
  settle : List (Nat × Nat)
  settleHi : List (Nat × Nat)
  path : PathSel
  /-- changes of the configuration, newest first (R267, R293) -/
  confs : List Nat
  /-- output samples so far, newest first -/
  hist : List Out
  deriving DecidableEq, Repr

/-- The PQ tap of a grid channel (R273): its path selection, its samples so far, newest first, and the phasor of the last VALID report
(R268, R274). -/
structure Tap where
  path : PathSel
  hist : List Out
  phasor : Nat × Nat
  deriving DecidableEq, Repr

/-- One detector slot (R270–R272). -/
structure DetSlot where
  val0 : Nat
  val1 : Nat
  tag : Nat
  /-- values of the last VALID result (R268) -/
  valid : Option (Nat × Nat)
  /-- the last output instant of the windows that are over, and the end of the last RMS window that follows D, 1/16 tick -/
  doneAt : Nat
  edge : Option Nat
  /-- results since the last report (R272) -/
  since : Nat
  /-- ENVELOPE: e, and VALID samples still needed after a run of non-VALID ones (R269) -/
  env : Nat
  envWait : Nat
  deriving DecidableEq, Repr

/-- Values of one power-quality interval (R277): RMS, G_1–G_50, C_1–C_49, THDG, each with its tag, and whether the
interval is FLAGGED. -/
structure PqVals where
  vals : List (Nat × Nat)
  flagged : Bool
  /-- the interval contains a move of AGGOFS, or a step of mesh time (R281, R282) -/
  adjust : Bool
  tstep : Bool
  deriving DecidableEq, Repr

/-- A dip, swell or interruption in progress (R278): channel, kind, start, and the extreme value so far. -/
structure PqEvent where
  ch : Nat
  kind : Nat
  from_ : Nat
  extreme : Nat
  deriving DecidableEq, Repr

/-- The intervals longer than the base interval that are in progress (R276): start of each, and how many constituents have ended. -/
structure Spans where
  shortAt : Nat
  shortN : Nat
  tenAt : Nat
  tenN : Nat
  twoAt : Nat
  twoN : Nat
  deriving DecidableEq, Repr

/-- Aggregation in progress for one channel (R276): constituents of the 150/180-cycle, 10-minute and 2-hour intervals. -/
structure Agg where
  short : List PqVals
  ten : List PqVals
  two : List PqVals
  /-- last VALID values of the levels 1–3 and of the base interval, each value by its place (R268) -/
  lastValid : List (List Nat)
  deriving DecidableEq, Repr

/-- A capture (R284–R286): the instant of ARM and what ARM fixed: channels, their DEC_EXP, DECIM and PRE; the trigger; the decision from which
the full rate holds, and the instant from which it does no longer, or the half rate stays; failed and TSTEP. -/
structure Gallery where
  armAt : Nat
  chans : List Nat
  decs : List Nat
  decim : Nat
  pre : Nat
  trigAt : Option Nat
  fullAt : Option Nat
  halfAt : Option Nat
  failed : Bool
  tstep : Bool
  /-- what TRIGIDX and TTRIG read before a trigger (log entry 196) -/
  noTrig : Nat
  deriving DecidableEq, Repr

structure Dch where
  /-- the instant at which DCH last powered on (R287) -/
  onAt : Nat
  /-- words by source, newest first: modulators 0–12, the auxiliary converter 13 -/
  raw : List (Nat × List Raw)
  chans : List (Nat × Chan)
  taps : List (Nat × Tap)
  /-- the register fields before each of their changes, and the coefficient sets replaced, newest first, with the instant: a word that a
  later command brings is taken by what was in force at its sample (log entry 197) -/
  past : List (Nat × List (Nat × Nat))
  sets : List (Nat × Nat × Bytes)
  /-- the phase slots, newest first: start, and the ports whose TXGATE was asserted, as bits (R266) -/
  gates : List (Nat × Nat)
  dets : List (Nat × DetSlot)
  /-- a set commit in progress: set and image (R296) -/
  linPending : Option (Nat × Bytes)
  /-- phasors (R275): angle and tag of PHREF at the last report, its f and tag, the report before, the last instant -/
  phPrev : Option (Nat × Nat)
  phFreq : Option (Nat × Nat)
  phTag2 : Nat
  phAt : Nat
  /-- the last VALID frequency (R274) -/
  phGood : Option Nat
  /-- steps of mesh time (R282), and moves of AGGOFS (R281) -/
  steps : List Nat
  moves : List Nat
  /-- an event has been in progress in the current base interval (R278) -/
  flagged : Bool
  events : List PqEvent
  /-- the last Urms(1/2) window of each voltage channel, its end, 1/16 tick (R278) -/
  urmsAt : List (Nat × Nat)
  spans : Spans
  aggs : List (Nat × Agg)
  /-- base intervals and 150/180-cycle intervals that have ended, newest first (R271) -/
  bases : List (Nat × Nat)
  shorts : List (Nat × Nat)
  /-- start of the base interval in progress, ticks -/
  baseAt : Nat
  /-- last 10-minute tick produced, and whether the base interval in progress at it has still to end (R276) -/
  tickNo : Nat
  tickOpen : Bool
  /-- the steps of mesh time since that tick, ticks: the instant at which it fell moves with them (R282) -/
  tickMoved : Int
  /-- supraharmonics by channel: windows that the intervals to come may hold, phase slot, band values and tag; the phase slot of the last
  window; the last VALID values (R279) -/
  supra : List (Nat × List (Nat × List Nat × Nat))
  supraAt : List (Nat × Nat)
  supraLast : List (Nat × List Nat)
  gal : Gallery
  deriving DecidableEq, Repr

end Sys2Proof.Machine
end

