-- ==== Sys2Proof/Machine/UnitsNode.lean ====
section
/-! DEFINITION. The state of PMU, of ERF with the ownership handshake, of SEC, and of the flash configuration record. -/

namespace Sys2Proof.Machine

/-! ### PMU -/

/-- Why a mode transition runs. -/
inductive TransKind where
  | boot       -- first mode after BOOT (R37)
  | host       -- MODE_SET (R39)
  | safehold   -- a SAFEHOLD cause (R41)
  | wake       -- exit from ROOST (R43)
  | promotion  -- ERF promotion (R351)
  | demotion   -- ERF demotion (R353)
  deriving DecidableEq, Repr

/-- A mode transition in progress (R45). -/
structure Trans where
  target : Mode
  kind : TransKind
  deriving DecidableEq, Repr

/-- A leave request raised and not yet granted or failed (R48): requester, object named by its LEAVE event, line level
asked for, phase slots waited, refused at least once (R52), the beacon exemption of R53, and the mesh time at which it was raised. -/
structure LeaveReq where
  req : Nat
  for_ : LeaveFor
  obj : Nat
  level : Nat
  age : Nat
  refused : Bool
  beacon : Bool
  at_ : Nat
  deriving DecidableEq, Repr

/-- Leave held (R49): requester and the cost accounted. -/
structure LeaveHeld where
  req : Nat
  for_ : LeaveFor
  cost : Nat
  deriving DecidableEq, Repr

/-- The way a leave request ended at its last decision, kept until the requester uses it. -/
inductive LeaveAns where
  | none | granted | degraded | failed
  deriving DecidableEq, Repr

/-- The governor's answer to a port's request, until the operation begins: the step granted, or to which it is degraded (R51–R53). -/
structure LeaveAnswer where
  req : Nat
  for_ : LeaveFor
  ans : LeaveAns
  step : Nat
  deriving DecidableEq, Repr

/-- The host request whose MODE_SET selected a transition: port index or remote originator, SEQ, opcode, and the registers that a
REG_WRITE wrote before PMU_MODECTL. -/
structure ModeReq where
  port : Nat
  orig : Option Nat
  seq : Nat
  op : Nat
  before : Nat
  deriving DecidableEq, Repr

/-- What the selection of a transition changes at once, as it stood before: the leave books and the flash operation; MFE, DCH and
LCE with their registers; and of a takeover the links, counters, queues, ERF and its registers. -/
structure Undo where
  held : List LeaveHeld
  pending : List LeaveReq
  answers : List LeaveAnswer
  flash : Option FlashOp
  mfe : Mfe
  dch : Dch
  lce : Lce
  links : List (Nat × Link)
  groupFc : Nat
  exhausted : List Nat
  queues : List Queue
  begun : Bool
  promoted : Bool
  recordDue : Bool
  deadAt : Option Nat
  mirTx : List (Nat × Nat × QPkt)
  /-- context, send counter, send LSN -/
  ctxs : List (Nat × Nat × Nat)
  regs : List (Nat × Nat)
  deriving DecidableEq, Repr

/-- The selection of the transition in progress (R38): the mesh time of its cause, its place in the list of R38 (7 for causes the
list does not name), the request that a higher cause of the same cycle would turn to BUSY, and what it would give back. -/
structure Race where
  at_ : Nat
  rank : Nat
  req : Option ModeReq
  undo : Option Undo
  deriving DecidableEq, Repr

structure Pmu where
  mode : Mode
  prev : Mode
  trans : Option Trans
  /-- how the transition in progress was selected (R38) -/
  race : Option Race
  /-- PMU_MODE.RECOVERY -/
  recovery : Bool
  /-- the committed configuration declares a pair (PMU_MODE.PAIRED) -/
  paired : Bool
  /-- a valid configuration is committed (R37) -/
  validCfg : Bool
  /-- a reset is asserted and its stretch has not ended (R466) -/
  inReset : Bool
  /-- the 1 ms stretch runs (R466) -/
  stretch : Bool
  /-- causes of the reset in progress, as bits of PMU_RSTCAUSE (R466) -/
  cause : Nat
  /-- thermal shutdown: every domain but AON is unpowered (R44) -/
  shutdown : Bool
  /-- the junction is at 130 °C or more (R39, R46) -/
  above130 : Bool
  /-- straps as last sampled (R466, R479) -/
  cmsnN : Bool
  pairId : Bool
  pending : List LeaveReq
  held : List LeaveHeld
  /-- answers to the ports' requests that are not used up -/
  answers : List LeaveAnswer
  /-- the millisecond of the TIME domain in which a command last brought VLD, and the junction temperature; the first millisecond whose
  reading TJMAX does not hold yet (R96, R467) -/
  vldMs : Nat
  tjMs : Nat
  maxMs : Nat
  deriving DecidableEq, Repr

/-! ### ERF, SEC and the flash record -/

/-- A sent frame that awaits its acknowledgement (R344): its LSEQ, whether it is a mirror record and no copy chunk, and where its bytes stand
in ERFRETRY (R389). -/
structure SentFrame where
  lseq : Nat
  rec_ : Bool
  at_ : Nat
  len : Nat
  deriving DecidableEq, Repr

/-- A receive lane (R342): in sync; commas since the last code violation; the last 32 code groups, a 1 for each invalid one, and the running
disparity, true for positive. -/
structure RxLane where
  sync : Bool
  commas : Nat
  bad : Nat
  rd : Bool
  deriving DecidableEq, Repr

/-- The mirrored state as the records sent so far tell it: the collector sends what differs from it (R348). -/
structure Shadow where
  cells : List Host.Cell
  regs : List (Nat × Nat)
  active : Nat
  slots : List (Nat × Nat)
  scan : List Nat
  keys : KeyMirror
  lce : LceMirror
  mrt : MrtMirror
  groupFc : Nat
  tx : List (Nat × Nat × QPkt)
  deriving DecidableEq, Repr

/-- The collector (R348): what the peer has been told, none while it collects nothing, and the contexts of which a record has been made in
the current phase slot. -/
structure Mirror where
  shadow : Option Shadow
  told : List Nat
  deriving DecidableEq, Repr

structure Erf where
  /-- the last valid heartbeat since reset release, and the mesh time of its reception (R340, R347) -/
  hb : Option Heartbeat
  hbAt : Nat
  /-- a heartbeat with role PRIMARY has been received since reset (R341) -/
  seenPrimary : Bool
  /-- a promotion has happened since reset release -/
  promoted : Bool
  /-- next LSEQ to send, LSEQ expected, last LSEQ applied (R344) -/
  txSeq : Nat
  rxSeq : Nat
  rxAck : Nat
  /-- NAK is due in the next heartbeat; the next chunk is taken whatever its LSEQ (R345) -/
  nak : Bool
  rxAny : Bool
  /-- COPYSTART is sent; chunks sent of the copy, and what it has still to send, nothing while no copy runs; the next free transmission is a
  chunk (R345, R350) -/
  copyStart : Bool
  copyDone : Nat
  copyLeft : List Piece
  chunkTurn : Bool
  /-- retry buffer, oldest first, and the frames of it to be sent again (R344) -/
  retry : List SentFrame
  resend : List SentFrame
  /-- bytes of the last frame put on the link, TYPE to CRC; the code groups that it took on lane 0 and lane 1, and the running disparity of
  each after it, true for positive (R342, R343) -/
  sent : Bytes
  sentLanes : List (List (BitVec 10))
  txRd : List Bool
  /-- the receive lanes (R342) -/
  rxLanes : List RxLane
  /-- mirrored transmit packets without a TXEND, in commit order, at a spare (R351) -/
  mirTx : List (Nat × Nat × QPkt)
  /-- the extended address of the pair (R339) -/
  pairExt : Option Nat
  /-- the epoch is still to be recorded (R340) -/
  recordDue : Bool
  /-- the dead decision that a promotion follows (R351) -/
  deadAt : Option Nat
  /-- the chip has stopped sending in SAFEHOLD (R353) -/
  silenced : Bool
  /-- ownership has begun since OWN_OUT was asserted (R354) -/
  begun : Bool
  /-- the highest epoch of a PRIMARY seen over Erfa or in a frame (R40) -/
  seenEpoch : Nat
  /-- mesh time of the last entry to SPARE (R341) -/
  spareAt : Nat
  deriving DecidableEq, Repr

/-- A rekey that this node requested (R376): context, request NONCE, private half of its key pair, superframe of the request. -/
structure RekeyReq where
  ctx : Nat
  nonce : Nat
  priv : Bytes
  at_ : Nat
  deriving DecidableEq, Repr

/-- An Ed25519 operation that SEC is asked for (R374): the signatures of the ATTEST in hand, of the PARENT_PROOF to the joiner of a context
whose JOIN_PROOF is given, and of the node's own JOIN_PROOF; the checks of a JOIN_PROOF and of a PARENT_PROOF; what the host request in hand
needs of SEC; and the oldest privileged packet that MRT holds, of PULUAC-REMOTE or of LCE-COMMAND. -/
inductive SecJob where
  | attest
  | parentSign (ctx : Nat) (proof : Bytes)
  | joinerSign
  | joinCheck (ctx : Nat) (proof : Bytes)
  | parentCheck (ctx : Nat) (proof : Bytes)
  | host
  | operator (remote : Bool)
  deriving DecidableEq, Repr

structure Sec where
  /-- private half of the node key; certificate; domain authority key with DOMAIN (R357, R364) -/
  nodeKey : Option Bytes
  cert : Option Bytes
  authKey : Option (Nat × Bytes)
  /-- peer chip's device key, and the pair key (R385) -/
  peerKey : Option Bytes
  pairKey : Option Bytes
  opKeys : List (Option Bytes)
  hostKeys : List (Option Bytes)
  /-- last accepted OPSEQ of each operator key, none accepted yet: 0 (R380) -/
  opSeq : List Nat
  /-- group key in force, and pending with its EFFECT (R377) -/
  gkey : Option (Nat × Bytes)
  gpend : Option (Nat × Nat × Bytes)
  reports : Nat
  /-- signature operations begun in the current phase slot (R47) -/
  sigs : Nat
  /-- signatures that wait for leave, or for their turn at two per phase slot, oldest first; whether they are paced (R47, R51) -/
  sigWait : List SecJob
  paced : Bool
  /-- the operations asked for, in order of request: the first eight stand in SEC's queue, the others wait with their requesters (R374) -/
  queue : List SecJob
  rekeys : List RekeyReq
  /-- REKEY_REQs that wait for the random source: context and content (R386) -/
  rekeyHeld : List (Nat × Bytes)
  /-- certificates of parents from earlier exchanges, by short address (R367) -/
  peerCerts : List (Nat × Bytes)
  /-- mesh times of the health-test failures that may count towards three within one second (R386) -/
  trngFails : List Nat
  /-- configuration and calibration hash, as last computed (R384) -/
  cfgHash : Bytes
  calHash : Bytes
  /-- what the chip sent at pairing: its fresh X25519 public key and the signature of it (R385) -/
  pairSent : Bytes
  deriving DecidableEq, Repr

/-- The configuration record in flash (R37, R436): configuration fields, allocation banks, scan list, coefficient sets and
LCE tables as cells of main SRAM, keys and certificate, the node key and the pair key wrapped under the storage key (R357), and whether it
declares a pair. -/
structure CfgRec where
  regs : List (Nat × Nat)
  slots : List (Nat × Nat)
  scan : List Nat
  cells : List Host.Cell
  nodeKey : Option Bytes
  cert : Option Bytes
  authKey : Option (Nat × Bytes)
  peerKey : Option Bytes
  pairKey : Option Bytes
  opKeys : List (Option Bytes)
  hostKeys : List (Option Bytes)
  paired : Bool
  pairExt : Option Nat
  deriving DecidableEq, Repr

/-- What survives every reset in the flash configuration record (R340, R380, R383, R464): the record, the epoch, OPSEQ,
BOOTS and SAFES. -/
structure Nvm where
  cfg : Option CfgRec
  epoch : Nat
  opSeq : List Nat
  boots : Nat
  safes : Nat
  deriving DecidableEq, Repr

/-- A receive lane that has heard nothing: out of sync, and negative running disparity (log entry 231). -/
def RxLane.fresh : RxLane := { sync := false, commas := 0, bad := 0, rd := false }

end Sys2Proof.Machine
end

