-- ==== Sys2Proof/Machine/Lanes.lean ====
section
/-! DEFINITION. The Erfa link below its frames: 8b/10b code groups, lane synchronisation, striping and deskew (R342), and a frame's bytes
(R343). The coding is that of IEEE 802.3 clause 36 (PRESUMED, log entry 231). -/

namespace Sys2Proof.Machine

/-! ### 8b/10b code groups -/

/-- What a code group stands for: a data byte, or a control byte, K28.5 being 0xBC. -/
inductive Sym where
  | data (b : Nat)
  | ctl (b : Nat)
  deriving DecidableEq, Repr

def Sym.comma : Sym := .ctl 0xBC
def Sym.sof : Sym := .ctl 0xFB
def Sym.eof : Sym := .ctl 0xFD
def Sym.idle : Sym := .data 0x50

/-- The six bits of x, from D0 to D31, under negative running disparity. -/
def sixBits : List Nat :=
  [0b100111, 0b011101, 0b101101, 0b110001, 0b110101, 0b101001, 0b011001, 0b111000, 0b111001, 0b100101, 0b010101, 0b110100, 0b001101, 0b101100,
   0b011100, 0b010111, 0b011011, 0b100011, 0b010011, 0b110010, 0b001011, 0b101010, 0b011010, 0b111010, 0b110011, 0b100110, 0b010110, 0b110110,
   0b001110, 0b101110, 0b011110, 0b101011]

/-- The four bits of y, from 0 to 7, under negative running disparity. -/
def fourBits : List Nat := [0b1011, 0b1001, 0b0101, 0b1100, 0b1101, 0b1010, 0b0110, 0b1110]

/-- The control bytes with their code groups under negative running disparity; under positive disparity each is the complement. -/
def ctlGroups : List (Nat × Nat) :=
  [(0x1C, 0b0011110100), (0x3C, 0b0011111001), (0x5C, 0b0011110101), (0x7C, 0b0011110011), (0x9C, 0b0011110010), (0xBC, 0b0011111010),
   (0xDC, 0b0011110110), (0xFC, 0b0011111000), (0xF7, 0b1110101000), (0xFB, 0b1101101000), (0xFD, 0b1011101000), (0xFE, 0b0111101000)]

/-- Six bits of data under a running disparity, true for positive: the complement where they are unbalanced, and for D7. -/
def sixOf (x : Nat) (rd : Bool) : Nat :=
  let v := nth 0 sixBits x
  if rd && (popCount v 6 != 3 || x == 7) then 63 - v else v

/-- The running disparity after six bits. -/
def rdSix (rd : Bool) (v : Nat) : Bool :=
  if 3 < popCount v 6 then true else if popCount v 6 < 3 then false else if v = 0b000111 then true else if v = 0b111000 then false else rd

/-- The running disparity after four bits. -/
def rdFour (rd : Bool) (v : Nat) : Bool :=
  if 2 < popCount v 4 then true else if popCount v 4 < 2 then false else if v = 0b0011 then true else if v = 0b1100 then false else rd

/-- D.x.7 in its alternative form, which keeps five equal bits out of the data. -/
def altSeven (x : Nat) (rd : Bool) : Bool := if rd then [11, 13, 14].contains x else [17, 18, 20].contains x

/-- Four bits of data behind the six of x, under the running disparity after those. -/
def fourOf (x y : Nat) (rd : Bool) : Nat :=
  let v := if y = 7 ∧ altSeven x rd then 0b0111 else nth 0 fourBits y
  if rd && (popCount v 4 != 2 || y == 3) then 15 - v else v

/-- The code group of a symbol. -/
def groupOf (rd : Bool) : Sym → Nat
  | .data b => 16 * sixOf (b % 32) rd + fourOf (b % 32) (b / 32 % 8) (rdSix rd (sixOf (b % 32) rd))
  | .ctl b => let v := assocGet 0 ctlGroups b; if rd then 1023 - v else v

/-- The running disparity after a code group. -/
def rdAfter (rd : Bool) (g : Nat) : Bool := rdFour (rdSix rd (g / 16)) (g % 16)

/-- The symbol of a received code group; none for a code violation. -/
def symOf (rd : Bool) (g : Nat) : Option Sym :=
  match ctlGroups.find? (fun k => (if rd then 1023 - k.2 else k.2) == g) with
  | some k => some (.ctl k.1)
  | none =>
    match findIdx? 32 (fun x => sixOf x rd == g / 16) with
    | none => none
    | some x => (findIdx? 8 (fun y => fourOf x y (rdSix rd (g / 16)) == g % 16)).map (fun y => .data (32 * y + x))

/-- The code groups of symbols, and the running disparity after them. -/
def encodeLane (rd : Bool) : List Sym → List (BitVec 10) × Bool
  | [] => ([], rd)
  | x :: t =>
    let g := groupOf rd x
    let r := encodeLane (rdAfter rd g) t
    (BitVec.ofNat 10 g :: r.1, r.2)

/-! ### Receive lanes -/

/-- A comma: K28.1, K28.5 or K28.7. -/
def isComma : Option Sym → Bool
  | some (.ctl b) => [0x3C, 0xBC, 0xFC].contains b
  | _ => false

/-- One code group: in sync after four commas without a code violation, out of it after three invalid groups within any 32. -/
def laneStep (l : RxLane) (g : Nat) : RxLane :=
  let x := symOf l.rd g
  let l : RxLane := { l with rd := rdAfter l.rd g }
  if l.sync then
    let bad := (2 * l.bad + b2n x.isNone) % 2 ^ 32
    if 3 ≤ popCount bad 32 then { l with sync := false, commas := 0, bad := 0 } else { l with bad }
  else
    let n := if x.isNone then 0 else if isComma x then l.commas + 1 else l.commas
    if 4 ≤ n then { l with sync := true, commas := 0, bad := 0 } else { l with commas := n }

/-- A run of code groups: the lane after it, how often it has lost sync, and the symbols heard in sync. -/
def laneRun (l : RxLane) : List (BitVec 10) → RxLane × Nat × List (Option Sym)
  | [] => (l, 0, [])
  | g :: t =>
    let m := laneStep l g.toNat
    let r := laneRun m t
    (r.1, r.2.1 + b2n (l.sync && !m.sync), (if l.sync then symOf l.rd g.toNat else none) :: r.2.2)

/-- What stands between two delimiters on a lane: the group at which the frame begins, and its symbols, none where no delimiter ends it. -/
def laneFrame (l : List (Option Sym)) : Option (Nat × Option (List (Option Sym))) :=
  match l.idxOf? (some Sym.sof) with
  | none => none
  | some k =>
    let t := l.drop (k + 1)
    some (k, if t.contains (some Sym.eof) then some (t.takeWhile (· != some Sym.eof)) else none)

/-- The bytes of a lane's symbols; none where one of them is no data. -/
def laneBytes : List (Option Sym) → Option Bytes
  | [] => some []
  | some (.data b) :: t => (laneBytes t).map (BitVec.ofNat 8 b :: ·)
  | _ :: _ => none

/-- Bytes of the two lanes in the order of the frame. -/
def interleave : Bytes → Bytes → Bytes
  | a :: s, b :: t => a :: b :: interleave s t
  | s, _ => s

/-- A striped frame: lane 1 sends K28.5 in place of the last byte of an odd number (R343). -/
def joinLanes (a b : List (Option Sym)) : Option Bytes :=
  let b := if b.getLast? = some (some Sym.comma) then b.dropLast else b
  match laneBytes a, laneBytes b with
  | some x, some y => if x.length = y.length ∨ x.length = y.length + 1 then some (interleave x y) else none
  | _, _ => none

/-- The frame that the lanes in sync carried: none, or its bytes, or none of them for one that a code violation or too much skew has spoilt
(R342). -/
def linkFrame (a b : List (Option Sym)) : Option (Option Bytes) :=
  match laneFrame a, laneFrame b with
  | none, none => none
  | some (_, x), none => some (x.bind laneBytes)
  | none, some (_, y) => some (y.bind laneBytes)
  | some (i, some x), some (j, some y) => some (if i ≤ j + 16 ∧ j ≤ i + 16 then joinLanes x y else none)
  | _, _ => some none

/-! ### Sending -/

/-- Bytes at even, or odd, places. -/
def everyOther : Bytes → Bytes
  | [] => []
  | [a] => [a]
  | a :: _ :: t => a :: everyOther t

/-- What each lane sends for a frame: striped, or all of it on the one lane that the peer reports in sync (`lanes`, ERF_STAT.LANES_TX), and then
idle on the other (R342, R343). -/
def frameSyms (lanes : Nat) (b : Bytes) : List (List Sym) :=
  let framed (x : Bytes) (fill : List Sym) : List Sym := [Sym.sof] ++ x.map (fun c => .data c.toNat) ++ fill ++ [Sym.eof]
  let idle : List Sym := (List.replicate (b.length / 2 + 1) [Sym.comma, Sym.idle]).flatten
  match lanes with
  | 1 => [framed b [], idle]
  | 2 => [idle, framed b []]
  | _ => [framed (everyOther b) [], framed (everyOther (b.drop 1)) (if b.length % 2 = 1 then [Sym.comma] else [])]

/-! ### Frames (R343) -/

/-- A frame's bytes, from TYPE to CRC. -/
def erfFrame (type lseq : Nat) (body : Bytes) : Bytes :=
  let b := leBytes type 1 ++ leBytes lseq 2 ++ leBytes body.length 2 ++ body
  b ++ leBytes (crc32c b) 4

/-- TYPE, LSEQ and BODY of a frame; none where its CRC is bad or LEN is not that of its bytes. -/
def erfParse (b : Bytes) : Option (Nat × Nat × Bytes) :=
  let n := b.length - 9
  if 9 ≤ b.length ∧ u b 3 2 = n ∧ n ≤ 2048 ∧ crc32c (b.take (5 + n)) = u b (5 + n) 4 then some (u b 0 1, u b 1 2, slice b 5 n) else none

/-! ### Heartbeats (R346) -/

/-- The 32 bytes of a heartbeat. -/
def hbBytes (h : Heartbeat) : Bytes :=
  leBytes (h.role.toNat + 4 * b2n h.unfit + 8 * b2n h.synced + 16 * b2n h.pairId + 32 * b2n h.own + 64 * b2n h.nak + 128 * b2n h.copyStart) 1
    ++ leBytes h.mode.toNat 1 ++ leBytes h.lanes.toNat 1 ++ leBytes 0 1 ++ leBytes h.epoch.toNat 4 ++ leBytes h.ackSeq.toNat 2
    ++ leBytes h.nakSeq.toNat 2 ++ leBytes h.sfn.toNat 4 ++ leBytes h.mtime.toNat 8 ++ leBytes h.dbo.toNat 2 ++ leBytes h.shift.toNat 3
    ++ leBytes h.count.toNat 1 ++ leBytes 0 2

/-- The heartbeat in a body. -/
def hbOf (b : Bytes) : Heartbeat :=
  let r := u b 0 1
  { role := BitVec.ofNat 2 r, unfit := bit r 2, synced := bit r 3, pairId := bit r 4, own := bit r 5, nak := bit r 6, copyStart := bit r 7
    mode := BitVec.ofNat 8 (u b 1 1), lanes := BitVec.ofNat 2 (u b 2 1), epoch := BitVec.ofNat 32 (u b 4 4), ackSeq := BitVec.ofNat 16 (u b 8 2)
    nakSeq := BitVec.ofNat 16 (u b 10 2), sfn := BitVec.ofNat 32 (u b 12 4), mtime := BitVec.ofNat 64 (u b 16 8)
    dbo := BitVec.ofNat 16 (u b 24 2), shift := BitVec.ofNat 24 (u b 26 3), count := BitVec.ofNat 3 (u b 29 1) }

end Sys2Proof.Machine
end

