-- ==== Sys2Proof/Config.lean ====
section
/-! DEFINITION. The constants of the implementation that the spec fixes, and the free values: opaque constants, about which
nothing can be proved, for every value that the spec leaves open. -/

namespace Sys2Proof

/-- TIME-domain cycles, and mesh-time ticks, per second (R66). -/
def Config.ticksPerSec : Nat := 122880000

/-- Mesh-time ticks per millisecond (R19). -/
def Config.ticksPerMs : Nat := 122880

/-- Whether the hardware rounds the quotient `a / b` up where the spec states a quotient and no rounding: a free value,
one per place of use (`what`), log entry 6. -/
opaque Config.roundsUp : (what : Nat) → Int → Nat → Bool

/-- A fresh free word: the n-th value that the hardware draws or leaves undefined (random draws, challenges, undefined
results), log entry 5. -/
opaque Config.free : Nat → Nat

/-- What an analogue sensor reads in a millisecond of the TIME domain in which no command brings its reading: the junction (0), VLD (1)
(log entry 178). -/
opaque Config.sensor : (what : Nat) → (ms : Nat) → Nat

/-- Salt and info by which the storage key is derived from STORESEED: R357 names HKDF and states neither (log entry 227). -/
opaque Config.storeSalt : Bytes
opaque Config.storeInfo : Bytes

/-- The nonce by which a key is sealed for the peer chip at an instant: R385 states none (log entry 227). -/
opaque Config.sealNonce : (at_ : Nat) → Nat

/-- A binary32 value that the spec leaves open: `what` names it, the list holds what it depends on (log entry 7). -/
opaque Config.real : (what : Nat) → List Nat → Nat

/-- Converter words per full scale, less one, of modulators 0–12 and of the auxiliary converter, 13: the spec gives the words' width and no
unit (log entry 192). -/
opaque Config.wordScale : (source : Nat) → Nat

/-- What a decimator finds at an instant at which its converter gave no word (log entry 193). -/
opaque Config.lostWord : (source : Nat) → (at_ : Nat) → Int

/-- The coefficients of half-band stage `stage`, 1–10, in units of 2⁻²⁴: R260 bounds the response and states none; the model takes those that
keep its bounds (`halfTaps`, log entry 194). -/
opaque Config.halfBandTaps : (stage : Nat) → List Int

/-- The coefficients of the compensation filter of the supraharmonic tap in units of 2⁻¹⁵, and the tap's delay from a sample's timestamp to its
output instant, ticks: R279 bounds the response and states neither; the model takes coefficients that keep its bounds (`compTaps`, log entry
195). -/
opaque Config.compFilterTaps : List Int
opaque Config.supraDelay : Nat

/-- Bytes of external flash: the 16 MiB that R360 recommends (log entry 23). -/
def Config.flashSize : Nat := 0x1000000

/-- Bytes that the configuration record takes from 0x0080_0000: the spec states none, a free value (log entry 23). -/
opaque Config.recordSize : Nat

end Sys2Proof
end

