-- ==== Sys2Proof/Machine/Crypto.lean ====
section
/-! DEFINITION. The algorithms that SEC performs (R357–R385): SHA-512, HMAC and HKDF over it, AES-256 in CCM*, X25519 and Ed25519.  The spec names
them and defines none: PRESUMED from the standards of those names, FIPS 180-4, RFC 2104, RFC 5869, FIPS 197, RFC 3610 with the CCM* of IEEE
802.15.4, RFC 7748 and RFC 8032 (log entry 4). -/

namespace Sys2Proof.Machine

/-! ### SHA-512 -/

/-- The round constants. -/
def shaK : List Nat :=
  [0x428A2F98D728AE22, 0x7137449123EF65CD, 0xB5C0FBCFEC4D3B2F, 0xE9B5DBA58189DBBC, 0x3956C25BF348B538] ++
  [0x59F111F1B605D019, 0x923F82A4AF194F9B, 0xAB1C5ED5DA6D8118, 0xD807AA98A3030242, 0x12835B0145706FBE] ++
  [0x243185BE4EE4B28C, 0x550C7DC3D5FFB4E2, 0x72BE5D74F27B896F, 0x80DEB1FE3B1696B1, 0x9BDC06A725C71235] ++
  [0xC19BF174CF692694, 0xE49B69C19EF14AD2, 0xEFBE4786384F25E3, 0x0FC19DC68B8CD5B5, 0x240CA1CC77AC9C65] ++
  [0x2DE92C6F592B0275, 0x4A7484AA6EA6E483, 0x5CB0A9DCBD41FBD4, 0x76F988DA831153B5, 0x983E5152EE66DFAB] ++
  [0xA831C66D2DB43210, 0xB00327C898FB213F, 0xBF597FC7BEEF0EE4, 0xC6E00BF33DA88FC2, 0xD5A79147930AA725] ++
  [0x06CA6351E003826F, 0x142929670A0E6E70, 0x27B70A8546D22FFC, 0x2E1B21385C26C926, 0x4D2C6DFC5AC42AED] ++
  [0x53380D139D95B3DF, 0x650A73548BAF63DE, 0x766A0ABB3C77B2A8, 0x81C2C92E47EDAEE6, 0x92722C851482353B] ++
  [0xA2BFE8A14CF10364, 0xA81A664BBC423001, 0xC24B8B70D0F89791, 0xC76C51A30654BE30, 0xD192E819D6EF5218] ++
  [0xD69906245565A910, 0xF40E35855771202A, 0x106AA07032BBD1B8, 0x19A4C116B8D2D0C8, 0x1E376C085141AB53] ++
  [0x2748774CDF8EEB99, 0x34B0BCB5E19B48A8, 0x391C0CB3C5C95A63, 0x4ED8AA4AE3418ACB, 0x5B9CCA4F7763E373] ++
  [0x682E6FF3D6B2B8A3, 0x748F82EE5DEFB2FC, 0x78A5636F43172F60, 0x84C87814A1F0AB72, 0x8CC702081A6439EC] ++
  [0x90BEFFFA23631E28, 0xA4506CEBDE82BDE9, 0xBEF9A3F7B2C67915, 0xC67178F2E372532B, 0xCA273ECEEA26619C] ++
  [0xD186B8C721C0C207, 0xEADA7DD6CDE0EB1E, 0xF57D4F7FEE6ED178, 0x06F067AA72176FBA, 0x0A637DC5A2C898A6] ++
  [0x113F9804BEF90DAE, 0x1B710B35131C471B, 0x28DB77F523047D84, 0x32CAAB7B40C72493, 0x3C9EBE0A15C9BEBC] ++
  [0x431D67C49C100D4C, 0x4CC5D4BECB3E42B6, 0x597F299CFC657E2A, 0x5FCB6FAB3AD6FAEC, 0x6C44198C4A475817]

/-- The initial hash value. -/
def shaInit : List Nat :=
  [0x6A09E667F3BCC908, 0xBB67AE8584CAA73B, 0x3C6EF372FE94F82B, 0xA54FF53A5F1D36F1] ++
  [0x510E527FADE682D1, 0x9B05688C2B3E6C1F, 0x1F83D9ABFB41BD6B, 0x5BE0CD19137E2179]

/-- The big-endian number in a byte string. -/
def beNat (b : Bytes) : Nat := leNat b.reverse
def beBytes (n k : Nat) : Bytes := (leBytes n k).reverse

/-- A byte string in pieces of `n` bytes, the last shorter; `fuel` is at least their number. -/
def chunks (n : Nat) : (fuel : Nat) → Bytes → List Bytes
  | 0, _ => []
  | _, [] => []
  | fuel + 1, b => b.take n :: chunks n fuel (b.drop n)

def rotr64 (x n : Nat) : Nat := x / 2 ^ n + x % 2 ^ n * 2 ^ (64 - n)

/-- One round on the working variables a–h, with the schedule's next word. -/
def shaRound (v : List Nat) (k w : Nat) : List Nat :=
  match v with
  | [a, b, c, d, e, f, g, h] =>
    let s1 := rotr64 e 14 ^^^ rotr64 e 18 ^^^ rotr64 e 41
    let ch := (e &&& f) ^^^ ((2 ^ 64 - 1 - e) &&& g)
    let t1 := h + s1 + ch + k + w
    let s0 := rotr64 a 28 ^^^ rotr64 a 34 ^^^ rotr64 a 39
    let maj := (a &&& b) ^^^ (a &&& c) ^^^ (b &&& c)
    [(t1 + s0 + maj) % 2 ^ 64, a, b, c, (d + t1) % 2 ^ 64, e, f, g]
  | _ => v

/-- The next word of the message schedule from the last sixteen. -/
def shaNext (w : List Nat) : Nat :=
  let x := nth 0 w 1
  let y := nth 0 w 14
  (nth 0 w 0 + nth 0 w 9 + (rotr64 x 1 ^^^ rotr64 x 8 ^^^ x / 2 ^ 7) + (rotr64 y 19 ^^^ rotr64 y 61 ^^^ y / 2 ^ 6)) % 2 ^ 64

/-- The rounds for the constants that remain. -/
def shaRounds : (ks w v : List Nat) → List Nat
  | [], _, v => v
  | k :: ks, w, v => shaRounds ks (w.drop 1 ++ [shaNext w]) (shaRound v k (nth 0 w 0))

/-- One block of 128 bytes. -/
def shaBlock (h : List Nat) (b : Bytes) : List Nat :=
  List.zipWith (fun x y => (x + y) % 2 ^ 64) h (shaRounds shaK ((chunks 8 16 b).map beNat) h)

/-- SHA-512: 64 bytes. -/
def sha512 (m : Bytes) : Bytes :=
  let p := m ++ leBytes 0x80 1 ++ List.replicate ((239 - m.length % 128) % 128) 0 ++ beBytes (8 * m.length) 16
  ((chunks 128 (p.length / 128) p).foldl shaBlock shaInit).flatMap (fun x => beBytes x 8)

/-! ### HMAC and HKDF -/

def xorBytes (a b : Bytes) : Bytes := List.zipWith (· ^^^ ·) a b

/-- HMAC-SHA-512. -/
def hmac512 (key m : Bytes) : Bytes :=
  let k := padTo 128 (if 128 < key.length then sha512 key else key)
  sha512 (xorBytes k (List.replicate 128 0x5C) ++ sha512 (xorBytes k (List.replicate 128 0x36) ++ m))

/-- HKDF with SHA-512, of 32 bytes (R368). -/
def hkdf32 (ikm salt info : Bytes) : Bytes :=
  (hmac512 (hmac512 (if salt.isEmpty then List.replicate 64 0 else salt) ikm) (info ++ leBytes 1 1)).take 32

/-! ### AES-256 -/

/-- Multiplication by x in GF(2^8). -/
def aesTimes (a : Nat) : Nat := if 128 ≤ a then (2 * a) ^^^ 0x11B else 2 * a

/-- a · b in GF(2^8), over the lowest `n` bits of b. -/
def aesMul (a b : Nat) : Nat → Nat
  | 0 => 0
  | n + 1 => (if b % 2 = 1 then a else 0) ^^^ aesMul (aesTimes a) (b / 2) n

/-- a^254, the inverse, by squares: 254 = 2 + 4 + … + 128. -/
def aesInv (a : Nat) : Nat → Nat → Nat
  | 0, acc => acc
  | n + 1, acc => let q := aesMul a a 8; aesInv q n (aesMul acc q 8)

/-- The substitution box. -/
def sboxOf (a : Nat) : Nat :=
  let b := aesInv a 7 1
  let r (n : Nat) : Nat := (b * 2 ^ n) % 256 + b / 2 ^ (8 - n)
  b ^^^ r 1 ^^^ r 2 ^^^ r 3 ^^^ r 4 ^^^ 0x63
def sbox : List Nat := (List.range 256).map sboxOf
def sub (a : Nat) : Nat := nth 0 sbox a

def xorN (a b : List Nat) : List Nat := List.zipWith (· ^^^ ·) a b

/-- The key schedule: `n` more words of four bytes behind the last eight, the newest first, from word `i` on. -/
def aesExpand : (n i rcon : Nat) → List (List Nat) → List (List Nat)
  | 0, _, _, ws => ws
  | n + 1, i, rcon, ws =>
    let t := nth [] ws 0
    let t' :=
      if i % 8 = 0 then xorN ((t.drop 1 ++ t.take 1).map sub) [rcon, 0, 0, 0]
      else if i % 8 = 4 then t.map sub
      else t
    aesExpand n (i + 1) (if i % 8 = 0 then aesTimes rcon else rcon) (xorN (nth [] ws 7) t' :: ws)

/-- Groups of four. -/
def fours : (n : Nat) → List Nat → List (List Nat)
  | 0, _ => []
  | n + 1, l => l.take 4 :: fours n (l.drop 4)

/-- The fifteen round keys of a 32-byte key. -/
def aesKeys (key : Bytes) : List (List Nat) :=
  let ws := (aesExpand 52 8 1 (fours 8 ((padTo 32 key).map (·.toNat))).reverse).reverse
  (List.range 15).map (fun r => (ws.drop (4 * r)).take 4 |>.flatten)

/-- ShiftRows on sixteen bytes, column by column. -/
def shiftRows (s : List Nat) : List Nat := (List.range 16).map (fun i => nth 0 s ((i + 4 * (i % 4)) % 16))

/-- MixColumns of one column. -/
def mixColumn (c : List Nat) : List Nat :=
  (List.range 4).map (fun i =>
    let x (k : Nat) : Nat := nth 0 c ((i + k) % 4)
    aesTimes (x 0) ^^^ (aesTimes (x 1) ^^^ x 1) ^^^ x 2 ^^^ x 3)

/-- The rounds after the first key. -/
def aesRounds : (keys : List (List Nat)) → List Nat → List Nat
  | [], s => s
  | [k], s => xorN (shiftRows (s.map sub)) k
  | k :: ks, s => aesRounds ks (xorN ((fours 4 (shiftRows (s.map sub))).flatMap mixColumn) k)

/-- AES-256 of one block, under the round keys. -/
def aesBlock (keys : List (List Nat)) (b : Bytes) : Bytes :=
  (aesRounds (keys.drop 1) (xorN (b.map (·.toNat)) (nth [] keys 0))).map (BitVec.ofNat 8 ·)

/-! ### CCM*, with a 2-byte length field and a MIC of 8 bytes (R370) -/

/-- A byte string padded with zeros to whole blocks. -/
def padBlock (b : Bytes) : Bytes := b ++ List.replicate ((16 - b.length % 16) % 16) 0

/-- CBC-MAC of whole blocks. -/
def cbcMac (keys : List (List Nat)) (m : Bytes) : Bytes :=
  (chunks 16 (m.length / 16) m).foldl (fun x b => aesBlock keys (xorBytes x b)) (List.replicate 16 0)

/-- Key-stream block `i`. -/
def ccmStream (keys : List (List Nat)) (nonce : Bytes) (i : Nat) : Bytes := aesBlock keys (leBytes 1 1 ++ nonce ++ beBytes i 2)

/-- The text with the key stream from block 1 on: encryption and decryption alike. -/
def ccmText (key nonce m : Bytes) : Bytes :=
  let keys := aesKeys key
  ((chunks 16 (m.length / 16 + 1) m).mapIdx (fun i b => List.zipWith (· ^^^ ·) b (ccmStream keys nonce (i + 1)))).flatten

/-- The 8-byte MIC over additional data `aad` and plaintext `m`. -/
def ccmMic (key nonce aad m : Bytes) : Bytes :=
  let keys := aesKeys key
  let b0 := leBytes ((if aad.isEmpty then 0 else 64) + 8 * 3 + 1) 1 ++ nonce ++ beBytes m.length 2
  let a := if aad.isEmpty then [] else padBlock (beBytes aad.length 2 ++ aad)
  xorBytes ((cbcMac keys (b0 ++ a ++ padBlock m)).take 8) (ccmStream keys nonce 0)

/-- Ciphertext and MIC. -/
def ccmSeal (key nonce aad m : Bytes) : Bytes := ccmText key nonce m ++ ccmMic key nonce aad m

/-- The plaintext of ciphertext and MIC, and whether the MIC verifies. -/
def ccmOpen (key nonce aad c : Bytes) : Bytes × Bool :=
  let m := ccmText key nonce (c.take (c.length - 8))
  (m, ccmMic key nonce aad m == c.drop (c.length - 8))

/-- A key wrapped with AES-256-CCM* and a MIC of 8 bytes, behind its nonce, which the spec leaves open: a free value (R357, log entry 227). -/
def wrapKey (under : Bytes) (nonce : Nat) (k : Bytes) : Bytes := leBytes nonce 13 ++ ccmSeal under (leBytes nonce 13) [] k

/-- The wrapped key; absent where its MIC fails. -/
def unwrapKey (under : Bytes) (b : Bytes) : Option Bytes :=
  let r := ccmOpen under (b.take 13) [] (b.drop 13)
  if 21 ≤ b.length ∧ r.2 then some r.1 else none

/-! ### The field and curve of X25519 and Ed25519 -/

/-- p = 2^255 − 19. -/
def fp : Nat := 2 ^ 255 - 19
def fAdd' (a b : Nat) : Nat := (a + b) % fp
def fSub' (a b : Nat) : Nat := (a + fp - b) % fp
def fMul' (a b : Nat) : Nat := a * b % fp

/-- a^e over the lowest `n` bits of e. -/
def fPow (a e : Nat) : (n acc : Nat) → Nat
  | 0, acc => acc
  | n + 1, acc => fPow a e n (let q := fMul' acc acc; if e / 2 ^ n % 2 = 1 then fMul' q a else q)

def fInv (a : Nat) : Nat := fPow a (fp - 2) 255 1

/-- A scalar as X25519 and Ed25519 clamp it. -/
def clampScalar (b : Bytes) : Nat :=
  let n := leNat (b.take 32)
  n % 2 ^ 254 / 8 * 8 + 2 ^ 254

/-! ### X25519 -/

/-- The ladder over the lowest `n` bits of the scalar: x2, z2, x3, z3 of the points kP and (k+1)P. -/
def ladder (k x1 : Nat) : (n x2 z2 x3 z3 : Nat) → Nat × Nat
  | 0, x2, z2, _, _ => (x2, z2)
  | n + 1, x2, z2, x3, z3 =>
    let sw := k / 2 ^ n % 2 == 1
    let (a2, b2, a3, b3) := if sw then (x3, z3, x2, z2) else (x2, z2, x3, z3)
    let a := fAdd' a2 b2
    let aa := fMul' a a
    let b := fSub' a2 b2
    let bb := fMul' b b
    let e := fSub' aa bb
    let da := fMul' (fSub' a3 b3) a
    let cb := fMul' (fAdd' a3 b3) b
    let s := fAdd' da cb
    let d := fSub' da cb
    let y3 := fMul' s s
    let w3 := fMul' x1 (fMul' d d)
    let y2 := fMul' aa bb
    let w2 := fMul' e (fAdd' aa (fMul' 121665 e))
    if sw then ladder k x1 n y3 w3 y2 w2 else ladder k x1 n y2 w2 y3 w3

/-- X25519 of a 32-byte scalar and a 32-byte u-coordinate. -/
def x25519 (k p : Bytes) : Bytes :=
  let r := ladder (clampScalar k) (leNat (p.take 32) % 2 ^ 255 % fp) 255 1 0 (leNat (p.take 32) % 2 ^ 255 % fp) 1
  leBytes (fMul' r.1 (fInv r.2)) 32

/-- The public key of an X25519 private key. -/
def x25519Pub (k : Bytes) : Bytes := x25519 k (leBytes 9 32)

/-! ### Ed25519 -/

/-- The order of the base point. -/
def edOrder : Nat := 2 ^ 252 + 27742317777372353535851937790883648493
/-- −121665/121666. -/
def edD : Nat := 37095705934669439343138083508754565189542113879843219016388785533085940283555

/-- A point in extended coordinates. -/
structure EdPoint where
  x : Nat
  y : Nat
  z : Nat
  t : Nat
  deriving DecidableEq, Repr

def edZero : EdPoint := { x := 0, y := 1, z := 1, t := 0 }
def edPoint (x y : Nat) : EdPoint := { x, y, z := 1, t := fMul' x y }

/-- The sum of two points. -/
def edAdd (p q : EdPoint) : EdPoint :=
  let a := fMul' (fSub' p.y p.x) (fSub' q.y q.x)
  let b := fMul' (fAdd' p.y p.x) (fAdd' q.y q.x)
  let c := fMul' (fMul' p.t (2 * edD)) q.t
  let d := fMul' (2 * p.z) q.z
  let e := fSub' b a
  let f := fSub' d c
  let g := fAdd' d c
  let h := fAdd' b a
  { x := fMul' e f, y := fMul' g h, z := fMul' f g, t := fMul' e h }

/-- kP over the lowest `n` bits of k. -/
def edMul (k : Nat) (p : EdPoint) : (n : Nat) → EdPoint → EdPoint
  | 0, acc => acc
  | n + 1, acc => edMul k p n (let q := edAdd acc acc; if k / 2 ^ n % 2 = 1 then edAdd q p else q)

/-- The x of a point with this y and sign. -/
def edX (y sign : Nat) : Option Nat :=
  if fp ≤ y then none
  else
    let yy := fMul' y y
    let v := fMul' (fSub' yy 1) (fInv (fAdd' (fMul' edD yy) 1))
    if v = 0 then (if sign = 1 then none else some 0)
    else
      let r := fPow v ((fp + 3) / 8) 255 1
      let r := if fMul' r r = v then r else fMul' r (fPow 2 ((fp - 1) / 4) 255 1)
      if fMul' r r ≠ v then none else some (if r % 2 = sign then r else fp - r)

/-- The base point. -/
def edBase : EdPoint :=
  edPoint 15112221349535400772501151409588531511454012693041857206046113283949847762202
    46316835694926478169428394003475163141307993866256225615783033603165251855960

def edEncode (p : EdPoint) : Bytes :=
  let i := fInv p.z
  let x := fMul' p.x i
  leBytes (fMul' p.y i + 2 ^ 255 * (x % 2)) 32

def edDecode (b : Bytes) : Option EdPoint :=
  let n := leNat b
  (edX (n % 2 ^ 255) (n / 2 ^ 255)).map (fun x => edPoint x (n % 2 ^ 255))

def edBaseMul (k : Nat) : EdPoint := edMul k edBase 256 edZero

/-- The public key of a 32-byte seed. -/
def ed25519Pub (seed : Bytes) : Bytes := edEncode (edBaseMul (clampScalar (sha512 seed)))

/-- The 64-byte signature of a message. -/
def ed25519Sign (seed m : Bytes) : Bytes :=
  let h := sha512 seed
  let a := clampScalar h
  let pub := edEncode (edBaseMul a)
  let r := leNat (sha512 (h.drop 32 ++ m)) % edOrder
  let rb := edEncode (edBaseMul r)
  let k := leNat (sha512 (rb ++ pub ++ m)) % edOrder
  rb ++ leBytes ((r + k * a) % edOrder) 32

/-- A signature verifies: s is reduced, and sB = R + kA (log entry 4). -/
def ed25519Verify (pub m sig : Bytes) : Bool :=
  let s := leNat (slice sig 32 32)
  match edDecode (pub.take 32), edDecode (sig.take 32) with
  | some a, some r =>
    let k := leNat (sha512 (sig.take 32 ++ pub.take 32 ++ m)) % edOrder
    sig.length == 64 && pub.length == 32 && decide (s < edOrder) && edEncode (edBaseMul s) == edEncode (edAdd r (edMul k a 256 edZero))
  | _, _ => false

end Sys2Proof.Machine
end

