-- ==== Sys2Proof/Machine/Ecc.lean ====
section
/-! DEFINITION. The word code of MQF (R392, R393): a word of main SRAM or of a queue is stored as 275 bits, here one number:
bits 0–17 the check bits k, 18–273 the data bits d, 274 the parity bit p. -/

namespace Sys2Proof.Machine

/-- Multiplication by α in GF(2^9) under x^9 + x^4 + 1. -/
def gfTimes (x : Nat) : Nat := if 512 ≤ 2 * x then (2 * x) ^^^ 0x211 else 2 * x

/-- x · α^n. -/
def gfShift (x : Nat) : Nat → Nat
  | 0 => x
  | n + 1 => gfShift (gfTimes x) n

/-- α^0 … α^(n−1) times `x`. -/
def gfPowers : (x n : Nat) → List Nat
  | _, 0 => []
  | x, n + 1 => x :: gfPowers (gfTimes x) n

def gfTable : List Nat := gfPowers 1 511

/-- α^i. -/
def gfPow (i : Nat) : Nat := nth 0 gfTable (i % 511)

/-- g(x): the product of the minimal polynomials of α, x^9 + x^4 + 1, and of α^3, x^9 + x^6 + x^4 + x^3 + 1. -/
def genPoly : Nat := 0x495C9

/-- The remainder modulo g of the polynomial in the lowest `n` bits of `v`, behind the remainder `r` of those above. -/
def genRem (v : Nat) : (n r : Nat) → Nat
  | 0, r => r
  | n + 1, r =>
    let x := 2 * r + v / 2 ^ n % 2
    genRem v n (if 2 ^ 18 ≤ x then x ^^^ genPoly else x)

/-- The parity of the lowest `n` bits: whether an odd number of them is set. -/
def oddBits (v : Nat) : Nat → Bool
  | 0 => false
  | n + 1 => (v / 2 ^ n % 2 == 1) != oddBits v n

/-- The check bits k of the data d: the remainder of d(x) · x^18. -/
def checkBits (d : Nat) : Nat := genRem (d % 2 ^ 256 * 2 ^ 18) 274 0

/-- The stored word of the data d: data, check bits, and the parity bit that makes its weight even. -/
def encodeWord (d : Nat) : Nat :=
  let w := d % 2 ^ 256 * 2 ^ 18 + checkBits d
  if oddBits w 274 then w + 2 ^ 274 else w

/-- The data bits of a stored word. -/
def wordData (w : Nat) : Nat := w / 2 ^ 18 % 2 ^ 256

/-- The syndrome of the lowest `n` bits at α^k, behind the value `r` of those above. -/
def syndrome (v k : Nat) : (n r : Nat) → Nat
  | 0, r => r
  | n + 1, r => syndrome v k n (gfShift r k ^^^ v / 2 ^ n % 2)

/-- What the decoder makes of a stored word (R393): the bits in error that it corrects, or none where the word is uncorrectable. -/
def decodeWord (w : Nat) : Option (List Nat) :=
  let s1 := syndrome w 1 274 0
  let s3 := syndrome w 3 274 0
  let odd := oddBits w 275
  let one := (List.range 274).find? (fun i => gfPow i == s1 && gfPow (3 * i) == s3)
  if s1 = 0 ∧ s3 = 0 then some (if odd then [274] else [])
  else if odd then one.map (fun i => [i])
  else
    match one with
    | some i => some [i, 274]
    | none =>
      (List.range 274).findSome? (fun i =>
        ((List.range i).find? (fun j => gfPow i ^^^ gfPow j == s1 && gfPow (3 * i) ^^^ gfPow (3 * j) == s3)).map (fun j => [j, i]))

/-- A word with bits turned. -/
def turnBits (w : Nat) (l : List Nat) : Nat := l.foldl (fun w i => w ^^^ 2 ^ i) w

/-- The mark of the reserved check pattern that every read decodes as uncorrectable (R395): no stored bit, it stands above them. -/
def eccMark : Nat := 2 ^ 275

/-- What a read makes of the data `d` stored with the bits of `flips` turned: the bits corrected, or none (R393, R395). -/
def decodeFlips (d flips : Nat) : Option (List Nat) :=
  if flips = 0 then some [] else if eccMark ≤ flips then none else decodeWord (encodeWord d ^^^ flips)

end Sys2Proof.Machine
end

