-- ==== Sys2Proof/Machine/Regs.lean ====
section
/-! DEFINITION. The register fields of the register tables of spec/ (chapters 00, 02–19), one definition per field, and the
register table R455 that lists which fields a register holds.  A field of a per-port register takes the port number
(stride 0x100, R455).  Field resets are those of the tables (R14); the reset of POLn is that of R51. -/

namespace Sys2Proof.Machine

namespace F
def PMU_IDREV_PART : Field := ⟨0x0, 16, 16, 0x7460, .ro⟩
def PMU_IDREV_MAJOR : Field := ⟨0x0, 12, 4, 0x1, .ro⟩
def PMU_IDREV_MINOR : Field := ⟨0x0, 8, 4, 0x1, .ro⟩
def PMU_IDREV_ROMREV : Field := ⟨0x0, 0, 8, 0x7, .ro⟩
def PMU_MODE_MODE : Field := ⟨0x100, 0, 3, 0x0, .ro⟩
def PMU_MODE_PREV : Field := ⟨0x100, 4, 3, 0x0, .ro⟩
def PMU_MODE_BUSY : Field := ⟨0x100, 7, 1, 0x0, .ro⟩
def PMU_MODE_PAIRED : Field := ⟨0x100, 8, 1, 0x0, .ro⟩
def PMU_MODE_RECOVERY : Field := ⟨0x100, 9, 1, 0x0, .ro⟩
def PMU_MODECTL_REQ : Field := ⟨0x104, 0, 3, 0x0, .wo⟩
def PMU_SAFECAUSE_MEMPOISON : Field := ⟨0x108, 0, 1, 0x0, .w1c⟩
def PMU_SAFECAUSE_WDOG : Field := ⟨0x108, 1, 1, 0x0, .w1c⟩
def PMU_SAFECAUSE_THERM140 : Field := ⟨0x108, 2, 1, 0x0, .w1c⟩
def PMU_SAFECAUSE_OWNLOST : Field := ⟨0x108, 3, 1, 0x0, .w1c⟩
def PMU_SAFECAUSE_HOSTCMD : Field := ⟨0x108, 4, 1, 0x0, .w1c⟩
def PMU_SAFECAUSE_THERM150 : Field := ⟨0x108, 8, 1, 0x0, .w1c⟩
def PMU_ROOSTCTL_HWAKE_EN : Field := ⟨0x10C, 0, 1, 0x1, .rw⟩
def PMU_ROOSTCTL_DIWAKE_EN : Field := ⟨0x10C, 1, 1, 0x0, .rw⟩
def PMU_ROOSTCTL_DIWAKE_EDGE : Field := ⟨0x10C, 2, 1, 0x0, .rw⟩
def PMU_ROOSTCTL_DIWAKE_SEL : Field := ⟨0x10C, 4, 4, 0x0, .rw⟩
def PMU_LEAVE_BUDGET_BUDGET : Field := ⟨0x200, 0, 9, 0x17C, .rw⟩
def PMU_LEAVE_BUDGET_ROOST_BUDGET : Field := ⟨0x200, 16, 9, 0x14, .rw⟩
def PMU_LEAVE_USED_USED : Field := ⟨0x204, 0, 9, 0x0, .ro⟩
def PMU_LEAVE_USED_HOLDERS : Field := ⟨0x204, 16, 11, 0x0, .ro⟩
def PMU_LEAVE_POLICY_POL0 : Field := ⟨0x208, 0, 2, 0x1, .rw⟩
def PMU_LEAVE_POLICY_POL1 : Field := ⟨0x208, 2, 2, 0x1, .rw⟩
def PMU_LEAVE_POLICY_POL2 : Field := ⟨0x208, 4, 2, 0x1, .rw⟩
def PMU_LEAVE_POLICY_POL3 : Field := ⟨0x208, 6, 2, 0x1, .rw⟩
def PMU_LEAVE_POLICY_POL4 : Field := ⟨0x208, 8, 2, 0x0, .rw⟩
def PMU_LEAVE_POLICY_POL5 : Field := ⟨0x208, 10, 2, 0x1, .rw⟩
def PMU_LEAVE_POLICY_POL6 : Field := ⟨0x208, 12, 2, 0x1, .rw⟩
def PMU_LEAVE_POLICY_POL7 : Field := ⟨0x208, 14, 2, 0x1, .rw⟩
def PMU_LEAVE_POLICY_POL8 : Field := ⟨0x208, 16, 2, 0x0, .rw⟩
def PMU_LEAVE_POLICY_POL9 : Field := ⟨0x208, 18, 2, 0x0, .rw⟩
def PMU_LEAVE_POLICY_POL10 : Field := ⟨0x208, 20, 2, 0x2, .rw⟩
def PMU_LEAVE_WAITMAX_WAITMAX : Field := ⟨0x20C, 0, 16, 0x100, .rw⟩
def PMU_LEAVE_LPCOST0_STEP9 : Field := ⟨0x210, 0, 8, 0x1E, .rwl⟩
def PMU_LEAVE_LPCOST0_STEP10 : Field := ⟨0x210, 8, 8, 0x2D, .rwl⟩
def PMU_LEAVE_LPCOST0_STEP11 : Field := ⟨0x210, 16, 8, 0x41, .rwl⟩
def PMU_LEAVE_LPCOST0_STEP12 : Field := ⟨0x210, 24, 8, 0x55, .rwl⟩
def PMU_LEAVE_LPCOST1_STEP13 : Field := ⟨0x214, 0, 8, 0x6E, .rwl⟩
def PMU_LEAVE_LPCOST1_STEP14 : Field := ⟨0x214, 8, 8, 0x8C, .rwl⟩
def PMU_LEAVE_LPCOST1_STEP15 : Field := ⟨0x214, 16, 8, 0xAF, .rwl⟩
def PMU_LEAVE_COST0_RFX : Field := ⟨0x218, 0, 8, 0xC, .rwl⟩
def PMU_LEAVE_COST0_EXC : Field := ⟨0x218, 8, 8, 0x4, .rwl⟩
def PMU_LEAVE_COST0_GALLERY : Field := ⟨0x218, 16, 8, 0x14, .rwl⟩
def PMU_LEAVE_COST0_SIGBURST : Field := ⟨0x218, 24, 8, 0x19, .rwl⟩
def PMU_LEAVE_COST1_SWEEP : Field := ⟨0x21C, 0, 8, 0x3C, .rwl⟩
def PMU_LEAVE_COST1_FLASH : Field := ⟨0x21C, 8, 8, 0xA, .rwl⟩
def PMU_LEAVE_COST1_OTP : Field := ⟨0x21C, 16, 8, 0xF, .rwl⟩
def PMU_LEAVE_DENY_REFUSALS : Field := ⟨0x220, 0, 16, 0x0, .rc⟩
def PMU_LEAVE_DENY_FAILS : Field := ⟨0x220, 16, 16, 0x0, .rc⟩
def TBU_CFG_NOMF : Field := ⟨0x10000, 0, 2, 0x0, .rw⟩
def TBU_CFG_ROOT : Field := ⟨0x10000, 2, 1, 0x0, .rwl⟩
def TBU_CFG_FALLBACK_EN : Field := ⟨0x10000, 3, 1, 0x1, .rw⟩
def TBU_CFG_TRACK_SHIFT : Field := ⟨0x10000, 4, 3, 0x3, .rw⟩
def TBU_CFG_SYNCIN_EN : Field := ⟨0x10000, 7, 1, 0x0, .rw⟩
def TBU_CFG_SYNCOUT_SEL : Field := ⟨0x10000, 8, 1, 0x0, .rw⟩
def TBU_CFG_PHTOL : Field := ⟨0x10000, 12, 5, 0xF, .rw⟩
def TBU_CFG_SYNC_WINDOW : Field := ⟨0x10000, 20, 4, 0x4, .rw⟩
def TBU_STAT_STATE : Field := ⟨0x10004, 0, 2, 0x0, .ro⟩
def TBU_STAT_SRC : Field := ⟨0x10004, 2, 2, 0x0, .ro⟩
def TBU_STAT_NOMF_ACT : Field := ⟨0x10004, 4, 1, 0x0, .ro⟩
def TBU_STAT_SYMS : Field := ⟨0x10004, 5, 3, 0x0, .ro⟩
def TBU_STAT_TLOCK : Field := ⟨0x10004, 8, 1, 0x0, .ro⟩
def TBU_STAT_TSTEP : Field := ⟨0x10004, 9, 1, 0x0, .w1c⟩
def TBU_STAT_REALIGN : Field := ⟨0x10004, 10, 1, 0x0, .w1c⟩
def TBU_STAT_CNTFIX : Field := ⟨0x10004, 11, 1, 0x0, .w1c⟩
def TBU_STAT_REJECTS : Field := ⟨0x10004, 16, 8, 0x0, .rc⟩
def TBU_STAT_NOMFMISS : Field := ⟨0x10004, 24, 8, 0x0, .rc⟩
def TBU_MCPERIOD_PERIOD : Field := ⟨0x10008, 0, 26, 0x0, .ro⟩
def TBU_FREQ_FREQ : Field := ⟨0x1000C, 0, 17, 0x0, .ro⟩
def TBU_POS_PSLOT : Field := ⟨0x10010, 0, 4, 0x0, .ro⟩
def TBU_POS_ASLOT : Field := ⟨0x10010, 4, 7, 0x0, .ro⟩
def TBU_POS_MCYCLE : Field := ⟨0x10010, 11, 6, 0x0, .ro⟩
def TBU_SFNUM_SFNUM : Field := ⟨0x10014, 0, 32, 0x0, .ro⟩
def TBU_TIME_LO_TIME_LO : Field := ⟨0x10018, 0, 32, 0x0, .ro⟩
def TBU_TIME_HI_TIME_HI : Field := ⟨0x1001C, 0, 32, 0x0, .ro⟩
def TBU_TIMESET_LO_SET_LO : Field := ⟨0x10020, 0, 32, 0x0, .wo⟩
def TBU_TIMESET_HI_SET_HI : Field := ⟨0x10024, 0, 32, 0x0, .wo⟩
def TBU_TRIM_TRIM : Field := ⟨0x10028, 0, 32, 0x0, .rwRoot⟩
def TBU_DBO_DBO : Field := ⟨0x1002C, 0, 16, 0x0, .ro⟩
def TBU_DBO_DOFS : Field := ⟨0x1002C, 16, 16, 0x0, .ro⟩
def TBU_REEPOCH_SHIFT : Field := ⟨0x10030, 0, 24, 0x0, .rw⟩
def TBU_REEPOCH_COUNT : Field := ⟨0x10030, 24, 3, 0x0, .ro⟩
def TBU_SYNCIN_ERR : Field := ⟨0x10034, 0, 24, 0x0, .ro⟩
def TBU_SYNCIN_REJ : Field := ⟨0x10034, 24, 8, 0x0, .rc⟩
def TBU_PORTANG0_ANGLE_A : Field := ⟨0x10038, 0, 9, 0x0, .ro⟩
def TBU_PORTANG0_VALID_A : Field := ⟨0x10038, 9, 1, 0x0, .ro⟩
def TBU_PORTANG0_ANGLE_B : Field := ⟨0x10038, 16, 9, 0x0, .ro⟩
def TBU_PORTANG0_VALID_B : Field := ⟨0x10038, 25, 1, 0x0, .ro⟩
def TBU_PORTANG1_ANGLE_A : Field := ⟨0x1003C, 0, 9, 0x0, .ro⟩
def TBU_PORTANG1_VALID_A : Field := ⟨0x1003C, 9, 1, 0x0, .ro⟩
def TBU_PORTANG1_ANGLE_B : Field := ⟨0x1003C, 16, 9, 0x0, .ro⟩
def TBU_PORTANG1_VALID_B : Field := ⟨0x1003C, 25, 1, 0x0, .ro⟩
def TBU_LAT0_TXLAT : Field := ⟨0x10040, 0, 16, 0x0, .rwl⟩
def TBU_LAT0_RXLAT : Field := ⟨0x10040, 16, 16, 0x0, .rwl⟩
def TBU_LAT1_TXLAT : Field := ⟨0x10044, 0, 16, 0x0, .rwl⟩
def TBU_LAT1_RXLAT : Field := ⟨0x10044, 16, 16, 0x0, .rwl⟩
def TBU_LAT2_TXLAT : Field := ⟨0x10048, 0, 16, 0x0, .rwl⟩
def TBU_LAT2_RXLAT : Field := ⟨0x10048, 16, 16, 0x0, .rwl⟩
def TBU_LAT3_TXLAT : Field := ⟨0x1004C, 0, 16, 0x0, .rwl⟩
def TBU_LAT3_RXLAT : Field := ⟨0x1004C, 16, 16, 0x0, .rwl⟩
def LPA_CTL_EN (n : Nat) : Field := ⟨0x20000 + 0x100 * n, 0, 1, 0x1, .rw⟩
def LPA_CTL_XMODE (n : Nat) : Field := ⟨0x20000 + 0x100 * n, 1, 1, 0x0, .rwl⟩
def LPA_CTL_XSENSE (n : Nat) : Field := ⟨0x20000 + 0x100 * n, 2, 1, 0x0, .rwl⟩
def LPA_CTL_ILIM (n : Nat) : Field := ⟨0x20000 + 0x100 * n, 4, 5, 0x14, .rw⟩
def LPA_CTL_FOLDSTEP (n : Nat) : Field := ⟨0x20000 + 0x100 * n, 9, 3, 0x2, .rw⟩
def LPA_CTL_XISCALE (n : Nat) : Field := ⟨0x20000 + 0x100 * n, 16, 8, 0xA, .rwl⟩
def LPA_LEVEL_DATA_LEVEL (n : Nat) : Field := ⟨0x20004 + 0x100 * n, 0, 4, 0xC, .rw⟩
def LPA_LEVEL_BEACON_LEVEL (n : Nat) : Field := ⟨0x20004 + 0x100 * n, 4, 4, 0xF, .rw⟩
def LPA_LEVEL_ACK_LEVEL (n : Nat) : Field := ⟨0x20004 + 0x100 * n, 8, 4, 0x8, .rw⟩
def LPA_RX_AGC (n : Nat) : Field := ⟨0x20008 + 0x100 * n, 0, 1, 0x1, .rw⟩
def LPA_RX_GAIN (n : Nat) : Field := ⟨0x20008 + 0x100 * n, 4, 5, 0x8, .rw⟩
def LPA_STAT_DRV (n : Nat) : Field := ⟨0x2000C + 0x100 * n, 0, 2, 0x0, .ro⟩
def LPA_STAT_LEVEL_NOW (n : Nat) : Field := ⟨0x2000C + 0x100 * n, 4, 4, 0x0, .ro⟩
def LPA_STAT_GAIN_NOW (n : Nat) : Field := ⟨0x2000C + 0x100 * n, 8, 5, 0x0, .ro⟩
def LPA_STAT_TXGATE (n : Nat) : Field := ⟨0x2000C + 0x100 * n, 13, 1, 0x0, .ro⟩
def LPA_STAT_LIMIT (n : Nat) : Field := ⟨0x2000C + 0x100 * n, 16, 1, 0x0, .w1c⟩
def LPA_STAT_VLD (n : Nat) : Field := ⟨0x2000C + 0x100 * n, 17, 1, 0x0, .w1c⟩
def LPA_CNT_LIMITS (n : Nat) : Field := ⟨0x20010 + 0x100 * n, 0, 12, 0x0, .rc⟩
def LPA_CNT_ABORTS (n : Nat) : Field := ⟨0x20010 + 0x100 * n, 12, 4, 0x0, .rc⟩
def LPA_CNT_CLIPS (n : Nat) : Field := ⟨0x20010 + 0x100 * n, 16, 16, 0x0, .rc⟩
def LPA_VLD_MV : Field := ⟨0x20800, 0, 15, 0x0, .ro⟩
def LPA_VLD_UV : Field := ⟨0x20800, 15, 1, 0x0, .ro⟩
def LPA_VLD_OV : Field := ⟨0x20800, 16, 1, 0x0, .ro⟩
def LPA_THERM_THERM_CAP : Field := ⟨0x20804, 0, 4, 0x8, .rwl⟩
def LPA_THERM_ACTIVE : Field := ⟨0x20804, 4, 1, 0x0, .ro⟩
def LPA_THERM_EPISODES : Field := ⟨0x20804, 16, 16, 0x0, .rc⟩
def LPHY_BAND_PRESET (n : Nat) : Field := ⟨0x30000 + 0x100 * n, 0, 3, 0x0, .rwl⟩
def LPHY_BAND_NLANES (n : Nat) : Field := ⟨0x30000 + 0x100 * n, 8, 8, 0x16, .ro⟩
def LPHY_BAND_HSYM (n : Nat) : Field := ⟨0x30000 + 0x100 * n, 16, 8, 0xC, .ro⟩
def LPHY_MODESEL_FLOOR (n : Nat) : Field := ⟨0x30004 + 0x100 * n, 0, 2, 0x1, .rw⟩
def LPHY_MODESEL_THR_P (n : Nat) : Field := ⟨0x30004 + 0x100 * n, 8, 8, 0x38, .rw⟩
def LPHY_MODESEL_THR_N (n : Nat) : Field := ⟨0x30004 + 0x100 * n, 16, 8, 0x28, .rw⟩
def LPHY_MODESEL_THR_4 (n : Nat) : Field := ⟨0x30004 + 0x100 * n, 24, 8, 0x14, .rw⟩
def LPHY_RXCTL_PRE_WIN (n : Nat) : Field := ⟨0x30008 + 0x100 * n, 0, 8, 0x96, .rw⟩
def LPHY_RXCTL_IMP_DB (n : Nat) : Field := ⟨0x30008 + 0x100 * n, 8, 4, 0x3, .rw⟩
def LPHY_RXCTL_IMP_WIDE (n : Nat) : Field := ⟨0x30008 + 0x100 * n, 12, 4, 0x8, .rw⟩
def LPHY_RXCTL_ACK_FRAC (n : Nat) : Field := ⟨0x30008 + 0x100 * n, 16, 4, 0x8, .rw⟩
def LPHY_RXCTL_FREESEARCH (n : Nat) : Field := ⟨0x30008 + 0x100 * n, 20, 1, 0x0, .rw⟩
def LPHY_RXCTL_PRE_THR (n : Nat) : Field := ⟨0x30008 + 0x100 * n, 24, 8, 0x40, .rw⟩
def LPHY_LANEMASK_0_LANES (n : Nat) : Field := ⟨0x30010 + 0x100 * n, 0, 32, 0xFFFFFFFF, .rwl⟩
def LPHY_LANEMASK_1_LANES (n : Nat) : Field := ⟨0x30014 + 0x100 * n, 0, 32, 0xFFFFFFFF, .rwl⟩
def LPHY_LANEMASK_2_LANES (n : Nat) : Field := ⟨0x30018 + 0x100 * n, 0, 32, 0xFFFFFFFF, .rwl⟩
def LPHY_LANEMASK_3_LANES (n : Nat) : Field := ⟨0x3001C + 0x100 * n, 0, 32, 0xFFFFFFFF, .rwl⟩
def LPHY_RXCNT_FRAMES (n : Nat) : Field := ⟨0x30020 + 0x100 * n, 0, 16, 0x0, .rc⟩
def LPHY_RXCNT_CRCERR (n : Nat) : Field := ⟨0x30020 + 0x100 * n, 16, 16, 0x0, .rc⟩
def LPHY_HDRCNT_PREDET (n : Nat) : Field := ⟨0x30024 + 0x100 * n, 0, 16, 0x0, .rc⟩
def LPHY_HDRCNT_HDRERR (n : Nat) : Field := ⟨0x30024 + 0x100 * n, 16, 16, 0x0, .rc⟩
def LPHY_ERACNT_IMPSYM (n : Nat) : Field := ⟨0x30028 + 0x100 * n, 0, 16, 0x0, .rc⟩
def LPHY_ERACNT_MAPMISS (n : Nat) : Field := ⟨0x30028 + 0x100 * n, 16, 8, 0x0, .rc⟩
def LPHY_ERACNT_WIDEERA (n : Nat) : Field := ⟨0x30028 + 0x100 * n, 24, 8, 0x0, .rc⟩
def LPHY_TXCNT_TXFRAMES (n : Nat) : Field := ⟨0x3002C + 0x100 * n, 0, 16, 0x0, .rc⟩
def LPHY_TXCNT_ACKMISS (n : Nat) : Field := ⟨0x3002C + 0x100 * n, 16, 8, 0x0, .rc⟩
def LPHY_TXCNT_NOFIT (n : Nat) : Field := ⟨0x3002C + 0x100 * n, 24, 8, 0x0, .rc⟩
def LPHY_LASTRX_MODE (n : Nat) : Field := ⟨0x30030 + 0x100 * n, 0, 2, 0x0, .ro⟩
def LPHY_LASTRX_LMID (n : Nat) : Field := ⟨0x30030 + 0x100 * n, 2, 12, 0x0, .ro⟩
def LPHY_LASTRX_LENGTH (n : Nat) : Field := ⟨0x30030 + 0x100 * n, 14, 11, 0x0, .ro⟩
def LPHY_LASTRX_CRCOK (n : Nat) : Field := ⟨0x30030 + 0x100 * n, 25, 1, 0x0, .ro⟩
def LPHY_CFR_ITER : Field := ⟨0x30800, 0, 2, 0x2, .rw⟩
def LPHY_CFR_CLIPSYM : Field := ⟨0x30800, 16, 16, 0x0, .rc⟩
def LPHY_ECHOCFG_LIVE_ON (n : Nat) : Field := ⟨0x30040 + 0x100 * n, 0, 8, 0x20, .rw⟩
def LPHY_ECHOCFG_LIVE_OFF (n : Nat) : Field := ⟨0x30040 + 0x100 * n, 8, 8, 0x14, .rw⟩
def LPHY_ECHOCFG_ZMIN (n : Nat) : Field := ⟨0x30040 + 0x100 * n, 16, 8, 0x32, .rw⟩
def LPHY_ECHOCFG_IMP_DEAD (n : Nat) : Field := ⟨0x30040 + 0x100 * n, 24, 4, 0x8, .rw⟩
def LPHY_ECHOCFG_ZSTEP (n : Nat) : Field := ⟨0x30040 + 0x100 * n, 28, 4, 0x6, .rw⟩
def LPHY_ECHOAGE_ZAGE_MAX (n : Nat) : Field := ⟨0x30044 + 0x100 * n, 0, 8, 0x40, .rw⟩
def LPHY_ECHOAGE_NAGE_MAX (n : Nat) : Field := ⟨0x30044 + 0x100 * n, 8, 8, 0x10, .rw⟩
def LPHY_ECHOAGE_CHG_MIN (n : Nat) : Field := ⟨0x30044 + 0x100 * n, 16, 8, 0x10, .rw⟩
def LPHY_ZCAL_ZSCALE (n : Nat) : Field := ⟨0x30048 + 0x100 * n, 0, 16, 0x1000, .rwl⟩
def LPHY_ZCAL_ZROT (n : Nat) : Field := ⟨0x30048 + 0x100 * n, 16, 12, 0x0, .rwl⟩
def LPHY_SWEEP_FSTART (n : Nat) : Field := ⟨0x3004C + 0x100 * n, 0, 10, 0xC, .rw⟩
def LPHY_SWEEP_FSTOP (n : Nat) : Field := ⟨0x3004C + 0x100 * n, 10, 10, 0x20B, .rw⟩
def LPHY_SWEEP_FSTEP (n : Nat) : Field := ⟨0x3004C + 0x100 * n, 20, 4, 0x1, .rw⟩
def LPHY_SWEEP_SWLEVEL (n : Nat) : Field := ⟨0x3004C + 0x100 * n, 24, 4, 0x8, .rw⟩
def LPHY_SWEEP_FREE (n : Nat) : Field := ⟨0x3004C + 0x100 * n, 28, 1, 0x0, .rw⟩
def LPHY_SWEEP_GO (n : Nat) : Field := ⟨0x3004C + 0x100 * n, 29, 1, 0x0, .wo⟩
def LPHY_SWEEP_ABORT (n : Nat) : Field := ⟨0x3004C + 0x100 * n, 30, 1, 0x0, .wo⟩
def LPHY_SWPSMASK_PSMASK (n : Nat) : Field := ⟨0x30050 + 0x100 * n, 0, 16, 0xFFFF, .rw⟩
def LPHY_SWSTAT_STATE (n : Nat) : Field := ⟨0x30054 + 0x100 * n, 0, 2, 0x0, .ro⟩
def LPHY_SWSTAT_FAILED (n : Nat) : Field := ⟨0x30054 + 0x100 * n, 2, 1, 0x0, .w1c⟩
def LPHY_SWSTAT_BIN (n : Nat) : Field := ⟨0x30054 + 0x100 * n, 4, 10, 0x0, .ro⟩
def LPHY_SWSTAT_POINTS (n : Nat) : Field := ⟨0x30054 + 0x100 * n, 16, 16, 0x0, .ro⟩
def LPHY_ECHOCNT_ZSTEPS (n : Nat) : Field := ⟨0x30058 + 0x100 * n, 0, 16, 0x0, .rc⟩
def LPHY_ECHOCNT_STALEMARK (n : Nat) : Field := ⟨0x30058 + 0x100 * n, 16, 16, 0x0, .rc⟩
def LPHY_MAPWIN_INDEX (n : Nat) : Field := ⟨0x3005C + 0x100 * n, 0, 11, 0x0, .rw⟩
def LPHY_MAPWIN_SEL (n : Nat) : Field := ⟨0x3005C + 0x100 * n, 11, 1, 0x0, .rw⟩
def LPHY_MAPDATALO_DATALO (n : Nat) : Field := ⟨0x30060 + 0x100 * n, 0, 32, 0x0, .ro⟩
def LPHY_MAPDATAHI_DATAHI (n : Nat) : Field := ⟨0x30064 + 0x100 * n, 0, 32, 0x0, .ro⟩
def LPHY_ECHOLINK_MINCELLS : Field := ⟨0x30804, 0, 12, 0x100, .rw⟩
def LPHY_ECHOLINK_REPORT_MAX : Field := ⟨0x30804, 12, 8, 0x40, .rw⟩
def LPHY_ECHOLINK_MAPFAIL : Field := ⟨0x30804, 20, 4, 0x2, .rw⟩
def LPHY_MAPPOOL_FREE : Field := ⟨0x30808, 0, 13, 0x1000, .ro⟩
def LPHY_MAPPOOL_EXHAUST : Field := ⟨0x30808, 16, 16, 0x0, .rc⟩
def LPHY_MAPXCNT_PROPOSALS : Field := ⟨0x3080C, 0, 16, 0x0, .rc⟩
def LPHY_MAPXCNT_BASEMISS : Field := ⟨0x3080C, 16, 8, 0x0, .rc⟩
def LPHY_MAPXCNT_REVERTS : Field := ⟨0x3080C, 24, 8, 0x0, .rc⟩
def SFM_PORTCFG_BCN_EN (n : Nat) : Field := ⟨0x40000 + 0x100 * n, 0, 1, 0x0, .rw⟩
def SFM_PORTCFG_BSLOT (n : Nat) : Field := ⟨0x40000 + 0x100 * n, 1, 3, 0x0, .rw⟩
def SFM_PORTCFG_PERMIT_JOIN (n : Nat) : Field := ⟨0x40000 + 0x100 * n, 4, 1, 0x0, .rw⟩
def SFM_PORTCFG_AUTOLEN (n : Nat) : Field := ⟨0x40000 + 0x100 * n, 8, 7, 0x0, .rw⟩
def SFM_LAYOUT_WB (n : Nat) : Field := ⟨0x40004 + 0x100 * n, 0, 7, 0x0, .ro⟩
def SFM_LAYOUT_GEXP (n : Nat) : Field := ⟨0x40004 + 0x100 * n, 7, 3, 0x0, .ro⟩
def SFM_LAYOUT_JSTART (n : Nat) : Field := ⟨0x40004 + 0x100 * n, 10, 7, 0x0, .ro⟩
def SFM_LAYOUT_DSTART (n : Nat) : Field := ⟨0x40004 + 0x100 * n, 17, 7, 0x0, .ro⟩
def SFM_LAYOUT_U (n : Nat) : Field := ⟨0x40004 + 0x100 * n, 24, 5, 0x0, .ro⟩
def SFM_AUTOPOOL_0_SLOTS (n : Nat) : Field := ⟨0x40010 + 0x100 * n, 0, 32, 0x0, .rw⟩
def SFM_AUTOPOOL_1_SLOTS (n : Nat) : Field := ⟨0x40014 + 0x100 * n, 0, 32, 0x0, .rw⟩
def SFM_AUTOPOOL_2_SLOTS (n : Nat) : Field := ⟨0x40018 + 0x100 * n, 0, 32, 0x0, .rw⟩
def SFM_AUTOPOOL_3_SLOTS (n : Nat) : Field := ⟨0x4001C + 0x100 * n, 0, 32, 0x0, .rw⟩
def SFM_RXERR_SLOT (n : Nat) : Field := ⟨0x40020 + 0x100 * n, 0, 8, 0x0, .rc⟩
def SFM_RXERR_UNKNOWN (n : Nat) : Field := ⟨0x40020 + 0x100 * n, 8, 8, 0x0, .rc⟩
def SFM_RXERR_FCERR (n : Nat) : Field := ⟨0x40020 + 0x100 * n, 16, 8, 0x0, .rc⟩
def SFM_RXERR_MICERR (n : Nat) : Field := ⟨0x40020 + 0x100 * n, 24, 4, 0x0, .rc⟩
def SFM_RXERR_CLASS (n : Nat) : Field := ⟨0x40020 + 0x100 * n, 28, 4, 0x0, .rc⟩
def SFM_RXCNT_ACCEPTED (n : Nat) : Field := ⟨0x40024 + 0x100 * n, 0, 16, 0x0, .rc⟩
def SFM_RXCNT_DUP (n : Nat) : Field := ⟨0x40024 + 0x100 * n, 16, 8, 0x0, .rc⟩
def SFM_RXCNT_EPOCHLOW (n : Nat) : Field := ⟨0x40024 + 0x100 * n, 24, 8, 0x0, .rc⟩
def SFM_TXCNT_ACKED (n : Nat) : Field := ⟨0x40028 + 0x100 * n, 0, 16, 0x0, .rc⟩
def SFM_TXCNT_RETRIES (n : Nat) : Field := ⟨0x40028 + 0x100 * n, 16, 8, 0x0, .rc⟩
def SFM_TXCNT_DROPPED (n : Nat) : Field := ⟨0x40028 + 0x100 * n, 24, 4, 0x0, .rc⟩
def SFM_TXCNT_TOOBIG (n : Nat) : Field := ⟨0x40028 + 0x100 * n, 28, 4, 0x0, .rc⟩
def SFM_CFG_RETRY_MAX : Field := ⟨0x40800, 0, 4, 0x3, .rw⟩
def SFM_CFG_BEMAX : Field := ⟨0x40800, 4, 3, 0x4, .rw⟩
def SFM_SLOTCTL_ACTIVE : Field := ⟨0x40804, 0, 1, 0x0, .ro⟩
def SFM_SLOTCTL_SWAP : Field := ⟨0x40804, 1, 1, 0x0, .wo⟩
def SFM_SLOTCTL_PENDING : Field := ⟨0x40804, 2, 1, 0x0, .ro⟩
def SFM_SLOTCTL_HELD : Field := ⟨0x40804, 3, 1, 0x0, .ro⟩
def SFM_SLOTWIN_PORT : Field := ⟨0x40808, 0, 3, 0x0, .rw⟩
def SFM_SLOTWIN_ENTRY : Field := ⟨0x40808, 3, 6, 0x0, .rw⟩
def SFM_SLOTWIN_BANK : Field := ⟨0x40808, 9, 1, 0x0, .rw⟩
def SFM_SLOTDATA_ENTRY : Field := ⟨0x4080C, 0, 32, 0x0, .rw⟩
def SFM_ROOST_ROOST_PERIOD : Field := ⟨0x40810, 0, 13, 0x10, .rw⟩
def SFM_ROOST_DRIFT_LP : Field := ⟨0x40810, 16, 8, 0x5, .rw⟩
def SFM_ROOST_DRIFT_RF : Field := ⟨0x40810, 24, 8, 0x28, .rw⟩
def SFM_STAT_STATE : Field := ⟨0x40814, 0, 2, 0x0, .ro⟩
def SFM_STAT_PPORT : Field := ⟨0x40814, 2, 3, 0x0, .ro⟩
def SFM_STAT_MISSES : Field := ⟨0x40814, 5, 2, 0x0, .ro⟩
def SFM_STAT_ORPHANS : Field := ⟨0x40814, 8, 8, 0x0, .rc⟩
def SFM_STAT_EPOCHUP : Field := ⟨0x40814, 16, 8, 0x0, .rc⟩
def SFM_PARENT_ADDR : Field := ⟨0x40818, 0, 16, 0x0, .ro⟩
def SFM_PARENT_CTX : Field := ⟨0x40818, 16, 12, 0x0, .ro⟩
def MRT_JOIN_JSEG (n : Nat) : Field := ⟨0x50000 + 0x100 * n, 0, 11, 0x100, .rw⟩
def MRT_JOIN_JLEN (n : Nat) : Field := ⟨0x50000 + 0x100 * n, 16, 7, 0x14, .ro⟩
def MRT_CFG_AUTO_RREQ : Field := ⟨0x50800, 0, 1, 0x0, .rw⟩
def MRT_CFG_MAXDEPTH : Field := ⟨0x50800, 2, 6, 0x10, .rw⟩
def MRT_CFG_RREQ_SCOPE : Field := ⟨0x50800, 8, 6, 0x4, .rw⟩
def MRT_CFG_ADV_PERIOD : Field := ⟨0x50800, 16, 8, 0x40, .rw⟩
def MRT_CFG_DROP_MAX : Field := ⟨0x50800, 24, 4, 0x3, .rw⟩
def MRT_LIFE_ROUTE_LIFE : Field := ⟨0x50804, 0, 8, 0x10, .rw⟩
def MRT_LIFE_JOIN_LIFE : Field := ⟨0x50804, 8, 8, 0x20, .rw⟩
def MRT_LIFE_CTX_LIFE : Field := ⟨0x50804, 16, 8, 0x40, .rw⟩
def MRT_COSTCFG_RFBASE : Field := ⟨0x50808, 0, 8, 0x10, .rw⟩
def MRT_COSTCFG_RFRSSI : Field := ⟨0x50808, 8, 8, 0x9A, .rw⟩
def MRT_COSTCFG_LPBIAS : Field := ⟨0x50808, 16, 8, 0x0, .rw⟩
def MRT_COSTCFG_RFBIAS : Field := ⟨0x50808, 24, 8, 0x0, .rw⟩
def MRT_PARENTCFG_PH_ABS : Field := ⟨0x5080C, 0, 8, 0x8, .rw⟩
def MRT_PARENTCFG_PH_REL : Field := ⟨0x5080C, 8, 6, 0x8, .rw⟩
def MRT_PARENTCFG_PH_HOLD : Field := ⟨0x5080C, 16, 8, 0x10, .rw⟩
def MRT_ADDR_SHORT : Field := ⟨0x50810, 0, 16, 0x0, .ro⟩
def MRT_ADDR_VALID : Field := ⟨0x50810, 16, 1, 0x0, .ro⟩
def MRT_EXT_LO_EXT_LO : Field := ⟨0x50814, 0, 32, 0x0, .ro⟩
def MRT_EXT_HI_EXT_HI : Field := ⟨0x50818, 0, 32, 0x0, .ro⟩
def MRT_PATH_COST : Field := ⟨0x5081C, 0, 16, 0xFFFF, .ro⟩
def MRT_PATH_HOPS : Field := ⟨0x5081C, 16, 6, 0x0, .ro⟩
def MRT_NSEQ_NSEQ : Field := ⟨0x50820, 0, 16, 0x0, .ro⟩
def MRT_FTWIN_DEST : Field := ⟨0x50824, 0, 16, 0x0, .rw⟩
def MRT_FTDATALO_DATALO : Field := ⟨0x50828, 0, 32, 0x0, .rw⟩
def MRT_FTDATAHI_DATAHI : Field := ⟨0x5082C, 0, 32, 0x0, .rw⟩
def MRT_RREQ_TARGET : Field := ⟨0x50830, 0, 16, 0x0, .rw⟩
def MRT_RREQ_GO : Field := ⟨0x50830, 16, 1, 0x0, .wo⟩
def MRT_RREQ_STATE : Field := ⟨0x50830, 17, 2, 0x0, .ro⟩
def MRT_FWDCNT_FORWARDED : Field := ⟨0x50834, 0, 16, 0x0, .rc⟩
def MRT_FWDCNT_DELIVERED : Field := ⟨0x50834, 16, 16, 0x0, .rc⟩
def MRT_DROPCNT_NOROUTE : Field := ⟨0x50838, 0, 8, 0x0, .rc⟩
def MRT_DROPCNT_LOOP : Field := ⟨0x50838, 8, 8, 0x0, .rc⟩
def MRT_DROPCNT_HOPLIMIT : Field := ⟨0x50838, 16, 8, 0x0, .rc⟩
def MRT_DROPCNT_NOCONS : Field := ⟨0x50838, 24, 8, 0x0, .rc⟩
def MRT_RTCNT_DUPFLOOD : Field := ⟨0x5083C, 0, 8, 0x0, .rc⟩
def MRT_RTCNT_SIGFAIL : Field := ⟨0x5083C, 8, 8, 0x0, .rc⟩
def MRT_RTCNT_RERRSENT : Field := ⟨0x5083C, 16, 8, 0x0, .rc⟩
def MRT_RTCNT_PCHANGE : Field := ⟨0x5083C, 24, 8, 0x0, .rc⟩
def MRT_JOINCNT_REQS : Field := ⟨0x50840, 0, 8, 0x0, .rc⟩
def MRT_JOINCNT_ACCEPTS : Field := ⟨0x50840, 8, 8, 0x0, .rc⟩
def MRT_JOINCNT_DENIES : Field := ⟨0x50840, 16, 8, 0x0, .rc⟩
def MRT_JOINCNT_EXPIRED : Field := ⟨0x50840, 24, 8, 0x0, .rc⟩
def RFX_CFG_BAND : Field := ⟨0x60000, 0, 1, 0x0, .rwl⟩
def RFX_CFG_RATE : Field := ⟨0x60000, 1, 2, 0x0, .rwl⟩
def RFX_CFG_MOD : Field := ⟨0x60000, 3, 1, 0x0, .rwl⟩
def RFX_CFG_MODIDX : Field := ⟨0x60000, 4, 1, 0x0, .rwl⟩
def RFX_CFG_PRE : Field := ⟨0x60000, 5, 5, 0x8, .rwl⟩
def RFX_CHAN_CENTRE : Field := ⟨0x60004, 0, 20, 0xD3FCC, .rwl⟩
def RFX_PWR_TXPWR : Field := ⟨0x60008, 0, 6, 0xE, .rw⟩
def RFX_PWR_ACK_PWR : Field := ⟨0x60008, 8, 6, 0xA, .rw⟩
def RFX_PWR_PA_LEAD : Field := ⟨0x60008, 16, 7, 0x14, .rw⟩
def RFX_LAT_TXLAT : Field := ⟨0x6000C, 0, 16, 0x0, .rwl⟩
def RFX_LAT_RXLAT : Field := ⟨0x6000C, 16, 16, 0x0, .rwl⟩
def RFX_RXCTL_RX_WIN : Field := ⟨0x60010, 0, 8, 0x64, .rw⟩
def RFX_DUTY_DUTYMAX : Field := ⟨0x60014, 0, 10, 0x3E8, .rw⟩
def RFX_DUTY_USED : Field := ⟨0x60014, 16, 10, 0x0, .ro⟩
def RFX_STAT_STATE : Field := ⟨0x60018, 0, 2, 0x0, .ro⟩
def RFX_STAT_RSSI_LAST : Field := ⟨0x60018, 8, 10, 0x0, .ro⟩
def RFX_STAT_FOFS : Field := ⟨0x60018, 20, 12, 0x0, .ro⟩
def RFX_RXCNT_FRAMES : Field := ⟨0x6001C, 0, 16, 0x0, .rc⟩
def RFX_RXCNT_FCSERR : Field := ⟨0x6001C, 16, 8, 0x0, .rc⟩
def RFX_RXCNT_PHRERR : Field := ⟨0x6001C, 24, 4, 0x0, .rc⟩
def RFX_RXCNT_WINMISS : Field := ⟨0x6001C, 28, 4, 0x0, .rc⟩
def RFX_TXCNT_TXFRAMES : Field := ⟨0x60020, 0, 16, 0x0, .rc⟩
def RFX_TXCNT_ACKMISS : Field := ⟨0x60020, 16, 8, 0x0, .rc⟩
def RFX_TXCNT_DUTYDEFER : Field := ⟨0x60020, 24, 8, 0x0, .rc⟩
def MFE_GRIDCTL_EN : Field := ⟨0x70000, 0, 13, 0x1FFF, .rw⟩
def MFE_GRIDSTAT_OVL : Field := ⟨0x70004, 0, 13, 0x0, .w1c⟩
def MFE_GRIDSTAT_PLLLOCK : Field := ⟨0x70004, 16, 1, 0x0, .ro⟩
def MFE_GRIDSTAT_UNLOCKED : Field := ⟨0x70004, 17, 1, 0x0, .w1c⟩
def MFE_GRIDSTAT_RESETS : Field := ⟨0x70004, 24, 8, 0x0, .rc⟩
def MFE_BIAS_SEL : Field := ⟨0x70008, 0, 1, 0x0, .rw⟩
def MFE_XPCFG_ROLE0 : Field := ⟨0x7000C, 0, 3, 0x0, .rw⟩
def MFE_XPCFG_ROLE1 : Field := ⟨0x7000C, 3, 3, 0x0, .rw⟩
def MFE_XPCFG_ROLE2 : Field := ⟨0x7000C, 6, 3, 0x0, .rw⟩
def MFE_XPCFG_ROLE3 : Field := ⟨0x7000C, 9, 3, 0x0, .rw⟩
def MFE_XPCFG_ROLE4 : Field := ⟨0x7000C, 12, 3, 0x0, .rw⟩
def MFE_XPCFG_ROLE5 : Field := ⟨0x7000C, 15, 3, 0x0, .rw⟩
def MFE_XPCFG_ROLE6 : Field := ⟨0x7000C, 18, 3, 0x0, .rw⟩
def MFE_XPCFG_ROLE7 : Field := ⟨0x7000C, 21, 3, 0x0, .rw⟩
def MFE_EXC_SINE_EN : Field := ⟨0x70010, 0, 1, 0x0, .rw⟩
def MFE_EXC_SILIM : Field := ⟨0x70010, 1, 1, 0x0, .rw⟩
def MFE_EXC_AMP : Field := ⟨0x70010, 2, 12, 0x3E8, .rw⟩
def MFE_EXCFREQ_FREQ : Field := ⟨0x70014, 0, 21, 0x2710, .rw⟩
def MFE_IDAC_IA : Field := ⟨0x70018, 0, 8, 0x0, .rw⟩
def MFE_IDAC_IB : Field := ⟨0x70018, 8, 8, 0x0, .rw⟩
def MFE_EXCSTAT_E : Field := ⟨0x7001C, 0, 11, 0x0, .ro⟩
def MFE_EXCSTAT_LEAVE : Field := ⟨0x7001C, 12, 2, 0x0, .ro⟩
def MFE_EXCSTAT_FAILED : Field := ⟨0x7001C, 14, 1, 0x0, .w1c⟩
def MFE_EXCSTAT_EAPPLIED : Field := ⟨0x7001C, 16, 11, 0x0, .ro⟩
def MFE_SCANCTL_NSCAN : Field := ⟨0x70020, 0, 6, 0x0, .rw⟩
def MFE_SCANCTL_MODE : Field := ⟨0x70020, 6, 1, 0x0, .rw⟩
def MFE_SCANCTL_GO : Field := ⟨0x70020, 7, 1, 0x0, .wo⟩
def MFE_SCANCTL_STOP : Field := ⟨0x70020, 8, 1, 0x0, .wo⟩
def MFE_SCANCTL_DISCH : Field := ⟨0x70020, 9, 6, 0x8, .rw⟩
def MFE_SCANSTAT_STATE : Field := ⟨0x70024, 0, 2, 0x0, .ro⟩
def MFE_SCANSTAT_ENTRY : Field := ⟨0x70024, 2, 6, 0x0, .ro⟩
def MFE_SCANSTAT_DONE : Field := ⟨0x70024, 8, 1, 0x0, .w1c⟩
def MFE_SCANSTAT_PASSES : Field := ⟨0x70024, 16, 16, 0x0, .rc⟩
def MFE_SETTLE_SETTLE : Field := ⟨0x70028, 0, 24, 0x0, .ro⟩
def MFE_SCANWIN_ENTRY : Field := ⟨0x7002C, 0, 6, 0x0, .rw⟩
def MFE_SCANDATA0_DATA0 : Field := ⟨0x70030, 0, 32, 0x0, .rw⟩
def MFE_SCANDATA1_DATA1 : Field := ⟨0x70034, 0, 32, 0x0, .rw⟩
def MFE_TIA0_EN : Field := ⟨0x70040, 0, 1, 0x0, .rw⟩
def MFE_TIA0_SRC : Field := ⟨0x70040, 1, 3, 0x0, .rw⟩
def MFE_TIA0_AUTO : Field := ⟨0x70040, 4, 1, 0x1, .rw⟩
def MFE_TIA0_RANGE : Field := ⟨0x70040, 5, 3, 0x0, .rw⟩
def MFE_TIA0_RLO : Field := ⟨0x70040, 8, 3, 0x0, .rw⟩
def MFE_TIA0_RHI : Field := ⟨0x70040, 11, 3, 0x5, .rw⟩
def MFE_TIA0_QUIET_SLOPE : Field := ⟨0x70040, 14, 8, 0x20, .rw⟩
def MFE_TIA0_DOWN_HOLD : Field := ⟨0x70040, 22, 4, 0x4, .rw⟩
def MFE_TIA0_SAT : Field := ⟨0x70040, 26, 1, 0x0, .ro⟩
def MFE_TIA1_EN : Field := ⟨0x70044, 0, 1, 0x0, .rw⟩
def MFE_TIA1_SRC : Field := ⟨0x70044, 1, 3, 0x0, .rw⟩
def MFE_TIA1_AUTO : Field := ⟨0x70044, 4, 1, 0x1, .rw⟩
def MFE_TIA1_RANGE : Field := ⟨0x70044, 5, 3, 0x0, .rw⟩
def MFE_TIA1_RLO : Field := ⟨0x70044, 8, 3, 0x0, .rw⟩
def MFE_TIA1_RHI : Field := ⟨0x70044, 11, 3, 0x5, .rw⟩
def MFE_TIA1_QUIET_SLOPE : Field := ⟨0x70044, 14, 8, 0x20, .rw⟩
def MFE_TIA1_DOWN_HOLD : Field := ⟨0x70044, 22, 4, 0x4, .rw⟩
def MFE_TIA1_SAT : Field := ⟨0x70044, 26, 1, 0x0, .ro⟩
def MFE_TIACNT_SW0 : Field := ⟨0x70048, 0, 16, 0x0, .rc⟩
def MFE_TIACNT_SW1 : Field := ⟨0x70048, 16, 16, 0x0, .rc⟩
def DCH_CHWIN_CH : Field := ⟨0x80000, 0, 6, 0x0, .rw⟩
def DCH_CHCFG_DEC_EXP : Field := ⟨0x80004, 0, 4, 0x4, .rw⟩
def DCH_CHCFG_NTAPS : Field := ⟨0x80004, 4, 7, 0x0, .rw⟩
def DCH_CHCFG_FIRBANK : Field := ⟨0x80004, 11, 3, 0x0, .rw⟩
def DCH_CHCFG_LIN_EN : Field := ⟨0x80004, 14, 1, 0x0, .rw⟩
def DCH_CHCFG_COEFSET : Field := ⟨0x80004, 15, 7, 0x0, .rw⟩
def DCH_CHCFG_TXMASK : Field := ⟨0x80004, 22, 4, 0xF, .rw⟩
def DCH_CHSTAT_TAG : Field := ⟨0x80008, 0, 2, 0x0, .ro⟩
def DCH_CHSTAT_PATH : Field := ⟨0x80008, 2, 1, 0x0, .ro⟩
def DCH_CHSTAT_SETTLE_LEFT : Field := ⟨0x80008, 4, 24, 0x0, .ro⟩
def DCH_GAINSEL_DOWN_HOLD : Field := ⟨0x8000C, 0, 8, 0x10, .rw⟩
def DCH_GAINSEL_PATHSW : Field := ⟨0x8000C, 16, 16, 0x0, .rc⟩
def DCH_FIRWIN_BANK : Field := ⟨0x80010, 0, 3, 0x0, .rw⟩
def DCH_FIRWIN_TAP : Field := ⟨0x80010, 3, 6, 0x0, .rw⟩
def DCH_FIRDATA_COEF : Field := ⟨0x80014, 0, 20, 0x0, .rw⟩
def DCH_DETWIN_DET : Field := ⟨0x80020, 0, 6, 0x0, .rw⟩
def DCH_DETCFG_TYPE : Field := ⟨0x80024, 0, 3, 0x0, .rw⟩
def DCH_DETCFG_SRC : Field := ⟨0x80024, 3, 6, 0x0, .rw⟩
def DCH_DETCFG_WIN : Field := ⟨0x80024, 9, 3, 0x0, .rw⟩
def DCH_DETCFG_EXPA : Field := ⟨0x80024, 12, 4, 0x0, .rw⟩
def DCH_DETCFG_EXPB : Field := ⟨0x80024, 16, 4, 0x0, .rw⟩
def DCH_DETCFG_CMP : Field := ⟨0x80024, 20, 2, 0x0, .rw⟩
def DCH_DETCFG_TRIG : Field := ⟨0x80024, 22, 1, 0x0, .rw⟩
def DCH_DETCFG_EVT : Field := ⟨0x80024, 23, 1, 0x0, .rw⟩
def DCH_DETCFG_REPORT : Field := ⟨0x80024, 24, 8, 0x0, .rw⟩
def DCH_DETPARAM_W : Field := ⟨0x80028, 0, 16, 0x1, .rw⟩
def DCH_DETTHR_THR : Field := ⟨0x8002C, 0, 32, 0x0, .rw⟩
def DCH_DETVAL0_VAL0 : Field := ⟨0x80030, 0, 32, 0x0, .ro⟩
def DCH_DETVAL1_VAL1 : Field := ⟨0x80034, 0, 32, 0x0, .ro⟩
def DCH_DETSTAT_TAG : Field := ⟨0x80038, 0, 2, 0x0, .ro⟩
def DCH_DETSTAT_BEYOND : Field := ⟨0x80038, 2, 1, 0x0, .ro⟩
def DCH_DETSTAT_CROSSINGS : Field := ⟨0x80038, 16, 16, 0x0, .rc⟩
def DCH_PHCFG_PHMASK : Field := ⟨0x80040, 0, 9, 0x0, .rw⟩
def DCH_PHCFG_RATE : Field := ⟨0x80040, 9, 2, 0x0, .rw⟩
def DCH_PHCFG_PHREF : Field := ⟨0x80040, 12, 4, 0x0, .rw⟩
def DCH_PQCFG_PQMASK : Field := ⟨0x80044, 0, 9, 0x0, .rw⟩
def DCH_PQCFG_SUPMASK : Field := ⟨0x80044, 9, 9, 0x0, .rw⟩
def DCH_PQCFG_REPLVL : Field := ⟨0x80044, 18, 4, 0x0, .rw⟩
def DCH_PQTHR_DIP_TH : Field := ⟨0x80048, 0, 8, 0x5A, .rw⟩
def DCH_PQTHR_SWELL_TH : Field := ⟨0x80048, 8, 8, 0x6E, .rw⟩
def DCH_PQTHR_INT_TH : Field := ⟨0x80048, 16, 8, 0x5, .rw⟩
def DCH_PQTHR_HYST : Field := ⟨0x80048, 24, 4, 0x2, .rw⟩
def DCH_UDIN0_UDIN : Field := ⟨0x80050, 0, 32, 0x0, .rw⟩
def DCH_UDIN1_UDIN : Field := ⟨0x80054, 0, 32, 0x0, .rw⟩
def DCH_UDIN2_UDIN : Field := ⟨0x80058, 0, 32, 0x0, .rw⟩
def DCH_UDIN3_UDIN : Field := ⟨0x8005C, 0, 32, 0x0, .rw⟩
def DCH_AGG_AGGOFS : Field := ⟨0x80060, 0, 24, 0x0, .ro⟩
def DCH_AGG_MOVES : Field := ⟨0x80060, 24, 8, 0x0, .rc⟩
def DCH_GALCFG_NCH : Field := ⟨0x80070, 0, 4, 0x0, .rw⟩
def DCH_GALCFG_PRE : Field := ⟨0x80070, 4, 4, 0x4, .rw⟩
def DCH_GALCFG_DECIM : Field := ⟨0x80070, 8, 3, 0x0, .rw⟩
def DCH_GALCH0_CH0 : Field := ⟨0x80074, 0, 6, 0x0, .rw⟩
def DCH_GALCH0_CH1 : Field := ⟨0x80074, 8, 6, 0x0, .rw⟩
def DCH_GALCH0_CH2 : Field := ⟨0x80074, 16, 6, 0x0, .rw⟩
def DCH_GALCH0_CH3 : Field := ⟨0x80074, 24, 6, 0x0, .rw⟩
def DCH_GALCH1_CH0 : Field := ⟨0x80078, 0, 6, 0x0, .rw⟩
def DCH_GALCH1_CH1 : Field := ⟨0x80078, 8, 6, 0x0, .rw⟩
def DCH_GALCH1_CH2 : Field := ⟨0x80078, 16, 6, 0x0, .rw⟩
def DCH_GALCH1_CH3 : Field := ⟨0x80078, 24, 6, 0x0, .rw⟩
def DCH_GALCTL_ARM : Field := ⟨0x8007C, 0, 1, 0x0, .wo⟩
def DCH_GALCTL_TRIG : Field := ⟨0x8007C, 1, 1, 0x0, .wo⟩
def DCH_GALCTL_ABORT : Field := ⟨0x8007C, 2, 1, 0x0, .wo⟩
def DCH_GALSTAT_STATE : Field := ⟨0x80080, 0, 2, 0x0, .ro⟩
def DCH_GALSTAT_LEAVE : Field := ⟨0x80080, 2, 2, 0x0, .ro⟩
def DCH_GALSTAT_FAILED : Field := ⟨0x80080, 4, 1, 0x0, .w1c⟩
def DCH_GALSTAT_ABORTED : Field := ⟨0x80080, 5, 1, 0x0, .w1c⟩
def DCH_GALSTAT_LATETRIG : Field := ⟨0x80080, 16, 16, 0x0, .rc⟩
def DCH_TAGCNT_TXBLANK : Field := ⟨0x80090, 0, 16, 0x0, .rc⟩
def DCH_TAGCNT_OVRSAMP : Field := ⟨0x80090, 16, 16, 0x0, .rc⟩
def DCH_LINSET_SET : Field := ⟨0x800A0, 0, 7, 0x0, .rw⟩
def DCH_LINSET_LOAD : Field := ⟨0x800A0, 8, 1, 0x0, .wo⟩
def DCH_LINSET_COMMIT : Field := ⟨0x800A0, 9, 1, 0x0, .wo⟩
def DCH_LINSET_PENDING : Field := ⟨0x800A0, 10, 1, 0x0, .ro⟩
def DCH_LINIDX_WORD : Field := ⟨0x800A4, 0, 5, 0x0, .rw⟩
def DCH_LINDATA_DATA : Field := ⟨0x800A8, 0, 32, 0x0, .rw⟩
def DCH_LINSTAT_LASTSET : Field := ⟨0x800AC, 0, 7, 0x0, .ro⟩
def DCH_LINSTAT_REJECT : Field := ⟨0x800AC, 8, 4, 0x0, .ro⟩
def DCH_LINSTAT_SATCNT : Field := ⟨0x800AC, 16, 16, 0x0, .rc⟩
def DCH_PTRIM0_HGAIN : Field := ⟨0x800B0, 0, 16, 0x0, .rwl⟩
def DCH_PTRIM0_HOFS : Field := ⟨0x800B0, 16, 16, 0x0, .rwl⟩
def DCH_PTRIM1_HGAIN : Field := ⟨0x800B4, 0, 16, 0x0, .rwl⟩
def DCH_PTRIM1_HOFS : Field := ⟨0x800B4, 16, 16, 0x0, .rwl⟩
def DCH_PTRIM2_HGAIN : Field := ⟨0x800B8, 0, 16, 0x0, .rwl⟩
def DCH_PTRIM2_HOFS : Field := ⟨0x800B8, 16, 16, 0x0, .rwl⟩
def DCH_PTRIM3_HGAIN : Field := ⟨0x800BC, 0, 16, 0x0, .rwl⟩
def DCH_PTRIM3_HOFS : Field := ⟨0x800BC, 16, 16, 0x0, .rwl⟩
def DCH_PFORCE_FORCE0 : Field := ⟨0x800C0, 0, 2, 0x0, .rwl⟩
def DCH_PFORCE_FORCE1 : Field := ⟨0x800C0, 2, 2, 0x0, .rwl⟩
def DCH_PFORCE_FORCE2 : Field := ⟨0x800C0, 4, 2, 0x0, .rwl⟩
def DCH_PFORCE_FORCE3 : Field := ⟨0x800C0, 6, 2, 0x0, .rwl⟩
def DCH_DIETEMP_TJ : Field := ⟨0x800C4, 0, 32, 0x0, .ro⟩
def LCE_STAT_STATE : Field := ⟨0x90000, 0, 2, 0x0, .ro⟩
def LCE_STAT_GEN : Field := ⟨0x90000, 16, 16, 0x0, .ro⟩
def LCE_TICK_TICK : Field := ⟨0x90004, 0, 32, 0x0, .ro⟩
def LCE_TBLWIN_TABLE : Field := ⟨0x90008, 0, 2, 0x0, .rw⟩
def LCE_TBLWIN_INDEX : Field := ⟨0x90008, 2, 8, 0x0, .rw⟩
def LCE_TBLWIN_WORD : Field := ⟨0x90008, 10, 7, 0x0, .rw⟩
def LCE_TBLWIN_LOAD : Field := ⟨0x90008, 17, 1, 0x0, .wo⟩
def LCE_TBLWIN_COMMIT : Field := ⟨0x90008, 18, 1, 0x0, .wo⟩
def LCE_TBLWIN_PENDING : Field := ⟨0x90008, 19, 1, 0x0, .ro⟩
def LCE_TBLWIN_REJECT : Field := ⟨0x90008, 20, 4, 0x0, .ro⟩
def LCE_TBLDATA_DATA : Field := ⟨0x9000C, 0, 32, 0x0, .rw⟩
def LCE_OBJWIN_KIND : Field := ⟨0x90010, 0, 2, 0x0, .rw⟩
def LCE_OBJWIN_INDEX : Field := ⟨0x90010, 2, 8, 0x0, .rw⟩
def LCE_OBJSTAT0_STAT0 : Field := ⟨0x90014, 0, 32, 0x0, .ro⟩
def LCE_OBJSTAT1_STAT1 : Field := ⟨0x90018, 0, 32, 0x0, .ro⟩
def LCE_DOCFG0_PIN0 : Field := ⟨0x90020, 0, 4, 0x8, .rwl⟩
def LCE_DOCFG0_PIN1 : Field := ⟨0x90020, 4, 4, 0x8, .rwl⟩
def LCE_DOCFG0_PIN2 : Field := ⟨0x90020, 8, 4, 0x8, .rwl⟩
def LCE_DOCFG0_PIN3 : Field := ⟨0x90020, 12, 4, 0x8, .rwl⟩
def LCE_DOCFG0_PIN4 : Field := ⟨0x90020, 16, 4, 0x8, .rwl⟩
def LCE_DOCFG0_PIN5 : Field := ⟨0x90020, 20, 4, 0x8, .rwl⟩
def LCE_DOCFG0_PIN6 : Field := ⟨0x90020, 24, 4, 0x8, .rwl⟩
def LCE_DOCFG0_PIN7 : Field := ⟨0x90020, 28, 4, 0x8, .rwl⟩
def LCE_DOCFG1_PIN0 : Field := ⟨0x90024, 0, 4, 0x8, .rwl⟩
def LCE_DOCFG1_PIN1 : Field := ⟨0x90024, 4, 4, 0x8, .rwl⟩
def LCE_DOCFG1_PIN2 : Field := ⟨0x90024, 8, 4, 0x8, .rwl⟩
def LCE_DOCFG1_PIN3 : Field := ⟨0x90024, 12, 4, 0x8, .rwl⟩
def LCE_DOCFG1_PIN4 : Field := ⟨0x90024, 16, 4, 0x8, .rwl⟩
def LCE_DOCFG1_PIN5 : Field := ⟨0x90024, 20, 4, 0x8, .rwl⟩
def LCE_DOCFG1_PIN6 : Field := ⟨0x90024, 24, 4, 0x8, .rwl⟩
def LCE_DOCFG1_PIN7 : Field := ⟨0x90024, 28, 4, 0x8, .rwl⟩
def LCE_AOSAFE0_CODE : Field := ⟨0x90028, 0, 16, 0x0, .rwl⟩
def LCE_AOSAFE0_HIZ : Field := ⟨0x90028, 16, 1, 0x1, .rwl⟩
def LCE_AOSAFE1_CODE : Field := ⟨0x9002C, 0, 16, 0x0, .rwl⟩
def LCE_AOSAFE1_HIZ : Field := ⟨0x9002C, 16, 1, 0x1, .rwl⟩
def LCE_DICFG_DEB : Field := ⟨0x90030, 0, 16, 0x3E8, .rw⟩
def LCE_DI_LEVEL : Field := ⟨0x90034, 0, 16, 0x0, .ro⟩
def LCE_EVMASK0_MASK : Field := ⟨0x90038, 0, 32, 0x0, .rw⟩
def LCE_EVMASK1_MASK : Field := ⟨0x9003C, 0, 32, 0x0, .rw⟩
def LCE_TESTDO_VAL : Field := ⟨0x90040, 0, 16, 0x0, .rwl⟩
def LCE_TESTDO_EN : Field := ⟨0x90040, 16, 16, 0x0, .rwl⟩
def LCE_TESTAO0_CODE : Field := ⟨0x90044, 0, 16, 0x0, .rwl⟩
def LCE_TESTAO0_EN : Field := ⟨0x90044, 16, 1, 0x0, .rwl⟩
def LCE_TESTAO1_CODE : Field := ⟨0x90048, 0, 16, 0x0, .rwl⟩
def LCE_TESTAO1_EN : Field := ⟨0x90048, 16, 1, 0x0, .rwl⟩
def LCE_CNT0_CONFLICT : Field := ⟨0x90050, 0, 8, 0x0, .rc⟩
def LCE_CNT0_ILKREF : Field := ⟨0x90050, 8, 8, 0x0, .rc⟩
def LCE_CNT0_MBXDROP : Field := ⟨0x90050, 16, 8, 0x0, .rc⟩
def LCE_CNT0_SKIPS : Field := ⟨0x90050, 24, 8, 0x0, .rc⟩
def LCE_CNT1_LOCKREF : Field := ⟨0x90054, 0, 8, 0x0, .rc⟩
def LCE_CNT1_EXPIRED : Field := ⟨0x90054, 8, 8, 0x0, .rc⟩
def LCE_CNT1_ABORTS : Field := ⟨0x90054, 16, 8, 0x0, .rc⟩
def LCE_CNT1_SENDDROP : Field := ⟨0x90054, 24, 8, 0x0, .rc⟩
def ERF_CFG_PAIR_EN : Field := ⟨0xD0000, 0, 1, 0x0, .rwl⟩
def ERF_CFG_UNSYNC_OK : Field := ⟨0xD0000, 1, 1, 0x0, .rw⟩
def ERF_CFG_DEAD_COUNT : Field := ⟨0xD0000, 4, 8, 0x10, .rw⟩
def ERF_CTL_PROMOTE : Field := ⟨0xD0004, 0, 1, 0x0, .wo⟩
def ERF_CTL_RESYNC : Field := ⟨0xD0004, 1, 1, 0x0, .wo⟩
def ERF_STAT_ROLE : Field := ⟨0xD0008, 0, 2, 0x0, .ro⟩
def ERF_STAT_PEER : Field := ⟨0xD0008, 2, 2, 0x0, .ro⟩
def ERF_STAT_SYNCED : Field := ⟨0xD0008, 4, 1, 0x0, .ro⟩
def ERF_STAT_PAIR_ID : Field := ⟨0xD0008, 5, 1, 0x0, .ro⟩
def ERF_STAT_OWN_OUT : Field := ⟨0xD0008, 6, 1, 0x0, .ro⟩
def ERF_STAT_OWN_IN : Field := ⟨0xD0008, 7, 1, 0x0, .ro⟩
def ERF_STAT_GATE : Field := ⟨0xD0008, 8, 1, 0x0, .ro⟩
def ERF_STAT_LANES_RX : Field := ⟨0xD0008, 9, 2, 0x0, .ro⟩
def ERF_STAT_LANES_TX : Field := ⟨0xD0008, 11, 2, 0x0, .ro⟩
def ERF_STAT_STRAPERR : Field := ⟨0xD0008, 13, 1, 0x0, .w1c⟩
def ERF_EPOCH_EPOCH : Field := ⟨0xD000C, 0, 32, 0x0, .ro⟩
def ERF_PEEREPOCH_EPOCH : Field := ⟨0xD0010, 0, 32, 0x0, .ro⟩
def ERF_MIRSTAT_LAG : Field := ⟨0xD0014, 0, 16, 0x0, .ro⟩
def ERF_MIRSTAT_COPY : Field := ⟨0xD0014, 16, 7, 0x0, .ro⟩
def ERF_MIRSTAT_RESYNCS : Field := ⟨0xD0014, 24, 8, 0x0, .rc⟩
def ERF_LINKCNT_CRCERR : Field := ⟨0xD0018, 0, 16, 0x0, .rc⟩
def ERF_LINKCNT_NAKS : Field := ⟨0xD0018, 16, 8, 0x0, .rc⟩
def ERF_LINKCNT_LANEDROP : Field := ⟨0xD0018, 24, 8, 0x0, .rc⟩
def ERF_TAKEOVER_TAKEOVERS : Field := ⟨0xD001C, 0, 8, 0x0, .rc⟩
def ERF_TAKEOVER_DEMOTIONS : Field := ⟨0xD001C, 8, 8, 0x0, .rc⟩
def ERF_TAKEOVER_LASTDUR : Field := ⟨0xD001C, 16, 16, 0x0, .ro⟩
def ERF_OWNCNT_TIES : Field := ⟨0xD0020, 0, 16, 0x0, .rc⟩
def ERF_OWNCNT_LOSSES : Field := ⟨0xD0020, 16, 16, 0x0, .rc⟩
def SEC_STAT_TRNG : Field := ⟨0xA0000, 0, 2, 0x0, .ro⟩
def SEC_STAT_NODEKEY : Field := ⟨0xA0000, 2, 1, 0x0, .ro⟩
def SEC_STAT_CERT : Field := ⟨0xA0000, 3, 1, 0x0, .ro⟩
def SEC_STAT_AUTHKEY : Field := ⟨0xA0000, 4, 1, 0x0, .ro⟩
def SEC_STAT_PAIRKEY : Field := ⟨0xA0000, 5, 1, 0x0, .ro⟩
def SEC_STAT_OTPFAIL : Field := ⟨0xA0000, 6, 1, 0x0, .w1c⟩
def SEC_STAT_OPKEYS : Field := ⟨0xA0000, 8, 4, 0x0, .ro⟩
def SEC_STAT_HOSTKEYS : Field := ⟨0xA0000, 12, 4, 0x0, .ro⟩
def SEC_STAT_GKEYID : Field := ⟨0xA0000, 16, 8, 0x0, .ro⟩
def SEC_STAT_GPEND : Field := ⟨0xA0000, 24, 1, 0x0, .ro⟩
def SEC_BOOTSTAT_SLOT : Field := ⟨0xA0004, 0, 1, 0x0, .ro⟩
def SEC_BOOTSTAT_ACAUSE : Field := ⟨0xA0004, 1, 3, 0x0, .ro⟩
def SEC_BOOTSTAT_BCAUSE : Field := ⟨0xA0004, 4, 3, 0x0, .ro⟩
def SEC_BOOTSTAT_UNPROV : Field := ⟨0xA0004, 7, 1, 0x0, .ro⟩
def SEC_BOOTSTAT_LEVEL : Field := ⟨0xA0004, 8, 7, 0x0, .ro⟩
def SEC_BOOTSTAT_IMGRB : Field := ⟨0xA0004, 16, 7, 0x0, .ro⟩
def SEC_VERSION_VERSION : Field := ⟨0xA0008, 0, 32, 0x0, .ro⟩
def SEC_OTPSTAT_ROOTLOCK : Field := ⟨0xA000C, 0, 1, 0x0, .ro⟩
def SEC_OTPSTAT_DBGCLOSED : Field := ⟨0xA000C, 1, 1, 0x0, .ro⟩
def SEC_OTPSTAT_UNTRUSTED : Field := ⟨0xA000C, 2, 3, 0x0, .ro⟩
def SEC_DEVPUB0_KEY : Field := ⟨0xA0010, 0, 32, 0x0, .ro⟩
def SEC_DEVPUB1_KEY : Field := ⟨0xA0014, 0, 32, 0x0, .ro⟩
def SEC_DEVPUB2_KEY : Field := ⟨0xA0018, 0, 32, 0x0, .ro⟩
def SEC_DEVPUB3_KEY : Field := ⟨0xA001C, 0, 32, 0x0, .ro⟩
def SEC_DEVPUB4_KEY : Field := ⟨0xA0020, 0, 32, 0x0, .ro⟩
def SEC_DEVPUB5_KEY : Field := ⟨0xA0024, 0, 32, 0x0, .ro⟩
def SEC_DEVPUB6_KEY : Field := ⟨0xA0028, 0, 32, 0x0, .ro⟩
def SEC_DEVPUB7_KEY : Field := ⟨0xA002C, 0, 32, 0x0, .ro⟩
def SEC_SESSION_SPI : Field := ⟨0xA0030, 0, 2, 0x0, .ro⟩
def SEC_SESSION_UART : Field := ⟨0xA0030, 2, 2, 0x0, .ro⟩
def SEC_SESSION_ETH : Field := ⟨0xA0030, 4, 2, 0x0, .ro⟩
def SEC_CFG_SESSIDLE : Field := ⟨0xA0034, 0, 16, 0x258, .rw⟩
def SEC_CFG_REKEY_EN : Field := ⟨0xA0034, 16, 1, 0x1, .rw⟩
def SEC_CNT_AUTHFAIL : Field := ⟨0xA0038, 0, 8, 0x0, .rc⟩
def SEC_CNT_REPLAY : Field := ⟨0xA0038, 8, 8, 0x0, .rc⟩
def SEC_CNT_CERTFAIL : Field := ⟨0xA0038, 16, 8, 0x0, .rc⟩
def SEC_CNT_TRNGFAIL : Field := ⟨0xA0038, 24, 8, 0x0, .rc⟩
def SEC_KEYCNT_REKEYS : Field := ⟨0xA003C, 0, 16, 0x0, .rc⟩
def SEC_KEYCNT_GKEYCHG : Field := ⟨0xA003C, 16, 8, 0x0, .rc⟩
def MQF_CFG_SCRUB_PERIOD : Field := ⟨0xB0000, 0, 12, 0x3C, .rw⟩
def MQF_CFG_EMERG : Field := ⟨0xB0000, 12, 1, 0x0, .rw⟩
def MQF_BANKMODE_GUARDED : Field := ⟨0xB0004, 0, 16, 0x0, .rw⟩
def MQF_CLASS_URGENT : Field := ⟨0xB0008, 0, 12, 0xDC, .rw⟩
def MQF_ECCWIN_TARGET : Field := ⟨0xB0010, 0, 5, 0x0, .rw⟩
def MQF_ECCSC_SINGLE : Field := ⟨0xB0014, 0, 32, 0x0, .rc⟩
def MQF_ECCDC_DOUBLE : Field := ⟨0xB0018, 0, 32, 0x0, .rc⟩
def MQF_ECCUE_UNCORR : Field := ⟨0xB001C, 0, 32, 0x0, .rc⟩
def MQF_ECCLAST_WORD : Field := ⟨0xB0020, 0, 18, 0x0, .ro⟩
def MQF_ECCLAST_QUEUE : Field := ⟨0xB0020, 30, 1, 0x0, .ro⟩
def MQF_ECCLAST_VALID : Field := ⟨0xB0020, 31, 1, 0x0, .w1c⟩
def MQF_SCRUB_POS : Field := ⟨0xB0024, 0, 18, 0x0, .ro⟩
def MQF_SCRUB_INQUEUE : Field := ⟨0xB0024, 18, 1, 0x0, .ro⟩
def MQF_SCRUB_PASSES : Field := ⟨0xB0024, 24, 8, 0x0, .rc⟩
def MQF_QWIN_QUEUE : Field := ⟨0xB0030, 0, 4, 0x0, .rw⟩
def MQF_QSTAT_USED : Field := ⟨0xB0034, 0, 12, 0x0, .ro⟩
def MQF_QSTAT_PKTS : Field := ⟨0xB0034, 12, 11, 0x0, .ro⟩
def MQF_QSTAT_GAP : Field := ⟨0xB0034, 23, 1, 0x0, .ro⟩
def MQF_QSTAT_OPEN : Field := ⟨0xB0034, 24, 1, 0x0, .ro⟩
def MQF_QDROP_FULL : Field := ⟨0xB0038, 0, 16, 0x0, .rc⟩
def MQF_QDROP_OVERSIZE : Field := ⟨0xB0038, 16, 8, 0x0, .rc⟩
def MQF_QDROP_ZLP : Field := ⟨0xB0038, 24, 8, 0x0, .rc⟩
def MQF_QMISC_REWINDS : Field := ⟨0xB003C, 0, 16, 0x0, .rc⟩
def MQF_QMISC_POISON : Field := ⟨0xB003C, 16, 8, 0x0, .rc⟩
def MQF_ARBWIN_BANK : Field := ⟨0xB0040, 0, 4, 0x0, .rw⟩
def MQF_ARBWIN_REQ : Field := ⟨0xB0040, 4, 4, 0x0, .rw⟩
def MQF_ARBGRANT_GRANTS : Field := ⟨0xB0044, 0, 32, 0x0, .rc⟩
def MQF_ARBWAIT_WAITS : Field := ⟨0xB0048, 0, 32, 0x0, .rc⟩
def MQF_ARBSTAT_LONGEST : Field := ⟨0xB004C, 0, 16, 0x0, .rc⟩
def MQF_ARBSTAT_RANK : Field := ⟨0xB004C, 16, 4, 0x0, .ro⟩
def MQF_ARBSTAT_POS : Field := ⟨0xB004C, 20, 4, 0x0, .ro⟩
def MQF_ARBSTAT_WAIT : Field := ⟨0xB004C, 24, 8, 0x0, .ro⟩
def HCP_CFG_DELIVER : Field := ⟨0xC0000, 0, 2, 0x0, .ro⟩
def HCP_CFG_FLOW : Field := ⟨0xC0000, 2, 1, 0x0, .ro⟩
def HCP_CFG_NODELIV : Field := ⟨0xC0000, 16, 16, 0x0, .rc⟩
def HCP_UART_BAUD : Field := ⟨0xC0004, 0, 22, 0x1C200, .ro⟩
def HCP_EVMASK0_MASK : Field := ⟨0xC0010, 0, 16, 0x0, .ro⟩
def HCP_EVMASK1_MASK : Field := ⟨0xC0014, 0, 16, 0x0, .ro⟩
def HCP_EVMASK2_MASK : Field := ⟨0xC0018, 0, 16, 0x0, .ro⟩
def HCP_CNT0_CRCERR : Field := ⟨0xC0020, 0, 8, 0x0, .rc⟩
def HCP_CNT0_DUPS : Field := ⟨0xC0020, 8, 8, 0x0, .rc⟩
def HCP_CNT0_OVERFLOW : Field := ⟨0xC0020, 16, 8, 0x0, .rc⟩
def HCP_CNT0_EVDROP : Field := ⟨0xC0020, 24, 8, 0x0, .rc⟩
def HCP_CNT1_CRCERR : Field := ⟨0xC0024, 0, 8, 0x0, .rc⟩
def HCP_CNT1_DUPS : Field := ⟨0xC0024, 8, 8, 0x0, .rc⟩
def HCP_CNT1_OVERFLOW : Field := ⟨0xC0024, 16, 8, 0x0, .rc⟩
def HCP_CNT1_EVDROP : Field := ⟨0xC0024, 24, 8, 0x0, .rc⟩
def HCP_CNT2_CRCERR : Field := ⟨0xC0028, 0, 8, 0x0, .rc⟩
def HCP_CNT2_DUPS : Field := ⟨0xC0028, 8, 8, 0x0, .rc⟩
def HCP_CNT2_OVERFLOW : Field := ⟨0xC0028, 16, 8, 0x0, .rc⟩
def HCP_CNT2_EVDROP : Field := ⟨0xC0028, 24, 8, 0x0, .rc⟩
def HCP_IP0_ADDR : Field := ⟨0xC0030, 0, 32, 0x0, .ro⟩
def HCP_IP1_ADDR : Field := ⟨0xC0034, 0, 32, 0x0, .ro⟩
def HCP_IP2_ADDR : Field := ⟨0xC0038, 0, 32, 0x0, .ro⟩
def HCP_IP3_ADDR : Field := ⟨0xC003C, 0, 32, 0x0, .ro⟩
def HCP_UDP_LPORT : Field := ⟨0xC0040, 0, 16, 0xC79C, .ro⟩
def HCP_UDP_EVPORT : Field := ⟨0xC0040, 16, 16, 0x0, .ro⟩
def HCP_MAC_LO_MAC_LO : Field := ⟨0xC0044, 0, 32, 0x0, .ro⟩
def HCP_MAC_HI_MAC_HI : Field := ⟨0xC0048, 0, 16, 0x0, .ro⟩
def PMU_SUPPLY_GOOD : Field := ⟨0x300, 0, 4, 0xF, .ro⟩
def PMU_SUPPLY_OV : Field := ⟨0x300, 4, 4, 0x0, .w1c⟩
def PMU_RSTCAUSE_SUPPLY : Field := ⟨0x304, 0, 1, 0x0, .w1c⟩
def PMU_RSTCAUSE_CLKFAIL : Field := ⟨0x304, 1, 1, 0x0, .w1c⟩
def PMU_RSTCAUSE_THERMEND : Field := ⟨0x304, 2, 1, 0x0, .w1c⟩
def PMU_RSTCAUSE_RESETN : Field := ⟨0x304, 3, 1, 0x0, .w1c⟩
def PMU_RSTCAUSE_DEVRESET : Field := ⟨0x304, 4, 1, 0x0, .w1c⟩
def PMU_RSTCAUSE_WDOG2 : Field := ⟨0x304, 5, 1, 0x0, .w1c⟩
def PMU_RSTCAUSE_JTAG : Field := ⟨0x304, 6, 1, 0x0, .w1c⟩
def PMU_RSTCAUSE_RAIL : Field := ⟨0x304, 8, 4, 0x0, .w1c⟩
def PMU_RSTCAUSE_CORERST : Field := ⟨0x304, 16, 8, 0x0, .rc⟩
def PMU_RSTCTL_WDT_MS : Field := ⟨0x308, 0, 16, 0x1F4, .rwl⟩
def PMU_THERM_TJ : Field := ⟨0x30C, 0, 12, 0x0, .ro⟩
def PMU_THERM_FOLD : Field := ⟨0x30C, 12, 1, 0x0, .ro⟩
def PMU_THERM_HOT : Field := ⟨0x30C, 13, 1, 0x0, .ro⟩
def PMU_THERM_TJMAX : Field := ⟨0x30C, 16, 12, 0x0, .rc⟩
def PMU_CLKSTAT0_RUN0 : Field := ⟨0x310, 0, 32, 0x7, .ro⟩
def PMU_CLKSTAT1_RUN1 : Field := ⟨0x314, 0, 8, 0x0, .ro⟩
def PMU_PLLSTAT_LOCK : Field := ⟨0x318, 0, 4, 0x0, .ro⟩
def PMU_PLLSTAT_XO_OK : Field := ⟨0x318, 4, 1, 0x0, .ro⟩
def PMU_PLLSTAT_RTCKLOST : Field := ⟨0x318, 5, 1, 0x0, .w1c⟩
def PMU_PLLSTAT_MLOSS : Field := ⟨0x318, 8, 8, 0x0, .rc⟩
def PMU_BOOTTIME_TOFW : Field := ⟨0x31C, 0, 16, 0x0, .ro⟩
def PMU_BOOTTIME_TOMODE : Field := ⟨0x31C, 16, 16, 0x0, .ro⟩
end F

/-- One row of the register table: address (of port 0 where per port), number of ports, fields. -/
structure RegDef where
  addr : Nat
  ports : Nat
  fields : Nat → List Field

/-- Registers of PMU (R455). -/
def regsPMU : List RegDef := [
  ⟨0x0, 1, fun _ => [F.PMU_IDREV_PART, F.PMU_IDREV_MAJOR, F.PMU_IDREV_MINOR, F.PMU_IDREV_ROMREV]⟩,
  ⟨0x100, 1, fun _ => [F.PMU_MODE_MODE, F.PMU_MODE_PREV, F.PMU_MODE_BUSY, F.PMU_MODE_PAIRED, F.PMU_MODE_RECOVERY]⟩,
  ⟨0x104, 1, fun _ => [F.PMU_MODECTL_REQ]⟩,
  ⟨0x108, 1, fun _ => [F.PMU_SAFECAUSE_MEMPOISON, F.PMU_SAFECAUSE_WDOG, F.PMU_SAFECAUSE_THERM140, F.PMU_SAFECAUSE_OWNLOST, F.PMU_SAFECAUSE_HOSTCMD, F.PMU_SAFECAUSE_THERM150]⟩,
  ⟨0x10C, 1, fun _ => [F.PMU_ROOSTCTL_HWAKE_EN, F.PMU_ROOSTCTL_DIWAKE_EN, F.PMU_ROOSTCTL_DIWAKE_EDGE, F.PMU_ROOSTCTL_DIWAKE_SEL]⟩,
  ⟨0x200, 1, fun _ => [F.PMU_LEAVE_BUDGET_BUDGET, F.PMU_LEAVE_BUDGET_ROOST_BUDGET]⟩,
  ⟨0x204, 1, fun _ => [F.PMU_LEAVE_USED_USED, F.PMU_LEAVE_USED_HOLDERS]⟩,
  ⟨0x208, 1, fun _ => [F.PMU_LEAVE_POLICY_POL0, F.PMU_LEAVE_POLICY_POL1, F.PMU_LEAVE_POLICY_POL2, F.PMU_LEAVE_POLICY_POL3, F.PMU_LEAVE_POLICY_POL4, F.PMU_LEAVE_POLICY_POL5, F.PMU_LEAVE_POLICY_POL6, F.PMU_LEAVE_POLICY_POL7, F.PMU_LEAVE_POLICY_POL8, F.PMU_LEAVE_POLICY_POL9, F.PMU_LEAVE_POLICY_POL10]⟩,
  ⟨0x20C, 1, fun _ => [F.PMU_LEAVE_WAITMAX_WAITMAX]⟩,
  ⟨0x210, 1, fun _ => [F.PMU_LEAVE_LPCOST0_STEP9, F.PMU_LEAVE_LPCOST0_STEP10, F.PMU_LEAVE_LPCOST0_STEP11, F.PMU_LEAVE_LPCOST0_STEP12]⟩,
  ⟨0x214, 1, fun _ => [F.PMU_LEAVE_LPCOST1_STEP13, F.PMU_LEAVE_LPCOST1_STEP14, F.PMU_LEAVE_LPCOST1_STEP15]⟩,
  ⟨0x218, 1, fun _ => [F.PMU_LEAVE_COST0_RFX, F.PMU_LEAVE_COST0_EXC, F.PMU_LEAVE_COST0_GALLERY, F.PMU_LEAVE_COST0_SIGBURST]⟩,
  ⟨0x21C, 1, fun _ => [F.PMU_LEAVE_COST1_SWEEP, F.PMU_LEAVE_COST1_FLASH, F.PMU_LEAVE_COST1_OTP]⟩,
  ⟨0x220, 1, fun _ => [F.PMU_LEAVE_DENY_REFUSALS, F.PMU_LEAVE_DENY_FAILS]⟩,
  ⟨0x300, 1, fun _ => [F.PMU_SUPPLY_GOOD, F.PMU_SUPPLY_OV]⟩,
  ⟨0x304, 1, fun _ => [F.PMU_RSTCAUSE_SUPPLY, F.PMU_RSTCAUSE_CLKFAIL, F.PMU_RSTCAUSE_THERMEND, F.PMU_RSTCAUSE_RESETN, F.PMU_RSTCAUSE_DEVRESET, F.PMU_RSTCAUSE_WDOG2, F.PMU_RSTCAUSE_JTAG, F.PMU_RSTCAUSE_RAIL, F.PMU_RSTCAUSE_CORERST]⟩,
  ⟨0x308, 1, fun _ => [F.PMU_RSTCTL_WDT_MS]⟩,
  ⟨0x30C, 1, fun _ => [F.PMU_THERM_TJ, F.PMU_THERM_FOLD, F.PMU_THERM_HOT, F.PMU_THERM_TJMAX]⟩,
  ⟨0x310, 1, fun _ => [F.PMU_CLKSTAT0_RUN0]⟩,
  ⟨0x314, 1, fun _ => [F.PMU_CLKSTAT1_RUN1]⟩,
  ⟨0x318, 1, fun _ => [F.PMU_PLLSTAT_LOCK, F.PMU_PLLSTAT_XO_OK, F.PMU_PLLSTAT_RTCKLOST, F.PMU_PLLSTAT_MLOSS]⟩,
  ⟨0x31C, 1, fun _ => [F.PMU_BOOTTIME_TOFW, F.PMU_BOOTTIME_TOMODE]⟩]

/-- Registers of TBU (R455). -/
def regsTBU : List RegDef := [
  ⟨0x10000, 1, fun _ => [F.TBU_CFG_NOMF, F.TBU_CFG_ROOT, F.TBU_CFG_FALLBACK_EN, F.TBU_CFG_TRACK_SHIFT, F.TBU_CFG_SYNCIN_EN, F.TBU_CFG_SYNCOUT_SEL, F.TBU_CFG_PHTOL, F.TBU_CFG_SYNC_WINDOW]⟩,
  ⟨0x10004, 1, fun _ => [F.TBU_STAT_STATE, F.TBU_STAT_SRC, F.TBU_STAT_NOMF_ACT, F.TBU_STAT_SYMS, F.TBU_STAT_TLOCK, F.TBU_STAT_TSTEP, F.TBU_STAT_REALIGN, F.TBU_STAT_CNTFIX, F.TBU_STAT_REJECTS, F.TBU_STAT_NOMFMISS]⟩,
  ⟨0x10008, 1, fun _ => [F.TBU_MCPERIOD_PERIOD]⟩,
  ⟨0x1000C, 1, fun _ => [F.TBU_FREQ_FREQ]⟩,
  ⟨0x10010, 1, fun _ => [F.TBU_POS_PSLOT, F.TBU_POS_ASLOT, F.TBU_POS_MCYCLE]⟩,
  ⟨0x10014, 1, fun _ => [F.TBU_SFNUM_SFNUM]⟩,
  ⟨0x10018, 1, fun _ => [F.TBU_TIME_LO_TIME_LO]⟩,
  ⟨0x1001C, 1, fun _ => [F.TBU_TIME_HI_TIME_HI]⟩,
  ⟨0x10020, 1, fun _ => [F.TBU_TIMESET_LO_SET_LO]⟩,
  ⟨0x10024, 1, fun _ => [F.TBU_TIMESET_HI_SET_HI]⟩,
  ⟨0x10028, 1, fun _ => [F.TBU_TRIM_TRIM]⟩,
  ⟨0x1002C, 1, fun _ => [F.TBU_DBO_DBO, F.TBU_DBO_DOFS]⟩,
  ⟨0x10030, 1, fun _ => [F.TBU_REEPOCH_SHIFT, F.TBU_REEPOCH_COUNT]⟩,
  ⟨0x10034, 1, fun _ => [F.TBU_SYNCIN_ERR, F.TBU_SYNCIN_REJ]⟩,
  ⟨0x10038, 1, fun _ => [F.TBU_PORTANG0_ANGLE_A, F.TBU_PORTANG0_VALID_A, F.TBU_PORTANG0_ANGLE_B, F.TBU_PORTANG0_VALID_B]⟩,
  ⟨0x1003C, 1, fun _ => [F.TBU_PORTANG1_ANGLE_A, F.TBU_PORTANG1_VALID_A, F.TBU_PORTANG1_ANGLE_B, F.TBU_PORTANG1_VALID_B]⟩,
  ⟨0x10040, 1, fun _ => [F.TBU_LAT0_TXLAT, F.TBU_LAT0_RXLAT]⟩,
  ⟨0x10044, 1, fun _ => [F.TBU_LAT1_TXLAT, F.TBU_LAT1_RXLAT]⟩,
  ⟨0x10048, 1, fun _ => [F.TBU_LAT2_TXLAT, F.TBU_LAT2_RXLAT]⟩,
  ⟨0x1004C, 1, fun _ => [F.TBU_LAT3_TXLAT, F.TBU_LAT3_RXLAT]⟩]

/-- Registers of LPA (R455). -/
def regsLPA : List RegDef := [
  ⟨0x20000, 4, fun n => [F.LPA_CTL_EN n, F.LPA_CTL_XMODE n, F.LPA_CTL_XSENSE n, F.LPA_CTL_ILIM n, F.LPA_CTL_FOLDSTEP n, F.LPA_CTL_XISCALE n]⟩,
  ⟨0x20004, 4, fun n => [F.LPA_LEVEL_DATA_LEVEL n, F.LPA_LEVEL_BEACON_LEVEL n, F.LPA_LEVEL_ACK_LEVEL n]⟩,
  ⟨0x20008, 4, fun n => [F.LPA_RX_AGC n, F.LPA_RX_GAIN n]⟩,
  ⟨0x2000C, 4, fun n => [F.LPA_STAT_DRV n, F.LPA_STAT_LEVEL_NOW n, F.LPA_STAT_GAIN_NOW n, F.LPA_STAT_TXGATE n, F.LPA_STAT_LIMIT n, F.LPA_STAT_VLD n]⟩,
  ⟨0x20010, 4, fun n => [F.LPA_CNT_LIMITS n, F.LPA_CNT_ABORTS n, F.LPA_CNT_CLIPS n]⟩,
  ⟨0x20800, 1, fun _ => [F.LPA_VLD_MV, F.LPA_VLD_UV, F.LPA_VLD_OV]⟩,
  ⟨0x20804, 1, fun _ => [F.LPA_THERM_THERM_CAP, F.LPA_THERM_ACTIVE, F.LPA_THERM_EPISODES]⟩]

/-- Registers of LPHY (R455). -/
def regsLPHY : List RegDef := [
  ⟨0x30000, 4, fun n => [F.LPHY_BAND_PRESET n, F.LPHY_BAND_NLANES n, F.LPHY_BAND_HSYM n]⟩,
  ⟨0x30004, 4, fun n => [F.LPHY_MODESEL_FLOOR n, F.LPHY_MODESEL_THR_P n, F.LPHY_MODESEL_THR_N n, F.LPHY_MODESEL_THR_4 n]⟩,
  ⟨0x30008, 4, fun n => [F.LPHY_RXCTL_PRE_WIN n, F.LPHY_RXCTL_IMP_DB n, F.LPHY_RXCTL_IMP_WIDE n, F.LPHY_RXCTL_ACK_FRAC n, F.LPHY_RXCTL_FREESEARCH n, F.LPHY_RXCTL_PRE_THR n]⟩,
  ⟨0x30010, 4, fun n => [F.LPHY_LANEMASK_0_LANES n]⟩,
  ⟨0x30014, 4, fun n => [F.LPHY_LANEMASK_1_LANES n]⟩,
  ⟨0x30018, 4, fun n => [F.LPHY_LANEMASK_2_LANES n]⟩,
  ⟨0x3001C, 4, fun n => [F.LPHY_LANEMASK_3_LANES n]⟩,
  ⟨0x30020, 4, fun n => [F.LPHY_RXCNT_FRAMES n, F.LPHY_RXCNT_CRCERR n]⟩,
  ⟨0x30024, 4, fun n => [F.LPHY_HDRCNT_PREDET n, F.LPHY_HDRCNT_HDRERR n]⟩,
  ⟨0x30028, 4, fun n => [F.LPHY_ERACNT_IMPSYM n, F.LPHY_ERACNT_MAPMISS n, F.LPHY_ERACNT_WIDEERA n]⟩,
  ⟨0x3002C, 4, fun n => [F.LPHY_TXCNT_TXFRAMES n, F.LPHY_TXCNT_ACKMISS n, F.LPHY_TXCNT_NOFIT n]⟩,
  ⟨0x30030, 4, fun n => [F.LPHY_LASTRX_MODE n, F.LPHY_LASTRX_LMID n, F.LPHY_LASTRX_LENGTH n, F.LPHY_LASTRX_CRCOK n]⟩,
  ⟨0x30040, 4, fun n => [F.LPHY_ECHOCFG_LIVE_ON n, F.LPHY_ECHOCFG_LIVE_OFF n, F.LPHY_ECHOCFG_ZMIN n, F.LPHY_ECHOCFG_IMP_DEAD n, F.LPHY_ECHOCFG_ZSTEP n]⟩,
  ⟨0x30044, 4, fun n => [F.LPHY_ECHOAGE_ZAGE_MAX n, F.LPHY_ECHOAGE_NAGE_MAX n, F.LPHY_ECHOAGE_CHG_MIN n]⟩,
  ⟨0x30048, 4, fun n => [F.LPHY_ZCAL_ZSCALE n, F.LPHY_ZCAL_ZROT n]⟩,
  ⟨0x3004C, 4, fun n => [F.LPHY_SWEEP_FSTART n, F.LPHY_SWEEP_FSTOP n, F.LPHY_SWEEP_FSTEP n, F.LPHY_SWEEP_SWLEVEL n, F.LPHY_SWEEP_FREE n, F.LPHY_SWEEP_GO n, F.LPHY_SWEEP_ABORT n]⟩,
  ⟨0x30050, 4, fun n => [F.LPHY_SWPSMASK_PSMASK n]⟩,
  ⟨0x30054, 4, fun n => [F.LPHY_SWSTAT_STATE n, F.LPHY_SWSTAT_FAILED n, F.LPHY_SWSTAT_BIN n, F.LPHY_SWSTAT_POINTS n]⟩,
  ⟨0x30058, 4, fun n => [F.LPHY_ECHOCNT_ZSTEPS n, F.LPHY_ECHOCNT_STALEMARK n]⟩,
  ⟨0x3005C, 4, fun n => [F.LPHY_MAPWIN_INDEX n, F.LPHY_MAPWIN_SEL n]⟩,
  ⟨0x30060, 4, fun n => [F.LPHY_MAPDATALO_DATALO n]⟩,
  ⟨0x30064, 4, fun n => [F.LPHY_MAPDATAHI_DATAHI n]⟩,
  ⟨0x30800, 1, fun _ => [F.LPHY_CFR_ITER, F.LPHY_CFR_CLIPSYM]⟩,
  ⟨0x30804, 1, fun _ => [F.LPHY_ECHOLINK_MINCELLS, F.LPHY_ECHOLINK_REPORT_MAX, F.LPHY_ECHOLINK_MAPFAIL]⟩,
  ⟨0x30808, 1, fun _ => [F.LPHY_MAPPOOL_FREE, F.LPHY_MAPPOOL_EXHAUST]⟩,
  ⟨0x3080C, 1, fun _ => [F.LPHY_MAPXCNT_PROPOSALS, F.LPHY_MAPXCNT_BASEMISS, F.LPHY_MAPXCNT_REVERTS]⟩]

/-- Registers of SFM (R455). -/
def regsSFM : List RegDef := [
  ⟨0x40000, 5, fun n => [F.SFM_PORTCFG_BCN_EN n, F.SFM_PORTCFG_BSLOT n, F.SFM_PORTCFG_PERMIT_JOIN n, F.SFM_PORTCFG_AUTOLEN n]⟩,
  ⟨0x40004, 5, fun n => [F.SFM_LAYOUT_WB n, F.SFM_LAYOUT_GEXP n, F.SFM_LAYOUT_JSTART n, F.SFM_LAYOUT_DSTART n, F.SFM_LAYOUT_U n]⟩,
  ⟨0x40010, 5, fun n => [F.SFM_AUTOPOOL_0_SLOTS n]⟩,
  ⟨0x40014, 5, fun n => [F.SFM_AUTOPOOL_1_SLOTS n]⟩,
  ⟨0x40018, 5, fun n => [F.SFM_AUTOPOOL_2_SLOTS n]⟩,
  ⟨0x4001C, 5, fun n => [F.SFM_AUTOPOOL_3_SLOTS n]⟩,
  ⟨0x40020, 5, fun n => [F.SFM_RXERR_SLOT n, F.SFM_RXERR_UNKNOWN n, F.SFM_RXERR_FCERR n, F.SFM_RXERR_MICERR n, F.SFM_RXERR_CLASS n]⟩,
  ⟨0x40024, 5, fun n => [F.SFM_RXCNT_ACCEPTED n, F.SFM_RXCNT_DUP n, F.SFM_RXCNT_EPOCHLOW n]⟩,
  ⟨0x40028, 5, fun n => [F.SFM_TXCNT_ACKED n, F.SFM_TXCNT_RETRIES n, F.SFM_TXCNT_DROPPED n, F.SFM_TXCNT_TOOBIG n]⟩,
  ⟨0x40800, 1, fun _ => [F.SFM_CFG_RETRY_MAX, F.SFM_CFG_BEMAX]⟩,
  ⟨0x40804, 1, fun _ => [F.SFM_SLOTCTL_ACTIVE, F.SFM_SLOTCTL_SWAP, F.SFM_SLOTCTL_PENDING, F.SFM_SLOTCTL_HELD]⟩,
  ⟨0x40808, 1, fun _ => [F.SFM_SLOTWIN_PORT, F.SFM_SLOTWIN_ENTRY, F.SFM_SLOTWIN_BANK]⟩,
  ⟨0x4080C, 1, fun _ => [F.SFM_SLOTDATA_ENTRY]⟩,
  ⟨0x40810, 1, fun _ => [F.SFM_ROOST_ROOST_PERIOD, F.SFM_ROOST_DRIFT_LP, F.SFM_ROOST_DRIFT_RF]⟩,
  ⟨0x40814, 1, fun _ => [F.SFM_STAT_STATE, F.SFM_STAT_PPORT, F.SFM_STAT_MISSES, F.SFM_STAT_ORPHANS, F.SFM_STAT_EPOCHUP]⟩,
  ⟨0x40818, 1, fun _ => [F.SFM_PARENT_ADDR, F.SFM_PARENT_CTX]⟩]

/-- Registers of MRT (R455). -/
def regsMRT : List RegDef := [
  ⟨0x50000, 5, fun n => [F.MRT_JOIN_JSEG n, F.MRT_JOIN_JLEN n]⟩,
  ⟨0x50800, 1, fun _ => [F.MRT_CFG_AUTO_RREQ, F.MRT_CFG_MAXDEPTH, F.MRT_CFG_RREQ_SCOPE, F.MRT_CFG_ADV_PERIOD, F.MRT_CFG_DROP_MAX]⟩,
  ⟨0x50804, 1, fun _ => [F.MRT_LIFE_ROUTE_LIFE, F.MRT_LIFE_JOIN_LIFE, F.MRT_LIFE_CTX_LIFE]⟩,
  ⟨0x50808, 1, fun _ => [F.MRT_COSTCFG_RFBASE, F.MRT_COSTCFG_RFRSSI, F.MRT_COSTCFG_LPBIAS, F.MRT_COSTCFG_RFBIAS]⟩,
  ⟨0x5080C, 1, fun _ => [F.MRT_PARENTCFG_PH_ABS, F.MRT_PARENTCFG_PH_REL, F.MRT_PARENTCFG_PH_HOLD]⟩,
  ⟨0x50810, 1, fun _ => [F.MRT_ADDR_SHORT, F.MRT_ADDR_VALID]⟩,
  ⟨0x50814, 1, fun _ => [F.MRT_EXT_LO_EXT_LO]⟩,
  ⟨0x50818, 1, fun _ => [F.MRT_EXT_HI_EXT_HI]⟩,
  ⟨0x5081C, 1, fun _ => [F.MRT_PATH_COST, F.MRT_PATH_HOPS]⟩,
  ⟨0x50820, 1, fun _ => [F.MRT_NSEQ_NSEQ]⟩,
  ⟨0x50824, 1, fun _ => [F.MRT_FTWIN_DEST]⟩,
  ⟨0x50828, 1, fun _ => [F.MRT_FTDATALO_DATALO]⟩,
  ⟨0x5082C, 1, fun _ => [F.MRT_FTDATAHI_DATAHI]⟩,
  ⟨0x50830, 1, fun _ => [F.MRT_RREQ_TARGET, F.MRT_RREQ_GO, F.MRT_RREQ_STATE]⟩,
  ⟨0x50834, 1, fun _ => [F.MRT_FWDCNT_FORWARDED, F.MRT_FWDCNT_DELIVERED]⟩,
  ⟨0x50838, 1, fun _ => [F.MRT_DROPCNT_NOROUTE, F.MRT_DROPCNT_LOOP, F.MRT_DROPCNT_HOPLIMIT, F.MRT_DROPCNT_NOCONS]⟩,
  ⟨0x5083C, 1, fun _ => [F.MRT_RTCNT_DUPFLOOD, F.MRT_RTCNT_SIGFAIL, F.MRT_RTCNT_RERRSENT, F.MRT_RTCNT_PCHANGE]⟩,
  ⟨0x50840, 1, fun _ => [F.MRT_JOINCNT_REQS, F.MRT_JOINCNT_ACCEPTS, F.MRT_JOINCNT_DENIES, F.MRT_JOINCNT_EXPIRED]⟩]

/-- Registers of RFX (R455). -/
def regsRFX : List RegDef := [
  ⟨0x60000, 1, fun _ => [F.RFX_CFG_BAND, F.RFX_CFG_RATE, F.RFX_CFG_MOD, F.RFX_CFG_MODIDX, F.RFX_CFG_PRE]⟩,
  ⟨0x60004, 1, fun _ => [F.RFX_CHAN_CENTRE]⟩,
  ⟨0x60008, 1, fun _ => [F.RFX_PWR_TXPWR, F.RFX_PWR_ACK_PWR, F.RFX_PWR_PA_LEAD]⟩,
  ⟨0x6000C, 1, fun _ => [F.RFX_LAT_TXLAT, F.RFX_LAT_RXLAT]⟩,
  ⟨0x60010, 1, fun _ => [F.RFX_RXCTL_RX_WIN]⟩,
  ⟨0x60014, 1, fun _ => [F.RFX_DUTY_DUTYMAX, F.RFX_DUTY_USED]⟩,
  ⟨0x60018, 1, fun _ => [F.RFX_STAT_STATE, F.RFX_STAT_RSSI_LAST, F.RFX_STAT_FOFS]⟩,
  ⟨0x6001C, 1, fun _ => [F.RFX_RXCNT_FRAMES, F.RFX_RXCNT_FCSERR, F.RFX_RXCNT_PHRERR, F.RFX_RXCNT_WINMISS]⟩,
  ⟨0x60020, 1, fun _ => [F.RFX_TXCNT_TXFRAMES, F.RFX_TXCNT_ACKMISS, F.RFX_TXCNT_DUTYDEFER]⟩]

/-- Registers of MFE (R455). -/
def regsMFE : List RegDef := [
  ⟨0x70000, 1, fun _ => [F.MFE_GRIDCTL_EN]⟩,
  ⟨0x70004, 1, fun _ => [F.MFE_GRIDSTAT_OVL, F.MFE_GRIDSTAT_PLLLOCK, F.MFE_GRIDSTAT_UNLOCKED, F.MFE_GRIDSTAT_RESETS]⟩,
  ⟨0x70008, 1, fun _ => [F.MFE_BIAS_SEL]⟩,
  ⟨0x7000C, 1, fun _ => [F.MFE_XPCFG_ROLE0, F.MFE_XPCFG_ROLE1, F.MFE_XPCFG_ROLE2, F.MFE_XPCFG_ROLE3, F.MFE_XPCFG_ROLE4, F.MFE_XPCFG_ROLE5, F.MFE_XPCFG_ROLE6, F.MFE_XPCFG_ROLE7]⟩,
  ⟨0x70010, 1, fun _ => [F.MFE_EXC_SINE_EN, F.MFE_EXC_SILIM, F.MFE_EXC_AMP]⟩,
  ⟨0x70014, 1, fun _ => [F.MFE_EXCFREQ_FREQ]⟩,
  ⟨0x70018, 1, fun _ => [F.MFE_IDAC_IA, F.MFE_IDAC_IB]⟩,
  ⟨0x7001C, 1, fun _ => [F.MFE_EXCSTAT_E, F.MFE_EXCSTAT_LEAVE, F.MFE_EXCSTAT_FAILED, F.MFE_EXCSTAT_EAPPLIED]⟩,
  ⟨0x70020, 1, fun _ => [F.MFE_SCANCTL_NSCAN, F.MFE_SCANCTL_MODE, F.MFE_SCANCTL_GO, F.MFE_SCANCTL_STOP, F.MFE_SCANCTL_DISCH]⟩,
  ⟨0x70024, 1, fun _ => [F.MFE_SCANSTAT_STATE, F.MFE_SCANSTAT_ENTRY, F.MFE_SCANSTAT_DONE, F.MFE_SCANSTAT_PASSES]⟩,
  ⟨0x70028, 1, fun _ => [F.MFE_SETTLE_SETTLE]⟩,
  ⟨0x7002C, 1, fun _ => [F.MFE_SCANWIN_ENTRY]⟩,
  ⟨0x70030, 1, fun _ => [F.MFE_SCANDATA0_DATA0]⟩,
  ⟨0x70034, 1, fun _ => [F.MFE_SCANDATA1_DATA1]⟩,
  ⟨0x70040, 1, fun _ => [F.MFE_TIA0_EN, F.MFE_TIA0_SRC, F.MFE_TIA0_AUTO, F.MFE_TIA0_RANGE, F.MFE_TIA0_RLO, F.MFE_TIA0_RHI, F.MFE_TIA0_QUIET_SLOPE, F.MFE_TIA0_DOWN_HOLD, F.MFE_TIA0_SAT]⟩,
  ⟨0x70044, 1, fun _ => [F.MFE_TIA1_EN, F.MFE_TIA1_SRC, F.MFE_TIA1_AUTO, F.MFE_TIA1_RANGE, F.MFE_TIA1_RLO, F.MFE_TIA1_RHI, F.MFE_TIA1_QUIET_SLOPE, F.MFE_TIA1_DOWN_HOLD, F.MFE_TIA1_SAT]⟩,
  ⟨0x70048, 1, fun _ => [F.MFE_TIACNT_SW0, F.MFE_TIACNT_SW1]⟩]

/-- Registers of DCH (R455). -/
def regsDCH : List RegDef := [
  ⟨0x80000, 1, fun _ => [F.DCH_CHWIN_CH]⟩,
  ⟨0x80004, 1, fun _ => [F.DCH_CHCFG_DEC_EXP, F.DCH_CHCFG_NTAPS, F.DCH_CHCFG_FIRBANK, F.DCH_CHCFG_LIN_EN, F.DCH_CHCFG_COEFSET, F.DCH_CHCFG_TXMASK]⟩,
  ⟨0x80008, 1, fun _ => [F.DCH_CHSTAT_TAG, F.DCH_CHSTAT_PATH, F.DCH_CHSTAT_SETTLE_LEFT]⟩,
  ⟨0x8000C, 1, fun _ => [F.DCH_GAINSEL_DOWN_HOLD, F.DCH_GAINSEL_PATHSW]⟩,
  ⟨0x80010, 1, fun _ => [F.DCH_FIRWIN_BANK, F.DCH_FIRWIN_TAP]⟩,
  ⟨0x80014, 1, fun _ => [F.DCH_FIRDATA_COEF]⟩,
  ⟨0x80020, 1, fun _ => [F.DCH_DETWIN_DET]⟩,
  ⟨0x80024, 1, fun _ => [F.DCH_DETCFG_TYPE, F.DCH_DETCFG_SRC, F.DCH_DETCFG_WIN, F.DCH_DETCFG_EXPA, F.DCH_DETCFG_EXPB, F.DCH_DETCFG_CMP, F.DCH_DETCFG_TRIG, F.DCH_DETCFG_EVT, F.DCH_DETCFG_REPORT]⟩,
  ⟨0x80028, 1, fun _ => [F.DCH_DETPARAM_W]⟩,
  ⟨0x8002C, 1, fun _ => [F.DCH_DETTHR_THR]⟩,
  ⟨0x80030, 1, fun _ => [F.DCH_DETVAL0_VAL0]⟩,
  ⟨0x80034, 1, fun _ => [F.DCH_DETVAL1_VAL1]⟩,
  ⟨0x80038, 1, fun _ => [F.DCH_DETSTAT_TAG, F.DCH_DETSTAT_BEYOND, F.DCH_DETSTAT_CROSSINGS]⟩,
  ⟨0x80040, 1, fun _ => [F.DCH_PHCFG_PHMASK, F.DCH_PHCFG_RATE, F.DCH_PHCFG_PHREF]⟩,
  ⟨0x80044, 1, fun _ => [F.DCH_PQCFG_PQMASK, F.DCH_PQCFG_SUPMASK, F.DCH_PQCFG_REPLVL]⟩,
  ⟨0x80048, 1, fun _ => [F.DCH_PQTHR_DIP_TH, F.DCH_PQTHR_SWELL_TH, F.DCH_PQTHR_INT_TH, F.DCH_PQTHR_HYST]⟩,
  ⟨0x80050, 1, fun _ => [F.DCH_UDIN0_UDIN]⟩,
  ⟨0x80054, 1, fun _ => [F.DCH_UDIN1_UDIN]⟩,
  ⟨0x80058, 1, fun _ => [F.DCH_UDIN2_UDIN]⟩,
  ⟨0x8005C, 1, fun _ => [F.DCH_UDIN3_UDIN]⟩,
  ⟨0x80060, 1, fun _ => [F.DCH_AGG_AGGOFS, F.DCH_AGG_MOVES]⟩,
  ⟨0x80070, 1, fun _ => [F.DCH_GALCFG_NCH, F.DCH_GALCFG_PRE, F.DCH_GALCFG_DECIM]⟩,
  ⟨0x80074, 1, fun _ => [F.DCH_GALCH0_CH0, F.DCH_GALCH0_CH1, F.DCH_GALCH0_CH2, F.DCH_GALCH0_CH3]⟩,
  ⟨0x80078, 1, fun _ => [F.DCH_GALCH1_CH0, F.DCH_GALCH1_CH1, F.DCH_GALCH1_CH2, F.DCH_GALCH1_CH3]⟩,
  ⟨0x8007C, 1, fun _ => [F.DCH_GALCTL_ARM, F.DCH_GALCTL_TRIG, F.DCH_GALCTL_ABORT]⟩,
  ⟨0x80080, 1, fun _ => [F.DCH_GALSTAT_STATE, F.DCH_GALSTAT_LEAVE, F.DCH_GALSTAT_FAILED, F.DCH_GALSTAT_ABORTED, F.DCH_GALSTAT_LATETRIG]⟩,
  ⟨0x80090, 1, fun _ => [F.DCH_TAGCNT_TXBLANK, F.DCH_TAGCNT_OVRSAMP]⟩,
  ⟨0x800A0, 1, fun _ => [F.DCH_LINSET_SET, F.DCH_LINSET_LOAD, F.DCH_LINSET_COMMIT, F.DCH_LINSET_PENDING]⟩,
  ⟨0x800A4, 1, fun _ => [F.DCH_LINIDX_WORD]⟩,
  ⟨0x800A8, 1, fun _ => [F.DCH_LINDATA_DATA]⟩,
  ⟨0x800AC, 1, fun _ => [F.DCH_LINSTAT_LASTSET, F.DCH_LINSTAT_REJECT, F.DCH_LINSTAT_SATCNT]⟩,
  ⟨0x800B0, 1, fun _ => [F.DCH_PTRIM0_HGAIN, F.DCH_PTRIM0_HOFS]⟩,
  ⟨0x800B4, 1, fun _ => [F.DCH_PTRIM1_HGAIN, F.DCH_PTRIM1_HOFS]⟩,
  ⟨0x800B8, 1, fun _ => [F.DCH_PTRIM2_HGAIN, F.DCH_PTRIM2_HOFS]⟩,
  ⟨0x800BC, 1, fun _ => [F.DCH_PTRIM3_HGAIN, F.DCH_PTRIM3_HOFS]⟩,
  ⟨0x800C0, 1, fun _ => [F.DCH_PFORCE_FORCE0, F.DCH_PFORCE_FORCE1, F.DCH_PFORCE_FORCE2, F.DCH_PFORCE_FORCE3]⟩,
  ⟨0x800C4, 1, fun _ => [F.DCH_DIETEMP_TJ]⟩]

/-- Registers of LCE (R455). -/
def regsLCE : List RegDef := [
  ⟨0x90000, 1, fun _ => [F.LCE_STAT_STATE, F.LCE_STAT_GEN]⟩,
  ⟨0x90004, 1, fun _ => [F.LCE_TICK_TICK]⟩,
  ⟨0x90008, 1, fun _ => [F.LCE_TBLWIN_TABLE, F.LCE_TBLWIN_INDEX, F.LCE_TBLWIN_WORD, F.LCE_TBLWIN_LOAD, F.LCE_TBLWIN_COMMIT, F.LCE_TBLWIN_PENDING, F.LCE_TBLWIN_REJECT]⟩,
  ⟨0x9000C, 1, fun _ => [F.LCE_TBLDATA_DATA]⟩,
  ⟨0x90010, 1, fun _ => [F.LCE_OBJWIN_KIND, F.LCE_OBJWIN_INDEX]⟩,
  ⟨0x90014, 1, fun _ => [F.LCE_OBJSTAT0_STAT0]⟩,
  ⟨0x90018, 1, fun _ => [F.LCE_OBJSTAT1_STAT1]⟩,
  ⟨0x90020, 1, fun _ => [F.LCE_DOCFG0_PIN0, F.LCE_DOCFG0_PIN1, F.LCE_DOCFG0_PIN2, F.LCE_DOCFG0_PIN3, F.LCE_DOCFG0_PIN4, F.LCE_DOCFG0_PIN5, F.LCE_DOCFG0_PIN6, F.LCE_DOCFG0_PIN7]⟩,
  ⟨0x90024, 1, fun _ => [F.LCE_DOCFG1_PIN0, F.LCE_DOCFG1_PIN1, F.LCE_DOCFG1_PIN2, F.LCE_DOCFG1_PIN3, F.LCE_DOCFG1_PIN4, F.LCE_DOCFG1_PIN5, F.LCE_DOCFG1_PIN6, F.LCE_DOCFG1_PIN7]⟩,
  ⟨0x90028, 1, fun _ => [F.LCE_AOSAFE0_CODE, F.LCE_AOSAFE0_HIZ]⟩,
  ⟨0x9002C, 1, fun _ => [F.LCE_AOSAFE1_CODE, F.LCE_AOSAFE1_HIZ]⟩,
  ⟨0x90030, 1, fun _ => [F.LCE_DICFG_DEB]⟩,
  ⟨0x90034, 1, fun _ => [F.LCE_DI_LEVEL]⟩,
  ⟨0x90038, 1, fun _ => [F.LCE_EVMASK0_MASK]⟩,
  ⟨0x9003C, 1, fun _ => [F.LCE_EVMASK1_MASK]⟩,
  ⟨0x90040, 1, fun _ => [F.LCE_TESTDO_VAL, F.LCE_TESTDO_EN]⟩,
  ⟨0x90044, 1, fun _ => [F.LCE_TESTAO0_CODE, F.LCE_TESTAO0_EN]⟩,
  ⟨0x90048, 1, fun _ => [F.LCE_TESTAO1_CODE, F.LCE_TESTAO1_EN]⟩,
  ⟨0x90050, 1, fun _ => [F.LCE_CNT0_CONFLICT, F.LCE_CNT0_ILKREF, F.LCE_CNT0_MBXDROP, F.LCE_CNT0_SKIPS]⟩,
  ⟨0x90054, 1, fun _ => [F.LCE_CNT1_LOCKREF, F.LCE_CNT1_EXPIRED, F.LCE_CNT1_ABORTS, F.LCE_CNT1_SENDDROP]⟩]

/-- Registers of SEC (R455). -/
def regsSEC : List RegDef := [
  ⟨0xA0000, 1, fun _ => [F.SEC_STAT_TRNG, F.SEC_STAT_NODEKEY, F.SEC_STAT_CERT, F.SEC_STAT_AUTHKEY, F.SEC_STAT_PAIRKEY, F.SEC_STAT_OTPFAIL, F.SEC_STAT_OPKEYS, F.SEC_STAT_HOSTKEYS, F.SEC_STAT_GKEYID, F.SEC_STAT_GPEND]⟩,
  ⟨0xA0004, 1, fun _ => [F.SEC_BOOTSTAT_SLOT, F.SEC_BOOTSTAT_ACAUSE, F.SEC_BOOTSTAT_BCAUSE, F.SEC_BOOTSTAT_UNPROV, F.SEC_BOOTSTAT_LEVEL, F.SEC_BOOTSTAT_IMGRB]⟩,
  ⟨0xA0008, 1, fun _ => [F.SEC_VERSION_VERSION]⟩,
  ⟨0xA000C, 1, fun _ => [F.SEC_OTPSTAT_ROOTLOCK, F.SEC_OTPSTAT_DBGCLOSED, F.SEC_OTPSTAT_UNTRUSTED]⟩,
  ⟨0xA0010, 1, fun _ => [F.SEC_DEVPUB0_KEY]⟩,
  ⟨0xA0014, 1, fun _ => [F.SEC_DEVPUB1_KEY]⟩,
  ⟨0xA0018, 1, fun _ => [F.SEC_DEVPUB2_KEY]⟩,
  ⟨0xA001C, 1, fun _ => [F.SEC_DEVPUB3_KEY]⟩,
  ⟨0xA0020, 1, fun _ => [F.SEC_DEVPUB4_KEY]⟩,
  ⟨0xA0024, 1, fun _ => [F.SEC_DEVPUB5_KEY]⟩,
  ⟨0xA0028, 1, fun _ => [F.SEC_DEVPUB6_KEY]⟩,
  ⟨0xA002C, 1, fun _ => [F.SEC_DEVPUB7_KEY]⟩,
  ⟨0xA0030, 1, fun _ => [F.SEC_SESSION_SPI, F.SEC_SESSION_UART, F.SEC_SESSION_ETH]⟩,
  ⟨0xA0034, 1, fun _ => [F.SEC_CFG_SESSIDLE, F.SEC_CFG_REKEY_EN]⟩,
  ⟨0xA0038, 1, fun _ => [F.SEC_CNT_AUTHFAIL, F.SEC_CNT_REPLAY, F.SEC_CNT_CERTFAIL, F.SEC_CNT_TRNGFAIL]⟩,
  ⟨0xA003C, 1, fun _ => [F.SEC_KEYCNT_REKEYS, F.SEC_KEYCNT_GKEYCHG]⟩]

/-- Registers of MQF (R455). -/
def regsMQF : List RegDef := [
  ⟨0xB0000, 1, fun _ => [F.MQF_CFG_SCRUB_PERIOD, F.MQF_CFG_EMERG]⟩,
  ⟨0xB0004, 1, fun _ => [F.MQF_BANKMODE_GUARDED]⟩,
  ⟨0xB0008, 1, fun _ => [F.MQF_CLASS_URGENT]⟩,
  ⟨0xB0010, 1, fun _ => [F.MQF_ECCWIN_TARGET]⟩,
  ⟨0xB0014, 1, fun _ => [F.MQF_ECCSC_SINGLE]⟩,
  ⟨0xB0018, 1, fun _ => [F.MQF_ECCDC_DOUBLE]⟩,
  ⟨0xB001C, 1, fun _ => [F.MQF_ECCUE_UNCORR]⟩,
  ⟨0xB0020, 1, fun _ => [F.MQF_ECCLAST_WORD, F.MQF_ECCLAST_QUEUE, F.MQF_ECCLAST_VALID]⟩,
  ⟨0xB0024, 1, fun _ => [F.MQF_SCRUB_POS, F.MQF_SCRUB_INQUEUE, F.MQF_SCRUB_PASSES]⟩,
  ⟨0xB0030, 1, fun _ => [F.MQF_QWIN_QUEUE]⟩,
  ⟨0xB0034, 1, fun _ => [F.MQF_QSTAT_USED, F.MQF_QSTAT_PKTS, F.MQF_QSTAT_GAP, F.MQF_QSTAT_OPEN]⟩,
  ⟨0xB0038, 1, fun _ => [F.MQF_QDROP_FULL, F.MQF_QDROP_OVERSIZE, F.MQF_QDROP_ZLP]⟩,
  ⟨0xB003C, 1, fun _ => [F.MQF_QMISC_REWINDS, F.MQF_QMISC_POISON]⟩,
  ⟨0xB0040, 1, fun _ => [F.MQF_ARBWIN_BANK, F.MQF_ARBWIN_REQ]⟩,
  ⟨0xB0044, 1, fun _ => [F.MQF_ARBGRANT_GRANTS]⟩,
  ⟨0xB0048, 1, fun _ => [F.MQF_ARBWAIT_WAITS]⟩,
  ⟨0xB004C, 1, fun _ => [F.MQF_ARBSTAT_LONGEST, F.MQF_ARBSTAT_RANK, F.MQF_ARBSTAT_POS, F.MQF_ARBSTAT_WAIT]⟩]

/-- Registers of HCP (R455). -/
def regsHCP : List RegDef := [
  ⟨0xC0000, 1, fun _ => [F.HCP_CFG_DELIVER, F.HCP_CFG_FLOW, F.HCP_CFG_NODELIV]⟩,
  ⟨0xC0004, 1, fun _ => [F.HCP_UART_BAUD]⟩,
  ⟨0xC0010, 1, fun _ => [F.HCP_EVMASK0_MASK]⟩,
  ⟨0xC0014, 1, fun _ => [F.HCP_EVMASK1_MASK]⟩,
  ⟨0xC0018, 1, fun _ => [F.HCP_EVMASK2_MASK]⟩,
  ⟨0xC0020, 1, fun _ => [F.HCP_CNT0_CRCERR, F.HCP_CNT0_DUPS, F.HCP_CNT0_OVERFLOW, F.HCP_CNT0_EVDROP]⟩,
  ⟨0xC0024, 1, fun _ => [F.HCP_CNT1_CRCERR, F.HCP_CNT1_DUPS, F.HCP_CNT1_OVERFLOW, F.HCP_CNT1_EVDROP]⟩,
  ⟨0xC0028, 1, fun _ => [F.HCP_CNT2_CRCERR, F.HCP_CNT2_DUPS, F.HCP_CNT2_OVERFLOW, F.HCP_CNT2_EVDROP]⟩,
  ⟨0xC0030, 1, fun _ => [F.HCP_IP0_ADDR]⟩,
  ⟨0xC0034, 1, fun _ => [F.HCP_IP1_ADDR]⟩,
  ⟨0xC0038, 1, fun _ => [F.HCP_IP2_ADDR]⟩,
  ⟨0xC003C, 1, fun _ => [F.HCP_IP3_ADDR]⟩,
  ⟨0xC0040, 1, fun _ => [F.HCP_UDP_LPORT, F.HCP_UDP_EVPORT]⟩,
  ⟨0xC0044, 1, fun _ => [F.HCP_MAC_LO_MAC_LO]⟩,
  ⟨0xC0048, 1, fun _ => [F.HCP_MAC_HI_MAC_HI]⟩]

/-- Registers of ERF (R455). -/
def regsERF : List RegDef := [
  ⟨0xD0000, 1, fun _ => [F.ERF_CFG_PAIR_EN, F.ERF_CFG_UNSYNC_OK, F.ERF_CFG_DEAD_COUNT]⟩,
  ⟨0xD0004, 1, fun _ => [F.ERF_CTL_PROMOTE, F.ERF_CTL_RESYNC]⟩,
  ⟨0xD0008, 1, fun _ => [F.ERF_STAT_ROLE, F.ERF_STAT_PEER, F.ERF_STAT_SYNCED, F.ERF_STAT_PAIR_ID, F.ERF_STAT_OWN_OUT, F.ERF_STAT_OWN_IN, F.ERF_STAT_GATE, F.ERF_STAT_LANES_RX, F.ERF_STAT_LANES_TX, F.ERF_STAT_STRAPERR]⟩,
  ⟨0xD000C, 1, fun _ => [F.ERF_EPOCH_EPOCH]⟩,
  ⟨0xD0010, 1, fun _ => [F.ERF_PEEREPOCH_EPOCH]⟩,
  ⟨0xD0014, 1, fun _ => [F.ERF_MIRSTAT_LAG, F.ERF_MIRSTAT_COPY, F.ERF_MIRSTAT_RESYNCS]⟩,
  ⟨0xD0018, 1, fun _ => [F.ERF_LINKCNT_CRCERR, F.ERF_LINKCNT_NAKS, F.ERF_LINKCNT_LANEDROP]⟩,
  ⟨0xD001C, 1, fun _ => [F.ERF_TAKEOVER_TAKEOVERS, F.ERF_TAKEOVER_DEMOTIONS, F.ERF_TAKEOVER_LASTDUR]⟩,
  ⟨0xD0020, 1, fun _ => [F.ERF_OWNCNT_TIES, F.ERF_OWNCNT_LOSSES]⟩]

/-- The register table of one unit block (R20, R455). -/
def regsOfUnit : Nat → List RegDef
  | 0 => regsPMU
  | 1 => regsTBU
  | 2 => regsLPA
  | 3 => regsLPHY
  | 4 => regsSFM
  | 5 => regsMRT
  | 6 => regsRFX
  | 7 => regsMFE
  | 8 => regsDCH
  | 9 => regsLCE
  | 10 => regsSEC
  | 11 => regsMQF
  | 12 => regsHCP
  | 13 => regsERF
  | _ => []

end Sys2Proof.Machine
end

