-- ==== Sys2Proof/Machine/UnitsMesh.lean ====
section
/-! DEFINITION. The state of MRT and RFX beyond their registers. -/

namespace Sys2Proof.Machine

/-! ### MRT -/

/-- A route request pending (R202): target, the superframe of its start, and its LIMIT. -/
structure Rreq where
  target : Nat
  at_ : Nat
  limit : Nat
  deriving DecidableEq, Repr

/-- An RREP that the target owes (R203): the requester. -/
structure RrepDue where
  orig : Nat
  deriving DecidableEq, Repr

/-- Stages of a join at the parent (R208). -/
inductive JoinStage where
  | offered | proving | addressing | accepting
  deriving DecidableEq, Repr

/-- A join in progress at the parent (R208): the provisional context, the joiner's EXT, SRC, nonces, ROLE and PREV, the
reserved runs and EFFECT, and the segments of a message received so far (R206). -/
structure Join where
  ctx : Nat
  port : Nat
  ext : Nat
  src : Nat
  nonceJ : Nat
  nonceP : Nat
  role : Nat
  prev : Nat
  up : Nat
  dn : Nat
  jlen : Nat
  effect : Nat
  stage : JoinStage
  short : Nat
  bslot : Nat
  segs : List (Nat × Bytes)
  /-- segments of JOIN_ACCEPT acked (R206) -/
  acked : List Nat
  /-- established context that the same EXT held before (R211) -/
  oldCtx : Option Nat
  deriving DecidableEq, Repr

/-- Stages of a join at the joiner (R208, R209, R212). -/
inductive JoinerStage where
  | searching | requesting | offered | proving | awaiting
  deriving DecidableEq, Repr

/-- The node's own join, rejoin or lateral opening (R208, R211, R212). -/
structure Joiner where
  stage : JoinerStage
  ctx : Nat
  port : Nat
  parent : Nat
  /-- SRC used: TEMP, or the own short address -/
  src : Nat
  nonceJ : Nat
  nonceP : Nat
  /-- private half of the attempt's key pair (R367), empty before it is drawn and once it is discarded -/
  priv : Bytes
  up : Nat
  dn : Nat
  jlen : Nat
  effect : Nat
  /-- superframe by which the offer is due, once JOIN_REQ is acked (R209) -/
  due : Option Nat
  rejoin : Bool
  peer : Bool
  segs : List (Nat × Bytes)
  /-- superframes of the search left -/
  search : Nat
  /-- the port index and SEQ of the LATERAL_OPEN it answers -/
  host : Option (Nat × Nat)
  deriving DecidableEq, Repr

/-- A provisional allocation pair (R208): outside the banks. -/
structure Provisional where
  ctx : Nat
  port : Nat
  up : Nat
  dn : Nat
  jlen : Nat
  effect : Nat
  /-- last superframe, once known -/
  until_ : Option Nat
  /-- this node is the parent end -/
  parentEnd : Bool
  deriving DecidableEq, Repr

/-- A DOWN entry changed since the last ADVERT (R200). -/
structure Change where
  dest : Nat
  dseq : Nat
  cost : Nat
  hops : Nat
  withdraw : Bool
  moved : Bool
  deriving DecidableEq, Repr

structure Mrt where
  seen : List (Nat × Nat)
  mseq : Nat
  rreqs : List Rreq
  asked : List (Nat × Nat)
  rreps : List RrepDue
  rerrs : List Nat
  /-- privileged packets held, oldest first: LCE-COMMAND and PULUAC-REMOTE (R26) -/
  holdLce : List QPkt
  holdRemote : List QPkt
  joins : List Join
  joiner : Option Joiner
  provs : List Provisional
  /-- the root's address map and reservations: short address ↦ extended address (R184) -/
  addrMap : List (Nat × Nat)
  reserved : List (Nat × Nat)
  changes : List Change
  /-- superframe of the last full ADVERT (R200) -/
  advAt : Option Nat
  /-- candidates passed over (port × 65,536 + address), and until which superframe; none for the attempt in hand (R209) -/
  barred : List (Nat × Option Nat)
  /-- superframe of the last join or change of parent (R191) -/
  changedAt : Option Nat
  /-- children whose automatic allocations are freed at the next boundary (R196) -/
  freeing : List Nat
  /-- automatic allocations made: context, port, up start, down start, length (R160) -/
  autos : List (Nat × Nat × Nat × Nat × Nat)
  deriving DecidableEq, Repr

/-! ### RFX -/

/-- The configuration in force (R232). -/
structure RfxCfg where
  band : Nat
  rate : Nat
  mod_ : Nat
  modIdx : Nat
  pre : Nat
  centre : Nat
  deriving DecidableEq, Repr

/-- A radio frame in flight, or awaiting its ack (R223, R224). -/
structure RadioTx where
  ctx : Nat
  /-- the PSDU before whitening: radio header, MAC payload and FCS (R220) -/
  psdu : Bytes
  bcast : Bool
  src : Nat
  dst : Nat
  fc : Nat
  /-- the instant of the first preamble bit at RFIO (R222) -/
  from_ : Nat
  slot : Nat
  len : Nat
  beacon : Bool
  access : Bool
  sent : Bool
  /-- what its leave was asked for -/
  leave : LeaveFor
  deriving DecidableEq, Repr

/-- An ack that an accepted frame has earned (R224): tail word, its source and destination, FCF, and the allocation's first access slot
and length. -/
structure AckDue where
  word : Nat
  src : Nat
  dst : Nat
  fcf : Nat
  slot : Nat
  len : Nat
  deriving DecidableEq, Repr

/-- An ack frame on the air (R224): its PSDU before whitening, and the instants of its first and last bit. -/
structure AckAir where
  psdu : Bytes
  from_ : Nat
  till : Nat
  deriving DecidableEq, Repr

structure Rfx where
  cfg : RfxCfg
  /-- air time by second of mesh time, in 1/600,000 s (R230) -/
  duty : List (Nat × Nat)
  tx : Option RadioTx
  ack : Option AckDue
  /-- the last ack frame sent -/
  ackAir : Option AckAir
  /-- a frame sent under leave holds PA_EN high (R228) -/
  paEn : Bool
  /-- the instant to which PA_EN stays high after such a frame -/
  paTo : Nat
  /-- power in use, dBm code -/
  power : Nat
  /-- re-acquisition: superframe at which it ends (R179) -/
  reacq : Option Nat
  deriving DecidableEq, Repr

end Sys2Proof.Machine
end

