-- ==== Sys2Proof/Machine/State.lean ====
section
/-! DEFINITION. The machine state, its reset value, and the reasons a step can stop. -/

namespace Sys2Proof.Machine

/-- The state of the device. -/
structure State where
  chip : Chip
  /-- register fields: key (address × 32 + lowest bit) ↦ value; an unlisted field holds its reset value (R14) -/
  regs : List (Nat × Nat)
  /-- main SRAM, 8 MiB of bytes; an unlisted byte reads as after reset (R295, R465, `sramReset`) -/
  sram : List Host.Cell
  /-- external flash; an unlisted byte is erased, 0xFF -/
  flash : List Host.Cell
  pmu : Pmu
  tbu : Tbu
  lines : List LinePort
  sfm : Sfm
  mrt : Mrt
  rfx : Rfx
  mfe : Mfe
  dch : Dch
  lce : Lce
  erf : Erf
  mir : Mirror
  sec : Sec
  nvm : Nvm
  mqf : Mqf
  hcp : Hcp
  /-- free values drawn so far (log entry 5) -/
  drawn : Nat
  /-- commands waiting, first in, first out -/
  pending : List Instr
  deriving DecidableEq, Repr

/-- The device right after reset (R14, R34, R464–R466): BOOT, the ROM running, every register at the reset value of its table,
memory cleared, no transition, no packet.  The chip is a VH7460 with an unprovisioned OTP and an empty flash
(log entry 20). -/
def State.reset : State :=
  { chip := { part := 0x7460, ext := 0, devSeed := List.replicate 32 0, storeSeed := List.replicate 32 0, rootHash := none, fuses := 0, trust := 0,
              dbgClosed := false, rootLock := false }
    regs := []
    sram := []
    flash := []
    pmu := { mode := .boot, prev := .boot, trans := none, race := none, recovery := false, paired := false, validCfg := false,
             inReset := false, stretch := false, cause := 0, shutdown := false, above130 := false, cmsnN := true,
             pairId := false, pending := [], held := [], answers := [], vldMs := 0, tjMs := 0, maxMs := 0 }
    tbu := { time := 0, cycles := 0, trimAcc := 0, slew := 0, slewAcc := 0, dets := List.replicate 4 Detector.fresh, z := 0, src := some 0,
             good := 0, firstPer := none, symsNext := 0, started := false, slotAt := 0, boundAt := 0, cyc := 0, shift := 0,
             countdown := 0, reepoch := false, nextShift := 0, edgeTaken := false, armed := none, fresh := true,
             tlCount := 0, tlPort := 0, lastBeacon := none, lastImplied := none, syncSel := 0, syncOut := none, boundDue := none }
    lines := List.replicate 4 LinePort.fresh
    sfm := { slots := [], groupFc := 0, silent := [], retryMax := 3, bslots := [0, 0, 0, 0, 0], links := [], access := [], accessNo := 0, held := [], allocRx := [], allocDue := [],
             neighbours := [], heard := [], beaconAt := none, missAt := none, upLost := none, search := none, awake := false, wakeLeft := 0,
             roostNow := 16, testFc := [0, 0, 0, 0, 0], parentUpLost := false, exhausted := [] }
    mrt := { seen := [], mseq := 0, rreqs := [], asked := [], rreps := [], rerrs := [], holdLce := [], holdRemote := [],
             joins := [], joiner := none, provs := [], addrMap := [], reserved := [], changes := [], advAt := none,
             barred := [], changedAt := none, freeing := [], autos := [] }
    rfx := { cfg := { band := 0, rate := 0, mod_ := 0, modIdx := 0, pre := 8, centre := 0xD3FCC }, duty := [], tx := none, ack := none,
             ackAir := none, paEn := false, paTo := 0, power := 0, reacq := none }
    mfe := { entries := List.replicate 48 0, scanning := false, converting := false, openAt := 0, closeAt := 0, form := .undriven,
             refused := none, ia := 0, ib := 0, sinePins := 0, silim := 0, tiaHeld := [none, none],
             tiaLog := [[], []], tiaPrev := [none, none], tiaLow := [0, 0], inReset := 0, resets := [], phases := [], sineAt := 0,
             visits := [], lattice := 0 }
    dch := { onAt := 0, raw := [], chans := [], taps := [], past := [], sets := [], gates := [], dets := [], linPending := none, phPrev := none, phFreq := none, phTag2 := 0, phAt := 0, phGood := none,
             steps := [], moves := [], flagged := false, events := [], urmsAt := [],
             spans := { shortAt := 0, shortN := 0, tenAt := 0, tenN := 0, twoAt := 0, twoN := 0 }, aggs := [], bases := [], shorts := [],
             baseAt := 0, tickNo := 0, tickOpen := false, tickMoved := 0, supra := [], supraAt := [], supraLast := [],
             gal := { armAt := 0, chans := [], decs := [], decim := 0, pre := 0, trigAt := none, fullAt := none, halfAt := none,
                      failed := false, tstep := false, noTrig := 0 } }
    lce := { acts := List.replicate 32 Act.fresh, rules := [], seqs := [], locks := List.replicate 32 Lock.fresh, tick := 0,
             tickAt := 0, tickCyc := 0, work := [], results := [], raised := [], visible := [], triggers := [], writes := [], replies := [],
             diLatched := 0, commits := [], hostGen := [0, 0, 0], latched := false,
             heldDo := List.replicate 16 .highZ }
    erf := { hb := none, hbAt := 0, seenPrimary := false, promoted := false, txSeq := 1, rxSeq := 1, rxAck := 0, nak := false,
             rxAny := false, copyStart := false, copyDone := 0, copyLeft := [], chunkTurn := false, retry := [], resend := [], sent := [],
             sentLanes := [[], []], txRd := [false, false], rxLanes := [RxLane.fresh, RxLane.fresh], mirTx := [], pairExt := none, recordDue := false, deadAt := none,
             silenced := false, begun := false, seenEpoch := 0, spareAt := 0 }
    mir := { shadow := none, told := [] }
    sec := { nodeKey := none, cert := none, authKey := none, peerKey := none, pairKey := none,
             opKeys := [none, none, none, none], hostKeys := [none, none, none, none], opSeq := [0, 0, 0, 0], gkey := none,
             gpend := none, reports := 0, sigs := 0, sigWait := [], paced := false, queue := [], rekeys := [], rekeyHeld := [], peerCerts := [],
             trngFails := [], cfgHash := [], calHash := [], pairSent := [] }
    nvm := { cfg := none, epoch := 0, opSeq := [0, 0, 0, 0], boots := 0, safes := 0 }
    mqf := { queues := List.replicate 16 Queue.empty, staged := [], arbs := List.replicate 16 Arb.fresh,
             writebacks := [], flips := [], ecc := [], qcnt := [] }
    hcp := { ports := List.replicate 3 PortState.fresh, srcs := List.replicate 5 SrcState.fresh, remoteDups := [],
             current := none, waiting := [], flash := none, arpCache := [], arpWait := [], arpSent := [], ctsHigh := false,
             miso := [], resetDue := false }
    drawn := 0
    pending := [] }

/-- Reasons for a fault.  There is none, which is safe: the spec gives every command an effect in every state, answers every access to
an address or register that does not exist (R446, R450), and reset leaves every value defined. -/
inductive Fault where
  deriving DecidableEq, Repr

/-- Reasons for a refusal. -/
inductive Refusal where
  /-- Raised by an arm of `exec` for a command that has no meaning yet; safe, since nothing can be proved of that
  command's effect.  No arm raises it: every command has its meaning. -/
  | notModelled (mnemonic : String)
  deriving DecidableEq, Repr

end Sys2Proof.Machine
end

