-- ==== Sys2Proof/Machine/Flags.lean ====
section
/-! DEFINITION. Register fields as named values: read, write, saturating counts, sticky flags (R12, R13). -/

namespace Sys2Proof.Machine

/-- The key under which a field's value is stored. -/
def fieldKey (f : Field) : Nat := f.addr * 32 + f.lo

/-- The value of a field: the stored one, or its reset value (R14). -/
def getF (s : State) (f : Field) : Nat := (assocFind? s.regs (fieldKey f)).getD f.reset

/-- Write a field; the value is cut to the field's width. -/
def setF (s : State) (f : Field) (v : Nat) : State :=
  { s with regs := assocSet s.regs (fieldKey f) (v % 2 ^ f.width) }

/-- A one-bit field as a truth value. -/
def flag (s : State) (f : Field) : Bool := getF s f != 0

/-- Set a sticky or status bit. -/
def setFlag (s : State) (f : Field) : State := setF s f 1

/-- Write a one-bit field. -/
def putFlag (s : State) (f : Field) (b : Bool) : State := setF s f (b2n b)

/-- Count `n` more in a saturating counter (the RC counters of the register tables). -/
def incBy (s : State) (f : Field) (n : Nat) : State := setF s f (min (getF s f + n) (2 ^ f.width - 1))

/-- Count once. -/
def inc (s : State) (f : Field) : State := incBy s f 1

/-- A field back at its reset value. -/
def clearF (s : State) (f : Field) : State := { s with regs := assocErase s.regs (fieldKey f) }

/-- Saturating sum within `w` bits. -/
def satAdd (w a b : Nat) : Nat := min (a + b) (2 ^ w - 1)

/-- Numbered registers: the field of port, requester or index `n`. -/
def F.evMask : Nat → Field
  | 0 => F.HCP_EVMASK0_MASK
  | 1 => F.HCP_EVMASK1_MASK
  | _ => F.HCP_EVMASK2_MASK

def F.crcErr : Nat → Field
  | 0 => F.HCP_CNT0_CRCERR
  | 1 => F.HCP_CNT1_CRCERR
  | _ => F.HCP_CNT2_CRCERR

def F.dups : Nat → Field
  | 0 => F.HCP_CNT0_DUPS
  | 1 => F.HCP_CNT1_DUPS
  | _ => F.HCP_CNT2_DUPS

def F.evDrop : Nat → Field
  | 0 => F.HCP_CNT0_EVDROP
  | 1 => F.HCP_CNT1_EVDROP
  | _ => F.HCP_CNT2_EVDROP

/-- POLn of PMU_LEAVE_POLICY (R51). -/
def F.policy (n : Nat) : Field :=
  ⟨F.PMU_LEAVE_POLICY_POL0.addr, 2 * n, 2, if n = 4 then 0 else if n ≤ 7 then 1 else if n = 10 then 2 else 0, .rw⟩

/-- TBU_LATn. -/
def F.txLat (n : Nat) : Field := { F.TBU_LAT0_TXLAT with addr := F.TBU_LAT0_TXLAT.addr + 4 * n }
def F.rxLat (n : Nat) : Field := { F.TBU_LAT0_RXLAT with addr := F.TBU_LAT0_RXLAT.addr + 4 * n }

/-- Word `w` of LPHY_LANEMASKn. -/
def F.laneMask (n w : Nat) : Field := { F.LPHY_LANEMASK_0_LANES n with addr := (F.LPHY_LANEMASK_0_LANES n).addr + 4 * w }

/-- Word `w` of SFM_AUTOPOOLn. -/
def F.autoPool (n w : Nat) : Field := { F.SFM_AUTOPOOL_0_SLOTS n with addr := (F.SFM_AUTOPOOL_0_SLOTS n).addr + 4 * w }

end Sys2Proof.Machine
end

