-- ==== Sys2Proof/Machine/Ops.lean ====
section
/-! DEFINITION. The named operations over the state that all units share: time, modes, main SRAM, contexts and link
records, free values, events and replies, packet queues, and the power-leave governor's books. -/

namespace Sys2Proof.Machine

/-! ### Time and numbers -/

/-- Mesh time in ticks. -/
def now (s : State) : Nat := s.tbu.time.toNat

/-- The current superframe number. -/
def sfn (s : State) : Nat := getF s F.TBU_SFNUM_SFNUM

/-- `a / b` where the spec states a quotient and no rounding: exact where it divides, otherwise either neighbour, by a
free value (log entry 6). -/
def quot (what : Nat) (a : Int) (b : Nat) : Int :=
  a / b + (if a % b = 0 then 0 else if Config.roundsUp what a b then 1 else 0)

/-- Draw a fresh free value (log entry 5). -/
def draw (s : State) : Nat × State := (Config.free s.drawn, { s with drawn := s.drawn + 1 })

/-- A fresh X25519 key pair from the TRNG: its private half (R367); `x25519Pub` gives the public one. -/
def freshKey (s : State) : Bytes × State :=
  let (v, s) := draw s
  (leBytes v 32, s)

/-- A key by HKDF from the X25519 secret of a private and a public key (R368); none where the secret is all zero bytes, or the
private key is not held. -/
def deriveKey (priv pub salt info : Bytes) : Option Bytes :=
  match priv with
  | [] => none
  | _ :: _ =>
    let z := x25519 priv pub
    if z.all (· == 0) then none else some (hkdf32 z salt info)

/-- Superframe numbers: `a` is at or after `b`, modulo 2^32. -/
def sfReached (a b : Nat) : Bool := (a + 2 ^ 32 - b % 2 ^ 32) % 2 ^ 32 < 2 ^ 31

/-- Sequence comparison of R185: `a` is newer than `b`. -/
def seqNewer (a b : Nat) : Bool :=
  let d := (a + 65536 - b % 65536) % 65536
  0 < d && d ≤ 32767

/-- The millisecond of the TIME domain. -/
def msNow (s : State) : Nat := s.tbu.cycles / Config.ticksPerMs

/-- VLD in mV as LPA read it last: what a command brought in this millisecond, else a free value (R96, log entry 178). -/
def vldNow (s : State) : Nat :=
  if s.pmu.vldMs = msNow s then getF s F.LPA_VLD_MV else Config.sensor 1 (msNow s) % 32768

/-- The junction temperature's code in the millisecond `k`, signed, 0.25 °C (R467). -/
def tjIn (s : State) (k : Nat) : Nat := if s.pmu.tjMs = k then getF s F.PMU_THERM_TJ else Config.sensor 0 k % 4096

/-- The junction temperature's code now. -/
def tjNow (s : State) : Nat := tjIn s (msNow s)

/-- TJMAX: the highest reading since it was read last (R468). -/
def tjMax (s : State) : Nat :=
  ((List.range (msNow s + 1 - s.pmu.maxMs)).map (fun k => tjIn s (s.pmu.maxMs + k))).foldl
    (fun m t => if signed m 12 < signed t 12 then t else m) (getF s F.PMU_THERM_TJMAX)

/-- VLD is brought by a command. -/
def noteVld (s : State) (mv : Nat) : State :=
  setF { s with pmu := { s.pmu with vldMs := msNow s } } F.LPA_VLD_MV mv

/-! ### Modes -/

def Mode.code : Mode → Nat
  | .boot => 0 | .commission => 1 | .operate => 2 | .roost => 3 | .safehold => 4 | .spare => 5

/-- The mode that every rule depending on the mode sees: SAFEHOLD from the cycle in which a SAFEHOLD cause selects the
transition (R523). -/
def mode (s : State) : Mode :=
  match s.pmu.trans with
  | some t => if t.target = .safehold then .safehold else s.pmu.mode
  | none => s.pmu.mode

/-- The variant has the radio (R5). -/
def hasRadio (s : State) : Bool := s.chip.part == 0x7460

/-- The variant has ERF, LP2–LP3, AUX16–AUX31 and TIA1 (R5). -/
def hasFull (s : State) : Bool := s.chip.part != 0x7430

/-- Line ports present (R5). -/
def nLine (s : State) : Nat := if hasFull s then 4 else 2

/-- Port `n` is present: 0–3 line ports, 4 the radio. -/
def portPresent (s : State) (n : Nat) : Bool := n < nLine s || (n == 4 && hasRadio s)

/-- The present ports, ascending. -/
def ports (s : State) : List Nat := (List.range 5).filter (portPresent s)

/-- Context indices present (R378). -/
def nCtx (s : State) : Nat := if hasFull s then 4096 else 1024

/-- The node is the domain root (R183). -/
def isRoot (s : State) : Bool := flag s F.TBU_CFG_ROOT

/-- No clocked unit runs: a reset or a thermal shutdown is in force (R44, R466). -/
def inHold (s : State) : Bool := s.pmu.inReset || s.pmu.shutdown

/-- The host ports' processor runs firmware: neither BOOT nor ROOST (R35). -/
def hcpOn (s : State) : Bool :=
  match mode s with
  | .boot | .roost => false
  | _ => true

/-- MRT_ADDR.VALID: the node is joined, or the root. -/
def ownValid (s : State) : Bool := isRoot s || flag s F.MRT_ADDR_VALID

/-- The node's short address: 0 at the root (R183). -/
def ownAddr (s : State) : Nat := if isRoot s then 0 else getF s F.MRT_ADDR_SHORT

/-- The ownership gate of R31 is open: the chip asserts OWN_OUT and does not see OWN_IN asserted (R354). -/
def gateOpen (s : State) : Bool := flag s F.ERF_STAT_GATE

/-- The random source is healthy; until then every operation that needs randomness waits (R386). -/
def trngOk (s : State) : Bool := getF s F.SEC_STAT_TRNG == 1

/-- The committed configuration declares a pair (R46). -/
def isPaired (s : State) : Bool := s.pmu.paired

/-! ### Status codes (R430) -/

def St.ok : Nat := 0x0000
def St.accepted : Nat := 0x0001
def St.badOpcode : Nat := 0x0101
def St.badLength : Nat := 0x0102
def St.badParam : Nat := 0x0103
def St.badMode : Nat := 0x0104
def St.unitAbsent : Nat := 0x0105
def St.busy : Nat := 0x0106
def St.noLeave : Nat := 0x0107
def St.authRequired : Nat := 0x0108
def St.locked : Nat := 0x0109
def St.abortedPriorOwner : Nat := 0x010A
def St.crcError : Nat := 0x0201
def St.seqDuplicate : Nat := 0x0202
def St.queueFull : Nat := 0x0203
def St.poisoned : Nat := 0x0204

/-- BAD_PARAM where the test fails. -/
def need (ok : Bool) : Nat := if ok then St.ok else St.badParam

/-- The first refusal of a list of checks; OK where all pass. -/
def firstBad : List Nat → Nat
  | [] => 0
  | c :: t => if c = 0 then firstBad t else c

/-- A register window's own copy of a field: one per selected index, beside the register table. -/
def win (f : Field) (i : Nat) : Field := { f with addr := f.addr + 0x100000 * (i + 1) }

/-- The bits of a field within a register word. -/
def fld (f : Field) (v : Nat) : Nat := bits v f.lo f.width

/-! ### Main SRAM: layout and contents (R389) -/

def Base.gallery : Nat := 0x200000
def Base.lanemap : Nat := 0x400000
def Base.fwd : Nat := 0x500000
def Base.linkrec : Nat := 0x580000
def Base.retry : Nat := 0x5C0000
def Base.mailbox : Nat := 0x680000
def Base.contexts : Nat := 0x700000
def Base.coef : Nat := 0x780000
def Base.actuators : Nat := 0x784000
def Base.interlocks : Nat := 0x784200
def Base.rules : Nat := 0x784400
def Base.sequences : Nat := 0x786400
def Base.image : Nat := 0x78AC00
def Base.parking : Nat := 0x7F0000
def Base.lceRetained : Nat := 0x7F0240
def Base.hash : Nat := 0x7F1000

/-- What a byte of main SRAM reads as after reset: zero (R465), but for YMIN and YMAX of the coefficient sets, which hold
−3.0 × 10^38 and +3.0 × 10^38 (R295). -/
def sramReset (a : Nat) : Byte :=
  if Base.coef ≤ a ∧ a < Base.coef + 0x4000 then
    match a % 128 with
    | 104 | 108 => 0xE6
    | 105 | 109 => 0xB1
    | 106 | 110 => 0x61
    | 107 => 0xFF
    | 111 => 0x7F
    | _ => 0
  else 0

/-- `n` bytes of a memory whose unlisted cells read `d`, from address `a`. -/
def cellsRead (d : Nat → Byte) (m : List Host.Cell) (a : Nat) : Nat → Bytes
  | 0 => []
  | n + 1 => (assocFind? m a).getD (d a) :: cellsRead d m (a + 1) n

/-- Write bytes into a memory whose unlisted cells read `d`, keeping it canonical. -/
def cellsWrite (d : Nat → Byte) (m : List Host.Cell) (a : Nat) : Bytes → List Host.Cell
  | [] => m
  | b :: bs => cellsWrite d (cellSet (d a) m a b) (a + 1) bs

/-- The link state of a context, as a new link has it.  DESIGN CHOICE: before a first frame has been started, REP6 counts as the mode of
the last one, so the first frame needs a threshold plus 4 units (R117 names none). -/
def Link.fresh : Link :=
  { st := .ready, armed := false, tries := 0, ctl := [], report := [], propose := [], proposed := [], mapxAlone := false, full := false, lastMode := 3,
    lvlSum := 0, lvlCnt := 0, prevSum := 0, prevCnt := 0, polledAt := none, roostPeriod := 0, beaconB := none,
    t1 := none, t2 := none, delayMeasured := false, reported := false, ctlTaken := false, leadTaken := false, segs := (0, []),
    altMapless := false, held := none, delayAt := none }

def link (s : State) (i : Nat) : Link := assocGet Link.fresh s.sfm.links i
def setLink (s : State) (i : Nat) (l : Link) : State :=
  { s with sfm := { s.sfm with links := assocSet s.sfm.links i l } }
def modLink (s : State) (i : Nat) (f : Link → Link) : State := setLink s i (f (link s i))

def line (s : State) (n : Nat) : LinePort := nth LinePort.fresh s.lines n
def setLine (s : State) (n : Nat) (l : LinePort) : State := { s with lines := s.lines.set n l }
def modLine (s : State) (n : Nat) (f : LinePort → LinePort) : State := setLine s n (f (line s n))

/-! ### Events and replies (R416, R438, R439) -/

def HostPort.idx : HostPort → Nat
  | .spi => 0 | .uart => 1 | .eth => 2

def hport (s : State) (n : Nat) : PortState := nth PortState.fresh s.hcp.ports n
def setHport (s : State) (n : Nat) (p : PortState) : State :=
  { s with hcp := { s.hcp with ports := s.hcp.ports.set n p } }

/-- Bytes of a packet with these parameters (R416). -/
def pktSize (params : Nat) (auth : Bool) : Nat := 12 + params + (if auth then 16 else 0)

/-- Bytes held in a port's outbound buffer. -/
def outUsed (p : PortState) : Nat := sumN (p.out.map (fun k => pktSize k.params.length k.ctr.isSome))

/-- The outbound buffer of 32 KiB (R428). -/
def outSize : Nat := 32768

/-! #### Puluac buffers in bank 13 (R389): 3,072 words a port outbound and 1,024 inbound (log entry 234) -/

/-- The first word of a port's outbound and inbound buffer. -/
def outBase (n : Nat) : Nat := 0x35000 + 0xC00 * n
def inBase (n : Nat) : Nat := 0x37400 + 0x400 * n

/-- Words of main SRAM that `n` bytes take. -/
def bufWords (n : Nat) : Nat := (n + 31) / 32

/-- The first `need` words from `w` on that none of `used` takes, out of `fuel`. -/
def freeWords (used : List Nat) : (fuel need w : Nat) → List Nat
  | 0, _, _ => []
  | _, 0, _ => []
  | fuel + 1, need + 1, w =>
    if used.contains w then freeWords used fuel (need + 1) (w + 1) else w :: freeWords used fuel need (w + 1)

/-- A packet is written into its words: they are stored right. -/
def writeWords (p : PortState) (place : List Nat) : PortState := { p with marks := p.marks.filter (fun x => !place.contains x.1) }

/-- The words of a port's outbound buffer that a packet of `size` bytes takes. -/
def outPlace (p : PortState) (n size : Nat) : List Nat := freeWords (p.out.flatMap (·.place)) 3072 (bufWords size) (outBase n)

/-- A session is open on the port (R381). -/
def sessionOpen (p : PortState) : Bool := p.sess.state == 2

/-- The Ethernet port is enabled: MAC and IPv4 address are not zero (R424). -/
def ethOn (s : State) : Bool :=
  getF s F.HCP_IP0_ADDR != 0 && (getF s F.HCP_MAC_LO_MAC_LO != 0 || getF s F.HCP_MAC_HI_MAC_HI != 0)

/-- The next hop towards an address: itself inside the subnet, the gateway otherwise (R425). -/
def nextHop (s : State) (ip : Nat) : Nat :=
  let m := getF s F.HCP_IP1_ADDR
  if ip &&& m = getF s F.HCP_IP0_ADDR &&& m then ip else getF s F.HCP_IP2_ADDR

/-- A next hop without a cache entry is resolved: the first of up to three ARP requests goes out (R425). -/
def arpNeed (s : State) (ip : Nat) : State :=
  let hop := nextHop s ip
  let h := s.hcp
  if h.arpCache.any (fun e => e.ip == hop) || h.arpWait.any (fun w => w.ip == hop) then s
  else { s with hcp := { h with arpWait := h.arpWait ++ [{ ip := hop, tries := 1 }], arpSent := h.arpSent ++ [(1, hop)] } }

/-- A Puluac packet from SYNC to its last parameter byte (R416, R441). -/
def puluacHead (vf seq op : Nat) (params : Bytes) : Bytes :=
  leBytes 0xC7 1 ++ leBytes vf 1 ++ leBytes seq 2 ++ leBytes op 2 ++ leBytes params.length 2 ++ params

/-- The MIC of an authenticated packet under a session key: direction 0 from the host, 1 from the device; its counter; the packet from SYNC to its
last parameter byte (R382). -/
def packetMic (key : Bytes) (dir ctr : Nat) (head : Bytes) : Bytes := ccmMic key (leBytes dir 1 ++ leBytes ctr 8 ++ leBytes 0 4) head []

/-- Put a packet into a port's outbound buffer, with the carrier settings in force. -/
def emitThen (s : State) (n vf seq op : Nat) (params : Bytes) (auth : Bool) (dstIp dstPort then_ : Nat) : State :=
  let p := hport s n
  let vf := vf + (if auth then 8 else 0)
  let place := outPlace p n (pktSize params.length auth)
  let k : OutPkt := { vf, seq, op, params, ctr := if auth then some (p.sess.tx + 1) else none,
                      mic := if auth then packetMic p.sess.keys 1 (p.sess.tx + 1) (puluacHead vf seq op params) else [],
                      baud := getF s F.HCP_UART_BAUD, srcIp := getF s F.HCP_IP0_ADDR, dstIp, dstPort, then_, place }
  let s := setHport s n { writeWords p place with out := p.out ++ [k], sess := if auth then { p.sess with tx := p.sess.tx + 1 } else p.sess }
  if n = 2 then arpNeed s dstIp else s

/-- The same, with nothing to follow. -/
def emit (s : State) (n vf seq op : Nat) (params : Bytes) (auth : Bool) (dstIp dstPort : Nat) : State :=
  emitThen s n vf seq op params auth dstIp dstPort 0

/-- Where a port's events go (R424). -/
def eventDest (s : State) (n : Nat) : Nat × Nat :=
  if n = 2 then
    if getF s F.HCP_UDP_EVPORT = 0 then ((hport s 2).evIp, (hport s 2).evPort)
    else (getF s F.HCP_IP3_ADDR, getF s F.HCP_UDP_EVPORT)
  else (0, 0)

/-- The port can take events: the Ethernet port only while it is enabled and has a destination for them (R424). -/
def eventPort (s : State) (n : Nat) : Bool := n != 2 || (ethOn s && (eventDest s 2).1 != 0)

/-- Count an event that its port's buffer has no room for (R439). -/
def eventLost (s : State) (n len : Nat) : State :=
  let s := inc s (F.evDrop n)
  let p := hport s n
  setHport s n { p with gapPkts := satAdd 32 p.gapPkts 1, gapBytes := satAdd 32 p.gapBytes len }

/-- Send an event to one port: dropped and counted where the buffer is full (R438, R439). After a drop no event overtakes the
GAP event that reports it. -/
def emitEvent (s : State) (n op : Nat) (params : Bytes) : State :=
  let p := hport s n
  let auth := sessionOpen p
  if !eventPort s n then s
  else if p.gapPkts = 0 ∧ outUsed p + pktSize params.length auth ≤ outSize then
    let d := eventDest s n
    let s := emit s n 0x12 p.evSeq op params auth d.1 d.2
    setHport s n { hport s n with evSeq := (p.evSeq + 1) % 65536 }
  else eventLost s n params.length

/-- Send an event of unit `unit` to every port that subscribes to it (R438); `ts` is its time. -/
def raiseAt (s : State) (ts unit fn : Nat) (body : Bytes) : State :=
  if hcpOn s then
    (List.range 3).foldl (fun s n =>
      if bit (getF s (F.evMask n)) unit then emitEvent s n (unit * 0x400 + 0x200 + fn) (leBytes ts 8 ++ body) else s) s
  else s

/-- An event raised now. -/
def raise (s : State) (unit fn : Nat) (body : Bytes) : State := raiseAt s (now s) unit fn body

/-- A MODE event with the PREV given: to every port, whatever its mask (R438). -/
def modeEventFrom (s : State) (prev : Mode) : State :=
  if hcpOn s then
    (List.range 3).foldl (fun s n =>
      emitEvent s n 0x0200 (leBytes (now s) 8 ++ leBytes (Mode.code s.pmu.mode) 1 ++ leBytes (Mode.code prev) 1
        ++ leBytes (getF s F.PMU_SAFECAUSE_MEMPOISON + 2 * getF s F.PMU_SAFECAUSE_WDOG + 4 * getF s F.PMU_SAFECAUSE_THERM140
            + 8 * getF s F.PMU_SAFECAUSE_OWNLOST + 16 * getF s F.PMU_SAFECAUSE_HOSTCMD
            + 256 * getF s F.PMU_SAFECAUSE_THERM150) 2)) s
  else s

/-- The MODE event of a mode entry. -/
def modeEvent (s : State) : State := modeEventFrom s s.pmu.prev

/-- LEAVE (R440). -/
def leaveEvent (s : State) (req outcome obj : Nat) : State :=
  raise s 0 1 (leBytes req 1 ++ leBytes outcome 1 ++ leBytes obj 2)

/-- TIMEBASE (R440). -/
def timebaseEvent (s : State) (cause : Nat) (value : Int) : State :=
  raise s 1 0 (leBytes cause 1 ++ leBytes (s.tbu.src.getD 0xFF) 1 ++ leBytes (satCode value 32) 4)

/-- LINE (R440). -/
def lineEvent (s : State) (port cause : Nat) : State := raise s 2 0 (leBytes port 1 ++ leBytes cause 1)

/-- MEMORY (R440). -/
def memoryEvent (s : State) (word : Nat) : State := raise s 11 0 (leBytes word 4)

/-- Count a read's outcome for a bank (0–15) or a queue (16–31) (R394): 1 single, 2 double, 3 uncorrectable. -/
def countCode (s : State) (target kind : Nat) : State :=
  let c := assocGet (0, 0, 0) s.mqf.ecc target
  let c := match kind with
    | 1 => (satAdd 32 c.1 1, c.2)
    | 2 => (c.1, satAdd 32 c.2.1 1, c.2.2)
    | _ => (c.1, c.2.1, satAdd 32 c.2.2 1)
  { s with mqf := { s.mqf with ecc := assocSet s.mqf.ecc target c } }

/-- An uncorrectable read: counted, recorded and reported (R395). -/
def uncorrectable (s : State) (word : Nat) (inQueue : Bool) : State :=
  let s := countCode s (if inQueue then 16 + word / 2048 else word / 16384) 3
  let s := setF (setF (setF s F.MQF_ECCLAST_WORD word) F.MQF_ECCLAST_QUEUE (b2n inQueue)) F.MQF_ECCLAST_VALID 1
  memoryEvent s (word + 2 ^ 30 * b2n inQueue + 2 ^ 31)

/-! ### Main SRAM: reads and writes (R389) -/

/-- `n` bytes of main SRAM from offset `a`. -/
def memRead (s : State) (a n : Nat) : Bytes := cellsRead sramReset s.sram a n

/-! #### Stored words (R392–R396): main-SRAM word `w` has key `w`, queue-SRAM word `w` key 262,144 + `w` -/

/-- Every bit of the stored word is that of the code word of its data: no flip is kept, and no write-back is due. -/
def dropFlips (s : State) (key : Nat) : State :=
  { s with mqf := { s.mqf with flips := s.mqf.flips.filter (fun x => x.1 != key), writebacks := s.mqf.writebacks.filter (· != key) } }

/-- The stored word differs from the code word of its data in these bits. -/
def setFlips (s : State) (key bad : Nat) : State :=
  { s with mqf := { s.mqf with flips := s.mqf.flips.filter (fun x => x.1 != key) ++ (if bad = 0 then [] else [(key, bad)]) } }

/-- Every word of the `n` bytes from `a` is written whole (R395). -/
def clearMem (s : State) (a n : Nat) : State :=
  let keep (w : Nat) : Bool := decide (32 * w < a) || decide (a + n < 32 * w + 32)
  { s with mqf := { s.mqf with flips := s.mqf.flips.filter (fun x => keep x.1), writebacks := s.mqf.writebacks.filter keep } }

/-- The bits of a stored word that differ from the code word of its data. -/
def flipsOf (s : State) (key : Nat) : Nat := assocGet 0 s.mqf.flips key

def arb (s : State) (b : Nat) : Arb := nth Arb.fresh s.mqf.arbs b
def setArb (s : State) (b : Nat) (a : Arb) : State := { s with mqf := { s.mqf with arbs := s.mqf.arbs.set b a } }

/-- SCRUB raises a one-word request on a bank, unless one of it is raised or pending (R393, R408). -/
def raiseScrub (s : State) (b : Nat) : State :=
  let a := arb s b
  if nth 0 a.pend 10 = 0 ∧ nth 0 a.raised 10 = 0 then setArb s b { a with raised := a.raised.set 10 1 } else s

/-- A corrected word awaits its write-back, for a word of main SRAM by a SCRUB request on its bank (R393). -/
def noteFix (s : State) (key : Nat) : State :=
  let s : State := if s.mqf.writebacks.contains key then s else { s with mqf := { s.mqf with writebacks := s.mqf.writebacks ++ [key] } }
  if key < 262144 then raiseScrub s (key / 16384) else s

/-- The counters' target of a stored word (R394). -/
def codeTarget (key : Nat) : Nat := if key < 262144 then key / 16384 else 16 + (key - 262144) / 2048

/-- What follows a read whose decoding is `r`: a count for what the decoder classifies, a write-back, and for an uncorrectable word its
record and its event (R393–R395). -/
def noteRead (s : State) (key : Nat) (r : Option (List Nat)) : State :=
  match r with
  | none =>
    uncorrectable { s with mqf := { s.mqf with writebacks := s.mqf.writebacks.filter (· != key) } } (key % 262144) (decide (262144 ≤ key))
  | some [] => s
  | some l => noteFix (countCode s (codeTarget key) l.length) key

/-! #### Words of the Puluac buffers (R389, R397) -/

/-- The word lies in a Puluac buffer; the port whose it is. -/
def isBufWord (w : Nat) : Bool := decide (outBase 0 ≤ w) && decide (w < inBase 3)
def bufPort (w : Nat) : Nat := if w < inBase 0 then (w - outBase 0) / 0xC00 else (w - inBase 0) / 0x400

/-- The wrong bits of a stored word. -/
def bufMark (p : PortState) (w : Nat) : Nat := assocGet 0 p.marks w

/-- The wrong bits of a stored word become `bad`. -/
def setMark (s : State) (w bad : Nat) : State :=
  let p := hport s (bufPort w)
  setHport s (bufPort w) { p with marks := p.marks.filter (fun x => x.1 != w) ++ (if bad = 0 then [] else [(w, bad)]) }

/-- The decoding of a word with the bits `bad` wrong: the code is linear, so the wrong bits alone decide it (R392, R393). -/
def markCode (bad : Nat) : Option (List Nat) := decodeFlips 0 bad

/-- A word among `place` is poisoned (R395). -/
def bufBad (p : PortState) (place : List Nat) : Bool := place.any (fun w => (markCode (bufMark p w)).isNone)

/-- HCP reads a packet in its words: each is decoded (R393–R395). -/
def bufRead (s : State) (n : Nat) (place : List Nat) : State :=
  (place.filter (fun w => bufMark (hport s n) w != 0)).foldl (fun s w => noteRead s w (markCode (bufMark (hport s n) w))) s

/-- 32 bytes as a read delivers them from a word with the bits `bad` wrong. -/
def deliverWord (bad : Nat) (b : Bytes) : Bytes :=
  match bad, markCode bad with
  | 0, _ => b
  | _, some l => (leBytes (wordData (encodeWord (leNat b) ^^^ turnBits bad l)) 32).take b.length
  | _, none => b

/-- The bytes of a packet, as a read of its words delivers them. -/
def bufBytes (p : PortState) (place : List Nat) (b : Bytes) : Bytes :=
  if p.marks.isEmpty then b
  else
    match place with
    | [] => b
    | w :: t => deliverWord (bufMark p w) (b.take 32) ++ bufBytes p t (b.drop 32)
termination_by structural place

/-- The data of a main-SRAM word, as a read delivers them. -/
def memWord (s : State) (w : Nat) : Nat := leNat (memRead s (32 * w) 32)

/-- The decoding of a main-SRAM word. -/
def memCode (s : State) (w : Nat) : Option (List Nat) := decodeFlips (memWord s w) (flipsOf s w)

/-- A main-SRAM word is poisoned: its stored bits decode as uncorrectable (R395). -/
def badWord (s : State) (w : Nat) : Bool := flipsOf s w != 0 && (memCode s w).isNone

/-- The words of main SRAM among `n` bytes from `a` whose stored bits are not those of a code word. -/
def flippedIn (s : State) (a n : Nat) : List Nat :=
  (s.mqf.flips.filter (fun x => x.1 < 262144 && a / 32 ≤ x.1 && 32 * x.1 < a + n)).map Prod.fst

/-- The poisoned words of main SRAM among `n` bytes from `a`. -/
def poisonIn (s : State) (a n : Nat) : List Nat := (flippedIn s a n).filter (badWord s)

/-- Some word of the `n` bytes from `a` is poisoned (R395). -/
def poisoned (s : State) (a n : Nat) : Bool := !(poisonIn s a n).isEmpty

/-- A unit reads main SRAM: each word is decoded (R32, R393–R395). -/
def readMem (s : State) (a n : Nat) : State := (flippedIn s a n).foldl (fun s w => noteRead s w (memCode s w)) s

/-- A write meets a word that is stored with wrong bits: written whole it is stored right; a narrower write reads it first, and a poisoned
word stays poisoned (R395). -/
def meetWord (s : State) (a n w : Nat) : State :=
  if a ≤ 32 * w ∧ 32 * w + 32 ≤ a + n then dropFlips s w
  else
    match memCode s w with
    | some l => dropFlips (if l.isEmpty then s else countCode s (w / 16384) l.length) w
    | none => setFlips (uncorrectable s w false) w eccMark

/-- A write of `n` bytes from `a` meets the words stored with wrong bits. -/
def meetFlips (s : State) (a n : Nat) : State :=
  if s.mqf.flips.isEmpty then s else (flippedIn s a n).foldl (fun s w => meetWord s a n w) s

/-- Write bytes to main SRAM from offset `a`. -/
def memWrite (s : State) (a : Nat) (b : Bytes) : State :=
  { meetFlips s a b.length with sram := cellsWrite sramReset s.sram a b }

/-- What an unlisted byte of the external flash reads as: erased. -/
def flashErased (_ : Nat) : Byte := 0xFF

/-- Both memories hold their canonical form: addresses strictly rising, no entry equal to what an unlisted address reads as. -/
def Memory.wf (s : State) : Bool := cellsWf sramReset s.sram && cellsWf flashErased s.flash

/-- `n` bytes of the external flash. -/
def flashBytes (s : State) (a n : Nat) : Bytes := cellsRead flashErased s.flash a n

/-- Write bytes to the external flash. -/
def flashPut (s : State) (a : Nat) (b : Bytes) : State := { s with flash := cellsWrite flashErased s.flash a b }

/-- The little-endian number in `n` bytes of main SRAM. -/
def memNat (s : State) (a n : Nat) : Nat := leNat (memRead s a n)

/-- Store a number in `n` bytes of main SRAM, cut to them. -/
def memPut (s : State) (a n v : Nat) : State := memWrite s a (leBytes v n)

/-! ### Contexts (R378) and ECHO link records (R141) -/

/-- A field of a context: byte offset and bytes. -/
structure CF where
  off : Nat
  n : Nat

def C.pext : CF := ⟨0, 8⟩
def C.pshort : CF := ⟨8, 2⟩
def C.link : CF := ⟨10, 1⟩
def C.kstate : CF := ⟨11, 1⟩
def C.key : CF := ⟨12, 32⟩
def C.key2 : CF := ⟨44, 32⟩
def C.txfc : CF := ⟨76, 4⟩
def C.rxfc : CF := ⟨80, 4⟩
def C.rxfc2 : CF := ⟨84, 4⟩
def C.rxgfc : CF := ⟨88, 4⟩
def C.pepoch : CF := ⟨92, 4⟩
def C.cost : CF := ⟨96, 1⟩
def C.q : CF := ⟨97, 1⟩
def C.drops : CF := ⟨98, 1⟩
def C.txlsn : CF := ⟨99, 1⟩
def C.rxlsn : CF := ⟨100, 1⟩
def C.phclass : CF := ⟨101, 1⟩
def C.angle : CF := ⟨102, 2⟩
def C.delay : CF := ⟨104, 2⟩
def C.rssiLast : CF := ⟨106, 2⟩
def C.rssiMean : CF := ⟨108, 2⟩
def C.rxframes : CF := ⟨112, 4⟩
def C.txframes : CF := ⟨116, 4⟩
def C.ackmiss : CF := ⟨120, 2⟩
def C.micfail : CF := ⟨122, 2⟩
def C.lastsf : CF := ⟨124, 4⟩

def ctxBase (i : Nat) : Nat := Base.contexts + 128 * i

/-- A context field. -/
def cGet (s : State) (i : Nat) (f : CF) : Nat := memNat s (ctxBase i + f.off) f.n

/-- Write a context field. -/
def cSet (s : State) (i : Nat) (f : CF) (v : Nat) : State := memPut s (ctxBase i + f.off) f.n v

/-- Count in a saturating context statistic. -/
def cInc (s : State) (i : Nat) (f : CF) : State := cSet s i f (satAdd (8 * f.n) (cGet s i f) 1)

/-- A context is unreadable: one of its words is poisoned (R32). -/
def ctxPoisoned (s : State) (i : Nat) : Bool := poisoned s (ctxBase i) 128

def cPort (s : State) (i : Nat) : Nat := bits (cGet s i C.link) 0 3
def cValid (s : State) (i : Nat) : Bool := i < nCtx s && bit (cGet s i C.link) 3
def cProvisional (s : State) (i : Nat) : Bool := bit (cGet s i C.link) 4
def cChild (s : State) (i : Nat) : Bool := bit (cGet s i C.link) 5
def cParent (s : State) (i : Nat) : Bool := bit (cGet s i C.link) 6
def cLateral (s : State) (i : Nat) : Bool := bit (cGet s i C.link) 7

/-- Set or clear one bit of LINK. -/
def cLinkBit (s : State) (i b : Nat) (v : Bool) : State := cSet s i C.link (withBit (cGet s i C.link) b v)

/-- Set or clear one bit of KSTATE. -/
def cKBit (s : State) (i b : Nat) (v : Bool) : State := cSet s i C.kstate (withBit (cGet s i C.kstate) b v)

/-- A context is established: VALID and not PROVISIONAL. -/
def cEstablished (s : State) (i : Nat) : Bool := cValid s i && !cProvisional s i

/-- The indices that some byte of the context region is listed for, ascending: every context in use is among them, since
LINK.VALID is not zero. -/
def ctxTouched (s : State) : List Nat :=
  ((s.sram.filter (fun c => Base.contexts ≤ c.1 && c.1 < Base.contexts + 0x80000 && c.1 % 128 = 10)).map
    (fun c => (c.1 - Base.contexts) / 128)).filter (fun i => cValid s i)

/-- The valid context of a short address on a port (R165). -/
def ctxOf (s : State) (port addr : Nat) : Option Nat :=
  (ctxTouched s).find? (fun i => cPort s i == port && cGet s i C.pshort == addr && !ctxPoisoned s i)

/-- The context marked PARENT (R68). -/
def parentCtx (s : State) : Option Nat := (ctxTouched s).find? (fun i => cParent s i && !cProvisional s i)

/-- The lowest context index not in use. -/
def freeCtx (s : State) : Option Nat := (List.range (nCtx s)).find? (fun i => !cValid s i)

def R.cur : CF := ⟨32, 2⟩
def R.alt : CF := ⟨34, 2⟩
def R.curix : CF := ⟨36, 2⟩
def R.altix : CF := ⟨38, 2⟩
def R.viewix : CF := ⟨40, 2⟩
def R.peermarg : CF := ⟨42, 2⟩
def R.ownmarg : CF := ⟨44, 2⟩
def R.nextlmid : CF := ⟨46, 2⟩
def R.lmean : CF := ⟨48, 1⟩
def R.unack : CF := ⟨49, 1⟩
def R.since : CF := ⟨50, 1⟩

def recBase (i : Nat) : Nat := Base.linkrec + 64 * i

/-- Where the record of a link stands: in ROOST bank 11 has no power, and the parent's is the parked one (R391, log entry 31). -/
def recAddr (s : State) (i : Nat) : Nat := if s.pmu.mode = .roost ∧ parentCtx s = some i then Base.parking else recBase i

/-- A field of an ECHO link record. -/
def rGet (s : State) (i : Nat) (f : CF) : Nat := memNat s (recAddr s i + f.off) f.n
def rSet (s : State) (i : Nat) (f : CF) (v : Nat) : State := memPut s (recAddr s i + f.off) f.n v

/-- A link record is unreadable: one of its words is poisoned (R32). -/
def recPoisoned (s : State) (i : Nat) : Bool := poisoned s (recAddr s i) 64

/-- KEY (R440). -/
def keyEvent (s : State) (cause ctx : Nat) : State := raise s 10 0 (leBytes cause 1 ++ leBytes ctx 2)

/-- LINK (R440). -/
def linkEvent (s : State) (ctx cause : Nat) : State := raise s 4 1 (leBytes ctx 2 ++ leBytes cause 1)

/-- ERF (R440). -/
def erfEvent (s : State) (cause : Nat) : State := raise s 13 0 (leBytes cause 1)

/-- A completion (R416): both REPLY and EVENT set, to the port that sent the request. -/
def complete (s : State) (n seq op : Nat) (auth : Bool) (status : Nat) (data : Bytes) : State :=
  let p := hport s n
  emit s n 0x13 seq op (leBytes status 2 ++ data) (auth && sessionOpen p) p.peerIp p.peerPort

/-- The reply to a request (R416, R429): sent to the port it came from and stored for its duplicates. `params` begins with
STATUS. -/
def answerReq (s : State) (n seq op : Nat) (auth : Bool) (status : Nat) (data : Bytes) : State :=
  let p := hport s n
  let params := leBytes status 2 ++ data
  let p := { p with dups := p.dups.map (fun d => if d.seq = seq ∧ d.op = op then { d with reply := some params } else d) }
  emit (setHport s n p) n 0x11 seq op params (auth && sessionOpen p) p.peerIp p.peerPort

/-! ### Packet queues (R399–R407) -/

/-- A committed entry, not released. -/
def QEntry.mk' (item : QItem) (words : Nat) : QEntry := { item, words, released := false, tag := none }

def queue (s : State) (i : Nat) : Queue := nth Queue.empty s.mqf.queues i
def setQueue (s : State) (i : Nat) (q : Queue) : State :=
  { s with mqf := { s.mqf with queues := s.mqf.queues.set i q } }

/-- Words from RD to CM. -/
def qUsed (q : Queue) : Nat := sumN (q.entries.map (·.words))

/-- Words free, not counting the reserve (R399, R402). -/
def qFree (q : Queue) : Nat := 2047 - qUsed q - q.opened.getD 0

/-- The queue exists on the variant (R24). -/
def queuePresent (s : State) (i : Nat) : Bool :=
  if i = 2 ∨ i = 3 ∨ i = 6 ∨ i = 7 ∨ i = 12 ∨ i = 13 then hasFull s
  else if i = 8 ∨ i = 9 then hasRadio s
  else i < 16

/-- Words of a packet: header and payload (R400). -/
def pktWords (len : Nat) : Nat := 1 + ceilDiv len 32

/-- The per-queue counters of R415. -/
def qcnt (s : State) (i : Nat) : Nat × Nat × Nat × Nat × Nat := assocGet (0, 0, 0, 0, 0) s.mqf.qcnt i
def setQcnt (s : State) (i : Nat) (c : Nat × Nat × Nat × Nat × Nat) : State :=
  { s with mqf := { s.mqf with qcnt := assocSet s.mqf.qcnt i c } }
def countFull (s : State) (i : Nat) : State := let c := qcnt s i; setQcnt s i (satAdd 16 c.1 1, c.2)
def countOversize (s : State) (i : Nat) : State :=
  let c := qcnt s i; setQcnt s i (c.1, satAdd 8 c.2.1 1, c.2.2)
def countZlp (s : State) (i : Nat) : State :=
  let c := qcnt s i; setQcnt s i (c.1, c.2.1, satAdd 8 c.2.2.1 1, c.2.2.2)
def countRewind (s : State) (i : Nat) : State :=
  let c := qcnt s i; setQcnt s i (c.1, c.2.1, c.2.2.1, satAdd 16 c.2.2.2.1 1, c.2.2.2.2)
def countPoison (s : State) (i : Nat) : State :=
  let c := qcnt s i; setQcnt s i (c.1, c.2.1, c.2.2.1, c.2.2.2.1, satAdd 8 c.2.2.2.2 1)

/-! #### Words of a queue (R399, R400) -/

/-- The header word of a packet (R400). -/
def pktHead (p : QPkt) : Bytes :=
  leBytes 1 1 ++ leBytes (b2n p.priv + 2 * b2n p.bcast + 4 * b2n p.rx) 1 ++ leBytes p.payload.length 2 ++ leBytes p.ts 8 ++ leBytes p.ctx 2
    ++ leBytes p.port 1 ++ leBytes 0 1 ++ leBytes p.src 2 ++ leBytes p.dst 2 ++ leBytes p.fc 4 ++ leBytes p.lsn 1 ++ leBytes p.mode 1
    ++ leBytes p.lqi 1 ++ leBytes 0 5

/-- The word of a GAP marker (R402). -/
def gapWord (g : Gap) : Bytes :=
  leBytes 2 1 ++ leBytes (b2n g.flush) 1 ++ leBytes 0 2 ++ leBytes g.pkts 4 ++ leBytes g.bytes 4 ++ leBytes g.oversize 4
    ++ leBytes g.tfirst 8 ++ leBytes g.tlast 8

/-- The packet whose header word and payload stand in these bytes. -/
def headPkt (h payload : Bytes) : QPkt :=
  { priv := bit (u h 1 1) 0, bcast := bit (u h 1 1) 1, rx := bit (u h 1 1) 2, payload := payload.take (u h 2 2), ts := u h 4 8, ctx := u h 12 2,
    port := u h 14 1, src := u h 16 2, dst := u h 18 2, fc := u h 20 4, lsn := u h 24 1, mode := u h 25 1, lqi := u h 26 1 }

/-- The GAP marker in a word. -/
def wordGap (h : Bytes) : Gap :=
  { flush := bit (u h 1 1) 0, pkts := u h 4 4, bytes := u h 8 4, oversize := u h 12 4, tfirst := u h 16 8, tlast := u h 24 8 }

/-- The bytes that an entry's words hold. -/
def itemBytes : QItem → Bytes
  | .pkt p => pktHead p ++ p.payload
  | .gap g => gapWord g

/-- The data of word `j` of an entry. -/
def itemWord (it : QItem) (j : Nat) : Nat := leNat (slice (itemBytes it) (32 * j) 32)

/-- An entry with word `j` read as other data than were written. -/
def itemWith (it : QItem) (j d : Nat) : QItem :=
  let b := padTo (32 * j + 32) (itemBytes it)
  let b := b.take (32 * j) ++ leBytes d 32 ++ b.drop (32 * j + 32)
  match it with
  | .pkt p => .pkt (if j = 0 then headPkt b p.payload else { p with payload := (b.drop 32).take p.payload.length })
  | .gap g => .gap (if j = 0 then wordGap b else g)

/-- The key of the word `k` words past the start of queue `i`'s ring. -/
def queueKey (i k : Nat) : Nat := 262144 + 2048 * i + k % 2048

/-- The place of entry `k` in the ring. -/
def placeOf (q : Queue) (k : Nat) : Nat := q.rd + sumN ((q.entries.take k).map (·.words))

/-- CM: the place after the last committed entry (R399). -/
def qEnd (q : Queue) : Nat := q.rd + qUsed q

/-- `n` words of a queue from a place on are written whole. -/
def clearQ (s : State) (i place n : Nat) : State :=
  if s.mqf.flips.isEmpty then s else (List.range n).foldl (fun s j => dropFlips s (queueKey i (place + j))) s

/-- The decoding of word `j` of an entry. -/
def qCode (s : State) (i place : Nat) (it : QItem) (j : Nat) : Option (List Nat) :=
  decodeFlips (itemWord it j) (flipsOf s (queueKey i (place + j)))

/-- Word `j` of an entry is poisoned. -/
def qBad (s : State) (i place : Nat) (it : QItem) (j : Nat) : Bool := (qCode s i place it j).isNone

/-- A reader of a queue reads word `j` of an entry (R393–R395). -/
def readQ (s : State) (i place : Nat) (it : QItem) (j : Nat) : State :=
  noteRead s (queueKey i (place + j)) (qCode s i place it j)

/-- A reader reads the `n` payload words of an entry. -/
def readPay (s : State) (i place : Nat) (it : QItem) (n : Nat) : State :=
  (List.range n).foldl (fun s j => readQ s i place it (j + 1)) s

/-- Some payload word of an entry of `n` payload words is poisoned. -/
def payBad (s : State) (i place : Nat) (it : QItem) (n : Nat) : Bool := (List.range n).any (fun j => qBad s i place it (j + 1))

/-! #### Drops, commits and releases (R401–R407) -/

/-- Append an entry at CM. -/
def pushQ (s : State) (i : Nat) (e : QEntry) : State :=
  let q := queue s i
  clearQ (setQueue s i { q with entries := q.entries ++ [e] }) i (qEnd q) e.words

/-- Record a drop in the newest GAP marker, or in a new one (R402): in a full ring it takes the word of the newest marker, which
the consumer has just released. -/
def gapMark (s : State) (i bytes oversize : Nat) : State :=
  let q := queue s i
  let add (g : Gap) : Gap :=
    { g with pkts := satAdd 32 g.pkts 1, bytes := satAdd 32 g.bytes bytes, oversize := satAdd 32 g.oversize oversize,
             tlast := now s }
  let new : QEntry :=
    QEntry.mk' (.gap { flush := false, pkts := 1, bytes, oversize, tfirst := now s, tlast := now s }) 1
  match q.entries.getLast? with
  | some e =>
    match e.item, e.released with
    | .gap g, false => setQueue s i { q with entries := q.entries.dropLast ++ [{ e with item := .gap (add g) }] }
    | .gap _, true => pushQ (if 2048 ≤ qUsed q then setQueue s i { q with entries := q.entries.dropLast } else s) i new
    | _, _ => pushQ s i new
  | none => pushQ s i new

/-- Outcome of a commit that the producer sees (R401). -/
inductive CommitResult where
  | committed | droppedFull | droppedOversize | zeroLength
  deriving DecidableEq, Repr

/-- A producer writes and commits `len` payload bytes (R401, R405): dropped for want of room at its start, or for overrunning it. -/
def commitItem (s : State) (i len : Nat) (item : QItem) (tag : Option (Nat × Nat)) : State × CommitResult :=
  let q := queue s i
  if !queuePresent s i then (s, .droppedFull)
  else if qFree q < 2 then (gapMark (countFull s i) i len 0, .droppedFull)
  else if qFree q < pktWords len then (gapMark (countOversize s i) i (32 * (qFree q - 1)) 1, .droppedOversize)
  else if len = 0 then (countZlp s i, .zeroLength)
  else (pushQ s i { QEntry.mk' item (pktWords len) with tag }, .committed)

/-- Commit a packet (R401): its header takes the mesh time. -/
def commitQ (s : State) (i : Nat) (p : QPkt) : State × CommitResult :=
  commitItem s i p.payload.length (.pkt { p with ts := now s }) none

/-- A producer streams `len` bytes and then finds the packet bad: no room ends it before, and otherwise it rewinds (R401, step 3). -/
def rewindQ (s : State) (i len : Nat) : State :=
  let q := queue s i
  if !queuePresent s i then s
  else if qFree q < 2 then gapMark (countFull s i) i len 0
  else if qFree q < pktWords len then gapMark (countOversize s i) i (32 * (qFree q - 1)) 1
  else countRewind (clearQ s i (qEnd q) (pktWords len)) i

/-- Release entry `k` whole; RD advances past the longest run of released entries (R403). -/
def releaseAt (q : Queue) (k : Nat) : Queue :=
  let es := q.entries.mapIdx (fun j e => if j = k then { e with released := true } else e)
  let run := es.takeWhile (·.released)
  { q with rd := (q.rd + sumN (run.map (·.words))) % 2048, entries := es.drop run.length }

/-- The oldest entry not yet released, with its place. -/
def frontOf (q : Queue) : Option (Nat × QEntry) :=
  (q.entries.mapIdx (fun j e => (j, e))).find? (fun x => !x.2.released)

/-- SFM takes and releases GAP markers of a transmit queue at once (R403). -/
def releaseGaps (s : State) (i : Nat) : State :=
  let q := queue s i
  setQueue s i ((List.range q.entries.length).foldl (fun q k =>
    match q.entries[k]? with
    | some e => (match e.item, e.released with | .gap _, false => releaseAt q k | _, _ => q)
    | none => q) q)

/-- A poisoned header that a reader has reached: every committed packet from it to CM becomes one FLUSH marker, whose word is written whole
(R407). -/
def flushAt (s : State) (i k : Nat) : State :=
  let q := queue s i
  let w := sumN ((q.entries.drop k).map (·.words))
  let g : Gap := { flush := true, pkts := 0, bytes := 32 * (w - 1), oversize := 0, tfirst := now s, tlast := now s }
  clearQ (countPoison (setQueue s i { q with entries := q.entries.take k ++ [QEntry.mk' (.gap g) w] }) i) i (placeOf q k) 1

/-- A reader has read the header of entry `k`: a good one delivers the packet, unless a payload word is poisoned; the entry is released
(R403, R406). -/
def takeAt (s : State) (i k : Nat) (e : QEntry) : State × Option QEntry :=
  let place := placeOf (queue s i) k
  let n := match e.item with | .gap _ => 0 | _ => e.words - 1
  let r := readPay s i place e.item n
  let r := setQueue r i (releaseAt (queue r i) k)
  if payBad s i place e.item n then (countPoison r i, none) else (r, some e)

/-- Take the front entry of a queue: a poisoned payload discards the packet, and a poisoned header flushes (R406, R407). -/
def takeE (s : State) (i : Nat) : State × Option QEntry :=
  match frontOf (queue s i) with
  | none => (s, none)
  | some (k, e) =>
    let place := placeOf (queue s i) k
    let s' := readQ s i place e.item 0
    if qBad s i place e.item 0 then
      let s := flushAt s' i k
      match frontOf (queue s i) with
      | some (j, e) => (setQueue s i (releaseAt (queue s i) j), some e)
      | none => (s, none)
    else takeAt s' i k e

/-- Take the front of a queue: its item. -/
def takeQ (s : State) (i : Nat) : State × Option QItem :=
  let r := takeE s i
  (r.1, r.2.map (·.item))

/-- The front entry of a queue holds a poisoned word, so that taking it gives no packet. -/
def frontBad (s : State) (i : Nat) : Bool :=
  match frontOf (queue s i) with
  | some (k, e) => (List.range e.words).any (fun j => qBad s i (placeOf (queue s i) k) e.item j)
  | none => false

/-! #### The mesh header (R186) -/

def mhOrig (c : Bytes) : Nat := u c 0 2
def mhFinal (c : Bytes) : Nat := u c 2 2
def mhHops (c : Bytes) : Nat := u c 4 1 % 64
def mhFlood (c : Bytes) : Bool := bit (u c 4 1) 7
def mhLimit (c : Bytes) : Nat := u c 5 1 % 64
def mhMseq (c : Bytes) : Nat := u c 6 2

/-- The mesh header. -/
def meshHdr (orig final hops limit : Nat) (flood : Bool) (mseq : Nat) : Bytes :=
  leBytes orig 2 ++ leBytes final 2 ++ leBytes (hops + 128 * b2n flood) 1 ++ leBytes limit 1 ++ leBytes mseq 2

/-- The dispatch class in the MAC payload of a queue packet, and what stands behind its six bytes: the mesh header and the class content. -/
def QPkt.cls (p : QPkt) : Nat := u p.payload 0 1 % 16
def QPkt.body (p : QPkt) : Bytes := p.payload.drop 6

/-- A queue packet originated at this node. -/
def QPkt.own (payload : Bytes) : QPkt :=
  { priv := false, bcast := false, rx := false, payload, ts := 0, ctx := 0xFFFF, port := 0xFF, src := 0, dst := 0, fc := 0,
    lsn := 0, mode := 0, lqi := 0 }

/-- HCP turns a GAP marker into a GAP event on each port that subscribes to HCP events (R439). -/
def gapEvent (s : State) (source : Nat) (g : Gap) : State :=
  raise s 12 0 (leBytes source 1 ++ leBytes g.pkts 4 ++ leBytes g.bytes 4)

/-- HCP takes everything committed to MEAS-EV (14) or CTRL-EV (15) and fans it out (R438, log entry 9): the body's first
byte is TYPE. -/
def drainEvents (s : State) (i unit fuel : Nat) : State :=
  match fuel with
  | 0 => s
  | fuel + 1 =>
    if hcpOn s then
      match frontOf (queue s i) with
      | none => s
      | some _ =>
        let (s, it) := takeQ s i
        let s := match it with
          | some (.pkt p) => raiseAt s p.ts unit (u p.payload 0 1) p.payload
          | some (.gap g) => gapEvent s i g
          | none => s
        drainEvents s i unit fuel
    else s

/-- DCH commits a MEAS-EV packet (R283): TYPE and body. -/
def measEvent (s : State) (type : Nat) (body : Bytes) : State :=
  drainEvents (commitQ s 14 (QPkt.own (leBytes type 1 ++ body))).1 14 8 4

/-- LCE commits a CTRL-EV packet (R334): TYPE and body. -/
def ctrlEvent (s : State) (type : Nat) (body : Bytes) : State :=
  drainEvents (commitQ s 15 (QPkt.own (leBytes type 1 ++ body))).1 15 9 4

/-! ### Answers to remote requests, and to the request in hand (R428, R429, R441, R442) -/

/-- The reply to the local request in hand: HCP is free for the next; a port that has been reset since gets no reply (R428, R432). -/
def finishLocal (s : State) (c : Current) (status : Nat) (data : Bytes) : State :=
  let s : State := { s with hcp := { s.hcp with current := none } }
  if c.dead then s else answerReq s (HostPort.idx c.port) c.seq c.op c.auth status data

/-- The MESH_SEND that gave a packet of HOST-IN is answered (R437). -/
def answerSend (s : State) (tag : Option (Nat × Nat)) (status : Nat) : State :=
  match tag, s.hcp.current with
  | some (n, q), some c => if c.orig.isNone ∧ HostPort.idx c.port = n ∧ c.seq = q ∧ c.op = 0xFC0B then finishLocal s c status [] else s
  | _, _ => s

/-! #### HOST-IN (R404) -/

/-- Bytes of a staging buffer: 48 words hold a header and 1,504 bytes. -/
def stageMax : Nat := 1504

/-- A packet is dropped from HOST-IN: the host's command learns it, and a SEND of LCE counts (R321, R437). -/
def hostInDropped (s : State) (x : Staged) : State :=
  answerSend (if x.send then inc s F.LCE_CNT1_SENDDROP else s) x.tag St.queueFull

/-- The commit of the first packet staged: without room for all of it in the ring it is dropped, and with room MQF begins to copy it (R404). -/
def stageBegin (s : State) : Nat → State
  | 0 => s
  | fuel + 1 =>
    match s.mqf.staged with
    | [] => s
    | x :: rest =>
      let q := queue s 10
      let n := x.pkt.payload.length
      if qFree q < pktWords n then
        stageBegin (hostInDropped { gapMark (countFull s 10) 10 n 0 with mqf := { (gapMark (countFull s 10) 10 n 0).mqf with staged := rest } } x) fuel
      else setQueue s 10 { q with opened := some (pktWords n) }

/-- The packet being copied has been copied and is committed; the next one's commit, which waited, goes on (R404). -/
def stageEnd (s : State) : State :=
  match s.mqf.staged with
  | [] => s
  | x :: rest =>
    let s : State := { s with mqf := { s.mqf with staged := rest } }
    let s := setQueue s 10 { queue s 10 with opened := none }
    let s := pushQ s 10 { QEntry.mk' (.pkt { x.pkt with ts := now s }) (pktWords x.pkt.payload.length) with tag := x.tag }
    stageBegin s 2

/-- A producer's packet is whole in its staging buffer (R404). One too large for it overruns. DESIGN CHOICE: MQF copies in 50 fabric cycles what
it has begun to copy, so a producer whose own last packet is still being copied, and the record of an overrun, come after that copy (log entry
222). -/
def stage (s : State) (x : Staged) : State :=
  let busy := s.mqf.staged.any (fun y => y.lce == x.lce)
  if stageMax < x.pkt.payload.length then
    hostInDropped (gapMark (countOversize (stageEnd (stageEnd s)) 10) 10 stageMax 1) x
  else
    let s := if busy then stageEnd (stageEnd s) else s
    let s : State := { s with mqf := { s.mqf with staged := s.mqf.staged ++ [x] } }
    if s.mqf.staged.length = 1 then stageBegin s 2 else s

/-- A packet for HOST-IN: the MAC-payload head with its class and privilege, the mesh header without what MRT fills in when it takes the
packet (ORIG, HOPS, MSEQ), and the class content (R186, R400, log entry 223). -/
def QPkt.hostIn (dst cls : Nat) (flood priv : Bool) (limit : Nat) (body : Bytes) : QPkt :=
  { QPkt.own (leBytes (cls + 16 + 64 * b2n priv) 6 ++ meshHdr 0 dst 0 limit flood 0 ++ body) with priv }

/-- LCE stages a packet for HOST-IN. -/
def stageLce (s : State) (dst : Nat) (body : Bytes) (send : Bool) : State :=
  stage s { lce := true, send, tag := none, pkt := QPkt.hostIn dst 4 false false 32 body }

/-- HCP stages a packet for HOST-IN. -/
def stageHcp (s : State) (p : QPkt) (tag : Option (Nat × Nat)) : State := stage s { lce := false, send := false, tag, pkt := p }

/-- A packet for a remote originator goes to HOST-IN, unprivileged, with LIMIT 32 (R442). -/
def sendRemote (s : State) (orig vf seq op : Nat) (params : Bytes) : State :=
  stageHcp s (QPkt.hostIn orig 6 false false 32 (puluacHead vf seq op params)) none

/-- The reply to a remote request: sent, and stored for its duplicates (R429, R441). -/
def answerRemote (s : State) (orig seq op status : Nat) (data : Bytes) : State :=
  let params := leBytes status 2 ++ data
  let s : State := { s with hcp := { s.hcp with remoteDups := s.hcp.remoteDups.map (fun e =>
                                                if e.1 = orig then (e.1, e.2.map (fun d => if d.seq = seq ∧ d.op = op then { d with reply := some params } else d)) else e) } }
  sendRemote s orig 0x11 seq op params

/-- The request in hand is answered. -/
def finishCurrent (s : State) (status : Nat) (data : Bytes) : State :=
  match s.hcp.current with
  | none => s
  | some c =>
    match c.orig with
    | some o => answerRemote { s with hcp := { s.hcp with current := none } } o c.seq c.op status data
    | none => finishLocal s c status data

/-! ### Power leave (R47–R54) -/

/-- The cost of requester `req` for a line at level `level` (R47). -/
def leaveCost (s : State) (req level : Nat) : Nat :=
  if req < 4 then
    match level with
    | 9 => getF s F.PMU_LEAVE_LPCOST0_STEP9
    | 10 => getF s F.PMU_LEAVE_LPCOST0_STEP10
    | 11 => getF s F.PMU_LEAVE_LPCOST0_STEP11
    | 12 => getF s F.PMU_LEAVE_LPCOST0_STEP12
    | 13 => getF s F.PMU_LEAVE_LPCOST1_STEP13
    | 14 => getF s F.PMU_LEAVE_LPCOST1_STEP14
    | 15 => getF s F.PMU_LEAVE_LPCOST1_STEP15
    | _ => 0
  else
    match req with
    | 4 => getF s F.PMU_LEAVE_COST0_RFX
    | 5 => getF s F.PMU_LEAVE_COST0_EXC
    | 6 => getF s F.PMU_LEAVE_COST0_GALLERY
    | 7 => getF s F.PMU_LEAVE_COST0_SIGBURST
    | 8 => getF s F.PMU_LEAVE_COST1_SWEEP
    | 9 => getF s F.PMU_LEAVE_COST1_FLASH
    | 10 => getF s F.PMU_LEAVE_COST1_OTP
    | _ => 0

/-- Leave held in sum (PMU_LEAVE_USED.USED). -/
def leaveUsed (s : State) : Nat := sumN (s.pmu.held.map (·.cost))

/-- Requester `req` holds leave. -/
def holdsLeave (s : State) (req : Nat) : Bool := s.pmu.held.any (fun h => h.req == req)

/-- Requester `req` holds leave for one operation. -/
def holdsFor (s : State) (req : Nat) (f : LeaveFor) : Bool := s.pmu.held.any (fun h => h.req == req && h.for_ == f)

/-- The request for one operation is pending. -/
def awaits (s : State) (req : Nat) (f : LeaveFor) : Bool := s.pmu.pending.any (fun r => r.req == req && r.for_ == f)

/-- The governor's answer for an operation of a port, and the line step granted. -/
def answer (s : State) (req : Nat) (f : LeaveFor) : LeaveAns × Nat :=
  match s.pmu.answers.find? (fun a => a.req == req && a.for_ == f) with
  | some a => (a.ans, a.step)
  | none => (.none, 0)

/-- The answer is used up. -/
def useAnswer (s : State) (req : Nat) (f : LeaveFor) : State :=
  { s with pmu := { s.pmu with answers := s.pmu.answers.filter (fun a => !(a.req == req && a.for_ == f)) } }

/-- A port, requesters 0–4, is told the governor's answer. -/
def setAnswer (s : State) (req : Nat) (f : LeaveFor) (a : LeaveAns) (step : Nat) : State :=
  let s := useAnswer s req f
  if req < 5 then { s with pmu := { s.pmu with answers := { req, for_ := f, ans := a, step } :: s.pmu.answers } } else s

/-- Raise a leave request for an operation; one that is pending stays (R48, R52). -/
def askFor (s : State) (req : Nat) (f : LeaveFor) (obj level : Nat) (beacon : Bool) : State :=
  if awaits s req f then s
  else
    let r : LeaveReq := { req, for_ := f, obj, level, age := 0, refused := false, beacon, at_ := now s }
    useAnswer { s with pmu := { s.pmu with pending := s.pmu.pending ++ [r] } } req f

/-- Raise a unit's leave request (R48). -/
def askLeave (s : State) (req obj level : Nat) (beacon : Bool) : State := askFor s req .unit obj level beacon

/-- An operation is over, or is not to be: its leave is released, its request withdrawn (R50). -/
def dropLeave (s : State) (req : Nat) (f : LeaveFor) : State :=
  useAnswer { s with pmu := { s.pmu with held := s.pmu.held.filter (fun h => !(h.req == req && h.for_ == f)),
                                         pending := s.pmu.pending.filter (fun r => !(r.req == req && r.for_ == f)) } } req f

/-- Release the leave that a requester holds, at once: the oldest grant of it (R50). -/
def releaseLeave (s : State) (req : Nat) : State :=
  { s with pmu := { s.pmu with held := s.pmu.held.eraseP (fun h => h.req == req) } }

/-- Withdraw a request still pending. -/
def withdrawLeave (s : State) (req : Nat) : State :=
  { s with pmu := { s.pmu with pending := s.pmu.pending.filter (fun r => r.req != req) } }

end Sys2Proof.Machine
end

