-- ==== Sys2Proof/Machine/MirCodec.lean ====
section
/-! DEFINITION. Mirror records and copy chunks as bytes (R343, R348, R350). The spec gives no layout of their content: each is a kind and its
fields in the order of the structure, numbers least significant byte first (DESIGN CHOICE, log entry 21). -/

namespace Sys2Proof.Machine

/-! ### Writing -/

/-- A number of 8 bytes; a string behind its length; a value that may be absent; a list behind its length. -/
def wNum (v : Nat) : Bytes := leBytes v 8
def wBytes (b : Bytes) : Bytes := leBytes b.length 2 ++ b
def wOpt {α : Type} (f : α → Bytes) : Option α → Bytes
  | some x => leBytes 1 1 ++ f x
  | none => leBytes 0 1
def wList {α : Type} (f : α → Bytes) (l : List α) : Bytes := leBytes l.length 2 ++ l.flatMap f
def wPair (e : Nat × Nat) : Bytes := wNum e.1 ++ wNum e.2
def wBool (b : Bool) : Bytes := leBytes (b2n b) 1

def wOwner (o : Owner) : Bytes := wNum o.cls ++ wNum o.id ++ wNum o.gen
def wOp (o : LceOp) : Bytes := leBytes o.opc 1 ++ leBytes o.obj 1 ++ leBytes o.p1 2 ++ leBytes o.p2 4
def wResult (r : OpResult) : Bytes := leBytes r.status 2 ++ leBytes r.data 4 ++ wOpt (fun a => leBytes a 1) r.act
def wAct (a : Act) : Bytes :=
  wNum a.applied ++ wOpt wNum a.pending ++ wOwner a.pendingOwner ++ wOpt wNum a.offTick ++ wOpt wNum a.pulseEnd
    ++ wOpt (fun c => wBool c.1 ++ wNum c.2) a.coil ++ wBytes a.record
def wRule (r : Rule) : Bytes :=
  wNum r.gen ++ wBool r.raw ++ wBool r.cond ++ wBool r.st ++ wNum r.count ++ wNum r.quiet ++ wOpt wNum r.fired
def wSeq (q : Seq) : Bytes :=
  wNum q.st ++ wNum q.step ++ wNum q.cause ++ wOwner q.owner ++ wNum q.start ++ wOpt wNum q.waitTo ++ wOpt wNum q.condAt ++ wList wPair q.jumps
    ++ wBool q.implicit ++ wBool q.lossAbort ++ wBytes q.hdr
def wWaiter (w : Waiter) : Bytes :=
  wOwner w.owner ++ wNum w.tag ++ wBool w.priv ++ wNum w.lease ++ wNum w.until_ ++ wList wResult w.before ++ wList wOp w.after
def wLockSt : LockSt → Nat
  | .free => 0 | .held => 1 | .cleanup => 2
def wLock (l : Lock) : Bytes :=
  leBytes (wLockSt l.st) 1 ++ wOwner l.owner ++ wNum l.expiry ++ wBool l.implicit ++ wList wWaiter l.waiters ++ wOpt wPair l.lostOwner
    ++ wOpt wNum l.lost ++ wBool l.reserved
def wKeys (k : KeyMirror) : Bytes :=
  wOpt wBytes k.nodeKey ++ wOpt wBytes k.cert ++ wOpt (fun a => wNum a.1 ++ wBytes a.2) k.authKey ++ wList (wOpt wBytes) k.opKeys
    ++ wList (wOpt wBytes) k.hostKeys ++ wList wNum k.opSeq ++ wOpt (fun a => wNum a.1 ++ wBytes a.2) k.gkey
    ++ wOpt (fun a => wNum a.1 ++ wNum a.2.1 ++ wBytes a.2.2) k.gpend
def wMrt (m : MrtMirror) : Bytes :=
  wNum m.parent ++ wNum m.ctx ++ wNum m.port ++ wOpt wNum m.short ++ wNum m.nseq ++ wNum m.cost ++ wNum m.hops
    ++ wList (fun r => wNum r.1 ++ wNum r.2.1 ++ wNum r.2.2) m.rreqs

/-- The bytes of a record. -/
def wRec : MirRec → Bytes
  | .mem a d => leBytes 1 1 ++ leBytes a 4 ++ wBytes d
  | .regs lo hi l => leBytes 2 1 ++ wNum lo ++ wOpt wNum hi ++ wList wPair l
  | .slots a lo hi l => leBytes 3 1 ++ wNum a ++ wNum lo ++ wOpt wNum hi ++ wList wPair l
  | .scan l => leBytes 4 1 ++ wList wNum l
  | .keys k => leBytes 5 1 ++ wKeys k
  | .act t i a => leBytes 6 1 ++ wNum t ++ wNum i ++ wAct a
  | .rule t i r => leBytes 7 1 ++ wNum t ++ wNum i ++ wOpt wRule r
  | .seq t i q => leBytes 8 1 ++ wNum t ++ wNum i ++ wOpt wSeq q
  | .lock t i l => leBytes 9 1 ++ wNum t ++ wNum i ++ wLock l
  | .gen t g => leBytes 10 1 ++ wNum t ++ wNum g
  | .mrt m => leBytes 11 1 ++ wMrt m
  | .fc n => leBytes 12 1 ++ wNum n
  | .txPkt q p k => leBytes 13 1 ++ leBytes q 1 ++ leBytes p 2 ++ pktHead k ++ wBytes k.payload
  | .txEnd q p => leBytes 14 1 ++ leBytes q 1 ++ leBytes p 2

/-! ### Reading: a value and the bytes behind it; past the end, bytes read as zero -/

def rInt (n : Nat) (b : Bytes) : Nat × Bytes := (u b 0 n, b.drop n)
def rNum (b : Bytes) : Nat × Bytes := rInt 8 b
def rBool (b : Bytes) : Bool × Bytes := (u b 0 1 == 1, b.drop 1)
def rBytes (b : Bytes) : Bytes × Bytes := (slice b 2 (u b 0 2), b.drop (2 + u b 0 2))
def rOpt {α : Type} (f : Bytes → α × Bytes) (b : Bytes) : Option α × Bytes :=
  if u b 0 1 = 1 then let r := f (b.drop 1); (some r.1, r.2) else (none, b.drop 1)
def rMany {α : Type} (f : Bytes → α × Bytes) : Nat → Bytes → List α × Bytes
  | 0, b => ([], b)
  | n + 1, b => let x := f b; let r := rMany f n x.2; (x.1 :: r.1, r.2)
def rList {α : Type} (f : Bytes → α × Bytes) (b : Bytes) : List α × Bytes := rMany f (u b 0 2) (b.drop 2)
/-- One value after another. -/
def rThen {α β : Type} (f : Bytes → α × Bytes) (g : Bytes → β × Bytes) (b : Bytes) : (α × β) × Bytes :=
  let x := f b
  let y := g x.2
  ((x.1, y.1), y.2)
def rMap {α β : Type} (f : Bytes → α × Bytes) (k : α → β) (b : Bytes) : β × Bytes := let x := f b; (k x.1, x.2)
def rPair (b : Bytes) : (Nat × Nat) × Bytes := rThen rNum rNum b

def rOwner (b : Bytes) : Owner × Bytes := rMap (rThen rNum (rThen rNum rNum)) (fun x => { cls := x.1, id := x.2.1, gen := x.2.2 }) b
def rOp (b : Bytes) : LceOp × Bytes := ({ opc := u b 0 1, obj := u b 1 1, p1 := u b 2 2, p2 := u b 4 4 }, b.drop 8)
def rResult (b : Bytes) : OpResult × Bytes :=
  rMap (rThen (rInt 2) (rThen (rInt 4) (rOpt (rInt 1)))) (fun x => { status := x.1, data := x.2.1, act := x.2.2 }) b
def rAct (b : Bytes) : Act × Bytes :=
  rMap (rThen rNum (rThen (rOpt rNum) (rThen rOwner (rThen (rOpt rNum) (rThen (rOpt rNum) (rThen (rOpt (rThen rBool rNum)) rBytes))))))
    (fun (a, p, o, off, pe, c, r) => { applied := a, pending := p, pendingOwner := o, offTick := off, pulseEnd := pe, coil := c, record := r }) b
def rRule (b : Bytes) : Rule × Bytes :=
  rMap (rThen rNum (rThen rBool (rThen rBool (rThen rBool (rThen rNum (rThen rNum (rOpt rNum)))))))
    (fun (g, r, c, s, n, q, f) => { gen := g, raw := r, cond := c, st := s, count := n, quiet := q, fired := f }) b
def rSeq (b : Bytes) : Seq × Bytes :=
  rMap (rThen rNum (rThen rNum (rThen rNum (rThen rOwner (rThen rNum (rThen (rOpt rNum) (rThen (rOpt rNum) (rThen (rList rPair)
      (rThen rBool (rThen rBool rBytes))))))))))
    (fun (st, sp, c, o, t, w, k, j, i, l, h) => { st, step := sp, cause := c, owner := o, start := t, waitTo := w, condAt := k, jumps := j,
                                                  implicit := i, lossAbort := l, hdr := h }) b
def rWaiter (b : Bytes) : Waiter × Bytes :=
  rMap (rThen rOwner (rThen rNum (rThen rBool (rThen rNum (rThen rNum (rThen (rList rResult) (rList rOp)))))))
    (fun (o, t, p, l, e, x, y) => { owner := o, tag := t, priv := p, lease := l, until_ := e, before := x, after := y }) b
def rLockSt : Nat → LockSt
  | 1 => .held | 2 => .cleanup | _ => .free
def rLock (b : Bytes) : Lock × Bytes :=
  rMap (rThen (rInt 1) (rThen rOwner (rThen rNum (rThen rBool (rThen (rList rWaiter) (rThen (rOpt rPair) (rThen (rOpt rNum) rBool)))))))
    (fun (st, o, e, i, w, lo, l, r) => { st := rLockSt st, owner := o, expiry := e, implicit := i, waiters := w, lostOwner := lo, lost := l,
                                         reserved := r }) b
def rKeys (b : Bytes) : KeyMirror × Bytes :=
  rMap (rThen (rOpt rBytes) (rThen (rOpt rBytes) (rThen (rOpt (rThen rNum rBytes)) (rThen (rList (rOpt rBytes)) (rThen (rList (rOpt rBytes))
      (rThen (rList rNum) (rThen (rOpt (rThen rNum rBytes)) (rOpt (rThen rNum (rThen rNum rBytes))))))))))
    (fun (n, c, a, o, h, q, g, p) => { nodeKey := n, cert := c, authKey := a, opKeys := o, hostKeys := h, opSeq := q, gkey := g, gpend := p }) b
def rMrt (b : Bytes) : MrtMirror × Bytes :=
  rMap (rThen rNum (rThen rNum (rThen rNum (rThen (rOpt rNum) (rThen rNum (rThen rNum (rThen rNum (rList (rThen rNum (rThen rNum rNum))))))))))
    (fun (p, c, n, s, q, k, h, r) => { parent := p, ctx := c, port := n, short := s, nseq := q, cost := k, hops := h, rreqs := r }) b

/-- The record at the head of these bytes; none for a kind that does not exist. -/
def rRec (b : Bytes) : Option MirRec × Bytes :=
  let c := b.drop 1
  let some_ {α : Type} (f : Bytes → α × Bytes) (k : α → MirRec) : Option MirRec × Bytes := rMap f (fun x => some (k x)) c
  match u b 0 1 with
  | 1 => some_ (rThen (rInt 4) rBytes) (fun (a, d) => .mem a d)
  | 2 => some_ (rThen rNum (rThen (rOpt rNum) (rList rPair))) (fun (lo, hi, l) => .regs lo hi l)
  | 3 => some_ (rThen rNum (rThen rNum (rThen (rOpt rNum) (rList rPair)))) (fun (a, lo, hi, l) => .slots a lo hi l)
  | 4 => some_ (rList rNum) .scan
  | 5 => some_ rKeys .keys
  | 6 => some_ (rThen rNum (rThen rNum rAct)) (fun (t, i, a) => .act t i a)
  | 7 => some_ (rThen rNum (rThen rNum (rOpt rRule))) (fun (t, i, r) => .rule t i r)
  | 8 => some_ (rThen rNum (rThen rNum (rOpt rSeq))) (fun (t, i, q) => .seq t i q)
  | 9 => some_ (rThen rNum (rThen rNum rLock)) (fun (t, i, l) => .lock t i l)
  | 10 => some_ (rThen rNum rNum) (fun (t, g) => .gen t g)
  | 11 => some_ rMrt .mrt
  | 12 => some_ rNum .fc
  | 13 => some_ (rThen (rInt 1) (rThen (rInt 2) (rThen (fun b => (b.take 32, b.drop 32)) rBytes))) (fun (q, p, h, d) => .txPkt q p (headPkt h d))
  | 14 => some_ (rThen (rInt 1) (rInt 2)) (fun (q, p) => .txEnd q p)
  | _ => (none, c)

/-! ### The payload of a record's packet, or of a copy chunk -/

/-- For a chunk its progress in percent, 100 in the last one; then the records. -/
def msgBytes (pct : Option Nat) (recs : List MirRec) : Bytes := wOpt (fun p => leBytes p 1) pct ++ wList wRec recs
def msgOf (b : Bytes) : Option Nat × List MirRec :=
  let r := rThen (rOpt (rInt 1)) (rList rRec) b
  (r.1.1, r.1.2.filterMap id)

/-! ### The body of a frame: one queue packet, its header word and its payload (R343, R400) -/

def pktBody (p : QPkt) : Bytes := pktHead p ++ p.payload
def bodyPayload (b : Bytes) : Bytes := (headPkt b (b.drop 32)).payload

end Sys2Proof.Machine
end

