-- ==== Sys2Proof/Machine/Float.lean ====
section
/-! DEFINITION. IEEE 754 binary32 as DCH uses it: classes, exact comparison, rounding to nearest even, and the fused
multiply-add of R291. -/

namespace Sys2Proof.Machine

def fExp (w : Nat) : Nat := bits w 23 8
def fFrac (w : Nat) : Nat := bits w 0 23
def fNeg (w : Nat) : Bool := bit w 31
def isNaN (w : Nat) : Bool := fExp w == 255 && fFrac w != 0
def isInf (w : Nat) : Bool := fExp w == 255 && fFrac w == 0
def isFinite (w : Nat) : Bool := fExp w != 255

def fPosInf : Nat := 0x7F800000
def fNegInf : Nat := 0xFF800000
def fNaN : Nat := 0x7FC00000

/-- The magnitude of a finite value, in units of 2^−149, the smallest subnormal. -/
def fMag (w : Nat) : Nat := if fExp w = 0 then fFrac w else (2 ^ 23 + fFrac w) * 2 ^ (fExp w - 1)

/-- A finite value in units of 2^−149. -/
def fUnits (w : Nat) : Int := if fNeg w then -(fMag w : Int) else fMag w

/-- A value in units of 2^−149, infinities beyond every finite value. -/
def fOrd (w : Nat) : Int := if fExp w = 255 then (if fNeg w then -(2 ^ 280) else 2 ^ 280) else fUnits w

/-- `a < b`, false where either is NaN. -/
def fLt (a b : Nat) : Bool := !isNaN a && !isNaN b && fOrd a < fOrd b

/-- `|a|`. -/
def fAbs (a : Nat) : Nat := a % 2 ^ 31

/-- `n / 2^s` rounded to nearest, ties to even. -/
def rne (n s : Nat) : Nat :=
  let q := n / 2 ^ s
  let r := n % 2 ^ s
  if s = 0 then n else if 2 ^ s < 2 * r ∨ (2 * r = 2 ^ s ∧ q % 2 = 1) then q + 1 else q

/-- The binary32 nearest to `n × 2^−k`, ties to even, with the given sign; overflow gives infinity. -/
def fRound (neg : Bool) (n k : Nat) : Nat :=
  let sign := if neg then 2 ^ 31 else 0
  if n = 0 then sign
  else
    let e : Int := max ((Nat.log2 n : Int) - k) (-126)
    let sh : Int := e - 23 + k
    let q := if sh < 0 then n * 2 ^ (-sh).toNat else rne n sh.toNat
    let body := (e + 126).toNat * 2 ^ 23 + q
    sign + (if fPosInf ≤ body then fPosInf else body)

/-- The binary32 nearest to an integer over `2^k`. -/
def fOfInt (i : Int) (k : Nat) : Nat := fRound (i < 0) i.natAbs k

/-- The fused multiply-add `a × b + c`, rounded once, to nearest even (R291). -/
def fma (a b c : Nat) : Nat :=
  let pneg := fNeg a != fNeg b
  let pinf := isInf a || isInf b
  if isNaN a || isNaN b || isNaN c then fNaN
  else if pinf && (fAbs a = 0 || fAbs b = 0) then fNaN
  else if pinf then
    if isInf c && fNeg c != pneg then fNaN else if pneg then fNegInf else fPosInf
  else if isInf c then c
  else
    let t : Int := fUnits a * fUnits b + fUnits c * 2 ^ 149
    if t = 0 then
      (if fUnits a * fUnits b = 0 && fUnits c = 0 && pneg && fNeg c then 2 ^ 31 else 0)
    else fRound (t < 0) t.natAbs 298

/-- One binary32 addition. -/
def fAdd (a b : Nat) : Nat := fma a 0x3F800000 b

/-- Negation. -/
def fNegate (a : Nat) : Nat := if fNeg a then a - 2 ^ 31 else a + 2 ^ 31

/-- One binary32 subtraction. -/
def fSub (a b : Nat) : Nat := fAdd a (fNegate b)

end Sys2Proof.Machine
end

