-- ==== Sys2Proof/Machine/Time.lean ====
section
/-! DEFINITION. TBU: the mains cycle, the grid of slots, mesh time, beacon discipline and SYNC_IN (R56–R80). -/

namespace Sys2Proof.Machine

/-! ### Mesh time -/

/-- Ticks of a slew removed in `n` ticks at 500 ppm, with the accumulator left (R68, log entry 12). -/
def slewStep (t : Tbu) (n : Nat) : Int × Nat :=
  let k := (t.slewAcc + n) / 2000
  if t.slew < 0 then (-(min (-t.slew) (k : Int)), (t.slewAcc + n) % 2000)
  else (min t.slew (k : Int), (t.slewAcc + n) % 2000)

/-- The rate trim in force, 10⁻⁹. -/
def trim (s : State) : Int := signed (getF s F.TBU_TRIM_TRIM) 32

/-- ROOST between its wakes: the TIME domain stops, and the AON domain advances mesh time from RTCK (R79). -/
def timeStopped (s : State) : Bool := mode s == .roost && !s.sfm.awake && s.rfx.reacq.isNone

/-- Ticks of the slew that `n` cycles remove, none while the TIME domain stops, with the accumulator left (R68, R79). -/
def slewOf (s : State) (n : Nat) : Int × Nat := if timeStopped s then (0, s.tbu.slewAcc) else slewStep s.tbu n

/-- `n` cycles of the TIME domain: mesh time advances by one tick each, plus the rate trim, plus the slew; it never decreases, so
a tick of slew that the cycles cannot take stays to be removed (R66, R68). -/
def runTime (s : State) (n : Nat) : State :=
  let t := s.tbu
  let acc := t.trimAcc + n * trim s
  let run := max 0 (n + acc / 1000000000)
  let (sl, sa) := slewOf s n
  let sl := max sl (-run)
  { s with tbu := { t with time := t.time + BitVec.ofInt 64 (run + sl), cycles := t.cycles + n, trimAcc := acc % 1000000000,
                           slew := t.slew - sl, slewAcc := sa } }

/-- Cycles of the TIME domain in which mesh time advances by `d` ticks, with the trim and the slew removed meanwhile (R66, R68). -/
def cyclesFor (s : State) (d : Nat) : Nat :=
  let n (sl : Int) : Nat := (((d - sl) * 1000000000 - s.tbu.trimAcc) / (1000000000 + trim s)).toNat
  n (slewOf s (n 0)).1

/-- Mesh time moves forward to `t`, where a command marks an instant later than it: the trim and the slew of the cycles in between
have run (R66, R68, log entry 3). While the TIME domain stops it moves by whole steps of RTCK, 3,750 cycles, to the first at or after
`t` (R79). -/
def advanceTo (s : State) (t : Nat) : State :=
  if now s < t then
    let n := cyclesFor s (t - now s)
    if timeStopped s then runTime s (3750 * ceilDiv (n + 1) 3750)
    else
      let (sl, sa) := slewOf s n
      { s with tbu := { s.tbu with time := BitVec.ofNat 64 t, cycles := s.tbu.cycles + n, slew := s.tbu.slew - sl, slewAcc := sa,
                                   trimAcc := (s.tbu.trimAcc + n * trim s) % 1000000000 } }
  else s

/-- MFE's instants in the time after a step by `off` (R236). -/
def mfeMoved (mv : Nat → Nat) (off : Int) (m : Mfe) : Mfe :=
  { m with
    openAt := mv m.openAt, closeAt := mv m.closeAt, sineAt := mv m.sineAt, lattice := m.lattice + off
    tiaHeld := m.tiaHeld.map (fun h => h.map (fun p => { p with at_ := p.at_.map mv }))
    tiaLog := m.tiaLog.map (fun l => l.map (fun r => { r with at_ := mv r.at_ }))
    resets := m.resets.map (fun r => (r.1, mv r.2.1, mv r.2.2))
    phases := m.phases.map (fun p => (mv p.1, p.2))
    visits := m.visits.map (fun v => { v with close := mv v.close, end_ := v.end_.map mv }) }

/-- DCH's instants in the time after a step by `off`, which lies at `at_` in it: reports and coming ticks, which are multiples of mesh time, do
not move (R236, R282); `capture` while a capture runs (R288). -/
def dchMoved (mv mv16 : Nat → Nat) (off : Int) (at_ : Nat) (capture : Bool) (d : Dch) : Dch :=
  let out (o : Out) : Out := { o with at_ := mv o.at_ }
  let pair (p : Nat × Nat) : Nat × Nat := (mv p.1, mv p.2)
  { d with
    onAt := mv d.onAt
    raw := d.raw.map (fun e => (e.1, e.2.map (fun r => { r with at_ := mv r.at_ })))
    chans := d.chans.map (fun e => (e.1, { e.2 with settle := e.2.settle.map pair, settleHi := e.2.settleHi.map pair,
                                                    confs := e.2.confs.map mv, hist := e.2.hist.map out }))
    taps := d.taps.map (fun e => (e.1, { e.2 with hist := e.2.hist.map out }))
    past := d.past.map (fun p => (mv p.1, p.2))
    sets := d.sets.map (fun p => (mv p.1, p.2))
    gates := d.gates.map (fun g => (mv g.1, g.2))
    dets := d.dets.map (fun e => (e.1, { e.2 with doneAt := mv e.2.doneAt, edge := e.2.edge.map mv16 }))
    steps := at_ :: d.steps.map mv
    moves := d.moves.map mv
    events := d.events.map (fun e => { e with from_ := mv e.from_ })
    urmsAt := d.urmsAt.map (fun e => (e.1, mv16 e.2))
    spans := { d.spans with shortAt := mv d.spans.shortAt, tenAt := mv d.spans.tenAt, twoAt := mv d.spans.twoAt }
    bases := d.bases.map pair
    shorts := d.shorts.map pair
    baseAt := mv d.baseAt
    tickMoved := d.tickMoved + off
    supra := d.supra.map (fun e => (e.1, e.2.map (fun w => (mv w.1, w.2))))
    supraAt := d.supraAt.map (fun e => (e.1, mv e.2))
    gal := { d.gal with armAt := mv d.gal.armAt, trigAt := d.gal.trigAt.map mv, fullAt := d.gal.fullAt.map mv,
                        halfAt := d.gal.halfAt.map mv, tstep := d.gal.tstep || capture } }

/-- A step of mesh time by `off`: every instant that the hardware holds in mesh-time ticks moves with it, so that intervals
keep their length and the grid stays where it is, the lease expiries of LCE among them (R327), but for those that a spare has from its
primary, which are mesh times of the pair (R335); a slew in progress ends (R67, R68, log entry 13); the results that span it are marked
(R282, R288). -/
def stepTime (s : State) (off : Int) : State :=
  let t := s.tbu
  let mv (x : Nat) : Nat := ((x : Int) + off).toNat
  let mv16 (x : Nat) : Nat := ((x : Int) + 16 * off).toNat
  { s with
    tbu := { t with time := t.time + BitVec.ofInt 64 off, slew := 0, slewAcc := 0, z := mv16 t.z, slotAt := mv16 t.slotAt,
                    boundAt := mv16 t.boundAt, boundDue := t.boundDue.map mv16, lastBeacon := t.lastBeacon.map mv,
                    lastImplied := t.lastImplied.map (fun p => (mv16 p.1, p.2)), syncOut := t.syncOut.map mv,
                    dets := t.dets.map (fun d => { d with cands := d.cands.map mv, last := d.last.map mv,
                                                          next := mv16 d.next }) }
    mfe := mfeMoved mv off s.mfe
    lines := s.lines.map (fun l => { l with drvFrom := mv l.drvFrom, drvTo := mv l.drvTo, frozenTo := mv l.frozenTo,
                                            acq := l.acq.map (fun a => { a with at_ := mv a.at_, until_ := mv a.until_ }),
                                            quiet := l.quiet.map (fun q => { q with end_ := mv q.end_ }) })
    dch := dchMoved mv mv16 off (mv (now s)) (getF s F.DCH_GALSTAT_STATE == 1 || getF s F.DCH_GALSTAT_STATE == 2) s.dch
    sfm := { s.sfm with beaconAt := s.sfm.beaconAt.map (fun p => (p.1, mv p.2)) }
    rfx := { s.rfx with paTo := mv s.rfx.paTo, tx := s.rfx.tx.map (fun t => { t with from_ := mv t.from_ }),
                        ackAir := s.rfx.ackAir.map (fun a => { a with from_ := mv a.from_, till := mv a.till }) }
    lce := { s.lce with tickAt := mv s.lce.tickAt,
                        locks := if mode s = .spare then s.lce.locks
                                 else s.lce.locks.map (fun k => if k.st = .free then k else { k with expiry := mv k.expiry }) }
    pmu := { s.pmu with pending := s.pmu.pending.map (fun r => { r with at_ := mv r.at_ }) }
    erf := { s.erf with hbAt := mv s.erf.hbAt, deadAt := s.erf.deadAt.map mv, spareAt := mv s.erf.spareAt } }

/-! ### Period and grid -/

/-- The nominal frequency in force is 60 Hz (R60). -/
def is60 (s : State) : Bool := flag s F.TBU_STAT_NOMF_ACT

/-- The nominal period, 1/16 tick (R59). -/
def nominal16 (s : State) : Nat := if is60 s then 32768000 else 39321600

/-- The period in force, 1/16 tick: P, or the nominal period before the first lock (R520). -/
def per (s : State) : Nat := let p := getF s F.TBU_MCPERIOD_PERIOD; if p = 0 then nominal16 s else p

/-- SYMS of the current superframe (R63); NOMSYMS while it is not yet known (R520). -/
def syms (s : State) : Nat :=
  let c := getF s F.TBU_STAT_SYMS
  if c = 0 then (if is60 s then 6 else 8) else c + 5

/-- The domain reference crossing D nearest the tracked Z, 1/16 tick (R61). -/
def dref (s : State) : Nat := s.tbu.z + getF s F.TBU_DBO_DOFS * per s / 65536

/-- The member of `base + j × p` nearest to `target`. -/
def nearest (base target p : Nat) : Nat :=
  if p = 0 then target
  else
    let r := (((base : Int) - target) % p).toNat
    if 2 * r ≤ p then target + r else target + r - p

/-- Start of the next phase slot, 1/16 tick (R61). -/
def nextSlotAt (s : State) : Nat :=
  let k := (getF s F.TBU_POS_PSLOT + 1) % 16
  nearest (dref s + k * per s / 16) (s.tbu.slotAt + per s / 16) (per s)

/-- Start of cycle `c` of the current superframe (64 for its end without a shift) with a domain boundary offset of `dbo`, 1/16 tick: on
the c-th domain reference crossing after the boundary's, as Z, P and DOFS predict it (R62). -/
def cycleStart (s : State) (c : Nat) (dbo : Int) : Nat := (dref s + (s.tbu.cyc + c) * per s + dbo * per s / 65536).toNat

/-- The place among the domain reference crossings of a boundary at `b`: cycles from that of Z (R62). -/
def boundCyc (s : State) (b : Nat) : Int :=
  roundDiv ((b : Int) - getF s F.TBU_DBO_DBO * per s / 65536 - dref s) (per s)

/-- Start of access slot `a` of the current superframe, 1/16 tick: with its cycle, or half a period later (R62, R152). -/
def slotStart (s : State) (a : Nat) : Nat := cycleStart s (a / 2) (getF s F.TBU_DBO_DBO) + a % 2 * per s / 2

/-- DBO at the end of this superframe, with a shift that takes effect there and not yet taken modulo 65,536 (R75). -/
def nextDbo (s : State) : Int := getF s F.TBU_DBO_DBO + (if s.tbu.countdown = 1 then s.tbu.shift else 0)

/-- End of the current superframe, 1/16 tick: 64 cycles after its boundary, moved by a shift (R62, R75); early where the root's first
lock falls in it. -/
def nextBoundAt (s : State) : Nat := s.tbu.boundDue.getD (cycleStart s 64 (nextDbo s))

/-- Access slot `a` of the current superframe may be used: in one that ends at a moved boundary it must end at or before it (R62, R75). -/
def slotUsable (s : State) (a : Nat) : Bool :=
  (s.tbu.countdown != 1 && s.tbu.boundDue.isNone) || slotStart s (a + 1) ≤ nextBoundAt s + 16

/-- The access slot at the current instant (TBU_POS). -/
def aslotNow (s : State) : Nat :=
  min 127 ((16 * now s - slotStart s 0) * 2 / max 1 (per s))

/-- Ticks of `n` cycles of 1/16 tick. -/
def ticks16 (x : Nat) : Nat := x / 16

/-! ### Crossing detectors and the tracker -/

def det (s : State) (n : Nat) : Detector := nth Detector.fresh s.tbu.dets n
def setDet (s : State) (n : Nat) (d : Detector) : State := { s with tbu := { s.tbu with dets := s.tbu.dets.set n d } }

/-- The tracker of R59: new period and crossing estimate from the crossing at `zm` ticks. -/
def track (shift : Nat) (p z zm : Int) : Int × Int :=
  let zp := z + p
  (p + ((16 * zm - z) - p) / (2 : Int) ^ shift, zp + (16 * zm - zp) / (2 : Int) ^ shift)

/-- A period within 15.385–22.222 ms (R58). -/
def periodOk (p : Nat) : Bool := 15385 * 12288 ≤ 100 * p && 100 * p ≤ 22222 * 12288

/-- Four consecutive candidates, oldest first, lock a detector (R58; "differ by at most 1 %" is taken of the larger, log
entry 14). -/
def locks (c : List Nat) : Bool :=
  match c with
  | [a, b, d, e] =>
    let ps := [b - a, d - b, e - d]
    let hi := ps.foldl max 0
    let lo := ps.foldl min hi
    ps.all periodOk && (hi - lo) * 100 ≤ hi
  | _ => false

/-- Largest SYMS that fits half the period (R63). -/
def symsFit (s : State) : Nat :=
  let nom := if is60 s then 6 else 8
  ((List.range 9).filter (fun n => 6 ≤ n && n ≤ nom && (n * 147456 + 24576) * 32 ≤ per s)).foldl max 6

/-- The root's decision of SYMS for the following superframe (R63). -/
def symsDecide (s : State) (cur : Nat) : Nat :=
  let nom := if is60 s then 6 else 8
  let m := symsFit s
  if m < cur then m
  else if cur + 1 ≤ nom && ((cur + 1) * 147456 + 36864) * 32 ≤ per s then cur + 1
  else cur

/-- The offset of LP0's crossing against a crossing at `ts` of another port, within half a period (R65). -/
def offsetTo (s : State) (at0 ts : Nat) : Int :=
  let p : Int := per s / 16
  let r := ((at0 : Int) - ts) % p
  if 2 * r ≤ p then r else r - p

/-- Measure the offsets between LP0 and port `n`, where both are LOCKED (R65). -/
def measureOffset (s : State) (n : Nat) : State :=
  match (det s 0).st, (det s n).st, (det s 0).last, (det s n).last with
  | .locked, .locked, some z, some t => setDet s n { det s n with ofs := some (offsetTo s z t) }
  | _, _, _, _ => s

/-- The fallback source (R65): the lowest-numbered present port that is LOCKED with a measured offset. -/
def fallback (s : State) : Option Nat :=
  if flag s F.TBU_CFG_FALLBACK_EN then
    (List.range (nLine s)).find? (fun n => (det s n).st == .locked && (det s n).ofs.isSome && n != 0)
  else none

/-- Change the reference source, with its event (R65). -/
def setSource (s : State) (src : Option Nat) : State :=
  if s.tbu.src = src then s
  else
    let s := setF s F.TBU_STAT_SRC (src.getD (getF s F.TBU_STAT_SRC))
    timebaseEvent { s with tbu := { s.tbu with src } } 0 0

/-- HOLDOVER begins, or its fallback source is lost: the count of LP0's accepted crossings starts with HOLDOVER (R65). -/
def enterHoldover (s : State) : State :=
  let s := if getF s F.TBU_STAT_STATE = 2 then s else { s with tbu := { s.tbu with good := 0 } }
  setSource (setF s F.TBU_STAT_STATE 2) (fallback s)

/-- Without a source every predicted crossing passes with no accepted candidate: Z is the last one at or before now (R59, R65). -/
def coast (s : State) : State :=
  if s.tbu.src.isNone then
    let k := (16 * now s - s.tbu.z) / max 1 (per s)
    { s with tbu := { s.tbu with z := s.tbu.z + k * per s, cyc := s.tbu.cyc - k } }
  else s

/-- The automatic selection of the nominal frequency from a period in 1/16 tick: 60 Hz up to 18.182 ms (R60). -/
def selectNomf (s : State) (p : Nat) : State := putFlag s F.TBU_STAT_NOMF_ACT (100 * p ≤ 16 * 18182 * 12288)

/-- The first instant of the grid `base + j × p` at or after `t`. -/
def firstAfter (base t p : Nat) : Nat :=
  t + (((base : Int) - t) % (max 1 p : Nat)).toNat

/-- The crossing of the reference source enters the tracker, matched to the mains cycle nearest to it: cycles that passed without
one advance Z by P each, and a crossing of a cycle already counted is not used again (R59, R65, log entry 129). -/
def trackCrossing (s : State) (zm : Int) : State :=
  let p := max 1 (getF s F.TBU_MCPERIOD_PERIOD)
  let k := roundDiv (16 * zm - s.tbu.z) p
  if k ≤ 0 then s
  else
    let (p, z) := track (getF s F.TBU_CFG_TRACK_SHIFT) p (s.tbu.z + (k - 1) * p) zm
    setF { s with tbu := { s.tbu with z := z.toNat, cyc := s.tbu.cyc - k } } F.TBU_MCPERIOD_PERIOD p.toNat

/-- D has moved at once: the phase slots follow it, and the current instant lies in the slot of the new grid (R61). -/
def relocate (s : State) : State :=
  let t := 16 * now s
  let r := (((t : Int) - dref s) % (max 1 (per s) : Nat)).toNat
  let k := r * 16 / max 1 (per s)
  setF { s with tbu := { s.tbu with slotAt := t - r + k * per s / 16 } } F.TBU_POS_PSLOT (k % 16)

/-- The tracked crossing and period are those of the reference source, with the automatic nominal selection (R58, R60). -/
def lockOn (s : State) (p z : Nat) : State :=
  let s := setF (setF { s with tbu := { s.tbu with z := 16 * z } } F.TBU_MCPERIOD_PERIOD p) F.TBU_STAT_STATE 1
  let s : State := { s with tbu := { s.tbu with firstPer := some (s.tbu.firstPer.getD p) } }
  if getF s F.TBU_CFG_NOMF = 0 then selectNomf s (s.tbu.firstPer.getD p) else s

/-- The grid follows the mains from here on; at the root the next boundary falls at the first domain reference crossing at or after this
instant (R62). -/
def firstBound (s : State) (p : Nat) : State :=
  let s := relocate { s with tbu := { s.tbu with cyc := boundCyc s s.tbu.boundAt } }
  if isRoot s then { s with tbu := { s.tbu with boundDue := some (firstAfter (dref s) (16 * now s) p) } } else s

/-- The first lock of the reference source (R58, R60, R62, R63). -/
def firstLock (s : State) (p z : Nat) : State :=
  let s := firstBound (lockOn s p z) p
  if getF s F.TBU_STAT_SYMS = 0 then
    setF { s with tbu := { s.tbu with symsNext := symsFit s - 5 } } F.TBU_STAT_SYMS (symsFit s - 5)
  else s

/-- An accepted crossing of port `n` at `ts` (R59, R65). -/
def acceptCrossing (s : State) (n ts : Nat) : State :=
  let d := det s n
  let sh := getF s F.TBU_CFG_TRACK_SHIFT
  let (dp, dz) := track sh d.period (d.next - d.period : Nat) ts
  let s := setDet s n { d with last := some ts, miss := 0, period := dp.toNat, next := (dz + dp).toNat }
  let s := if n = 0 then (List.range 4).foldl measureOffset s else measureOffset s n
  let s :=
    if s.tbu.src = some n && getF s F.TBU_STAT_STATE != 0 then
      trackCrossing s (if n = 0 then ts else ts + (det s n).ofs.getD 0)
    else s
  if getF s F.TBU_STAT_STATE = 2 then
    if n = 0 then
      let s : State := { s with tbu := { s.tbu with good := s.tbu.good + 1 } }
      if 16 ≤ s.tbu.good then setSource (setF s F.TBU_STAT_STATE 1) (some 0) else s
    else if s.tbu.src.isNone then setSource s (fallback s)
    else s
  else s

/-- CROSSING_CANDIDATE (R57, R58).  DESIGN CHOICE: the candidate that takes a LOST detector back to SEARCH counts as the first of
the four consecutive candidates; R58 does not say whether it does. -/
def candidate (s : State) (n ts : Nat) : State :=
  let d := det s n
  match d.st with
  | .locked =>
    let off := ((16 * ts : Nat) : Int) - d.next
    if 50 * off.natAbs ≤ d.period then acceptCrossing s n ts
    else
      let s := inc s F.TBU_STAT_REJECTS
      if n = 0 then { s with tbu := { s.tbu with good := 0 } } else s
  | _ =>
    let c := (ts :: (if d.st = .lost then [] else d.cands)).take 4
    if locks c.reverse then
      let p := (quot 1 (16 * ((ts : Int) - c.getLastD ts)) 3).toNat
      let s := setDet s n { d with st := .locked, cands := [], last := some ts, next := 16 * ts + p, period := p, miss := 0 }
      let s := if n = 0 then (List.range 4).foldl measureOffset s else measureOffset s n
      if s.tbu.src = some n && getF s F.TBU_STAT_STATE = 0 then firstLock s p ts
      else if getF s F.TBU_STAT_STATE = 2 && s.tbu.src.isNone then setSource s (fallback s)
      else s
    else setDet s n { d with st := .search, cands := c }

/-- Detector `n` counts a predicted crossing that passed without a candidate: three in a row lose the lock (R58); a miss of LP0 ends its
run of accepted crossings (R65). -/
def detMissed (s : State) (n : Nat) (d : Detector) : State :=
  let s := setDet s n { d with next := d.next + d.period, miss := d.miss + 1, st := if d.miss ≥ 2 then .lost else .locked }
  if n = 0 then { s with tbu := { s.tbu with good := 0 } } else s

/-- A predicted crossing of the reference source passes without a candidate: Z advances by P once the source has locked (R59). -/
def sourceMissed (s : State) : State :=
  if getF s F.TBU_STAT_STATE = 0 then s else { s with tbu := { s.tbu with z := s.tbu.z + per s, cyc := s.tbu.cyc - 1 } }

/-- CROSSING_MISS (R58, R59, R65); while no port is the source, `coast` advances Z at the predicted crossings. -/
def missCrossing (s : State) (n : Nat) : State :=
  let d := det s n
  if d.st != .locked then coast s
  else
    let s := detMissed (coast s) n d
    if s.tbu.src = some n then
      if d.miss ≥ 2 then enterHoldover (sourceMissed s) else sourceMissed s
    else s

/-! ### Boundaries -/

/-- SYNC_OUT may pulse in this mode (R36, R77). -/
def syncOutOn (s : State) : Bool :=
  match mode s with
  | .boot | .roost => false
  | _ => true

/-- A SYNC_OUT pulse begins (R77). -/
def syncPulse (s : State) (sel : Nat) : State :=
  if s.tbu.syncSel = sel && syncOutOn s then
    { s with tbu := { s.tbu with syncOut := some (now s) } }
  else s

/-- The level of SYNC_OUT: high for 100 µs from the edge (R77, R36). -/
def syncOutPin (s : State) : Bool :=
  match s.tbu.syncOut with
  | some t => syncOutOn s && t ≤ now s && now s < t + 12288
  | none => false

/-- A phase slot begins: position and mesh time (R61). -/
def tbuPhaseSlot (s : State) : State :=
  let t := nextSlotAt s
  coast (advanceTo (setF { s with tbu := { s.tbu with slotAt := t } } F.TBU_POS_PSLOT
    ((getF s F.TBU_POS_PSLOT + 1) % 16)) (ticks16 t))

/-- A pending shift counts down at a boundary, and moves DBO at its end (R75). -/
def boundaryShift (s : State) : State :=
  let t := s.tbu
  if t.countdown = 1 then
    setF { s with tbu := { t with shift := t.nextShift, countdown := if t.nextShift = 0 then 0 else 1, nextShift := 0,
                                  reepoch := false } }
      F.TBU_DBO_DBO (code (getF s F.TBU_DBO_DBO + t.shift) 16)
  else if 1 < t.countdown then { s with tbu := { t with countdown := t.countdown - 1 } }
  else if t.nextShift ≠ 0 then { s with tbu := { t with shift := t.nextShift, countdown := 1, nextShift := 0 } }
  else s

/-- A written nominal frequency takes effect at a boundary (R33); automatic is the selection by the period at the first transition to
LOCKED, once there has been one (R60). -/
def boundaryNomf (s : State) : State :=
  match getF s F.TBU_CFG_NOMF with
  | 1 => setF s F.TBU_STAT_NOMF_ACT 0
  | 2 => setF s F.TBU_STAT_NOMF_ACT 1
  | _ =>
    match s.tbu.firstPer with
    | some p => selectNomf s p
    | none => s

/-- SYMS in force from a boundary on, and the root's decision for the next superframe (R63). -/
def boundarySyms (s : State) : State :=
  let s := if s.tbu.symsNext ≠ 0 then setF s F.TBU_STAT_SYMS s.tbu.symsNext else s
  if isRoot s && getF s F.TBU_STAT_STATE ≠ 0 then
    { s with tbu := { s.tbu with symsNext := symsDecide s (syms s) - 5 } }
  else s

/-- An armed step of mesh time takes place (R67). -/
def boundaryArmed (s : State) : State :=
  match s.tbu.armed with
  | some v =>
    let off := (v.toNat : Int) - now s
    timebaseEvent (setFlag { stepTime s off with tbu := { (stepTime s off).tbu with armed := none } } F.TBU_STAT_TSTEP) 1 off
  | none => s

/-- Where a superframe boundary falls: a sixteenth of a tick (R61, R62). -/
def boundaryInstant (s : State) : Nat :=
  if s.tbu.started || s.tbu.boundDue.isSome then nextBoundAt s else nearest (dref s + getF s F.TBU_DBO_DBO * per s / 65536) (16 * now s) (per s)

/-- A superframe boundary at TBU: the boundary and a pending shift (R62, R75), the number, SYMS (R63), an armed step
(R67), the SYNC_OUT pulse (R77). -/
def tbuBoundary (s : State) : State :=
  let b := boundaryInstant s
  let first := !s.tbu.started
  let anew := first || s.tbu.boundDue.isSome
  let carry := nextDbo s / 65536
  let s := boundaryShift (coast (advanceTo s (ticks16 b)))
  let s : State := { s with tbu := { s.tbu with syncSel := getF s F.TBU_CFG_SYNCOUT_SEL } }
  let s := boundaryNomf s
  let s := setF s F.TBU_REEPOCH_COUNT (if s.tbu.reepoch then s.tbu.countdown else 0)
  let s := setF s F.TBU_SFNUM_SFNUM (if first then sfn s else sfn s + 1)
  let c : Int := if anew then boundCyc s b else s.tbu.cyc + 64 + carry
  let s : State := { s with tbu := { s.tbu with boundAt := b, cyc := c, boundDue := none, started := true, edgeTaken := false } }
  syncPulse (boundaryArmed (boundarySyms s)) 0

/-! ### Beacon discipline -/

/-- The timing fields of a beacon (R71, R164). -/
structure BeaconTime where
  sfn : Nat
  mtime : Nat
  zco : Nat
  dbo : Nat
  shift : Int
  countdown : Nat
  symsCode : Nat
  nomf60 : Bool
  /-- the access slot at which the beacon begins, NFLAGS.b (R154) -/
  slot : Nat

/-- A quarter of `d` rounded to the nearest, halves away from zero (R72). -/
def quarterAway (d : Int) : Int := if d < 0 then -((-d + 2) / 4) else (d + 2) / 4

/-- Mesh time follows a beacon of the time parent (R68): stepped or slewed; the step taken. -/
def disciplineTime (s : State) (d mtime tr : Nat) : State × Int :=
  let off : Int := mtime + d - tr
  if s.tbu.fresh then (stepTime s off, off)
  else if 122880 < off.natAbs then (timebaseEvent (setFlag (stepTime s off) F.TBU_STAT_TSTEP) 1 off, off)
  else
    let s := { s with tbu := { s.tbu with slew := off, slewAcc := 0 } }
    match s.tbu.lastBeacon with
    | some t =>
      if t < tr then
        let dt := quot 2 (off * 1000000000) (4 * (tr - t))
        (setF s F.TBU_TRIM_TRIM (code (clampI (-500000) 500000 (signed (getF s F.TBU_TRIM_TRIM) 32 + dt)) 32), 0)
      else (s, 0)
    | none => (s, 0)

/-- The domain offset that a time-parent beacon implies, with the boundary (R72). -/
def impliedDofs (s : State) (slot dbo sent : Nat) : Nat × Nat :=
  let bound : Int := 16 * (sent : Int) - slot * per s / 2
  let dd : Int := (bound - dbo * per s / 65536 - s.tbu.z) % per s
  ((quot 3 (dd * 65536) (per s)).toNat % 65536, bound.toNat)

/-- The boundary and the domain offsets of a beacon are set: D, the phase slots and the cycles of the superframe follow (R61, R62, R72). -/
def layGrid (s : State) (dbo m bound : Nat) : State :=
  let s := setF (setF s F.TBU_DBO_DOFS m) F.TBU_DBO_DBO dbo
  relocate { s with tbu := { s.tbu with boundAt := bound, cyc := boundCyc s bound, started := true } }

/-- The domain offset that a time-parent beacon carries is taken: at once by a fresh node, by a quarter of a small difference, or with a
realignment (R71, R72); `m` is the measured DOFS and `bound` the boundary. -/
def beaconDomain (s : State) (wasFresh : Bool) (dbo m bound : Nat) : State :=
  let held := getF s F.TBU_DBO_DOFS
  let diff := signed (m + 65536 - held) 16
  if wasFresh then layGrid s dbo m bound
  else if dbo = getF s F.TBU_DBO_DBO && diff.natAbs ≤ 4096 then
    let s := setF s F.TBU_DBO_DOFS (code (held + quarterAway diff) 16)
    -- the superframe lies on the cycles that the parent's boundary names (R62)
    let j := roundDiv ((bound : Int) - s.tbu.boundAt) (per s)
    { s with tbu := { s.tbu with cyc := boundCyc s bound, boundAt := (s.tbu.boundAt + j * per s).toNat } }
  else timebaseEvent (setFlag (layGrid s dbo m bound) F.TBU_STAT_REALIGN) 2 diff

/-- The announced shift and SYMS of a beacon (R63, R71, R75). -/
def beaconShift (s : State) (b : BeaconTime) : State :=
  let s := if b.countdown ≠ 0 && b.shift ≠ 0 then
      { s with tbu := { s.tbu with shift := b.shift, countdown := b.countdown } } else s
  if 1 ≤ b.symsCode && b.symsCode ≤ 3 then { s with tbu := { s.tbu with symsNext := b.symsCode } } else s

/-- In HOLDOVER without a source the period follows the implied boundaries (R65). -/
def beaconPeriod (s : State) (b : BeaconTime) (bound : Nat) : State :=
  match getF s F.TBU_STAT_STATE, s.tbu.src, s.tbu.lastImplied with
  | 2, none, some (at0, n0) =>
    let k := (b.sfn + 2 ^ 32 - n0) % 2 ^ 32
    if 0 < k && at0 < bound then
      setF (coast s) F.TBU_MCPERIOD_PERIOD (quot 4 ((bound : Int) - at0) (64 * k)).toNat else s
  | _, _, _ => s

/-- The beacon enters the books of the time parent: the count of R70 and TLOCK. -/
def beaconBooks (s : State) (ctx port : Nat) (b : BeaconTime) (tr bound : Nat) : State :=
  let n := if (link s ctx).delayMeasured && port < 4 then (if s.tbu.tlPort = port then s.tbu.tlCount + 1 else 1) else 0
  let s := { s with tbu := { s.tbu with fresh := false, lastBeacon := some tr, lastImplied := some (bound, b.sfn),
                                        tlPort := port, tlCount := n } }
  putFlag s F.TBU_STAT_TLOCK (4 ≤ n)

/-- The superframe number of a beacon is adopted (R71). -/
def beaconNumber (s : State) (n : Nat) : State :=
  if n = sfn s then s else setFlag (setF s F.TBU_SFNUM_SFNUM n) F.TBU_STAT_CNTFIX

/-- What TBU takes from each beacon of its nominal frequency: number, SYMS and shift (R71).  The root, and its pair's spare, take
none (R62, R80). -/
def beaconFields (s : State) (b : BeaconTime) : State :=
  if isRoot s then s else beaconShift (beaconNumber s b.sfn) b

/-- A beacon of the time parent on a line or radio port: `tr` is its reference instant at this node (R65, R68, R70–R72). -/
def timeParentBeacon (s : State) (ctx port : Nat) (b : BeaconTime) (tr : Nat) : State :=
  let d := cGet s ctx C.delay
  let wasFresh := s.tbu.fresh
  let (s, off) := disciplineTime s d b.mtime tr
  let tr := ((tr : Int) + off).toNat
  let (m, bound) := impliedDofs s b.slot b.dbo (tr - d)
  beaconBooks (beaconPeriod (beaconDomain s wasFresh b.dbo m bound) b bound) ctx port b tr bound

/-- A node that has no parent yet lays its grid by each beacon that it hears: boundary, DOFS and DBO, with d 0, so that it finds the
slots in which to ask for a join (R62, R72, R157, log entry 131). -/
def alignGrid (s : State) (b : BeaconTime) (tr : Nat) : State :=
  let (m, bound) := impliedDofs s b.slot b.dbo tr
  layGrid s b.dbo m bound

/-- Phase class of an angle (R78). -/
def phaseClass (tol angle : Nat) : Nat :=
  let near (c : Nat) : Bool := min ((angle + 360 - c) % 360) ((c + 360 - angle) % 360) ≤ tol
  if near 0 then 0 else if near 120 then 1 else if near 240 then 2 else if near 180 then 3 else if near 300 then 4
  else if near 60 then 5 else 7

/-- PHASE (R440). -/
def phaseEvent (s : State) (ctx cls angle : Nat) : State :=
  raise s 1 1 (leBytes ctx 2 ++ leBytes cls 1 ++ leBytes angle 2)

/-- Neighbour phase identification from a beacon on line port `n` (R78). -/
def identifyPhase (s : State) (n ctx zco tr : Nat) : State :=
  let old := bits (cGet s ctx C.phclass) 0 3
  match (det s n).st, (det s n).last with
  | .locked, some z =>
    if zco = 0xFFFFFF then (if old = 7 then s else phaseEvent (cSet s ctx C.phclass 7) ctx 7 (cGet s ctx C.angle))
    else
      let orr : Int := (tr : Int) - cGet s ctx C.delay - z
      let a := (roundDiv (((16 * (orr - zco)) % per s) * 360) (per s)).toNat % 360
      let c := phaseClass (getF s F.TBU_CFG_PHTOL) a
      let s := cSet (cSet s ctx C.angle a) ctx C.phclass c
      if c = old then s else phaseEvent s ctx c a
  | _, _ => if old = 7 then s else phaseEvent (cSet s ctx C.phclass 7) ctx 7 (cGet s ctx C.angle)

/-- A DELAY exchange's result d (R69): none where it is discarded. -/
def delayOf (t1 t2 t3 t4 : Nat) : Option Nat :=
  let x : Int := ((t2 : Int) - t1) + ((t4 : Int) - t3)
  if x < 0 ∨ 2 * 24576 < x then none else some (quot 5 x 2).toNat

/-! ### SYNC_IN at the root -/

/-- The superframe boundary nearest to `t`: the last one, or the coming one before any shift, which the result deducts (R74). -/
def nearestBound (s : State) (t : Nat) : Nat :=
  let b := s.tbu.boundDue.getD (cycleStart s 64 (getF s F.TBU_DBO_DBO))
  if ((t : Int) - s.tbu.boundAt).natAbs ≤ ((b : Int) - t).natAbs then s.tbu.boundAt else b

/-- A taken SYNC_IN edge at the root (R74, R76). -/
def syncInRoot (s : State) (ts : Nat) : State :=
  if s.tbu.reepoch then inc s F.TBU_SYNCIN_REJ
  else if s.tbu.edgeTaken then s
  else
    let b := nearestBound s (16 * ts)
    let pend : Int := if s.tbu.countdown = 1 then s.tbu.shift else 0
    let e := quot 6 ((((16 * ts : Nat) : Int) - b) * 65536) (per s) - pend
    let s := { s with tbu := { s.tbu with edgeTaken := true } }
    if e.natAbs ≤ 16 then s
    else
      let s' := setF s F.TBU_SYNCIN_ERR (satCode e 24)
      if getF s F.TBU_CFG_SYNC_WINDOW * 4096 < e.natAbs then timebaseEvent (inc s' F.TBU_SYNCIN_REJ) 3 e
      else { s' with tbu := { s'.tbu with nextShift := clampI (-4096) 4096 e } }

/-! ### Meanings -/

/-- CROSSING_CANDIDATE: a crossing is confirmed 2 ms after it (R57). -/
def execCrossingCandidate (port : Fin 4) (ts : MeshTime) (s : State) : Host.Outcome State Fault Refusal :=
  .next (if inHold s then s else if port.val < nLine s then candidate (advanceTo s (ts.toNat + 245760)) port ts.toNat else s)

/-- CROSSING_MISS. -/
def execCrossingMiss (port : Fin 4) (s : State) : Host.Outcome State Fault Refusal :=
  .next (if inHold s then s else if port.val < nLine s then missCrossing s port else s)

/-- MESH_SECOND_CROSSING: mesh time reaches the next whole multiple of 122,880,000 ticks (R77). -/
def execMeshSecondCrossing (s : State) : Host.Outcome State Fault Refusal :=
  .next (if inHold s then s else syncPulse (advanceTo s ((now s / Config.ticksPerSec + 1) * Config.ticksPerSec)) 1)

end Sys2Proof.Machine
end

