-- ==== Sys2Proof/Machine/Measure.lean ====
section
/-! DEFINITION. MFE: grid modulators, crosspoint, scanner, excitation and transimpedance stages (R235–R258), with the
settle counts of the channels they feed (R261, R263). -/

namespace Sys2Proof.Machine

/-! ### Channels and settle counts -/

/-- A DCH_CHCFG field of channel `c`. -/
def chF (f : Field) (c : Nat) : Field := win f c

def Chan.fresh : Chan := { settle := [], settleHi := [], path := { low := false, run := 0 }, confs := [], hist := [] }

def chan (s : State) (c : Nat) : Chan := assocGet Chan.fresh s.dch.chans c
def setChan (s : State) (c : Nat) (x : Chan) : State :=
  { s with dch := { s.dch with chans := assocSet s.dch.chans c x } }

/-- The registers are about to change: what they held stays in force for the samples output up to now (R296, R302, log entry 197). -/
def keepPast (s : State) : State := { s with dch := { s.dch with past := (now s, s.regs) :: s.dch.past } }

/-- The same where the register at `a` is MFE's or DCH's. -/
def isMeas (a : Nat) : Bool := a / 0x10000 == 7 || a / 0x10000 == 8
def keepMeas (s : State) (a : Nat) : State := if isMeas a then keepPast s else s

/-- The state with the registers that were in force for a sample output at `o`. -/
def asOf (s : State) (o : Nat) : State :=
  match (s.dch.past.filter (fun p => decide (o ≤ p.1))).getLast? with
  | some p => { s with regs := p.2 }
  | none => s

/-- Output period T of a channel in ticks (R261, R236). -/
def chPeriod (s : State) (c : Nat) : Nat :=
  (if c < 16 then 480 else 1920) * 2 ^ getF s (chF F.DCH_CHCFG_DEC_EXP c)

/-- Settle time S of a channel in ticks (R261). -/
def chSettle (s : State) (c : Nat) : Nat :=
  let e := getF s (chF F.DCH_CHCFG_DEC_EXP c)
  let n := if e = 0 then 5 else if e = 1 then 6 else 7
  (n + (getF s (chF F.DCH_CHCFG_NTAPS c) - 1)) * chPeriod s c

/-- A channel's settle count restarts at instant `t` (R263). -/
def restartAt (s : State) (c t : Nat) : State :=
  let x := chan s c
  setChan s c { x with settle := (t, t + chSettle s c) :: x.settle, settleHi := (t, t + chSettle s c) :: x.settleHi }

/-- The end of a settle count, which runs from the latest of its starts; 0 without any (R263). -/
def settleLast (l : List (Nat × Nat)) : Nat :=
  (l.foldl (fun (m : Nat × Nat) p => if m.1 < p.1 || (m.1 == p.1 && m.2 < p.2) then p else m) (0, 0)).2

/-- The end of the settle count that a sample output at `o` meets. -/
def settleAt (l : List (Nat × Nat)) (o : Nat) : Nat := settleLast (l.filter (fun p => decide (p.1 < o)))

/-- The settle count of one modulator's chain restarts: M4–M7 feed the high paths, M8–M11 the low paths of I0–I3 (R237, R259, R263). -/
def restartMod (s : State) (m t : Nat) : State :=
  let c := if m < 8 then m else if m < 12 then m - 4 else 8
  let x := chan s c
  let p := (t, t + chSettle s c)
  setChan s c (if 4 ≤ m ∧ m < 8 then { x with settleHi := p :: x.settleHi } else { x with settle := p :: x.settle })

/-- The configuration of a channel changes (R267, R293). -/
def confChange (s : State) (c : Nat) : State := setChan s c { chan s c with confs := now s :: (chan s c).confs }

/-- The last VALID sample of a channel up to `o` since its configuration last changed (R267, R293). -/
def validAt (s : State) (c o : Nat) : Option Out :=
  let x := chan s c
  let since := (x.confs.find? (fun t => decide (t < o))).getD 0
  x.hist.find? (fun y => y.tag == 0 && y.at_ ≤ o && since < y.at_)

/-- The last VALID sample of a channel up to `o`, whatever its configuration (R293). -/
def lastValid (s : State) (c o : Nat) : Option Out := (chan s c).hist.find? (fun y => y.tag == 0 && y.at_ ≤ o)

/-- A current channel. -/
def isCurrent (c : Nat) : Bool := 4 ≤ c && c ≤ 7

/-- The end of a channel's settle count: of a current channel that of the path in use. -/
def settleOf (s : State) (c : Nat) : Nat :=
  let x := chan s c
  settleLast (if isCurrent c && !x.path.low then x.settleHi else x.settle)

/-- PLL M is locked: PMU_PLLSTAT.LOCK bit 3, which MFE_GRIDSTAT.PLLLOCK shows (R239). -/
def pllM (s : State) : Bool := bit (getF s F.PMU_PLLSTAT_LOCK) 3

/-- MFE and DCH are powered (R256, R287). -/
def mfeOn (s : State) : Bool :=
  match mode s with
  | .boot | .roost => false
  | _ => true

/-- Entry `e` of the scan list. -/
def scanEntry (s : State) (e : Nat) : Nat := nth 0 s.mfe.entries e

def ePsel (x : Nat) : Nat := bits x 0 6
def eNsel (x : Nat) : Nat := bits x 6 6
def eAsteer (x : Nat) : Nat := bits x 16 6
def eBsteer (x : Nat) : Nat := bits x 22 6
def eDwell (x : Nat) : Nat := bits x 32 8

/-- The entry that converts now, if any. -/
def convEntry (s : State) : Option Nat :=
  if s.mfe.scanning && s.mfe.converting then some (getF s F.MFE_SCANSTAT_ENTRY) else none

/-- The settle count of the converting entry restarts, from now or from the closure where that is later (R247, R257). -/
def restartConv (s : State) : State :=
  match convEntry s with
  | some e => restartAt s (16 + e) (max (now s) s.mfe.closeAt)
  | none => s

/-- A channel's settle count restarts for a change of its chain, that of the converting entry no earlier than its closure (R247, R263). -/
def restartChan (s : State) (c : Nat) : State :=
  restartAt s c (if convEntry s = some (c - 16) ∧ 16 ≤ c then max (now s) s.mfe.closeAt else now s)

/-- Role of crosspoint pin `k` (R242). -/
def xpRole (s : State) (k : Nat) : Nat := getF s ⟨F.MFE_XPCFG_ROLE0.addr, 3 * k, 3, 0, .rw⟩

/-- The entry uses the excitation (R243).  DESIGN CHOICE: R243 does not say what using it is; here every entry does while the sine is on,
and one that steers a source that is on; a pin with role BIAS counts only where the entry names it (log entry 198). -/
def entryUsesExc (s : State) (x : Nat) : Bool :=
  (List.range 8).any (fun k => (ePsel x = 32 + k || eNsel x = 32 + k) && 3 ≤ xpRole s k)
    || (eAsteer x != 63 && getF s F.MFE_IDAC_IA != 0) || (eBsteer x != 63 && getF s F.MFE_IDAC_IB != 0)
    || flag s F.MFE_EXC_SINE_EN

/-! ### Excitation (R249–R252) -/

/-- Pins that drive the sine. -/
def sinePins (s : State) : Nat :=
  if flag s F.MFE_EXC_SINE_EN then ((List.range 8).filter (fun k => xpRole s k == 3 || xpRole s k == 4)).length else 0

/-- The phase increment of an XDAC sample at 2.048 MS/s: the nearest to FREQ (R249). -/
def phaseInc (s : State) : Nat := (roundDiv (getF s F.MFE_EXCFREQ_FREQ * 65536 : Nat) 3125).toNat

/-- The accumulator's record that counts at instant `t`: the last one up to it. -/
def phaseFrom (s : State) (t : Int) : Nat × Nat × Nat :=
  ((s.mfe.phases.find? (fun p => decide ((p.1 : Int) ≤ t))).getD (s.mfe.phases.getLastD (0, 0, phaseInc s)))

/-- The phase accumulator at instant `t`, one XDAC sample every 60 ticks (R236, R249). -/
def phaseOf (s : State) (t : Int) : Nat :=
  let p := phaseFrom s t
  code (p.2.1 + p.2.2 * ((t - p.1) / 60)) 32

/-- The increment changes now; the phase is continuous (R250). -/
def phaseHold (s : State) : State :=
  let p := phaseFrom s (now s)
  { s with mfe := { s.mfe with phases := (p.1 + 60 * ((now s - p.1) / 60), phaseOf s (now s), phaseInc s) :: s.mfe.phases } }

/-- A change of the sine resets the synchronous demodulator's integrators (R250). -/
def sineChanged (s : State) : State := { s with mfe := { s.mfe with sineAt := now s } }

/-- The sine's current limit in 10 µA units (R249). -/
def silim (s : State) : Nat := if flag s F.MFE_EXC_SILIM then 400 else 50

/-- E as configured, 10 µA units (R252). -/
def excE (s : State) : Nat := getF s F.MFE_IDAC_IA + getF s F.MFE_IDAC_IB + sinePins s * silim s

/-- The excitation outputs are driven (R256). -/
def excDriven (s : State) : Bool :=
  match mode s with
  | .commission => true
  | .operate | .safehold => !isPaired s || gateOpen s
  | _ => false

/-- The object of MFE's LEAVE events: the converting entry, or 0xFFFF. -/
def excObj (s : State) : Nat := (convEntry s).getD 0xFFFF

/-- The converting entry steers source A, or source B (R246). -/
def steersA (s : State) : Bool := (convEntry s).any (fun e => eAsteer (scanEntry s e) != 63)
def steersB (s : State) : Bool := (convEntry s).any (fun e => eBsteer (scanEntry s e) != 63)

/-- A degraded form, driven or not (R252). -/
def isDegraded (f : ExcForm) : Bool := f == .degraded || f == .degradedOff

/-- Put a form of the excitation in force (R252): currents, and the effects of a passage between forms, of a changed current that the
converting entry steers (R247), and of the sine's being disabled by a refusal under FAIL, and its return (R250). -/
def applyForm (s : State) (f : ExcForm) : State :=
  let was := s.mfe
  let old := was.form
  let ia := getF s F.MFE_IDAC_IA
  let ib := getF s F.MFE_IDAC_IB
  let n := sinePins s
  let m :=
    match f with
    | .undriven | .degradedOff | .withheld => { s.mfe with ia := 0, ib := 0, sinePins := 0, silim := 50 }
    | .full => { s.mfe with ia := ia, ib := ib, sinePins := n, silim := silim s }
    | .degraded =>
      { s.mfe with ia := ia * (100 - 50 * n) / (ia + ib), ib := ib * (100 - 50 * n) / (ia + ib), sinePins := n, silim := 50 }
  let s := setF { s with mfe := { m with form := f } } F.MFE_EXCSTAT_EAPPLIED (m.ia + m.ib + m.sinePins * m.silim)
  let moved := f != old || (was.ia != m.ia && steersA s) || (was.ib != m.ib && steersB s)
  let s := if moved then restartConv s else s
  let s := if (f == .withheld) != (old == .withheld) && flag s F.MFE_EXC_SINE_EN then sineChanged s else s
  if isDegraded f && !isDegraded old then leaveEvent s 5 0 (excObj s) else s

/-- MFE computes E and acts on it (R252): whenever MFE_EXC, MFE_IDAC or MFE_XPCFG takes effect, and whenever the drive
state, the mode or leave changes. -/
def excUpdate (s : State) : State :=
  let e := excE s
  let s := setF s F.MFE_EXCSTAT_E e
  let s := if (s.mfe.refused.map Prod.fst) = some e then s else { s with mfe := { s.mfe with refused := none } }
  let drop (s : State) : State := withdrawLeave (releaseLeave s 5) 5
  if mode s = .safehold ∧ 100 < e then applyForm (setF (drop s) F.MFE_EXCSTAT_LEAVE 3) (if excDriven s then .degraded else .degradedOff)
  else if !excDriven s then applyForm (setF (drop s) F.MFE_EXCSTAT_LEAVE 0) .undriven
  else if e ≤ 100 then applyForm (setF (drop s) F.MFE_EXCSTAT_LEAVE 0) .full
  else if leaveCost s 5 0 = 0 then applyForm (setF s F.MFE_EXCSTAT_LEAVE 0) .full
  else if holdsLeave s 5 then applyForm (setF s F.MFE_EXCSTAT_LEAVE 2) .full
  else
    match s.mfe.refused with
    | some (_, true) => applyForm (setF s F.MFE_EXCSTAT_LEAVE 0) .withheld
    | some (_, false) => applyForm (setF s F.MFE_EXCSTAT_LEAVE 3) .degraded
    | none => applyForm (setF (askLeave s 5 (excObj s) 0 false) F.MFE_EXCSTAT_LEAVE 1) .degraded

/-- The governor grants MFE's request. -/
def excGranted (s : State) : State := applyForm (setF s F.MFE_EXCSTAT_LEAVE 2) .full

/-- The governor refuses MFE's request under DEGRADE. -/
def excDegraded (s : State) : State :=
  applyForm (setF { s with mfe := { s.mfe with refused := some (excE s, false) } } F.MFE_EXCSTAT_LEAVE 3) .degraded

/-- The governor refuses MFE's request under FAIL. -/
def excFailed (s : State) : State :=
  let s := applyForm { s with mfe := { s.mfe with refused := some (excE s, true) } } .withheld
  leaveEvent (setFlag (setF s F.MFE_EXCSTAT_LEAVE 0) F.MFE_EXCSTAT_FAILED) 5 1 (excObj s)

/-! ### Transimpedance stages (R253–R255) -/

def tiaF (f : Field) (i : Nat) : Field := { f with addr := f.addr + 4 * i }
def tiaEn (s : State) (i : Nat) : Bool := flag s (tiaF F.MFE_TIA0_EN i)
def tiaRange (s : State) (i : Nat) : Nat := getF s (tiaF F.MFE_TIA0_RANGE i)

/-- Stage `i` is present (R5). -/
def tiaPresent (s : State) (i : Nat) : Bool := i = 0 || hasFull s

/-- Feedback settle time of a range in ticks (R253): 20 µs, 20 µs, 50 µs, 200 µs, 2 ms, 20 ms. -/
def tiaSettle (r : Nat) : Nat :=
  let us := if r ≤ 1 then 20 else if r = 2 then 50 else if r = 3 then 200 else if r = 4 then 2000 else 20000
  ceilDiv (us * 12288) 100

/-- The converting entry converts stage `i`. -/
def convertsTia (s : State) (i : Nat) : Bool :=
  match convEntry s with
  | some e => ePsel (scanEntry s e) == 40 + i
  | none => false

/-- A range change of stage `i` from `old` takes effect at instant `t` (R255). -/
def rangeChange (s : State) (i old new t : Nat) : State :=
  let s := setF s (tiaF F.MFE_TIA0_RANGE i) new
  let s := inc s (if i = 0 then F.MFE_TIACNT_SW0 else F.MFE_TIACNT_SW1)
  let s := { s with mfe := { s.mfe with tiaLog := s.mfe.tiaLog.set i ({ at_ := t, old, new } :: nth [] s.mfe.tiaLog i) } }
  let ch := match convEntry s with
    | some e => if convertsTia s i then 16 + e else 0xFF
    | none => 0xFF
  let s := if convertsTia s i then restartAt s ch (max t s.mfe.closeAt) else s
  measEvent s 6 (leBytes ch 1 ++ leBytes i 1 ++ leBytes old 1 ++ leBytes new 1 ++ leBytes t 8)

/-- A range change of stage `i` that is due takes effect (R246, R254). -/
def applyRange (s : State) (i : Nat) : State :=
  match nth none s.mfe.tiaHeld i with
  | some ⟨r, some t, _⟩ =>
    if t ≤ now s then rangeChange { s with mfe := { s.mfe with tiaHeld := s.mfe.tiaHeld.set i none } } i (tiaRange s i) r t else s
  | _ => s

def applyRanges (s : State) : State := applyRange (applyRange s 0) 1

/-- Where no entry converts the stage any longer, a written range that waited for a sample boundary takes effect at once; one held for an
entry's next closure waits for its next visit again, where the visit that was to close is cut short (R254). -/
def freeRange (s : State) (i : Nat) : State :=
  match nth none s.mfe.tiaHeld i with
  | some ⟨r, some _, none⟩ =>
    if convertsTia s i then s
    else rangeChange { s with mfe := { s.mfe with tiaHeld := s.mfe.tiaHeld.set i none } } i (tiaRange s i) r (now s)
  | some ⟨r, some _, some e⟩ =>
    if convEntry s = some e then s
    else { s with mfe := { s.mfe with tiaHeld := s.mfe.tiaHeld.set i (some ⟨r, none, some e⟩) } }
  | _ => s

def freeRanges (s : State) : State := freeRange (freeRange s 0) 1

/-- The range of stage `i` that a sample output at `o` was converted with (R254). -/
def rangeAt (s : State) (i o : Nat) : Nat :=
  match ((nth [] s.mfe.tiaLog i).filter (fun r => decide (o ≤ r.at_))).getLast? with
  | some r => r.old
  | none => tiaRange s i

/-- A feedback window of stage `i` overlaps the interval from `a` up to `b` (R255). -/
def inFeedback (s : State) (i a b : Nat) : Bool :=
  (nth [] s.mfe.tiaLog i).any (fun r => decide (r.at_ < b) && decide (a < r.at_ + tiaSettle r.new))

/-- The instant at which a written range takes effect: up to the closure of the converting entry the closure, at which a pending range is
applied (R246), then its next output-sample boundary at or after now (R247, R254). -/
def nextSampleAt (s : State) : Nat :=
  match convEntry s with
  | some e =>
    let p := chPeriod s (16 + e)
    s.mfe.closeAt + ceilDiv (now s - s.mfe.closeAt) p * p
  | none => now s

/-- DCH's decision on a sample of stage `i` (R254): the new code. `x` and `prev` are in 2⁻¹⁴⁹ of full scale, `prev` none before the first;
`low` counts the consecutive VALID samples at 0.08 or less that end with this one. -/
def tiaDecide (s : State) (i : Nat) (sat : Bool) (tag : Nat) (x : Int) (prev : Option Int) (low : Nat) : Nat :=
  let r := tiaRange s i
  let quiet : Bool := prev.any (fun p => (x - p).natAbs * 1024 < getF s (tiaF F.MFE_TIA0_QUIET_SLOPE i) * 2 ^ 149)
  let lo := getF s (tiaF F.MFE_TIA0_RLO i)
  let hi := getF s (tiaF F.MFE_TIA0_RHI i)
  let up : Bool := (sat && tag != 3) || (tag == 0 && quiet && 9 * 2 ^ 149 ≤ 10 * x.natAbs)
  let down : Bool := tag == 0 && quiet && 100 * x.natAbs ≤ 8 * 2 ^ 149
    && getF s (tiaF F.MFE_TIA0_DOWN_HOLD i) ≤ low
  if up then (if lo < r then r - 1 else r)
  else if down then (if r < hi then r + 1 else r)
  else r

/-- The first closure of entry `e` after `o` that has been set, of a visit that was not cut short before it. -/
def nextClose (s : State) (e o : Nat) : Option Nat :=
  ((s.mfe.visits.filter (fun v => v.entry == e && decide (o < v.close) && v.end_.all (v.close ≤ ·))).getLast?).map (·.close)

/-- A sample of stage `i` in a visit of entry `e`, output at `o`, enters DCH's decisions (R254); `last` where it ends the visit. -/
def tiaSample (s : State) (i e o : Nat) (sat : Bool) (tag : Nat) (x : Int) (last : Bool) : State :=
  let low := if tag = 0 ∧ 100 * x.natAbs ≤ 8 * 2 ^ 149 then nth 0 s.mfe.tiaLow i + 1 else 0
  let new := tiaDecide s i sat tag x (nth none s.mfe.tiaPrev i) low
  let s : State := { s with mfe := { s.mfe with tiaPrev := s.mfe.tiaPrev.set i (some x), tiaLow := s.mfe.tiaLow.set i low } }
  if !(tiaPresent s i && tiaEn s i && flag s (tiaF F.MFE_TIA0_AUTO i)) || new == tiaRange s i then s
  else if last then { s with mfe := { s.mfe with tiaHeld := s.mfe.tiaHeld.set i (some ⟨new, nextClose s e o, some e⟩) } }
  else rangeChange s i (tiaRange s i) new o

/-- A range change that is due has taken effect by an access to MFE's or DCH's registers (R246). -/
def measDue (s : State) (a : Nat) : State := if isMeas a then applyRanges s else s

/-! ### The scanner (R244–R248) -/

/-- Time from the boundary that ends a visit to the closure of the next entry: DISCH µs and 0.4 µs (R246). -/
def changeTicks (s : State) : Nat :=
  (quot 7 (12288 * (10 * (getF s F.MFE_SCANCTL_DISCH : Int) + 4)) 1000).toNat

/-- The first entry from `e` on, below NSCAN, whose DWELL is not 0. -/
def entryFrom (s : State) (e : Nat) : Option Nat :=
  (List.range (getF s F.MFE_SCANCTL_NSCAN)).find? (fun k => e ≤ k && eDwell (scanEntry s k) != 0)

/-- A visit ends now. -/
def endVisit (s : State) : State :=
  match s.mfe.visits with
  | v :: l => { s with mfe := { s.mfe with visits := { v with end_ := some (v.end_.getD (now s)) } :: l } }
  | [] => s

/-- Every mux switch opens and the scanner is idle; a range that waited for a sample boundary takes effect (R244, R254). -/
def scanIdle (s : State) : State :=
  let s := endVisit s
  freeRanges { s with mfe := { s.mfe with scanning := false, converting := false } }

/-- Channel change into entry `e` (R246): closure, its settle count, and a range change held for it, which takes effect then (R254). -/
def visit (s : State) (e : Nat) : State :=
  let s := setF (endVisit (applyRanges s)) F.MFE_SCANSTAT_ENTRY e
  let close := now s + changeTicks s
  let w := scanEntry s e
  let s : State := { s with mfe := { s.mfe with
    scanning := true, converting := true, openAt := now s, closeAt := close,
    visits := { entry := e, word := w, close, end_ := none } :: s.mfe.visits,
    tiaHeld := s.mfe.tiaHeld.map (fun h => h.map (fun p => if p.entry = some e then { p with at_ := some close } else p)) } }
  restartAt (freeRanges s) (16 + e) close

/-- A pass is complete (R244). -/
def passCount (s : State) : State :=
  let s := inc s F.MFE_SCANSTAT_PASSES
  if flag s F.MFE_SCANCTL_MODE then scanIdle (setFlag s F.MFE_SCANSTAT_DONE) else s

/-- Start a pass at entry 0 (R244).  Where every entry is skipped a single pass is over at once; a continuous scan goes on, and counts
none of the passes in which it visits nothing (log entry 151). -/
def scanStart (s : State) : State :=
  match entryFrom s 0 with
  | some e => visit s e
  | none =>
    if getF s F.MFE_SCANCTL_NSCAN = 0 then scanIdle s
    else if flag s F.MFE_SCANCTL_MODE then passCount s
    else { s with mfe := { s.mfe with scanning := true, converting := false } }

/-- A running scan that visits nothing goes on with the entries that a write has left it. -/
def scanResume (s : State) : State := if s.mfe.scanning && !s.mfe.converting then scanStart s else s

/-- A pass ends (R244). -/
def passDone (s : State) : State :=
  let s := passCount s
  if flag s F.MFE_SCANCTL_MODE then s else scanStart s

/-- The instant at which the visit of entry `e` ends (R247): its DWELL-th sample that ends after the settle count. -/
def visitEnd (s : State) (e : Nat) : Nat :=
  let p := chPeriod s (16 + e)
  let k := (settleLast (chan s (16 + e)).settle - s.mfe.closeAt) / p
  s.mfe.closeAt + (k + eDwell (scanEntry s e)) * p

/-- A written range that falls due before the visit of the converting entry `e` ends takes effect at its boundary, from which the settle
count runs anew (R247, R254). -/
def rangeBefore (s : State) (e i : Nat) : State :=
  match nth none s.mfe.tiaHeld i with
  | some ⟨_, some t, _⟩ => if t < visitEnd s e then applyRange (advanceTo s t) i else s
  | _ => s

/-- SCAN_VISIT_END. -/
def visitDone (s : State) : State :=
  match convEntry s with
  | none => s
  | some e =>
    if !pllM s || !mfeOn s then s
    else
      let s := rangeBefore (rangeBefore s e 0) e 1
      let s := applyRanges (advanceTo s (visitEnd s e))
      match entryFrom s (e + 1) with
      | some k => visit s k
      | none => passDone s

/-- The steps of a channel change (R246). -/
inductive ScanPhase where
  | idle | opened | discharging | allOpen | closed
  deriving DecidableEq, Repr

/-- What the mux, discharge and parking switches do now: 0.2 µs after the boundary the discharge begins, 0.2 µs before closure it ends. -/
def scanPhase (s : State) : ScanPhase :=
  match convEntry s with
  | none => .idle
  | some _ =>
    if s.mfe.closeAt ≤ now s then .closed
    else if 1000 * (now s - s.mfe.openAt) < 24576 then .opened
    else if 24576 < 1000 * (s.mfe.closeAt - now s) then .discharging
    else .allOpen

/-- The sources at the converter's inputs, while its switches are closed (R246). -/
def muxClosed (s : State) : Option (Nat × Nat) :=
  match convEntry s with
  | some e => if scanPhase s = .closed then some (ePsel (scanEntry s e), eNsel (scanEntry s e)) else none
  | none => none

/-- The pins that current sources A and B feed; none while a source is parked (R246, R251). -/
def steered (s : State) : Option Nat × Option Nat :=
  match convEntry s with
  | some e =>
    let pin (a : Nat) : Option Nat := if scanPhase s = .closed ∧ a ≠ 63 then some a else none
    (pin (eAsteer (scanEntry s e)), pin (eBsteer (scanEntry s e)))
  | none => (none, none)

/-- MFE_SCANSTAT.STATE (R258). -/
def scanState (s : State) : Nat :=
  match convEntry s with
  | some e => if now s < s.mfe.closeAt then 1 else if now s ≤ settleLast (chan s (16 + e)).settle then 2 else 3
  | none => 0

/-- MFE_SETTLE (R261): S of the converting channel in µs. -/
def settleUs (s : State) : Nat :=
  match convEntry s with
  | some e => (quot 8 (chSettle s (16 + e) * 100) 12288).toNat
  | none => 0

/-- Check of a scan entry (R241, R245).  DESIGN CHOICE: on a VH7430 a code of an absent source answers UNIT_ABSENT before any other check,
also NSEL 41, which stands against its column besides; steering to AUX16–AUX31 is accepted there, since R241 speaks of source codes alone
(log entry 199). -/
def entryCheck (s : State) (x : Nat) : Nat :=
  let p := ePsel x
  let n := eNsel x
  let steerOk (a : Nat) : Bool := a ≤ 39 || a == 63
  if ((16 ≤ p && p ≤ 31) || (16 ≤ n && n ≤ 31) || p = 41 || n = 41) && !hasFull s then St.unitAbsent
  else
    need (p ≤ 44 && (n ≤ 39 || n == 42 || n == 43) && p != n
      && (!(32 ≤ p && p ≤ 39) || xpRole s (p - 32) == 1) && (!(32 ≤ n && n ≤ 39) || xpRole s (n - 32) == 2)
      && (!(p == 40 || p == 41) || (n == 42 && tiaEn s (p - 40)))
      && steerOk (eAsteer x) && steerOk (eBsteer x)
      && bits x 15 1 == 0 && bits x 28 4 == 0 && bits x 40 24 == 0)

/-- Commit a scan entry (R248).  DESIGN CHOICE: the converting entry rewritten with DWELL 0, which R244 skips, is a channel change into the
next entry that is not skipped, or ends the pass (log entry 200). -/
def entryCommit (s : State) (e x : Nat) : State :=
  let s := { s with mfe := { s.mfe with entries := s.mfe.entries.set e x } }
  if convEntry s = some e then (if eDwell x = 0 then (match entryFrom s (e + 1) with | some k => visit s k | none => passDone s)
    else visit s e) else scanResume s

/-! ### Register writes (R243, R258) -/

/-- Role of pin `k` in a value of MFE_XPCFG. -/
def roleIn (v k : Nat) : Nat := bits v (3 * k) 3

/-- The checks of R243: no pin loses a role that is needed. -/
def xpCheck (s : State) (v : Nat) : Nat :=
  let count (r : Nat) : Nat := ((List.range 8).filter (fun k => roleIn v k == r)).length
  let used := (List.range (getF s F.MFE_SCANCTL_NSCAN)).map (scanEntry s)
  need ((List.range 8).all (fun k => roleIn v k ≤ 5) && count 3 ≤ 1 && count 4 ≤ 1
    && (List.range 8).all (fun k =>
      !(3 ≤ roleIn v k && used.any (fun x => eAsteer x == 32 + k || eBsteer x == 32 + k))
      && !(xpRole s k == 1 && roleIn v k != 1 && (used.any (fun x => ePsel x == 32 + k)
            || (List.range 2).any (fun i => tiaEn s i && getF s (tiaF F.MFE_TIA0_SRC i) == k)))
      && !(xpRole s k == 2 && roleIn v k != 2 && used.any (fun x => eNsel x == 32 + k))))

/-- The checks of MFE's registers (R258). -/
def mfeCheck (s : State) (a v held : Nat) : Nat :=
  match a with
  | 0x70000 => need ((List.range 4).all (fun n => bit v (4 + n) == bit v (8 + n)))
  | 0x7000C => xpCheck s v
  | 0x70010 => need (1 ≤ fld F.MFE_EXC_AMP v && fld F.MFE_EXC_AMP v ≤ 2000)
  | 0x70014 => need (100 ≤ fld F.MFE_EXCFREQ_FREQ v && fld F.MFE_EXCFREQ_FREQ v ≤ 2000000)
  | 0x70018 => need (bits v 0 8 ≤ 200 && bits v 8 8 ≤ 200)
  | 0x70020 => need (fld F.MFE_SCANCTL_NSCAN v ≤ 48 && fld F.MFE_SCANCTL_DISCH v != 0)
  | 0x7002C => need (bits v 0 6 ≤ 47)
  | 0x70034 => entryCheck s (held + v * 2 ^ 32)
  | 0x70040 | 0x70044 =>
    let lo := bits v 8 3
    let hi := bits v 11 3
    let r := bits v 5 3
    need ((!bit v 0 || xpRole s (bits v 1 3) == 1) && lo ≤ 5 && lo ≤ hi && hi ≤ 5 && lo ≤ r && r ≤ hi
      && bits v 14 8 != 0 && bits v 22 4 != 0)
  | _ => 0

/-- What a write of an MFE register brings about beyond its stored fields; `old` is the state before it.  DESIGN CHOICE: of GO and STOP in one
write, STOP acts last, so that the scanner is idle (log entry 201). -/
def mfeAct (old s : State) (a v held : Nat) : State :=
  match a with
  | 0x70000 =>
    (List.range 13).foldl (fun s m => if bit v m && !bit (getF old F.MFE_GRIDCTL_EN) m then restartMod s m (now s) else s) s
  | 0x7000C =>
    let hit := match convEntry s with
      | some e =>
        let x := scanEntry s e
        (List.range 8).any (fun k => xpRole old k != xpRole s k
          && ([ePsel x, eNsel x, eAsteer x, eBsteer x].contains (32 + k) || entryUsesExc old x || entryUsesExc s x))
      | none => false
    excUpdate (if hit then restartConv s else s)
  | 0x70010 =>
    let sine := getF old F.MFE_EXC_SINE_EN != getF s F.MFE_EXC_SINE_EN || getF old F.MFE_EXC_AMP != getF s F.MFE_EXC_AMP
    let s := if sine then sineChanged s else s
    -- a new limit changes the excitation current (R252, R257)
    excUpdate (if sine || excE old != excE s then restartConv s else s)
  | 0x70014 =>
    if getF old F.MFE_EXCFREQ_FREQ != getF s F.MFE_EXCFREQ_FREQ then
      restartConv (sineChanged (phaseHold s))
    else s
  | 0x70018 =>
    let steers := (getF old F.MFE_IDAC_IA != getF s F.MFE_IDAC_IA && steersA s)
      || (getF old F.MFE_IDAC_IB != getF s F.MFE_IDAC_IB && steersB s)
    excUpdate (if steers then restartConv s else s)
  | 0x70020 =>
    let s := if bit v 7 then scanStart s else s
    if bit v 8 || (getF s F.MFE_SCANCTL_NSCAN = 0 && !s.mfe.converting) then scanIdle s else scanResume s
  | 0x70034 => entryCommit s (getF s F.MFE_SCANWIN_ENTRY) (held + v * 2 ^ 32)
  | 0x70040 | 0x70044 =>
    let i := (a - 0x70040) / 4
    let r0 := tiaRange old i
    let r1 := tiaRange s i
    let s := if tiaEn s i then s else setF s (tiaF F.MFE_TIA0_SAT i) 0
    -- the written code takes the place of one that still waits
    let s := { s with mfe := { s.mfe with tiaHeld := s.mfe.tiaHeld.set i none } }
    if r0 = r1 then s
    else if convertsTia s i then
      let s := setF s (tiaF F.MFE_TIA0_RANGE i) r0
      { s with mfe := { s.mfe with tiaHeld := s.mfe.tiaHeld.set i (some ⟨r1, some (nextSampleAt s), none⟩) } }
    else rangeChange s i r0 r1 (now s)
  | _ => s

/-! ### Power and modes (R239, R256) -/

/-- Every settle counter restarts (R239, R256). -/
def restartAll (s : State) : State :=
  restartConv ((List.range 13).foldl (fun s m =>
    if bit (getF s F.MFE_GRIDCTL_EN) m then restartMod s m (now s) else s) s)

/-- MFE's share of a mode change, after PMU_MODE shows the new mode: power-on restarts every counter, power-off stops the
scanner, and the drive state follows the mode (R256). -/
def mfeMode (wasOn : Bool) (s : State) : State :=
  if !mfeOn s then excUpdate (scanIdle { s with mfe := { s.mfe with tiaHeld := [none, none] } })
  else
    -- the accumulator starts from 0 as MFE powers on (log entry 150)
    excUpdate (if wasOn then s else restartAll { s with mfe := { s.mfe with phases := [(now s, 0, phaseInc s)] } })

/-! ### Meanings -/

/-- MODULATOR_OVERLOAD (R237): 16 consecutive flagged samples reset the modulator. -/
def execModulatorOverload (m : Fin 13) (s : State) : Host.Outcome State Fault Refusal :=
  .next (
    if mfeOn s && pllM s && bit (getF s F.MFE_GRIDCTL_EN) m && !bit s.mfe.inReset m then
      let s := setF s F.MFE_GRIDSTAT_OVL (withBit (getF s F.MFE_GRIDSTAT_OVL) m true)
      let s := inc s F.MFE_GRIDSTAT_RESETS
      let till := now s + (quot 52 98304 100).toNat
      let s := { s with mfe := { s.mfe with inReset := withBit s.mfe.inReset m true, resets := (m.val, now s, till) :: s.mfe.resets } }
      restartMod s m (now s)
    else s)

/-- MODULATOR_RESET_END (R237, R263). -/
def execModulatorResetEnd (m : Fin 13) (s : State) : Host.Outcome State Fault Refusal :=
  .next (
    if bit s.mfe.inReset m then
      let s := advanceTo s (((s.mfe.resets.find? (fun r => r.1 == m.val)).map (·.2.2)).getD 0)
      restartMod { s with mfe := { s.mfe with inReset := withBit s.mfe.inReset m false } } m (now s)
    else s)

/-- PLL_M_UNLOCK (R239, R461): no converter gives samples until the PLL locks again. -/
def execPllMUnlock (s : State) : Host.Outcome State Fault Refusal :=
  .next (
    if bit (getF s F.PMU_PLLSTAT_LOCK) 3 then
      let s := keepPast s
      let s := inc (setF s F.PMU_PLLSTAT_LOCK (withBit (getF s F.PMU_PLLSTAT_LOCK) 3 false)) F.PMU_PLLSTAT_MLOSS
      if mfeOn s then measEvent (setFlag s F.MFE_GRIDSTAT_UNLOCKED) 8 (leBytes 0xFF 1 ++ leBytes 0 1) else s
    else s)

/-- PLL_M_RELOCK (R239). -/
def execPllMRelock (s : State) : Host.Outcome State Fault Refusal :=
  .next (
    if !bit (getF s F.PMU_PLLSTAT_LOCK) 3 then
      let s := keepPast s
      let s := setF s F.PMU_PLLSTAT_LOCK (withBit (getF s F.PMU_PLLSTAT_LOCK) 3 true)
      if mfeOn s then measEvent (restartAll s) 8 (leBytes 0xFF 1 ++ leBytes 1 1) else s
    else s)

/-- SCAN_VISIT_END (R246, R247). -/
def execScanVisitEnd (s : State) : Host.Outcome State Fault Refusal := .next (visitDone s)

/-- SETTLE_COUNT_END (R263): mesh time reaches the end of the channel's settle count, from which its samples are no longer
SETTLING. -/
def execSettleCountEnd (ch : Fin 64) (s : State) : Host.Outcome State Fault Refusal :=
  .next (if 9 ≤ ch.val && ch.val ≤ 15 then s else applyRanges (advanceTo s (settleOf s ch)))

end Sys2Proof.Machine
end

