-- ==== Sys2Proof/Machine/Real.lean ====
section
/-! DEFINITION. Exact arithmetic behind DCH's formulas over reals (R270, R274–R279, R298, R300): fractions, the circle, and the binary32 of
a real result: the value itself where binary32 holds it, otherwise either neighbour, for the spec states no rounding (log entry 7).
Cosines are whole numbers of 2⁻¹⁹², good to 2⁻¹⁶⁰. -/

namespace Sys2Proof.Machine

/-! ### Fractions -/

/-- A fraction; its denominator is never 0 in use. -/
structure Frac where
  num : Int
  den : Nat
  deriving DecidableEq, Repr

def Frac.ofInt (i : Int) : Frac := ⟨i, 1⟩
def Frac.add (a b : Frac) : Frac := ⟨a.num * b.den + b.num * a.den, a.den * b.den⟩
def Frac.neg (a : Frac) : Frac := ⟨-a.num, a.den⟩
def Frac.sub (a b : Frac) : Frac := a.add b.neg
def Frac.mul (a b : Frac) : Frac := ⟨a.num * b.num, a.den * b.den⟩
/-- The quotient by `b`; 0 for a zero divisor. -/
def Frac.div (a b : Frac) : Frac := ⟨a.num * b.den * b.num.sign, a.den * b.num.natAbs⟩
/-- In lowest terms. -/
def Frac.norm (a : Frac) : Frac :=
  let g := Nat.gcd a.num.natAbs a.den
  ⟨a.num / g, a.den / g⟩
def Frac.lt (a b : Frac) : Bool := a.num * b.den < b.num * a.den
def Frac.sum (l : List Frac) : Frac := l.foldl Frac.add ⟨0, 1⟩

/-- A finite binary32 as a fraction. -/
def fFrac32 (w : Nat) : Frac := ⟨fUnits w, 2 ^ 149⟩

/-! ### binary32 of reals -/

/-- The binary32 of a magnitude whose floor in units of 2^−149 is `m`; `exact` where nothing lies below the floor. -/
def fNeighbour (what : Nat) (neg exact : Bool) (m : Nat) (key : Int × Nat) : Nat :=
  let sh := Nat.log2 m - 23
  let f := m / 2 ^ sh * 2 ^ sh
  fRound neg (if exact && f = m then f else f + b2n (Config.roundsUp what key.1 key.2) * 2 ^ sh) 149

/-- The binary32 of a fraction: exact, or either neighbour. -/
def fNear (what : Nat) (q : Frac) : Nat :=
  let n := q.num.natAbs * 2 ^ 149
  fNeighbour what (q.num < 0) (n % q.den == 0) (n / q.den) (q.num, q.den)

/-- The binary32 of a fraction's square root: exact, or either neighbour. -/
def fRoot (what : Nat) (q : Frac) : Nat :=
  let n := q.num.natAbs * 2 ^ 298
  let m := Nat.sqrt (n / q.den)
  fNeighbour what false (m * m * q.den == n) m (q.num, q.den)

/-! ### The circle -/

/-- 2¹⁹² × 2π. -/
def twoPi : Nat := 39440193395453077124792266728456537782926901730380179465120

/-- 2¹⁹² times the sum of the Taylor series whose first term is `t` and whose k-th term follows by −x² / ((2k + d)(2k + d + 1)). -/
def taylor (x : Int) (d : Nat) : Nat → Nat → Int → Int → Int
  | 0, _, _, acc => acc
  | n + 1, k, t, acc => taylor x d n (k + 1) (-(t * x / 2 ^ 192 * x / 2 ^ 192) / ((2 * k + d) * (2 * k + d + 1) : Nat)) (acc + t)

/-- 2¹⁹² times the cosine and the sine of a fraction of a turn. -/
def turnCS (q : Frac) : Int × Int :=
  let x : Int := q.num % q.den * twoPi / q.den
  (taylor x 1 48 0 (2 ^ 192) 0, taylor x 2 48 0 x 0)

/-- The angle of a vector that lies above the horizontal axis, as a part of 2⁶⁴ of half a turn, by bisection from above. -/
def angleBits (v : Int × Int) : Nat → Nat → Nat
  | 0, a => a
  | n + 1, a =>
    let c := turnCS ⟨a + 2 ^ n, 2 ^ 65⟩
    angleBits v n (if 0 ≤ c.1 * v.2 - c.2 * v.1 then a + 2 ^ n else a)

/-- The angle of a vector in degrees, above −180 up to 180: on an axis exact, otherwise either neighbour of its binary32; 0 for the zero vector. -/
def fAngle (what : Nat) (v : Int × Int) : Nat :=
  if v.2 = 0 then (if v.1 < 0 then fNear what ⟨180, 1⟩ else 0)
  else if v.1 = 0 then fNear what ⟨if v.2 < 0 then -90 else 90, 1⟩
  else
    let up := (v.1, (v.2.natAbs : Int))
    let m := 180 * angleBits up 64 0 * 2 ^ 85
    fNeighbour what (v.2 < 0) false m (v.1, v.2.natAbs)

end Sys2Proof.Machine
end

