-- ==== Sys2Proof/Machine/Linear.lean ====
section
/-! DEFINITION. Linearisation: the polynomial, coefficient sets, their commit and fit (R290–R300). -/

namespace Sys2Proof.Machine

/-- A coefficient set's image (R295). -/
def coefSet (s : State) (k : Nat) : Bytes := memRead s (Base.coef + 128 * k) 128

/-- c_ij of a set. -/
def cCoef (img : Bytes) (i j : Nat) : Nat := u img (4 * (4 * i + j)) 4
def cOrdx (img : Bytes) : Nat := u img 96 1
def cOrdt (img : Bytes) : Nat := u img 97 1
def cTsrc (img : Bytes) : Nat := u img 98 1
def cTref (img : Bytes) : Nat := u img 100 4
def cYmin (img : Bytes) : Nat := u img 104 4
def cYmax (img : Bytes) : Nat := u img 108 4
def cMaxAge (img : Bytes) : Nat := u img 112 2

/-- The inner Horner scheme in x of column `j` (R291). -/
def linCol (img : Bytes) (x j : Nat) : Nat :=
  (List.range (cOrdx img)).foldl (fun p k => fma p x (cCoef img (cOrdx img - 1 - k) j)) (cCoef img (cOrdx img) j)

/-- lin(x, t) of R291. -/
def lin (img : Bytes) (x t : Nat) : Nat :=
  (List.range (cOrdt img)).foldl (fun y k => fma y t (linCol img x (cOrdt img - 1 - k))) (linCol img x (cOrdt img))

/-- The result held within YMIN and YMAX, and whether it was replaced (R292). -/
def linClamp (img : Bytes) (y : Nat) : Nat × Bool :=
  if isNaN y then (cYmax img, true)
  else if fOrd (cYmax img) < fOrd y then (cYmax img, true)
  else if fOrd y < fOrd (cYmin img) then (cYmin img, true)
  else (y, false)

/-- The junction's code in the millisecond of an instant up to now (R293). -/
def tjAt (s : State) (o : Nat) : Nat := tjIn s ((s.tbu.cycles - (now s - o)) / Config.ticksPerMs)

/-- T and the tag it contributes, for a sample output at `o` (R293). -/
def tempOf (s : State) (img : Bytes) (o : Nat) : Nat × Nat :=
  let c := cTsrc img
  if c = 0 then (0, 0)
  else if c = 0x3E then (fOfInt (signed (tjAt s o) 12) 2, 0)
  else
    let latest : Option Nat := ((chan s c).hist.find? (fun y => decide (y.at_ ≤ o))).map (fun y => y.tag)
    let old := (validAt s c o).all (fun y => cMaxAge img != 0 && cMaxAge img * Config.ticksPerMs < o - y.at_)
    (((lastValid s c o).map (·.val)).getD (Config.real 9 [c, o]), if latest = some 2 then 2 else b2n old)

/-- A set's image after a commit that has not yet completed (R294, R384). -/
def setImg (s : State) (k : Nat) : Bytes :=
  match s.dch.linPending with
  | some (j, b) => if j = k then b else coefSet s k
  | none => coefSet s k

/-- The image of set `k` for a sample output at `o`: the next sample after a commit takes the new one (R296, R302). -/
def setAt (s : State) (k o : Nat) : Bytes :=
  match (s.dch.sets.filter (fun e => e.2.1 == k && decide (o ≤ e.1))).getLast? with
  | some e => e.2.2
  | none => coefSet s k

/-- The sets that the `n` bytes from `a` hold are about to be replaced. -/
def keepSets (s : State) (a n : Nat) : State :=
  let hit := (List.range 128).filter (fun k => a < Base.coef + 128 * k + 128 && Base.coef + 128 * k < a + n)
  { s with dch := { s.dch with sets := hit.map (fun k => (now s, k, coefSet s k)) ++ s.dch.sets } }

/-- The set attached to channel `c`. -/
def chSet (s : State) (c : Nat) : Nat := getF s (chF F.DCH_CHCFG_COEFSET c)
def chLin (s : State) (c : Nat) : Bool := flag s (chF F.DCH_CHCFG_LIN_EN c)

/-- The channel that a TSRC code names (R293). -/
def tsrcChan (t : Nat) : Option Nat := if 0x10 ≤ t ∧ t ≤ 0x3F ∧ t ≠ 0x3E then some t else none

/-- R294 holds, with LIN_EN, COEFSET and the sets given by functions: of every set, whether a channel uses it or not, the channel that its TSRC
names has LIN_EN 0 or a set with ORDT 0; and no channel with a set attached (LIN_EN 1) is the TSRC of its own set. -/
def tempRuleOk (en : Nat → Bool) (set : Nat → Nat) (img : Nat → Bytes) : Bool :=
  (List.range 128).all (fun k => (tsrcChan (cTsrc (img k))).all (fun d => !en d || cOrdt (img (set d)) == 0))
    && (List.range 64).all (fun c => !en c || tsrcChan (cTsrc (img (set c))) != some c)

/-- The staging image (R296). -/
def staging (s : State) : Bytes := (List.range 32).flatMap (fun w => leBytes (getF s (win F.DCH_LINDATA_DATA w)) 4)
def setStaging (s : State) (b : Bytes) : State :=
  (List.range 32).foldl (fun s w => setF s (win F.DCH_LINDATA_DATA w) (u b (4 * w) 4)) s

/-- The first check of R296 that the staging image fails for set `k`: 0 none. -/
def commitReject (s : State) (k : Nat) : Nat :=
  let b := staging s
  let ts := cTsrc b
  if 5 < cOrdx b ∨ 3 < cOrdt b then 1
  else if !(ts = 0 ∨ (0x10 ≤ ts ∧ ts ≤ 0x3F)) then 2
  else if !((List.range (cOrdx b + 1)).all (fun i => (List.range (cOrdt b + 1)).all (fun j => isFinite (cCoef b i j)))
      && isFinite (cTref b) && isFinite (cYmin b) && isFinite (cYmax b)) then 3
  else if !fLt (cYmin b) (cYmax b) then 4
  else if !tempRuleOk (chLin s) (chSet s) (fun j => if j = k then b else setImg s j) then 5
  else 0

/-- Checks of a write of DCH_LINSET with LOAD or COMMIT (R296, R297). -/
def linsetCheck (s : State) (v : Nat) : Nat :=
  if bit v 8 || bit v 9 then
    if flag s F.DCH_LINSET_PENDING then St.busy
    else if bit v 9 then
      match mode s with
      | .commission | .operate =>
        need ((if bit v 8 then commitReject (setStaging s (coefSet s (bits v 0 7))) (bits v 0 7)
               else commitReject s (bits v 0 7)) == 0)
      | _ => St.badMode
    else St.ok
  else St.ok

/-- A rejected commit records its cause (R296). -/
def linsetRejected (s : State) (v : Nat) : State :=
  if bit v 9 && !flag s F.DCH_LINSET_PENDING && linsetCheck s v == St.badParam then
    setF s F.DCH_LINSTAT_REJECT (commitReject s (bits v 0 7))
  else s

/-- LOAD and COMMIT (R296). -/
def linsetAct (s : State) (v : Nat) : State :=
  let k := bits v 0 7
  let s := if bit v 8 then setStaging s (coefSet s k) else s
  if bit v 9 then
    let s := setF (setFlag s F.DCH_LINSET_PENDING) F.DCH_LINSTAT_LASTSET k
    { s with dch := { s.dch with linPending := some (k, staging s) } }
  else s

/-- LIN_COMMIT_COMPLETE (R296): the whole set is replaced. -/
def linComplete (s : State) : State :=
  match s.dch.linPending with
  | some (k, b) =>
    let s := keepSets { s with dch := { s.dch with linPending := none } } (Base.coef + 128 * k) 128
    setF (memWrite s (Base.coef + 128 * k) b) F.DCH_LINSET_PENDING 0
  | none => s

/-- One FIT point. -/
structure FitPoint where
  x : Nat
  t : Nat
  y : Nat
  w : Nat

/-! ### The least-squares problem of R300, over fractions -/

/-- A row less a multiple of the pivot's row, without its first column. -/
def rowLess (piv row : List Frac) : List Frac :=
  let m := (row.headD ⟨0, 1⟩).div (piv.headD ⟨1, 1⟩)
  (piv.tail.zip row.tail).map (fun e => (e.2.sub (m.mul e.1)).norm)

/-- The solution of `n` equations, each with its right side last. -/
def solveRows : Nat → List (List Frac) → List Frac
  | n + 1, r :: rows =>
    let rest := solveRows n (rows.map (rowLess r))
    let known := Frac.sum ((r.tail.zip rest).map (fun e => e.1.mul e.2))
    ((((r.getLastD ⟨0, 1⟩).sub known).div (r.headD ⟨1, 1⟩)).norm) :: rest
  | _, _ => []

/-- The negative pivots of a symmetric matrix: its negative eigenvalues (Sylvester); a pivot of 0 counts as one just below it. -/
def negPivots : Nat → List (List Frac) → Nat
  | n + 1, r :: rows =>
    let p := r.headD ⟨0, 1⟩
    let r := if p.num = 0 then ⟨-1, 2 ^ 400⟩ :: r.tail else r
    b2n (p.num ≤ 0) + negPivots n (rows.map (rowLess r))
  | _, _ => 0

/-- The products x^i t^j at a point, t by one binary32 subtraction (R291, R300). -/
def fitTerms (ordx ordt tref : Nat) (p : FitPoint) : List Frac :=
  let pow (a : Frac) (k : Nat) : Frac := ⟨a.num ^ k, a.den ^ k⟩
  (List.range (ordx + 1)).flatMap (fun i =>
    (List.range (ordt + 1)).map (fun j => ((pow (fFrac32 p.x) i).mul (pow (fFrac32 (fSub p.t tref)) j)).norm))

/-- The normal matrix Σ w a aᵀ and its right side Σ w a y, row by row. -/
def normalRows (ordx ordt tref : Nat) (pts : List FitPoint) : List (List Frac) :=
  let rows := pts.map (fun p => (fitTerms ordx ordt tref p ++ [fFrac32 p.y], fFrac32 p.w))
  let n := (ordx + 1) * (ordt + 1)
  (List.range n).map (fun i => (List.range (n + 1)).map (fun j =>
    (Frac.sum (rows.map (fun e => (e.2.mul (nth ⟨0, 1⟩ e.1 i)).mul (nth ⟨0, 1⟩ e.1 j)))).norm))

/-- The eigenvalues below `z` / 2¹⁶⁰ of the matrix with unit columns, whose pencil with the diagonal has the same signs. -/
def eigBelow (m : List (List Frac)) (z : Nat) : Nat :=
  negPivots m.length (m.mapIdx (fun i r => (r.take m.length).mapIdx (fun j a => if i = j then (a.sub (a.mul ⟨z, 2 ^ 160⟩)).norm else a)))

/-- By halving steps of 2ᵏ⁻¹ … 1, the largest `z` at which at most `k` eigenvalues lie below. -/
def eigSearch (m : List (List Frac)) (k : Nat) : Nat → Nat → Nat
  | 0, z => z
  | n + 1, z => eigSearch m k n (if eigBelow m (z + 2 ^ n) ≤ k then z + 2 ^ n else z)

/-- The scaled matrix has a condition number above 10¹²: its square is the quotient of the largest and the smallest eigenvalue of the normal
matrix; a quotient within 2⁻⁶⁰ of the limit is open (log entry 6). -/
def illConditioned (m : List (List Frac)) : Bool :=
  let hi := eigSearch m (m.length - 1) 166 0
  let lo := eigSearch m 0 166 0
  if 10 ^ 24 * (lo + 1) < hi then true else if hi + 1 ≤ 10 ^ 24 * lo then false else Config.roundsUp 48 hi lo

/-- FIT (R300): the exact minimiser, rounded to binary32; what binary64 arithmetic adds to its error is left out (log entry 202).  The
staging image takes the coefficients with the orders, TSRC and TREF, and the reply carries the residuals. -/
def fitSet (s : State) (ordx ordt tsrc tref : Nat) (pts : List FitPoint) : State × Nat × Bytes :=
  let m := normalRows ordx ordt tref pts
  if flag s F.DCH_LINSET_PENDING then (s, St.busy, [])
  else if 5 < ordx ∨ 3 < ordt ∨ 64 < pts.length ∨ pts.length = 0 ∨ pts.length < (ordx + 1) * (ordt + 1)
      ∨ pts.any (fun p => !fLt 0 p.w) ∨ !(tsrc = 0 ∨ (0x10 ≤ tsrc ∧ tsrc ≤ 0x3F)) ∨ illConditioned m then
    (s, St.badParam, [])
  else
    let sol := solveRows m.length m
    let coef (n : Nat) : Nat :=
      if n / 4 ≤ ordx ∧ n % 4 ≤ ordt then fNear 50 (nth ⟨0, 1⟩ sol ((ordt + 1) * (n / 4) + n % 4)) else 0
    let old := staging s
    let b := (List.range 24).flatMap (fun n => leBytes (coef n) 4) ++ leBytes ordx 1 ++ leBytes ordt 1 ++ leBytes tsrc 1
      ++ leBytes 0 1 ++ leBytes tref 4 ++ slice old 104 24
    let res := pts.map (fun p => fSub (lin b p.x (fSub p.t tref)) p.y)
    let worst := res.foldl (fun m r => if fOrd (fAbs m) < fOrd (fAbs r) then fAbs r else m) 0
    let rms := fRoot 51 ⟨(sumN (res.map (fun r => fMag r ^ 2)) : Nat), pts.length * 2 ^ 298⟩
    (setStaging s b, St.ok, leBytes worst 4 ++ leBytes rms 4)

end Sys2Proof.Machine
end

