-- ==== Sys2Proof/Machine/Chain.lean ====
section
/-! DEFINITION. DCH's chain: from the converters' words to tagged output samples of every channel and of every PQ tap
(R259–R267, R273, R290–R293, R298). -/

namespace Sys2Proof.Machine

/-! ### Words and decimation (R260) -/

/-- The words of a source, newest first: modulators 0–12, the auxiliary converter 13. -/
def rawOf (s : State) (m : Nat) : List Raw := assocGet [] s.dch.raw m

/-- A word arrives. -/
def putRaw (s : State) (m t : Nat) (w : ConvWord) : State :=
  { s with dch := { s.dch with
      raw := assocSet s.dch.raw m ({ at_ := t, w := w.w.toInt, ovl := w.ovl, sat := w.sat } :: rawOf s m) } }

/-- The `n` words of a source up to `t`, `step` ticks apart, newest first. -/
def wordsTo (s : State) (m step t n : Nat) : List Int :=
  (List.range n).map (fun k =>
    match (rawOf s m).find? (fun r => r.at_ + step * k == t) with
    | some r => r.w
    | none => Config.lostWord m (t - step * k))

/-- Sums of `r` consecutive values. -/
def boxSums (r : Nat) (x : List Int) : List Int :=
  (List.range (x.length + 1 - r)).map (fun i => ((x.drop i).take r).foldl (· + ·) 0)

/-- `k` outputs of a fifth-order CIC that decimates by `r`, newest first, in units of r⁻⁵ word (R260, R279). -/
def cicOuts (s : State) (m step r t k : Nat) : List Int :=
  let x := wordsTo s m step t (5 * (r - 1) + 1 + r * (k - 1))
  let y := boxSums r (boxSums r (boxSums r (boxSums r (boxSums r x))))
  (List.range k).map (fun i => nth 0 y (r * i))

/-- 2³⁸⁴ times the squared magnitude of Σ hᵢ e^(−j 2π i k / n): the gain of a filter at k / n of its sampling rate. -/
def gainSq (h : List Int) (n k : Nat) : Nat :=
  let z := h.zipIdx.foldl (fun (z : Int × Int) e =>
    let t := turnCS ⟨-((k * e.2 : Nat) : Int), n⟩
    (z.1 + e.1 * t.1, z.2 + e.1 * t.2)) (0, 0)
  (z.1 * z.1 + z.2 * z.2).natAbs

/-- A squared gain `g` lies within 10 / `n` dB of `one`. -/
def withinDb (n g one : Nat) : Bool := g ^ n ≤ 10 * one ^ n && one ^ n ≤ 10 * g ^ n

/-- The bounds of R260 on a half-band stage, at every thousandth of its output rate: ±0.005 dB up to 0.4, 80 dB from 0.6 upwards. -/
def halfOk (h : List Int) : Bool :=
  let one := 2 ^ 432
  (List.range 401).all (fun k => withinDb 2000 (gainSq h 2000 k) one)
    && (List.range 401).all (fun k => 10 ^ 8 * gainSq h 2000 (600 + k) ≤ one)

/-- A half-band filter that keeps the bounds, for the case in which the free coefficients do not. -/
def halfDesign : List Int :=
  let odd : List Int := [5313328, -1700214, 939535, -592254, 388772, -255996, 165561, -103558, 61764, -34561, 17752, -8082, 3048, -790]
  let side := odd.flatMap (fun a => [a, 0])
  side.dropLast.reverse ++ [8388608] ++ side.dropLast

/-- The coefficients of half-band stage `j` (R260): free within the bounds (log entry 194). -/
def halfTaps (j : Nat) : List Int :=
  if halfOk (Config.halfBandTaps j) then Config.halfBandTaps j else halfDesign

/-- `k` outputs, newest first, of a filter that decimates by 2. -/
def halveOuts (h : List Int) (k : Nat) (x : List Int) : List Int :=
  (List.range k).map (fun j => (h.zip (x.drop (2 * j))).foldl (fun a e => a + e.1 * e.2) 0)

/-- `k` outputs of the CIC and the half-band stages 1 to `e` in cascade, the first at `t`, newest first, in units of 2⁻²⁰⁻²⁴ᵉ word (R260). -/
def halfOuts (s : State) (m step t : Nat) : Nat → Nat → List Int
  | 0, k => cicOuts s m step 16 t k
  | e + 1, k => halveOuts (halfTaps (e + 1)) k (halfOuts s m step t e (2 * (k - 1) + (halfTaps (e + 1)).length))

/-- Coefficient `i` of FIR bank `b` (R289). -/
def firCoef (s : State) (b i : Nat) : Int := signed (getF s (win F.DCH_FIRDATA_COEF (64 * b + i))) 20

/-- The decimated value at `t` as a fraction of the source's full scale: `e` half-band stages and an FIR of `n` taps of bank `b`, which
saturates at ±1.5; and whether it did (R260). -/
def chainValue (s : State) (m step e n b t : Nat) : Frac × Bool :=
  let unit := Config.wordScale m + 1
  let x := halfOuts s m step t e (max 1 n)
  if n = 0 then (⟨nth 0 x 0, 2 ^ (20 + 24 * e) * unit⟩, false)
  else
    let y := x.zipIdx.foldl (fun a v => a + firCoef s b v.2 * v.1) 0
    let d := 2 ^ (38 + 24 * e) * unit
    if 3 * d < 2 * y.natAbs then (⟨3 * y.sign, 2⟩, true) else (⟨y, d⟩, false)

/-! ### Flags of a support (R262, R265) -/

/-- Modulator `m` was in reset, its samples flagged, in some part of the support from `a` to `b` (R237). -/
def resetIn (s : State) (m a b : Nat) : Bool := s.mfe.resets.any (fun r => r.1 == m && r.2.1 ≤ b && a < r.2.2)

/-- An overload flag lies in the support from `a` to `b`. -/
def ovlIn (s : State) (m a b : Nat) : Bool := (rawOf s m).any (fun r => r.ovl && a < r.at_ && r.at_ ≤ b) || resetIn s m a b

/-- The SAT flag lies in the interval from `a` to `b`. -/
def satIn (s : State) (a b : Nat) : Bool := (rawOf s 13).any (fun r => r.sat && a < r.at_ && r.at_ ≤ b)

/-- TXGATE of a port of the channel's TXMASK was asserted in a phase slot that the span from `a` to `b` overlaps (R266). -/
def gateIn (s : State) (c a b : Nat) : Bool :=
  let g := s.dch.gates
  (g.zip (now s :: g.map (·.1))).any (fun e =>
    e.1.1 ≤ b && decide (a < max e.2 (e.1.1 + 1)) && (e.1.2 &&& getF s (chF F.DCH_CHCFG_TXMASK c)) != 0)

/-! ### The two paths of a sample (R264, R298) -/

/-- What one path gives at an output instant: its value as a fraction of its full scale, OVERRANGE, SETTLING. -/
structure PathOut where
  v : Frac
  ovr : Bool
  settling : Bool

/-- The modulator that feeds a grid channel's path (R259). -/
def modOf (c : Nat) (hi : Bool) : Nat := if isCurrent c && !hi then c + 4 else if c = 8 then 12 else c

/-- A grid channel's path at `o`, with `e` half-band stages, `n` taps of bank `b` and a settle time of `sup`. -/
def gridPath (s : State) (c : Nat) (hi : Bool) (e n b sup o : Nat) : PathOut :=
  let m := modOf c hi
  let y := chainValue s m 30 e n b o
  let l := if hi then (chan s c).settleHi else (chan s c).settle
  { v := y.1, ovr := y.2 || ovlIn s m (o - sup) o, settling := o ≤ settleAt l o }

/-- FORCEn of current channel `c` (R299). -/
def pathForce (s : State) (c : Nat) : Nat := getF s ⟨F.DCH_PFORCE_FORCE0.addr, 2 * (c - 4), 2, 0, .rwl⟩

/-- |a| is at least p / q. -/
def magGe (a : Frac) (p q : Nat) : Bool := p * a.den ≤ q * a.num.natAbs

/-- R264 on one sample of both paths: whether it is taken from the low path, and the selection after it. -/
def pathStep (s : State) (p : PathSel) (lo hi : PathOut) : Bool × PathSel :=
  let bad := hi.ovr || hi.settling
  if p.low then
    let ok := !bad && decide (32 * lo.v.num.natAbs ≤ lo.v.den)
    let run := if ok then p.run + 1 else 0
    (true, if getF s F.DCH_GAINSEL_DOWN_HOLD ≤ run then { low := false, run := 0 } else { low := true, run })
  else if magGe hi.v 7 8 || bad then (true, { low := true, run := 0 })
  else (false, p)

/-- The path of one sample of channel `c`, low on every channel with a single path, and the selection after it (R264, R299). -/
def pathOf (s : State) (c : Nat) (p : PathSel) (lo hi : PathOut) : Bool × PathSel :=
  if !isCurrent c then (true, p)
  else
    match pathForce s c with
    | 0 => pathStep s p lo hi
    | 1 => (false, p)
    | _ => (true, p)

/-- h′ / 16 with the trims HGAIN and HOFS of current channel `c` (R298). -/
def trimmed (s : State) (c : Nat) (h : Frac) : Frac :=
  let f (g : Field) : Int := signed (getF s { g with addr := g.addr + 4 * (c - 4) }) 16
  ⟨(h.num * 2 ^ 20 - f F.DCH_PTRIM0_HOFS * h.den) * (2 ^ 20 + f F.DCH_PTRIM0_HGAIN), h.den * 2 ^ 44⟩

/-! ### Tags (R265–R267, R290–R293) -/

/-- A sample after linearisation: value, tag without BLANKED, whether linearisation saturated. -/
structure Tagged where
  val : Nat
  tag : Nat
  sat : Bool

/-- Linearisation of the value `x` output at `o`, and the tags of R265 but for BLANKED (R267, R290–R293). -/
def tagSample (s : State) (c o x : Nat) (ovr settling : Bool) : Tagged :=
  let k := chSet s c
  let img := setAt s k o
  let bad := chLin s c && poisoned s (Base.coef + 128 * k) 128
  let t := tempOf s img o
  let y := if chLin s c && !bad then linClamp img (lin img x (fSub t.1 (cTref img))) else (x, false)
  { val := y.1, sat := y.2,
    tag := max (if ovr || y.2 || bad then 2 else 0) (max (b2n settling) (if chLin s c && !bad then t.2 else 0)) }

/-- A sample of channel `c` at `o` is recorded: a BLANKED one holds the last VALID one's value (R267); the counters follow (R289, R303). -/
def recordSample (s p : State) (c o x : Nat) (low txBlank blank : Bool) (path : PathSel) (y : Tagged) : State :=
  let ch := chan s c
  let tag := if blank then 3 else y.tag
  let held := validAt s c o
  let out : Out :=
    if blank then { x := (held.map (·.x)).getD 0, val := (held.map (·.val)).getD 0, tag, at_ := o, low }
    else { x, val := y.val, tag, at_ := o, low }
  let s := if y.sat then inc s F.DCH_LINSTAT_SATCNT else s
  let s := if txBlank then inc s F.DCH_TAGCNT_TXBLANK else s
  let s := if tag = 2 then inc s F.DCH_TAGCNT_OVRSAMP else s
  let s := if chLin p c then readMem s (Base.coef + 128 * chSet p c) 128 else s
  let s := if path.low != ch.path.low then putFlag (inc s F.DCH_GAINSEL_PATHSW) (win F.DCH_CHSTAT_PATH c) path.low else s
  setChan s c { ch with path, hist := out :: ch.hist }

/-- The path and value of a sample of channel `c` at `o`, from both paths: low or not, the selection after it, the path taken, its value in
the channel's scale (R259, R264, R298). -/
def pickPath (s : State) (c : Nat) (sel : PathSel) (lo hi : PathOut) : Bool × PathSel × PathOut × Nat :=
  let (low, path) := pathOf s c sel lo hi
  if low then (low, path, lo, fNear 12 lo.v) else (low, path, hi, fNear 13 (trimmed s c hi.v))

/-- One output sample of grid channel `c` at `o`, by the registers in force there. -/
def gridSample (s : State) (c o : Nat) : State :=
  let p := asOf s o
  let e := getF p (chF F.DCH_CHCFG_DEC_EXP c)
  let n := getF p (chF F.DCH_CHCFG_NTAPS c)
  let b := getF p (chF F.DCH_CHCFG_FIRBANK c)
  let sup := chSettle p c
  let (low, path, one, x) := pickPath p c (chan s c).path (gridPath p c false e n b sup o) (gridPath p c true e n b sup o)
  let blank := e ≤ 3 && gateIn p c (o - sup) o
  recordSample s p c o x (isCurrent c && low) blank blank path (tagSample p c o x one.ovr one.settling)

def Tap.fresh : Tap := { path := { low := false, run := 0 }, hist := [], phasor := (0, 0) }
def tap (s : State) (c : Nat) : Tap := assocGet Tap.fresh s.dch.taps c
def setTap (s : State) (c : Nat) (x : Tap) : State := { s with dch := { s.dch with taps := assocSet s.dch.taps c x } }

/-- Output period and settle time of the tap: DEC_EXP 4, no FIR (R261). -/
def tapPeriod : Nat := 7680
def tapSettle : Nat := 7 * tapPeriod

/-- One sample of a channel's PQ tap (R273): the chain at DEC_EXP 4 without FIR, with its own path selection, linearised by the channel's
set, tagged by R265 without R266.  Its saturations and path changes count in no register (log entry 152). -/
def tapSample (s : State) (c o : Nat) : State :=
  let p := asOf s o
  let t := tap s c
  let (low, path, one, x) := pickPath p c t.path (gridPath p c false 4 0 0 tapSettle o) (gridPath p c true 4 0 0 tapSettle o)
  let y := tagSample p c o x one.ovr one.settling
  let s := if chLin p c then readMem s (Base.coef + 128 * chSet p c) 128 else s
  setTap s c { t with path, hist := { x, val := y.val, tag := y.tag, at_ := o, low } :: t.hist }

/-! ### Auxiliary channels (R247, R253–R255, R259) -/

/-- The visit to which an instant belongs. -/
def visitAt (s : State) (t : Nat) : Option Visit :=
  s.mfe.visits.find? (fun v => v.close < t && v.end_.all (t ≤ ·))

/-- The transimpedance stage that an entry's content converts. -/
def stageOf (w : Nat) : Option Nat := if ePsel w = 40 then some 0 else if ePsel w = 41 then some 1 else none

/-- SAT counts in a sample's support from the stage's last range change on: the flags before it are another range's (R255, R265; DEDUCED
from the worked example of R258, log entry 203). -/
def satFrom (s : State) (i a o : Nat) : Nat :=
  (nth [] s.mfe.tiaLog i).foldl (fun m r => if r.at_ < o then max m r.at_ else m) a

/-- One output sample of the entry of visit `v` at `o`: a stage's output, ±1 V of ±1.25 V, counts in the scale of range 0 (R253, R259). -/
def auxSample (s : State) (v : Visit) (o : Nat) : State :=
  let c := 16 + v.entry
  let p := asOf s o
  let sup := chSettle p c
  let from_ := max (o - sup) v.close
  let y := chainValue p 13 120 (getF p (chF F.DCH_CHCFG_DEC_EXP c)) (getF p (chF F.DCH_CHCFG_NTAPS c)) (getF p (chF F.DCH_CHCFG_FIRBANK c)) o
  let settling := decide (o ≤ settleAt (chan s c).settle o)
  let ovr := y.2 || ovlIn s 13 from_ o
  let sel := (chan s c).path
  match stageOf v.word with
  | none =>
    let x := fNear 12 y.1
    recordSample s p c o x false false false sel (tagSample p c o x ovr settling)
  | some i =>
    let r := rangeAt s i o
    let x := fNear 12 ⟨5 * y.1.num, 4 * 10 ^ r * y.1.den⟩
    let sat := satIn s (max (o - chPeriod p c) v.close) o
    let blank := inFeedback s i (o - chPeriod p c) o
    let last := visitEnd p v.entry = o ∨ v.end_ = some o
    let s := recordSample s p c o x false false blank sel (tagSample p c o x (ovr || satIn s (satFrom s i from_ o) o) settling)
    match (chan s c).hist.head? with
    | some out => tiaSample s i v.entry o sat out.tag (fOrd out.x * 10 ^ r) last
    | none => s

/-! ### Words become samples -/

/-- The converter of a grid channel gives words: MFE is on, PLL M locked, and the modulator enabled (R239, R256). -/
def gives (s : State) (c : Nat) : Bool := mfeOn s && pllM s && bit (getF s F.MFE_GRIDCTL_EN) (modOf c false)

/-- The words of grid channel `c` at the sampling instant `t` arrive, with the output samples that fall there: at whole multiples of the
period on the lattice (R236, R262).  A word that is known is not taken again, and a converter that stood still gave none. -/
def gridWord (s : State) (c t : Nat) (w : GridWord) : State :=
  let s := advanceTo s t
  if !gives (asOf s t) c || !((rawOf s (modOf c false)).head?.all (·.at_ < t)) then s
  else
    let s := putRaw s (modOf c false) t w.lo
    let s := if isCurrent c then putRaw s (modOf c true) t w.hi else s
    let due (p : Nat) : Bool := ((t : Int) - s.mfe.lattice) % (p : Int) == 0
    let s := if due (chPeriod (asOf s t) c) then gridSample s c t else s
    if due tapPeriod then tapSample s c t else s

/-- A word of the auxiliary converter at `t` arrives, with the output sample that falls there: k periods after the closure (R247). -/
def auxWord (s : State) (t : Nat) (w : ConvWord) : State :=
  let s := applyRanges (advanceTo s t)
  match visitAt s t with
  | none => s
  | some v =>
    let p := asOf s t
    if !(mfeOn p && pllM p) || !((rawOf s 13).head?.all (·.at_ < t)) || (v.end_.isNone && visitEnd p v.entry < t) then s
    else
      let s := putRaw s 13 t w
      if (t - v.close) % chPeriod p (16 + v.entry) = 0 then auxSample s v t else s

/-- The words of a run, each at its instant, `step` apart from `t` on. -/
def runWords {α : Type} (f : State → Nat → α → State) (step : Nat) : List α → Nat → State → State
  | [], _, s => s
  | w :: l, t, s => runWords f step l (t + step) (f s t w)

/-- A run of a grid channel's words, on the lattice. -/
def takeGrid (s : State) (r : GridRun) : State :=
  let t := r.from_.toNat + ((s.mfe.lattice - r.from_.toNat) % 30).toNat
  runWords (fun s t w => gridWord s r.ch.val t w) 30 r.words t s

/-- A run of the auxiliary converter's words, on the lattice of the visit in which it begins. -/
def takeAux (s : State) (r : AuxRun) : State :=
  let close := ((s.mfe.visits.find? (fun v => v.close ≤ r.from_.toNat)).map (·.close)).getD s.mfe.closeAt
  let t := r.from_.toNat + (((close : Int) - r.from_.toNat) % 120).toNat
  runWords auxWord 120 r.words t s

end Sys2Proof.Machine
end

