-- ==== Sys2Proof/Machine/Gallery.lean ====
section
/-! DEFINITION. GALLERY (R284–R286): what a capture keeps of its channels' samples, its header and rings in main SRAM, and its states. -/

namespace Sys2Proof.Machine

/-- Records of a segment, with `n` channels. -/
def galRecords (n : Nat) : Nat := 524224 / n

/-- The channels that ARM captures: the first NCH of DCH_GALCH0–1. -/
def galSel (s : State) : List Nat :=
  (List.range (getF s F.DCH_GALCFG_NCH)).map (fun j => getF s ⟨F.DCH_GALCH0_CH0.addr + 4 * (j / 4), 8 * (j % 4), 6, 0, .rw⟩)

/-- No value occurs twice. -/
def distinct : List Nat → Bool
  | [] => true
  | a :: t => !t.contains a && distinct t

/-! ### Records -/

/-- The timestamp of an output sample of channel `c`: its output instant less S / 2 (R262). -/
def outStamp (s : State) (c : Nat) (o : Out) : Nat := o.at_ - chSettle (asOf s o.at_) c / 2

/-- A record (R284): the value before linearisation in 2⁻²² of full scale, tag and PATH. -/
def galRecord (o : Out) : Nat := satCode (quot 14 (fUnits o.x) (2 ^ 127)) 24 + o.tag * 2 ^ 24 + b2n o.low * 2 ^ 26

/-- Every sample after the trigger is kept at `t`: the full rate holds from the decision on (R286). -/
def galFullAt (g : Gallery) (t : Nat) : Bool := g.fullAt.any (· ≤ t) && g.halfAt.all (t < ·)

/-- The sample `i` places from the trigger record on, output at `t`, is kept (R285, R286): the trigger record always, then the even ones,
or every one at full rate; of a capture with DECIM every 2^DECIM-th; after a FAIL none. -/
def galKept (g : Gallery) (i t : Nat) : Bool :=
  i == 0 || (!g.failed && (if g.decim ≠ 0 then i % 2 ^ g.decim == 0 else i % 2 == 0 || galFullAt g t))

/-- A segment in the making: its records, each with its ring index, the ring index of the oldest, of the trigger record if it is there, and
of the first full-rate record after the trigger. -/
structure Segment where
  recs : List (Nat × Nat)
  oldest : Nat
  trig : Option Nat
  full : Option Nat

/-- What a segment of `rs` records holds of the samples since ARM, oldest first, each with its timestamp (R285, R286): before the trigger the
ring, from the trigger on at most PRE sixteenths of it and what follows, up to `rs` records. -/
def galSegment (g : Gallery) (rs : Nat) (l : List (Nat × Out)) : Segment :=
  let isPre (e : Nat × Out) : Bool := g.trigAt.all (e.1 < ·)
  let pre := (((l.takeWhile isPre).map (·.2)).zipIdx.filter (fun e => e.2 % 2 ^ g.decim == 0)).map (·.1)
  let n := pre.length
  let keep := min n (if g.trigAt.isSome then rs * g.pre / 16 else rs)
  let post := ((((l.dropWhile isPre).map (·.2)).zipIdx.filter (fun e => galKept g e.2 e.1.at_)).map (·.1)).take (rs - keep)
  let full := if g.decim = 0 then post.findIdx? (fun o => galFullAt g o.at_) else none
  { recs := (pre.drop (n - keep) ++ post).mapIdx (fun j o => ((n - keep + j) % rs, galRecord o)),
    oldest := (n - keep) % rs,
    trig := if post.isEmpty then none else some (n % rs),
    full := full.map (fun k => (n + k) % rs) }

/-- The segment of captured channel `c`. -/
def galOf (s : State) (c : Nat) : Segment :=
  let l := ((chan s c).hist.filter (fun o => decide (s.dch.gal.armAt < o.at_))).reverse
  galSegment s.dch.gal (galRecords (max 1 s.dch.gal.chans.length)) (l.map (fun o => (outStamp s c o, o)))

/-- The header block of segment `j` and its ring, as the capture stands (R284); without a trigger, or its record, the spec gives TRIGIDX and
TTRIG no value (log entry 196). -/
def galStoreSeg (s : State) (j c : Nat) : State :=
  let g := s.dch.gal
  let base := 256 + 4 * galRecords (max 1 g.chans.length) * j
  let x := galOf s c
  let fl := b2n g.fullAt.isSome + 2 * b2n g.halfAt.isSome + 4 * b2n g.failed + 8 * b2n g.tstep
  let s := memWrite s (Base.gallery + 32 * j)
    (leBytes c 1 ++ leBytes (nth 0 g.decs j) 1 ++ leBytes g.decim 1 ++ leBytes fl 1 ++ leBytes x.recs.length 4 ++ leBytes x.oldest 4
      ++ leBytes (x.trig.getD g.noTrig) 4 ++ leBytes (x.full.getD 0xFFFFFFFF) 4 ++ leBytes (g.trigAt.getD (g.noTrig / 2 ^ 32)) 8
      ++ leBytes base 4)
  x.recs.foldl (fun s r => memPut s (Base.gallery + base + 4 * r.1) 4 r.2) s

/-- The capture in progress is laid down in the capture region. -/
def galSync (s : State) : State :=
  if getF s F.DCH_GALSTAT_STATE = 1 ∨ getF s F.DCH_GALSTAT_STATE = 2 then
    s.dch.gal.chans.zipIdx.foldl (fun s e => galStoreSeg s e.2 e.1) s
  else s

/-- Every segment holds R_s records (R285). -/
def galWhole (s : State) : Bool :=
  s.dch.gal.chans.all (fun c => (galOf s c).recs.length == galRecords (max 1 s.dch.gal.chans.length))

/-! ### States -/

/-- A change of the capture. -/
def modGal (s : State) (f : Gallery → Gallery) : State := { s with dch := { s.dch with gal := f s.dch.gal } }

/-- ARM (R285). -/
def galArm (s : State) : State :=
  let sel := galSel s
  let (free, s) := draw s
  let s := setF (setF s F.DCH_GALSTAT_STATE 1) F.DCH_GALSTAT_LEAVE 0
  galSync (modGal s (fun _ =>
    { armAt := now s, chans := sel, decs := sel.map (fun c => getF s (chF F.DCH_CHCFG_DEC_EXP c)), decim := getF s F.DCH_GALCFG_DECIM,
      pre := getF s F.DCH_GALCFG_PRE, trigAt := none, fullAt := none, halfAt := none, failed := false, tstep := false, noTrig := free }))

/-- A trigger at instant `t` (R285, R286). -/
def galTrigger (s : State) (t : Nat) : State :=
  if getF s F.DCH_GALSTAT_STATE ≠ 1 then inc s F.DCH_GALSTAT_LATETRIG
  else
    let s := setF (modGal s (fun g => { g with trigAt := some t })) F.DCH_GALSTAT_STATE 2
    galSync (
      if s.dch.gal.decim ≠ 0 then s
      else if mode s = .safehold then setF (modGal s (fun g => { g with halfAt := some t })) F.DCH_GALSTAT_LEAVE 3
      else if leaveCost s 6 0 = 0 then modGal s (fun g => { g with fullAt := some t })
      else setF (askLeave s 6 0xFFFF 0 false) F.DCH_GALSTAT_LEAVE 1)

/-- A capture ends: leave released, GALLERY packet (R285). -/
def galEnd (s : State) (failed aborted : Bool) : State :=
  let s := galSync (modGal s (fun g => { g with failed }))
  let s := withdrawLeave (releaseLeave (setF s F.DCH_GALSTAT_STATE 3) 6) 6
  let s := if failed then setFlag s F.DCH_GALSTAT_FAILED else s
  let s := if aborted then setFlag s F.DCH_GALSTAT_ABORTED else s
  measEvent s 7 (leBytes 0xFF 1 ++ leBytes (b2n failed + 2 * b2n aborted + 4 * b2n s.dch.gal.halfAt.isSome) 1
    ++ leBytes s.dch.gal.chans.length 1)

/-- The governor's answers to DCH (R286). -/
def galGranted (s : State) : State :=
  setF (galSync (modGal s (fun g => { g with fullAt := some (now s) }))) F.DCH_GALSTAT_LEAVE 2
def galRefused (s : State) : State :=
  setF (galSync (modGal s (fun g => { g with halfAt := some (now s) }))) F.DCH_GALSTAT_LEAVE 3
def galFailed (s : State) : State := leaveEvent (galEnd s true false) 6 1 0xFFFF

/-- What the converters have given is taken: the auxiliary converter's words first, for the temperatures; a capture follows. -/
def takeStreams (s : State) (w : Streams) : State := galSync (w.grid.foldl takeGrid (takeAux s w.aux))

end Sys2Proof.Machine
end

