-- ==== Sys2Proof/Machine/Detect.lean ====
section
/-! DEFINITION. Windows over output samples, their tags, and the detectors (R268–R272). -/

namespace Sys2Proof.Machine

/-! ### Windows -/

/-- The output instants of channel `c` from `lo` up to `hi` by the registers that `s` holds: on the lattice, or in the visits of its entry
(R247, R262). -/
def outsBy (s : State) (c lo hi : Nat) : List Nat :=
  let p := max 1 (chPeriod s c)
  let from_ (a b : Nat) : List Nat := (List.range (ceilDiv (b - a) p)).map (fun k => a + k * p)
  if c < 16 then from_ (lo + ((s.mfe.lattice - lo) % (p : Int)).toNat) hi
  else
    s.mfe.visits.reverse.flatMap (fun v =>
      if v.entry + 16 = c then
        from_ (firstAfter v.close (max lo (v.close + 1)) p) (min hi ((v.end_.getD (visitEnd s v.entry)) + 1))
      else [])

/-- The stretches of the time from `lo` up to `hi` in which the same registers were in force, each with its state; `past` oldest first. -/
def pieces (s : State) (hi : Nat) : Nat → List (Nat × List (Nat × Nat)) → List (Nat × Nat × State)
  | lo, [] => [(lo, hi, s)]
  | lo, p :: l =>
    if p.1 < lo then pieces s hi lo l
    else if hi ≤ lo then []
    else (lo, min hi (p.1 + 1), { s with regs := p.2 }) :: pieces s hi (p.1 + 1) l

/-- The output instants of channel `c` from `lo` up to `hi`, each by the rate in force at it. -/
def outsIn (s : State) (c lo hi : Nat) : List Nat :=
  (pieces s hi lo s.dch.past.reverse).flatMap (fun q => outsBy q.2.2 c q.1 q.2.1)

/-- A channel's settle time and output period at the instant `o`, and the longest since DCH powered on. -/
def settleFor (s : State) (c o : Nat) : Nat := chSettle (asOf s o) c
def longest (s : State) (f : State → Nat) : Nat := s.dch.past.foldl (fun m p => max m (f { s with regs := p.2 })) (f s)

/-- The samples of channel `c` output from `lo` up to `hi`, newest first. -/
def samplesIn (s : State) (c lo hi : Nat) : List Out := (chan s c).hist.filter (fun o => decide (lo ≤ o.at_) && decide (o.at_ < hi))

/-- The tag of a result over a window (R268): `tags` of the samples present, `n` expected. -/
def windowTag (tags : List Nat) (n : Nat) : Nat :=
  let v := (tags.filter (· == 0)).length
  let b := (tags.filter (· == 3)).length + (n - tags.length)
  if n < 4 * b || v == 0 then 3 else if tags.any (· == 2) then 2 else if tags.any (· == 1) then 1 else 0

/-- The VALID samples of a window. -/
def validOf (w : List Out) : List Out := w.filter (fun o => o.tag == 0)

/-- √(Σ x² / v) and Σ x / v of values in units of 2⁻¹⁴⁹ (R270). -/
def rmsOf (xs : List Int) : Nat := fRoot 1 ⟨(sumN (xs.map (fun x => x.natAbs ^ 2)) : Nat), xs.length * 2 ^ 298⟩
def meanOf (xs : List Int) : Nat := fNear 2 ⟨xs.foldl (· + ·) 0, xs.length * 2 ^ 149⟩

/-! ### Slots -/

def DetSlot.fresh (t : Nat) : DetSlot :=
  { val0 := 0, val1 := 0, tag := 0, valid := none, doneAt := t, edge := none, since := 0, env := 0, envWait := 0 }

def detSlot (s : State) (d : Nat) : DetSlot := assocGet (DetSlot.fresh s.dch.onAt) s.dch.dets d
def setDetSlot (s : State) (d : Nat) (x : DetSlot) : State :=
  { s with dch := { s.dch with dets := assocSet s.dch.dets d x } }

def detF (s : State) (f : Field) (d : Nat) : Nat := getF s (win f d)

/-- `v` lies beyond THR in the CMP sense of slot `d` (R272). -/
def beyond (s : State) (d v : Nat) : Bool :=
  match detF s F.DCH_DETCFG_CMP d with
  | 1 => fLt (detF s F.DCH_DETTHR_THR d) v
  | 2 => fLt v (detF s F.DCH_DETTHR_THR d)
  | _ => false

/-- DCH_DETSTAT.BEYOND: the last VALID result lies beyond THR (R289). -/
def detBeyond (s : State) (d : Nat) : Bool := (detSlot s d).valid.any (fun v => beyond s d v.1)

/-- A result of slot `d` (R272): stored, compared with the last VALID one, reported; `ts` is the timestamp of the sample that completes it. -/
def detDone (s : State) (d : Nat) (r : DetSlot) (ts : Nat) : State :=
  let old := detSlot s d
  let crossing := r.tag == 0 && beyond s d r.val0 && old.valid.any (fun v => !beyond s d v.1)
  let rep := detF s F.DCH_DETCFG_REPORT d
  let due := rep != 0 && rep ≤ old.since + 1
  let r := { r with valid := if r.tag = 0 then some (r.val0, r.val1) else old.valid, since := if due then 0 else old.since + 1 }
  let s := setDetSlot s d r
  let s := setF (setF s (win F.DCH_DETVAL0_VAL0 d) r.val0) (win F.DCH_DETSTAT_TAG d) r.tag
  let s := { s with lce := { s.lce with results := s.lce.results ++ [(d, r.val0, r.val1, r.tag)] } }
  let packet (s : State) (kind : Nat) : State :=
    measEvent s 1 (leBytes (detF s F.DCH_DETCFG_SRC d) 1 ++ leBytes d 1 ++ leBytes kind 1 ++ leBytes r.tag 1 ++ leBytes 0 1
      ++ leBytes r.val0 4 ++ leBytes r.val1 4 ++ leBytes ts 8)
  let s := if due then packet s 0 else s
  if crossing then
    let s := inc s (win F.DCH_DETSTAT_CROSSINGS d)
    let s := if detF s F.DCH_DETCFG_EVT d = 1 then packet s 1 else s
    if detF s F.DCH_DETCFG_TRIG d = 1 then galTrigger s ts else s
  else s

/-! ### Results (R270) -/

/-- One ENVELOPE sample (R269, R270). -/
def envStep (ea eb : Nat) (d : DetSlot) (x : Out) : DetSlot :=
  let a := fAbs x.val
  if x.tag = 0 then
    let k := if fLt d.env a then ea else eb
    let e := fNear 3 ⟨fUnits d.env * 2 ^ k + fUnits a - fUnits d.env, 2 ^ (149 + k)⟩
    { d with env := e, val0 := e, val1 := a, tag := if d.envWait = 0 then 0 else 1, envWait := d.envWait - 1 }
  else { d with val0 := d.env, val1 := a, tag := x.tag, envWait := 2 ^ eb }

/-- I + jQ of IQ, but for 2 / v: Σ x cos φ and Σ x sin φ, φ the phase accumulator at each timestamp (R249, R270); in units of 2⁻³⁴¹. -/
def iqSums (s : State) (c : Nat) (w : List Out) : Int × Int :=
  w.foldl (fun z o =>
    let t := turnCS ⟨phaseOf s (outStamp s c o), 2 ^ 32⟩
    (z.1 + fUnits o.val * t.1, z.2 + fUnits o.val * t.2)) (0, 0)

/-- IQ results are BLANKED: the sine is disabled, or its frequency is 0.4 of the output rate or more (R270). -/
def iqBlank (s : State) (c : Nat) : Bool :=
  !flag s F.MFE_EXC_SINE_EN || s.mfe.form == .withheld
    || 4 * 100 * Config.ticksPerSec ≤ 10 * getF s F.MFE_EXCFREQ_FREQ * chPeriod s c

/-- VAL0, VAL1 and tag of slot `d` over the samples `w`, newest first, of `n` expected (R268–R271): of no VALID sample the last VALID
result. -/
def detResult (s : State) (d : Nat) (w : List Out) (n : Nat) : Nat × Nat × Nat :=
  let ok := validOf w
  let vals := ok.map (·.val)
  let tag := windowTag (w.map (·.tag)) n
  let v : Nat × Nat :=
    if ok.isEmpty then (detSlot s d).valid.getD (0, 0)
    else
      match detF s F.DCH_DETCFG_TYPE d with
      | 1 =>
        let best (lt : Nat → Nat → Bool) : Nat := vals.tail.foldl (fun m x => if lt m x then x else m) (vals.headD 0)
        (best fLt, best (fun m x => fLt x m))
      | 2 => (rmsOf (vals.map fUnits), meanOf (vals.map fUnits))
      | _ =>
        let z := iqSums s (detF s F.DCH_DETCFG_SRC d) ok
        (fRoot 4 ⟨4 * (z.1 * z.1 + z.2 * z.2), ok.length ^ 2 * 2 ^ 682⟩, fAngle 5 (z.1, -z.2))
  let tag :=
    match detF s F.DCH_DETCFG_TYPE d with
    | 1 => tag
    | 2 => if detF s F.DCH_DETCFG_WIN d ≤ 3 && getF s F.TBU_STAT_STATE == 0 then max tag 1 else tag
    | _ => if iqBlank s (detF s F.DCH_DETCFG_SRC d) then 3 else tag
  (v.1, v.2, tag)

/-! ### The windows that are due (R270, R271) -/

/-- A window of a slot: output instants from `lo` up to `hi`, how many it should contain, the last of them, and, of one that follows D, its
end, 1/16 tick. -/
structure DetWin where
  lo : Nat
  hi : Nat
  n : Nat
  last : Nat
  edge : Option Nat
  /-- the bounds of its samples' timestamps, 1/16 tick -/
  stamps : Option (Nat × Nat)

/-- The timestamp of an output instant `o` of channel `c` lies from `x.1` up to `x.2`, 1/16 tick (R262). -/
def stamped (s : State) (c : Nat) (x : Nat × Nat) (o : Nat) : Bool :=
  let t := 16 * (o - settleFor s c o / 2)
  x.1 ≤ t && t < x.2

/-- The window of the samples of channel `c` whose timestamps lie from `a` up to `b`, 1/16 tick (R262, R271). -/
def stampWin (s : State) (c a b : Nat) (edge : Option Nat) : DetWin :=
  let hi := ceilDiv b 16 + longest s (chSettle · c) / 2
  let o := (outsIn s c (a / 16) hi).filter (stamped s c (a, b))
  { lo := o.headD hi, hi := o.getLastD hi + 1, n := o.length, last := o.getLastD hi, edge, stamps := some (a, b) }

/-- A window over consecutive output instants. -/
def runWin (o : List Nat) : Option DetWin :=
  match o with
  | [] => none
  | a :: _ => some { lo := a, hi := o.getLastD a + 1, n := o.length, last := o.getLastD a, edge := none, stamps := none }

/-- The period that windows follow: in SEARCH the nominal one (R271). -/
def winPer (s : State) : Nat := if getF s F.TBU_STAT_STATE = 0 then nominal16 s else per s

/-- Half-cycle boundaries D + kP/2 from about `a` to about `b`, ticks, in 1/16 tick. -/
def halfEdges (s : State) (a b : Nat) : List Nat :=
  let p := max 1 (winPer s)
  let k0 : Int := (16 * (a : Int) - dref s) * 2 / p - 2
  (List.range (32 * (b - a) / p + 6)).map (fun (k : Nat) => ((dref s : Int) + (k0 + k) * p / 2).toNat)

/-- IQ windows over output instants `o`, `t` ticks apart: NCYC whole cycles of the excitation, each from the first sample after the one
before (R270); the last one only where it is complete. -/
def iqWins (inc ncyc t : Nat) : Nat → List Nat → List (List Nat)
  | n + 1, a :: l =>
    let in_ (b : Nat) : Bool := (b - a) * inc < ncyc * 2 ^ 32 * 60
    let w := (a :: l).takeWhile in_
    let rest := (a :: l).dropWhile in_
    if rest.isEmpty && in_ (w.getLastD a + t) then [] else w :: iqWins inc ncyc t n rest
  | _, _ => []

/-- The windows of slot `d` that end after its last one and, by the instant of the sample that completes them, up to `till`, oldest first. -/
def dueWins (s : State) (d from_ till : Nat) : List DetWin :=
  let c := detF s F.DCH_DETCFG_SRC d
  let x := detSlot s d
  let next := outsIn s c (x.doneAt + 1) (till + 1)
  let half := longest s (chSettle · c) / 2
  let span (l : List (Nat × Nat)) : List DetWin := l.reverse.map (fun b => stampWin s c (16 * b.1) (16 * b.2) none)
  let w := detF s F.DCH_DETPARAM_W d
  let all : List DetWin :=
    match detF s F.DCH_DETCFG_TYPE d, detF s F.DCH_DETCFG_WIN d with
    | 1, _ =>
      (samplesIn s c (x.doneAt + 1) (till + 1)).reverse.map (fun o =>
        let lo := if c < 16 then ((outsIn s c (o.at_ - (w - 1) * longest s (chPeriod · c)) (o.at_ + 1)).reverse.take w).getLastD 0
          else (((samplesIn s c 0 (o.at_ + 1)).take w).getLast?.map (·.at_)).getD 0
        { lo, hi := o.at_ + 1, n := w, last := o.at_, edge := none, stamps := none })
    | 2, 2 => span s.dch.bases
    | 2, 3 => span s.dch.shorts
    | 2, 4 =>
      let k := 2 ^ detF s F.DCH_DETCFG_EXPA d
      (List.range (next.length / k)).filterMap (fun j => runWin ((next.drop (j * k)).take k))
    | 2, win =>
      let p := winPer s
      ((halfEdges s (from_ - half) till).filter (fun e => x.edge.all (fun b => b + p / 4 < e))).map (fun e =>
        stampWin s c (e - (if win = 0 then p / 2 else p)) e (some e))
    | _, _ =>
      let o := next.filter (fun t => decide (s.mfe.sineAt < t))
      (iqWins (max 1 (phaseInc s)) w (chPeriod s c) o.length o).filterMap runWin
  all.filter (fun v => decide (x.doneAt < v.last) && decide (from_ ≤ v.last) && decide (v.last ≤ till))

/-- A window of slot `d` is complete. -/
def detWindow (s : State) (d : Nat) (v : DetWin) : State :=
  let c := detF s F.DCH_DETCFG_SRC d
  let w := (samplesIn s c v.lo v.hi).filter (fun o => v.stamps.all (fun x => stamped s c x o.at_))
  let r := detResult s d w v.n
  let x := detSlot s d
  detDone s d { x with val0 := r.1, val1 := r.2.1, tag := r.2.2, doneAt := v.last, edge := v.edge.or x.edge }
    (v.last - settleFor s c v.last / 2)

/-- The results of slot `d` that complete from `from_` up to `till`: at each sample for PEAK and ENVELOPE, else at the end of each window
(R270). -/
def detRun (s : State) (d from_ till : Nat) : State :=
  let c := detF s F.DCH_DETCFG_SRC d
  match detF s F.DCH_DETCFG_TYPE d with
  | 0 => s
  | 3 =>
    (samplesIn s c (max from_ ((detSlot s d).doneAt + 1)) (till + 1)).reverse.foldl (fun s o =>
      detDone s d { envStep (detF s F.DCH_DETCFG_EXPA d) (detF s F.DCH_DETCFG_EXPB d) (detSlot s d) o with doneAt := o.at_ } (outStamp s c o)) s
  | _ => (dueWins s d from_ till).foldl (fun s v => detWindow s d v) s

/-- DETECTOR_RESULT: the words of the slot's grid channel and of the auxiliary converter from `from_` on, and the slot's results up to `till`.
DESIGN CHOICE: windows that were complete before `from_` and for which no command came are passed over (log entry 204). -/
def detectorResult (s : State) (d from_ : Nat) (words : List GridWord) (aux : List ConvWord) (till : Nat) : State :=
  let c := detF s F.DCH_DETCFG_SRC d
  let t := BitVec.ofNat 64 from_
  let grid : List GridRun := if h : c < 9 then [{ ch := ⟨c, h⟩, from_ := t, words }] else []
  detRun (advanceTo (takeStreams s { aux := { from_ := t, words := aux }, grid }) till) d from_ till

end Sys2Proof.Machine
end

