-- ==== Sys2Proof/Machine/Dsp.lean ====
section
/-! DEFINITION. Signal arithmetic of the line ports: the 2,048-point transform, tone energies, levels in dB, impedances and
crest-factor reduction (R97, R100, R118, R120, R130, R131).  Cosines are whole numbers of 2⁻⁶⁴, good to 2⁻⁴⁶; where the spec states
a real value and no rounding, either neighbour may result (log entries 6 and 132). -/

namespace Sys2Proof.Machine

/-! ### The circle -/

/-- `a`, `b` and the cosines that follow them in steps whose cosine is `c`: c(j+1) = 2 c(1) c(j) − c(j−1). -/
def cosRun (c : Int) : Nat → Int → Int → List Int
  | 0, _, _ => []
  | k + 1, a, b => a :: cosRun c k b (2 * c * b / 2 ^ 64 - a)

/-- 2⁶⁴ cos of the steps of a quarter circle, `q` steps whose cosine is `c`. -/
def cosQuarter (q : Nat) (c : Int) : List Int := cosRun c (q + 1) (2 ^ 64) c

/-- 2⁶⁴ cos of step `j`, from a quarter's table of `q` steps. -/
def cosAt (tab : List Int) (q j : Nat) : Int :=
  let i := j % (4 * q)
  if i ≤ q then nth 0 tab i
  else if i ≤ 2 * q then -nth 0 tab (2 * q - i)
  else if i ≤ 3 * q then -nth 0 tab (i - 2 * q)
  else nth 0 tab (4 * q - i)

/-- Cosines of π j / 1,024, the angles of the transform. -/
def waveTab : List Int := cosQuarter 512 18446657259819241109
/-- Cosines of 0.1° j. -/
def tenthTab : List Int := cosQuarter 900 18446715977718767728

def waveCos (j : Nat) : Int := cosAt waveTab 512 j
def waveSin (j : Nat) : Int := waveCos (j + 1536)

/-- Bin `b` of the transform of samples: 2⁶⁴ times its real and imaginary part. -/
def dft (x : List Int) (b : Nat) : Int × Int :=
  x.zipIdx.foldl (fun z e => (z.1 + e.1 * waveCos (b * e.2), z.2 - e.1 * waveSin (b * e.2))) (0, 0)

/-- Squared magnitude. -/
def normSq (z : Int × Int) : Nat := (z.1 * z.1 + z.2 * z.2).natAbs

/-- Sample values of a receive window (R92). -/
def windowVals (w : List RxSample) : List Int := w.map (fun x => x.x.toInt)

/-- Some sample of the window carries CLIP (R92). -/
def windowClips (w : List RxSample) : Bool := w.any (·.clip)

/-- Energies of the tone bins 12–523 of an FFT window, lane by lane: entry 4 k + t is E_t of lane `k` (R98, R120). -/
def toneEnergies (w : List RxSample) : List Nat :=
  let x := windowVals w
  (List.range 512).map (fun i => normSq (dft x (12 + i)))

/-- E_t of lane `k`. -/
def energy (e : List Nat) (k t : Nat) : Nat := nth 0 e (4 * k + t)

/-- Total energy of a lane's four bins. -/
def laneEnergy (e : List Nat) (k : Nat) : Nat := sumN ((List.range 4).map (energy e k))

/-- The strongest tone of a lane; of equal ones the lowest (log entry 133). -/
def strongest (e : List Nat) (k : Nat) : Nat :=
  (List.range 4).foldl (fun b t => if energy e k b < energy e k t then t else b) 0

/-! ### Levels -/

/-- The square root of a quotient that the spec does not round: exact, or either neighbour (log entry 6). -/
def rootQuot (what num den : Nat) : Nat :=
  let r := Nat.sqrt (num / den)
  if r * r * den = num then r else r + b2n (Config.roundsUp what num den)

/-- The level of a mean bin energy in steps of 1/`per_` dB above 1 µV RMS, referred to a receive gain of 0 dB (R92, R131): the energy is
`num` / `den` of the squared magnitude of a 2,048-point bin in ADC codes, taken at gain code `g`. One code is 2 V / 65,536. -/
def dbLevel (what per_ g num den : Nat) : Nat :=
  let p : Nat := 2 * num * 15625 ^ 2
  let q : Nat := den * 2 ^ 128 * 2 ^ 22 * 2 ^ 18
  let m : Nat := 10 * per_
  let low (n : Nat) : Bool := 10 ^ (n + 3 * per_ * g) * q ^ m ≤ p ^ m * 10 ^ (6 * per_)
  let n : Nat := ((List.range 1023).filter (fun k => low (k + 1))).length
  if (10 : Nat) ^ (n + 3 * per_ * g) * q ^ m = p ^ m * 10 ^ (6 * per_) then n else n + b2n (low 0 && Config.roundsUp what num den)

/-- The angle of a vector in 0.1°, −1,800 to 1,800: exact, or either neighbour (log entry 6). -/
def tenths (what : Nat) (z : Int × Int) : Int :=
  let c (k : Nat) : Int := cosAt tenthTab 900 k
  -- ahead of step k: the cross product with its direction is not negative
  let ahead (k : Nat) : Bool := 0 ≤ c k * z.2 - c (k + 2700) * z.1
  match (List.range 3600).find? (fun k => ahead k && !ahead (k + 1)) with
  | some k =>
    let exact := c k * z.2 - c (k + 2700) * z.1 == 0
    let n : Int := if exact then k else k + b2n (Config.roundsUp what z.1 z.2.natAbs)
    if 1800 < n then n - 3600 else n
  | none => 0

/-- An impedance by R130 from the receive voltage `v`, in ADC codes at the forced gain of −6 dB, and the current `i`, in 0.1 µA, both
transformed alike over `len` samples: ZMAG and ZPH, or none below 2 mA peak. -/
def impedance (zscale zrot len : Nat) (v i : Int × Int) : Option (Nat × Int) :=
  if normSq i * 4 < (20000 * len * 2 ^ 64) ^ 2 then none
  else
    -- one code is 15,625 / 512 µV at 0 dB; 10^0.6 corrects the squared gain; 10 mΩ units
    let num := 1000000 * zscale ^ 2 * normSq v * 15625 ^ 2 * 3981071705534972507702523
    let den := 4096 ^ 2 * normSq i * 512 ^ 2 * 10 ^ 24
    let w := (v.1 * i.1 + v.2 * i.2, v.2 * i.1 - v.1 * i.2)
    let a := tenths 47 w + signed zrot 12
    some (min (rootQuot 46 num den) 0xFFFE, if 1800 < a then a - 3600 else if a < -1800 then a + 3600 else a)

/-- An impedance of R130 before any rounding, ZSCALE V / I turned by ZROT: a vector and the divisor of its parts, of which `impedance` gives
magnitude and angle. -/
structure ZExact where
  re : Int
  im : Int
  den : Nat
  deriving DecidableEq, Repr

/-- V times the conjugate of I, scaled by ZSCALE and turned by ZROT, over the squared magnitude of I (R130). -/
def zExact (zscale zrot : Nat) (v i : Int × Int) : ZExact :=
  let w := (v.1 * i.1 + v.2 * i.2, v.2 * i.1 - v.1 * i.2)
  let j := (signed zrot 12 % 3600).toNat
  let c := cosAt tenthTab 900 j
  let t := cosAt tenthTab 900 (j + 2700)
  { re := zscale * (w.1 * c - w.2 * t), im := zscale * (w.1 * t + w.2 * c), den := normSq i }

/-- The product of the divisors. -/
def zDen (zs : List ZExact) : Nat := zs.foldl (fun d z => d * z.den) 1

/-- The sum of complex impedances, over the product of their divisors. -/
def zSum (zs : List ZExact) : Int × Int :=
  zs.foldl (fun t z => (t.1 + z.re * (zDen zs / z.den : Nat), t.2 + z.im * (zDen zs / z.den : Nat))) ((0 : Int), (0 : Int))

/-- The mean of complex impedances as ZMAG, 0xFFFE at most, and ZPH: exact, or either neighbour of each (R148, log entry 6). -/
def meanZ (zs : List ZExact) : Nat × Int :=
  (min 0xFFFE (rootQuot 60 (1000000 * normSq (zSum zs) * 15625 ^ 2 * 3981071705534972507702523)
      (zs.length ^ 2 * zDen zs ^ 2 * 2 ^ 128 * 4096 ^ 2 * 512 ^ 2 * 10 ^ 24)),
   tenths 61 (zSum zs))

/-! ### A symbol's samples (R97, R100, R118) -/

/-- LPHY's full scale: its samples are whole numbers of 2⁻³⁰ of the DAC's peak at the level in force (R88, log entry 132). -/
def fullScale : Nat := 2 ^ 30

/-- The starting phase of lane `k`'s tones, π × (k² mod 256) / 128, in steps of π / 1,024 (R100). -/
def lanePhase (k : Nat) : Nat := 8 * (k * k % 256)

/-- The amplitude of a tone, FS / (10^(9/20) × √(L_P / 2)), for a full scale `fs` (R100). -/
def toneAmp (fs lp : Nat) : Nat := rootQuot 45 (2 * fs ^ 2 * 10 ^ 24) (7943282347242815020659183 * lp)

/-- The bin of tone `t` of lane `k` (R98). -/
def toneBin (k t : Nat) : Nat := 12 + 4 * k + t

/-- The 2,048-point inverse transform of a symbol's tones, a list of lane and tone (R97, R98, R100). -/
def inverseFft (lp : Nat) (tones : List (Nat × Nat)) : List Int :=
  (List.range 2048).map (fun n =>
    quot 42 (tones.foldl (fun x e => x + toneAmp fullScale lp * waveCos (toneBin e.1 e.2 * n + lanePhase e.1)) 0) (2 ^ 64))

/-- Hard clip to ±FS. -/
def clipFs (x : List Int) : List Int := x.map (clampI (-(fullScale : Int)) fullScale)

/-- One pass of clip and filter: of the clipped samples only the sent tones' bins remain (R118). -/
def cfrPass (tones : List (Nat × Nat)) (x : List Int) : List Int :=
  let y := clipFs x
  let bins := tones.map (fun e => (toneBin e.1 e.2, dft y (toneBin e.1 e.2)))
  (List.range 2048).map (fun n =>
    quot 43 (bins.foldl (fun v e => v + e.2.1 * waveCos (e.1 * n) - e.2.2 * waveSin (e.1 * n)) 0) (2 ^ 128 * 1024))

/-- `k` passes. -/
def cfrPasses (tones : List (Nat × Nat)) : Nat → List Int → List Int
  | 0, x => x
  | k + 1, x => cfrPasses tones k (cfrPass tones x)

/-- A symbol's samples before the final clip (R118, steps 1 and 2). -/
def symbolBody (iter lp : Nat) (tones : List (Nat × Nat)) : List Int := cfrPasses tones iter (inverseFft lp tones)

/-- The final clip acts on the symbol (R118). -/
def finalClipActs (iter lp : Nat) (tones : List (Nat × Nat)) : Bool :=
  (symbolBody iter lp tones).any (fun v => decide (fullScale < v.natAbs))

/-- The 2,304 samples of a symbol: the last 256 first, as a cyclic guard (R97, R118). -/
def symbolSamples (iter lp : Nat) (tones : List (Nat × Nat)) : List Int :=
  let x := clipFs (symbolBody iter lp tones)
  x.drop 1792 ++ x

end Sys2Proof.Machine
end

