-- ==== Sys2Proof/Machine/Power.lean ====
section
/-! DEFINITION. What DCH draws from the PQ tap and the supraharmonic tap: phasors, power quality, events and aggregation (R273–R283). -/

namespace Sys2Proof.Machine

/-! ### The PQ tap (R273) -/

/-- The timestamp of a tap sample: its output instant less S / 2 (R262). -/
def tapStamp (o : Out) : Nat := o.at_ - tapSettle / 2

/-- The output instants of a tap, or of any decimation by `p` ticks, from `lo` up to `hi`. -/
def latticeIn (s : State) (p lo hi : Nat) : List Nat :=
  let a := lo + ((s.mfe.lattice - lo) % (p : Int)).toNat
  (List.range (ceilDiv (hi - a) p)).map (fun k => a + k * p)

/-- The tap samples whose timestamps lie from `a` up to `b`, 1/16 tick, newest first, and how many there should be. -/
def tapWindow (s : State) (c a b : Nat) : List Out × Nat :=
  let lo := ceilDiv a 16 + tapSettle / 2
  let hi := ceilDiv b 16 + tapSettle / 2
  ((tap s c).hist.filter (fun o => decide (lo ≤ o.at_) && decide (o.at_ < hi)), (latticeIn s tapPeriod lo hi).length)

/-- The tag of such a window (R268). -/
def tapTag (w : List Out × Nat) : Nat := windowTag (w.1.map (·.tag)) w.2

/-! ### Phasors (R274, R275) -/

/-- Phasor frames per second. -/
def phRate (s : State) : Nat :=
  match getF s F.DCH_PHCFG_RATE with
  | 0 => 10
  | 1 => if is60 s then 30 else 25
  | _ => if is60 s then 60 else 50

/-- The nominal frequency, Hz. -/
def nomHz (s : State) : Nat := if is60 s then 60 else 50

/-- The tracked frequency in mHz (TBU_FREQ): 122,880,000 × 16 / P Hz, rounded by an open rule; 0 before the first lock. -/
def freqMilli (s : State) : Nat :=
  let p := getF s F.TBU_MCPERIOD_PERIOD
  if p = 0 then 0 else (quot 9 (16 * Config.ticksPerSec * 1000) p).toNat % 2 ^ 17

/-- The sum of w x e^(−jφ) over tap samples, and Σ w: w a Hann window of P on either side of `tr`, φ the angle ω_c (τ − t_r) + ω_n (t_r − t_s);
2¹⁹³ and 2⁵³⁴ times each (R274). -/
def phasorSum (s : State) (tr : Nat) (w : List Out) : (Int × Int) × Int :=
  let fc := ((s.dch.phGood.map fFrac32).getD ⟨freqMilli s, 1000⟩)
  let ref : Frac := ⟨nomHz s * (tr % Config.ticksPerSec), Config.ticksPerSec⟩
  w.foldl (fun z o =>
    let d : Int := (tapStamp o : Int) - tr
    let hann := 2 ^ 192 + (turnCS ⟨16 * d, 2 * max 1 (per s)⟩).1
    let t := turnCS ((fc.mul ⟨d, Config.ticksPerSec⟩).add ref).neg
    ((z.1.1 + hann * fUnits o.val * t.1, z.1.2 + hann * fUnits o.val * t.2), z.2 + hann)) ((0, 0), 0)

/-- The estimate of R274 for channel `c` at report instant `tr`, P on either side: magnitude, angle and tag; with no VALID sample the last
VALID phasor (R268). -/
def phasorAt (s : State) (c tr : Nat) : Nat × Nat × Nat :=
  let w := tapWindow s c (16 * tr - per s) (16 * tr + per s + 1)
  let ok := validOf w.1
  let z := phasorSum s tr ok
  let v := if ok.isEmpty then (tap s c).phasor
    else (fRoot 14 ⟨2 * (z.1.1 * z.1.1 + z.1.2 * z.1.2), max 1 (z.2.natAbs ^ 2) * 2 ^ 682⟩, fAngle 15 z.1)
  (v.1, v.2, tapTag w)

/-- A VALID phasor is kept (R268). -/
def keepPhasor (s : State) (c : Nat) (e : Nat × Nat × Nat) : State :=
  if e.2.2 = 0 then setTap s c { tap s c with phasor := (e.1, e.2.1) } else s

/-- f_nom + Δθ × RATE / 360, Δθ from angle `a` to angle `b` wrapped to ±180° (R275). -/
def freqOf (s : State) (a b : Nat) : Nat :=
  let d := (fFrac32 b).sub (fFrac32 a)
  let turns := (d.num + 180 * d.den) / (360 * d.den : Nat)
  let d := d.sub ⟨360 * turns, 1⟩
  fNear 11 ((Frac.ofInt (nomHz s)).add ⟨d.num * phRate s, d.den * 360⟩)

/-- The next report instant not yet produced: after the last one, after the last step of mesh time, and no earlier than its frame may still
be committed (R274, R275, R282). -/
def nextReport (s : State) : Nat :=
  let step := Config.ticksPerSec / phRate s
  let done := max s.dch.phAt ((s.dch.steps.headD 0))
  step * max (done / step + 1) (ceilDiv (now s - per s / 16 - Config.ticksPerMs) step)

/-- Frequency and its tag of the report whose reference phasor is `ref`: the TBU's, SETTLING, in the first one (R275). -/
def phasorFreq (s : State) (ref : Nat × Nat × Nat) : Nat × Nat :=
  match s.dch.phPrev with
  | some (a, t) => (freqOf s a ref.2.1, max ref.2.2 t)
  | none => (fNear 10 ⟨freqMilli s, 1000⟩, 1)

/-- The tag of the phasor before, SETTLING where there is none. -/
def phTagBefore (s : State) : Nat := (s.dch.phPrev.map Prod.snd).getD 1

/-- ROCOF and its tag: zero, SETTLING, in the first report (R275). -/
def phasorRocof (s : State) (f tag : Nat) : Nat × Nat :=
  match s.dch.phFreq with
  | some (g, _) =>
    let d := (fFrac32 f).sub (fFrac32 g)
    (fNear 12 ⟨d.num * phRate s, d.den⟩, max (max tag (phTagBefore s)) s.dch.phTag2)
  | none => (0, 1)

/-- Flags of the report at `tr`: a step of mesh time in its window, HOLDOVER, SEARCH (R283). -/
def phasorFlags (s : State) (tr : Nat) : Nat :=
  b2n (s.dch.steps.any (fun t => 16 * tr ≤ 16 * t + per s && 16 * t ≤ 16 * tr + per s)) + 2 * b2n (getF s F.TBU_STAT_STATE == 2)
    + 4 * b2n (getF s F.TBU_STAT_STATE == 0)

/-- Body of the packet of the report at `tr` (R283). -/
def phasorBody (s : State) (tr : Nat) (f ro : Nat × Nat) (ests : List (Nat × Nat × Nat)) : Bytes :=
  leBytes 0xFF 1 ++ leBytes (getF s F.DCH_PHCFG_RATE) 1 ++ leBytes (phasorFlags s tr) 1 ++ leBytes (getF s F.DCH_PHCFG_PHMASK) 2
    ++ leBytes tr 8 ++ leBytes f.1 4 ++ leBytes ro.1 4 ++ leBytes (f.2 + 4 * ro.2) 1 ++ leBytes 0 1
    ++ ests.flatMap (fun e => leBytes e.1 4 ++ leBytes e.2.1 4 ++ leBytes e.2.2 1 ++ leBytes 0 3)

/-- The report at `tr`: the channels of PHMASK, ascending, and PHREF for the frequency (R274, R275, R283). -/
def phasorSend (s : State) (tr : Nat) : State :=
  let chans := setBits (getF s F.DCH_PHCFG_PHMASK) 9
  let ests := chans.map (fun c => phasorAt s c tr)
  let phref := getF s F.DCH_PHCFG_PHREF
  let ref := phasorAt s phref tr
  let f := phasorFreq s ref
  let s1 := measEvent s 2 (phasorBody s tr f (phasorRocof s f.1 ref.2.2) ests)
  let s1 := ((phref, ref) :: chans.zip ests).foldl (fun s e => keepPhasor s e.1 e.2) s1
  { s1 with dch := { s1.dch with phAt := tr, phTag2 := phTagBefore s, phPrev := some ref.2, phFreq := some f,
                                 phGood := if f.2 = 0 then some f.1 else s1.dch.phGood } }

/-- PHASOR_REPORT: the next report, once P after its instant has passed (R274, R275, R282). -/
def phasorReport (s : State) : State :=
  if getF s F.DCH_PHCFG_PHMASK = 0 then s
  else phasorSend (advanceTo s (nextReport s + per s / 16)) (nextReport s)

/-- A change of the phasor engine's configuration starts it anew, from the next report instant on (R275). -/
def phasorStart (s : State) : State :=
  { s with dch := { s.dch with phPrev := none, phFreq := none, phTag2 := 1, phAt := max s.dch.phAt (now s) } }

/-! ### Intervals (R276, R281) -/

/-- AGGOFS in ticks. -/
def aggTicks (s : State) : Int := roundDiv (signed (getF s F.DCH_AGG_AGGOFS) 24 * 12288) 100

/-- Cycles of a base interval (R276). -/
def baseCycles (s : State) : Nat := if is60 s then 12 else 10

/-- A crossing of the cycles that the base intervals follow: D, shifted by AGGOFS, 1/16 tick. -/
def aggAnchor (s : State) : Int := dref s + 16 * aggTicks s

/-- The first cycle boundary at or after `t`, ticks. -/
def cycleAfter (s : State) (t : Int) : Nat :=
  (16 * t + (aggAnchor s - 16 * t) % (max 1 (per s) : Nat)).toNat / 16

/-- The instant of 10-minute tick `k` (R276). -/
def tickTime (s : State) (k : Nat) : Int := (k : Int) * (600 * Config.ticksPerSec) + aggTicks s

/-- The end of the base interval in progress: the boundary nearest to 10 or 12 cycles from its start (R276, R281). -/
def baseStop (s : State) : Nat :=
  nearest (aggAnchor s).toNat (16 * s.dch.baseAt + baseCycles s * per s) (per s) / 16

/-- The start of the next: where this one ends, or the first boundary at or after a tick that falls in it (R276). -/
def baseNext (s : State) : Nat := if s.dch.tickOpen then cycleAfter s (tickTime s s.dch.tickNo + s.dch.tickMoved) else baseStop s

/-- DCH powers on: the first base interval begins with the next cycle, and nothing is owed for the time before (R276, R287). -/
def dchOn (s : State) : State :=
  let b := cycleAfter s (now s)
  let k := (((now s : Int) - aggTicks s) / (600 * Config.ticksPerSec)).toNat
  { s with dch := { s.dch with onAt := now s, phAt := now s, baseAt := b, tickNo := k, tickOpen := false, tickMoved := 0,
                               spans := { shortAt := b, shortN := 0, tenAt := b, tenN := 0, twoAt := b, twoN := 0 } } }

/-- MFE's and DCH's share of a mode change (R256, R287). -/
def measMode (wasOn : Bool) (s : State) : State :=
  let s := mfeMode wasOn s
  if mfeOn s && !wasOn then dchOn s else s

/-- A SYNC_IN edge at a non-root node (R281): its time less the nearest start of a base interval, of this one or the next. -/
def aggMove (s : State) (ts : Nat) : State :=
  let far (a : Nat) : Nat := ((ts : Int) - a).natAbs
  let e := if far (baseNext s) < far s.dch.baseAt then baseNext s else s.dch.baseAt
  let us := clampI (-2000) 2000 (quot 10 (((ts : Int) - e) * 100) 12288)
  let s := setF s F.DCH_AGG_AGGOFS (code (signed (getF s F.DCH_AGG_AGGOFS) 24 + us) 24)
  { inc s F.DCH_AGG_MOVES with dch := { s.dch with moves := ts :: s.dch.moves } }

/-- TEN_MINUTE_TICK (R276, R282): the next tick not yet produced, after the last step of mesh time. -/
def tenMinute (s : State) : State :=
  let unit : Int := 600 * Config.ticksPerSec
  let after := match s.dch.steps with
    | [] => 0
    | t :: _ => (((t : Int) - aggTicks s) / unit + 1).toNat
  let k := max (s.dch.tickNo + 1) after
  let s := advanceTo s (tickTime s k).toNat
  { s with dch := { s.dch with tickNo := k, tickOpen := true, tickMoved := 0 } }

/-! ### Power quality (R277) -/

/-- Tags of values packed two bits each, into `n` bytes (R283). -/
def packTags (tags : List Nat) (n : Nat) : Bytes := leBytes (tags.foldr (fun t acc => t + 4 * acc) 0) n

/-- 2³⁴¹ times the sum of x e^(−j 2π i k / n) over values x_k in units of 2⁻¹⁴⁹; squared. -/
def binSq (x : List Int) (n i : Nat) : Nat :=
  normSq (x.zipIdx.foldl (fun z e =>
    let t := turnCS ⟨-((i * e.2 : Nat) : Int), n⟩
    (z.1 + e.1 * t.1, z.2 + e.1 * t.2)) (0, 0))

/-- The tap resampled to 256 points per tracked cycle over the interval from `a`, `len` long, 1/16 tick: R277 states no resampler, so that each
point is a free value of the VALID samples (log entry 205). -/
def resampled (nc a len : Nat) (w : List Out) : List Int :=
  let args := [nc, len] ++ w.flatMap (fun o => [o.val, code (16 * (tapStamp o : Int) - a) 64])
  (List.range (256 * nc)).map (fun k => fUnits (Config.real 24 (k :: args)))

/-- RMS, G_1–G_50, C_1–C_49 and THDG of the VALID tap samples `w` (R277); Y_i is the RMS magnitude of bin i, √2 / N of the DFT's
(log entry 205). And whether G_1 lies below 10⁻⁴ of full scale. -/
def pqFormulas (nc a len : Nat) (w : List Out) : List Nat × Bool :=
  let n := 256 * nc
  let d := n ^ 2 * 2 ^ 682
  let y := resampled nc a len w
  let b (i : Nat) : Nat := binSq y n i
  let g2 (k : Nat) : Nat :=
    b (nc * k - nc / 2) + 2 * sumN ((List.range (nc - 1)).map (fun i => b (nc * k - nc / 2 + 1 + i))) + b (nc * k + nc / 2)
  let c2 (k : Nat) : Nat := 2 * sumN ((List.range (nc - 3)).map (fun i => b (nc * k + 2 + i)))
  let low := decide (10 ^ 8 * g2 1 < d)
  (rmsOf (w.map (fun o => fUnits o.val)) :: (List.range 50).map (fun k => fRoot 21 ⟨g2 (k + 1), d⟩)
    ++ (List.range 49).map (fun k => fRoot 22 ⟨c2 (k + 1), d⟩)
    ++ [if low then 0 else fRoot 23 ⟨sumN ((List.range 49).map (fun k => g2 (k + 2))), g2 1⟩], low)

/-- The power-quality values of channel `c` over the tap samples from `a` up to `b`, ticks (R277): of the VALID samples, or the last VALID
values. -/
def pqValues (s : State) (c a b : Nat) (last : List Nat) : List (Nat × Nat) :=
  let w := tapWindow s c (16 * a) (16 * b)
  let ok := validOf w.1
  let tag := tapTag w
  let f := pqFormulas (baseCycles s) (16 * a) (16 * (b - a)) ok.reverse
  (List.range 101).map (fun i =>
    if ok.isEmpty then (nth 0 last i, tag) else (nth 0 f.1 i, if i = 100 ∧ f.2 then 3 else tag))

/-- A base interval or a longer one from `a` up to `b` contains a move of AGGOFS; a step of mesh time (R281, R282). -/
def movedIn (s : State) (a b : Nat) : Bool := s.dch.moves.any (fun t => a ≤ t && t < b)
def steppedIn (s : State) (a b : Nat) : Bool := s.dch.steps.any (fun t => a ≤ t && t ≤ b)

/-- FLAGS of a PQ or SUPRA packet (R283). -/
def pqFlags (s : State) (flagged adjust tstep : Bool) : Nat :=
  b2n flagged + 2 * b2n adjust + 4 * b2n tstep + 8 * b2n (getF s F.TBU_STAT_STATE == 2)

/-- Send the PQ packet of an interval where REPLVL asks for it (R283). -/
def pqPacket (s : State) (c level start : Nat) (p : PqVals) : State :=
  if bit (getF s F.DCH_PQCFG_REPLVL) level then
    measEvent s 3 (leBytes c 1 ++ leBytes level 1 ++ leBytes (pqFlags s p.flagged p.adjust p.tstep) 1
      ++ leBytes start 8 ++ packTags (p.vals.map (·.2)) 26 ++ p.vals.flatMap (fun x => leBytes x.1 4))
  else s

/-- The aggregate of constituents, of which there should be `n` (R276): each value the root of the mean of the squares of the VALID ones. -/
def aggregate (last : List Nat) (ps : List PqVals) (n : Nat) : PqVals :=
  { vals := (List.range 101).map (fun i =>
      let xs := ps.map (fun p => nth (0, 3) p.vals i)
      let ok := (xs.filter (fun x => x.2 == 0)).map (fun x => fUnits x.1)
      (if ok.isEmpty then nth 0 last i else rmsOf ok, windowTag (xs.map (·.2)) n)),
    flagged := ps.any (·.flagged), adjust := ps.any (·.adjust), tstep := ps.any (·.tstep) }

/-- The last VALID values of a level after interval `p`. -/
def keepValid (last : List Nat) (p : PqVals) : List Nat :=
  (List.range 101).map (fun i => let x := nth (0, 3) p.vals i; if x.2 = 0 then x.1 else nth 0 last i)

def Agg.fresh : Agg := { short := [], ten := [], two := [], lastValid := [[], [], [], []] }
def agg (s : State) (c : Nat) : Agg := assocGet Agg.fresh s.dch.aggs c
def setAgg (s : State) (c : Nat) (a : Agg) : State := { s with dch := { s.dch with aggs := assocSet s.dch.aggs c a } }

/-- An interval of level `k` + 1 of channel `c` ends: its packet, and its last VALID values. -/
def aggDone (s : State) (c k start : Nat) (q : PqVals) : State :=
  let a := agg s c
  pqPacket (setAgg s c { a with lastValid := a.lastValid.set k (keepValid (nth [] a.lastValid k) q) }) c (k + 1) start q

/-- The base interval of channel `c` from `start` up to `stop` ends, and of the longer intervals those that `e15`, `e10m` and `e2h` say; `x`
counts what they should hold (R276, R277). -/
def baseDone (s : State) (c start stop : Nat) (x : Spans) (e15 e10m e2h : Bool) : State :=
  let a := agg s c
  let last := nth [] a.lastValid 3
  let p : PqVals := { vals := pqValues s c start stop last, flagged := s.dch.flagged, adjust := movedIn s start stop, tstep := steppedIn s start stop }
  let s := setAgg s c { a with short := a.short ++ [p], ten := a.ten ++ [p], lastValid := a.lastValid.set 3 (keepValid last p) }
  let s := pqPacket s c 0 start p
  let s := if e15 then aggDone s c 0 x.shortAt (aggregate (nth [] (agg s c).lastValid 0) (agg s c).short x.shortN) else s
  let s :=
    if e10m then
      let q := aggregate (nth [] (agg s c).lastValid 1) (agg s c).ten x.tenN
      aggDone (setAgg s c { agg s c with two := (agg s c).two ++ [q] }) c 1 x.tenAt q
    else s
  if e2h then aggDone s c 2 x.twoAt (aggregate (nth [] (agg s c).lastValid 2) (agg s c).two x.twoN) else s

/-- What the intervals that have ended held goes, for every channel. -/
def aggClear (s : State) (e15 e10m e2h : Bool) : State :=
  { s with dch := { s.dch with aggs := s.dch.aggs.map (fun e =>
      (e.1, { e.2 with short := if e15 then [] else e.2.short, ten := if e10m then [] else e.2.ten, two := if e2h then [] else e.2.two })) } }

/-! ### Supraharmonics (R279) -/

/-- The window of the phase slot that begins at `slot`: the output instants of its 512 tap samples, 240 ticks apart. -/
def supraOuts (s : State) (slot : Nat) : List Nat :=
  let a := slot + Config.supraDelay
  let a := a + ((s.mfe.lattice - a) % 240).toNat
  (List.range 512).map (fun k => a + 240 * k)

/-- The bounds of R279 on the tap's response, at every whole kHz: ±0.5 dB from 2 to 150, 40 dB from 368, below which no filter that follows the
CIC keeps both (log entry 195). -/
def compOk (h : List Int) : Bool :=
  let g (k : Nat) : Nat := gainSq (List.replicate 8 1) 4096 k ^ 5 * gainSq h 512 k
  let one := (64 * 2 ^ 384) ^ 5 * 2 ^ 414
  (List.range 149).all (fun k => withinDb 20 (g (k + 2)) one) && (List.range 1681).all (fun k => 10 ^ 4 * g (k + 368) ≤ one)

/-- The coefficients of the compensation filter (R279): free within the bounds, else a filter that keeps them (log entry 195). -/
def compTaps : List Int :=
  if compOk Config.compFilterTaps then Config.compFilterTaps else [-902, 5535, -21339, 66135, -21339, 5535, -902]

/-- The tap of channel `c` at `o`, from the low path, as a fraction of full scale (R279). -/
def supraTap (s : State) (c o : Nat) : Frac :=
  let m := modOf c false
  ⟨(compTaps.zip (cicOuts s m 30 8 o (max 1 compTaps.length))).foldl (fun a e => a + e.1 * e.2) 0, 2 ^ 30 * (Config.wordScale m + 1)⟩

/-- A sample of the tap at `o`: its value after the channel's linearisation (R283), and its tag, with what a linearised result carries (R267,
R279; DEDUCED, log entry 195); none where no word came. -/
def supraSample (s : State) (c o : Nat) : Option (Nat × Nat) :=
  let m := modOf c false
  if (rawOf s m).any (fun r => r.at_ == o) then
    let y := tagSample (asOf s o) c o (fNear 29 (supraTap s c o)) (ovlIn s m (o - 240) o) (o ≤ settleAt (chan s c).settle o)
    some (y.val, y.tag)
  else none

/-- Bands 2–150 and the tag of the window of a phase slot (R279): of the VALID samples (R268), BLANKED where own transmission overlaps it. -/
def supraBands (s : State) (c slot : Nat) : List Nat × Nat :=
  let o := supraOuts s slot
  let x := o.map (supraSample s c)
  let got := x.filterMap id
  let ok := (x.zipIdx.filterMap (fun e => e.1.bind (fun y => if y.2 = 0 then some (y.1, e.2) else none)))
  let band (b : Nat) : Nat :=
    let z := ok.foldl (fun (z : Int × Int) e =>
      let t := turnCS ⟨-((b * e.2 : Nat) : Int), 512⟩
      (z.1 + fUnits e.1 * t.1, z.2 + fUnits e.1 * t.2)) (0, 0)
    fRoot 30 ⟨(2 * normSq z : Nat), ok.length ^ 2 * 2 ^ 682⟩
  let from_ := o.headD 0 - Config.supraDelay
  let blank := gateIn s c from_ (o.getLastD 0 - Config.supraDelay)
  ((List.range 149).map (fun b => if ok.isEmpty then 0 else band (b + 2)), if blank then 3 else windowTag (got.map (·.2)) 512)

/-- The windows of channel `c` that complete with words from `from_` on, oldest first (R279). -/
def supraRun (s : State) (c from_ : Nat) : State :=
  if bit (getF s F.DCH_PQCFG_SUPMASK) c then
    s.dch.gates.reverse.foldl (fun s g =>
      let last := (supraOuts s g.1).getLastD 0
      if assocGet 0 s.dch.supraAt c < g.1 && from_ ≤ last && (rawOf s (modOf c false)).head?.any (last ≤ ·.at_) then
        { s with dch := { s.dch with supra := assocSet s.dch.supra c (assocGet [] s.dch.supra c ++ [(g.1, supraBands s c g.1)])
                                     supraAt := assocSet s.dch.supraAt c g.1 } }
      else s) s
  else s

/-- The SUPRA packet of channel `c` over the base interval from `start` up to `stop` (R279): band by band the RMS over the VALID ones of the
windows of its phase slots, or the last VALID value.  Windows from the start `next` of the interval that follows stay for it (R276). -/
def supraDone (s : State) (c start stop next : Nat) : State :=
  let held := assocGet [] s.dch.supra c
  let ws := (held.filter (fun w => start ≤ w.1 && w.1 < stop)).map (·.2)
  let last := assocGet [] s.dch.supraLast c
  let tag := windowTag (ws.map (·.2)) (s.dch.gates.filter (fun g => start ≤ g.1 && g.1 < stop)).length
  let ok := (ws.filter (fun w => w.2 == 0)).map (·.1)
  let vals := (List.range 149).map (fun b => if ok.isEmpty then nth 0 last b else rmsOf (ok.map (fun w => fUnits (nth 0 w b))))
  let s := measEvent s 5 (leBytes c 1 ++ leBytes (pqFlags s s.dch.flagged (movedIn s start stop) (steppedIn s start stop)) 1
    ++ packTags (List.replicate 149 tag) 38 ++ leBytes start 8 ++ vals.flatMap (fun v => leBytes v 4))
  { s with dch := { s.dch with supra := assocSet s.dch.supra c (held.filter (fun w => next ≤ w.1))
                               supraLast := if tag = 0 then assocSet s.dch.supraLast c vals else s.dch.supraLast } }

/-- BASE_INTERVAL_END (R276, R277, R279). -/
def baseInterval (s : State) : State :=
  let start := s.dch.baseAt
  let stop := baseStop s
  let s := advanceTo s stop
  let e10m := s.dch.tickOpen
  let e2h := e10m && s.dch.tickNo % 12 = 0
  let next := baseNext s
  let y := s.dch.spans
  let e15 := 15 ≤ y.shortN + 1 || e10m
  let x := { y with shortN := y.shortN + 1, tenN := y.tenN + 1, twoN := y.twoN + b2n e10m }
  let s := (setBits (getF s F.DCH_PQCFG_PQMASK) 9).foldl (fun s c => baseDone s c start stop x e15 e10m e2h) s
  let s := aggClear ((setBits (getF s F.DCH_PQCFG_SUPMASK) 9).foldl (fun s c => supraDone s c start stop next) s) e15 e10m e2h
  let z : Spans :=
    { shortAt := if e15 then next else x.shortAt, shortN := if e15 then 0 else x.shortN, tenAt := if e10m then next else x.tenAt,
      tenN := if e10m then 0 else x.tenN, twoAt := if e2h then next else x.twoAt, twoN := if e2h then 0 else x.twoN }
  { s with dch := { s.dch with baseAt := next, tickOpen := false, flagged := !s.dch.events.isEmpty, spans := z,
                               bases := (start, stop) :: s.dch.bases,
                               shorts := if e15 then (x.shortAt, stop) :: s.dch.shorts else s.dch.shorts } }

/-! ### Dips, swells and interruptions (R278) -/

/-- A PQEVENT packet (R283). -/
def pqEvent (s : State) (ch kind edge ts dur extreme : Nat) : State :=
  measEvent s 4 (leBytes ch 1 ++ leBytes kind 1 ++ leBytes edge 1 ++ leBytes ts 8 ++ leBytes dur 4 ++ leBytes extreme 4)

/-- One kind of event on channel `c` (R278). -/
def pqKind (s : State) (c kind : Nat) (starts ends : Bool) (ts urms : Nat) : State :=
  match s.dch.events.find? (fun e => e.ch == c && e.kind == kind) with
  | none =>
    if starts then
      pqEvent { s with dch := { s.dch with events := s.dch.events ++ [{ ch := c, kind, from_ := ts, extreme := urms }], flagged := true } }
        c kind 0 ts 0 (Config.real 40 [urms])
    else s
  | some e =>
    let extreme := if (if kind = 1 then fLt e.extreme urms else fLt urms e.extreme) then urms else e.extreme
    if ends then
      pqEvent { s with dch := { s.dch with events := s.dch.events.filter (fun x => !(x.ch == c && x.kind == kind)) } }
        c kind 1 ts (quot 11 ((ts - e.from_ : Nat) * 100 : Int) 12288).toNat extreme
    else
      { s with dch := { s.dch with events := s.dch.events.map (fun x => if x.ch = c ∧ x.kind = kind then { x with extreme } else x) } }

/-- Channel `c` is judged: a voltage channel in PQMASK with a non-zero UDINn (R278). -/
def pqJudged (s : State) (c : Nat) : Bool :=
  decide (c < 4) && bit (getF s F.DCH_PQCFG_PQMASK) c && getF s ⟨F.DCH_UDIN0_UDIN.addr + 4 * c, 0, 32, 0, .rw⟩ % 2 ^ 31 != 0

/-- An event of a channel that is judged no longer is no longer in progress, and no packet reports its end (R278; DESIGN CHOICE, log entry
221). -/
def pqLeft (s : State) : State := { s with dch := { s.dch with events := s.dch.events.filter (fun e => pqJudged s e.ch) } }

/-- A VALID Urms(1/2) of voltage channel `c`, whose last sample has the timestamp `ts`, against UDIN (R278). -/
def dipSwell (s : State) (c urms ts : Nat) : State :=
  let ud := getF s ⟨F.DCH_UDIN0_UDIN.addr + 4 * c, 0, 32, 0, .rw⟩
  if !pqJudged s c then s
  else
    let x := 100 * fOrd urms
    let lim (p : Nat) : Int := fOrd ud * p
    let hy := getF s F.DCH_PQTHR_HYST
    let dip := getF s F.DCH_PQTHR_DIP_TH
    let sw := getF s F.DCH_PQTHR_SWELL_TH
    let it := getF s F.DCH_PQTHR_INT_TH
    let s := pqKind s c 0 (x < lim dip) (lim (dip + hy) ≤ x) ts urms
    let s := pqKind s c 1 (lim sw < x) (x ≤ lim (sw - hy)) ts urms
    pqKind s c 2 (x < lim it) (lim (it + hy) ≤ x) ts urms

/-- Urms(1/2) of channel `c` over the cycle that ends at `e`, 1/16 tick (R271, R278): only a VALID one is judged, and in SEARCH none is. -/
def urmsAt (s : State) (c e : Nat) : State :=
  let w := tapWindow s c (e - winPer s) e
  let s : State := { s with dch := { s.dch with urmsAt := assocSet s.dch.urmsAt c e } }
  match w.1.head? with
  | some o =>
    if tapTag w ≠ 0 ∨ getF s F.TBU_STAT_STATE = 0 then s
    else dipSwell s c (rmsOf ((validOf w.1).map (fun o => fUnits o.val))) (tapStamp o)
  | none => s

/-- The half-cycle boundaries whose cycle of tap samples is complete with words from `from_` on and that have not been judged, in order
(R273, R278). -/
def urmsRun (s : State) (c from_ : Nat) : State :=
  match (tap s c).hist with
  | [] => s
  | o :: _ =>
    let half := tapSettle / 2
    let due (e : Nat) : Bool :=
      let last := (latticeIn s tapPeriod (ceilDiv e 16 + half - tapPeriod) (ceilDiv e 16 + half)).getLastD 0
      (assocFind? s.dch.urmsAt c).all (fun b => b + winPer s / 4 < e) && from_ ≤ last && last ≤ o.at_
    ((halfEdges s (from_ - half) (o.at_ - half)).filter due).foldl (fun s e => urmsAt s c e) s

end Sys2Proof.Machine
end

