-- ==== Sys2Proof/Machine/Filter.lean ====
section
/-! DEFINITION. DCH's registers, and the meanings of the measurement commands (R254, R264, R270–R289). -/

namespace Sys2Proof.Machine

/-! ### Register writes (R289, R303) -/

/-- The channel selector, the detector selector. -/
def chSel (s : State) : Nat := getF s F.DCH_CHWIN_CH
def detSel (s : State) : Nat := getF s F.DCH_DETWIN_DET

/-- A channel number that exists (R259). -/
def chOk (c : Nat) : Bool := !(9 ≤ c && c ≤ 15)

/-- The checks of DCH's registers. -/
def dchCheck (s : State) (a v : Nat) : Nat :=
  match a with
  | 0x80000 => need (chOk (bits v 0 6))
  | 0x80004 =>
    let c := chSel s
    if 10 < bits v 0 4 ∨ 64 < bits v 4 7 then St.badParam
    else
      need (tempRuleOk (fun d => if d = c then bit v 14 else chLin s d) (fun d => if d = c then bits v 15 7 else chSet s d)
        (setImg s))
  | 0x8000C => need (bits v 0 8 != 0)
  | 0x80024 =>
    need (bits v 0 3 ≤ 4 && chOk (bits v 3 6) && bits v 9 3 ≤ 4 && bits v 20 2 != 3)
  | 0x80028 => need (bits v 0 16 != 0 && !(detF s F.DCH_DETCFG_TYPE (detSel s) == 4 && 255 < bits v 0 16))
  | 0x8002C => need (!isNaN v)
  | 0x80040 => need (bits v 9 2 != 3 && bits v 12 4 ≤ 8)
  | 0x80048 =>
    need (bits v 0 8 < 100 && bits v 16 8 < bits v 0 8 && 101 ≤ bits v 8 8 && bits v 8 8 ≤ 200 && 1 ≤ bits v 16 8
      && bits v 24 4 != 0)
  | 0x80050 | 0x80054 | 0x80058 | 0x8005C => need (!isNaN v && !(fNeg v && fAbs v != 0))
  | 0x80070 => need (bits v 0 4 ≤ 8)
  | 0x80074 | 0x80078 => need ((List.range 4).all (fun j => chOk (bits v (8 * j) 6)))
  | 0x8007C =>
    if bit v 0 then
      if getF s F.DCH_GALSTAT_STATE = 1 ∨ getF s F.DCH_GALSTAT_STATE = 2 then St.busy
      else need (getF s F.DCH_GALCFG_NCH != 0 && distinct (galSel s))
    else 0
  | 0x800A0 => linsetCheck s v
  | 0x800C0 => need ((List.range 4).all (fun n => bits v (2 * n) 2 != 3))
  | _ => 0

/-- A change of channel `c`'s configuration: of the chain it restarts the settle count, and the last VALID sample of another configuration no
longer stands (R263, R267, R293). -/
def chanChanged (old s : State) (c : Nat) : State :=
  let f (g : Field) : Bool := getF old (chF g c) != getF s (chF g c)
  let chain := f F.DCH_CHCFG_DEC_EXP || f F.DCH_CHCFG_NTAPS || f F.DCH_CHCFG_FIRBANK
  let s := if chain || f F.DCH_CHCFG_LIN_EN || f F.DCH_CHCFG_COEFSET || f F.DCH_CHCFG_TXMASK then confChange s c else s
  if chain then restartChan s c else s

/-- A write to a coefficient of FIR bank `b` concerns every channel that uses it (R263). -/
def firChanged (s : State) (b : Nat) : State :=
  (List.range 64).foldl (fun s c =>
    if chOk c && getF s (chF F.DCH_CHCFG_NTAPS c) != 0 && getF s (chF F.DCH_CHCFG_FIRBANK c) == b then restartChan (confChange s c) c
    else s) s

/-- A change of a slot's type, source or window starts its windows, and its envelope, anew; the last VALID result stands (log entry 206). -/
def detChanged (old s : State) (d : Nat) : State :=
  let f (g : Field) : Bool := detF old g d != detF s g d
  if f F.DCH_DETCFG_TYPE || f F.DCH_DETCFG_SRC || f F.DCH_DETCFG_WIN || f F.DCH_DETCFG_EXPA || f F.DCH_DETPARAM_W then
    setDetSlot s d { detSlot s d with doneAt := now s, edge := none, env := 0, envWait := 0 }
  else s

/-- What a write of a DCH register brings about beyond its stored fields. -/
def dchAct (old s : State) (a v : Nat) : State :=
  match a with
  | 0x80004 => chanChanged old s (chSel s)
  | 0x80014 => firChanged s (getF s F.DCH_FIRWIN_BANK)
  | 0x80024 | 0x80028 => detChanged old s (detSel s)
  | 0x80040 => phasorStart s
  | 0x80044 | 0x80050 | 0x80054 | 0x80058 | 0x8005C => pqLeft s
  | 0x8007C =>
    let s := if bit v 0 then galArm s else s
    let s := if bit v 1 then galTrigger s (now s) else s
    if bit v 2 && (getF s F.DCH_GALSTAT_STATE = 1 || getF s F.DCH_GALSTAT_STATE = 2) then galEnd s false true else s
  | 0x800A0 => linsetAct s v
  | _ => s

/-- On leaving COMMISSION the forced paths return to 0 (R299). -/
def dropForce (s : State) : State :=
  (List.range 4).foldl (fun s n => setF s ⟨F.DCH_PFORCE_FORCE0.addr, 2 * n, 2, 0, .rwl⟩ 0) (keepPast s)

/-! ### Meanings -/

/-- The auxiliary converter's words from an instant on, of which the places `ovl` carry the overload flag and the places `sat` the
saturation of their stage. -/
def auxRun (from_ : MeshTime) (words : List (BitVec 24)) (ovl sat : List Nat) : AuxRun :=
  { from_, words := words.mapIdx (fun k w => { w, ovl := ovl.contains k, sat := sat.contains k }) }

/-- The words decide the stage's range (R254, R255); `satNow` is the stage's output at the end (R258). -/
def tiaWords (s : State) (stage : Nat) (run : AuxRun) (satNow : Bool) (till : Nat) : State :=
  let s := applyRanges (advanceTo (takeStreams s { aux := run, grid := [] }) till)
  if tiaPresent s stage && tiaEn s stage then putFlag s (tiaF F.MFE_TIA0_SAT stage) satNow else s

/-- TIA_RANGE_CHANGE (R254, R255). -/
def execTiaRangeChange (stage : Fin 2) (from_ : MeshTime) (words : List (BitVec 24)) (ovl sat : List Nat) (satNow : Bool)
    (till : MeshTime) (s : State) : Host.Outcome State Fault Refusal :=
  .next (if mfeOn s then tiaWords s stage (auxRun from_ words ovl sat) satNow till.toNat else s)

/-- GAIN_PATH_SWITCH (R264): words of a current channel, through whose samples its path is selected. -/
def execGainPathSwitch (_n : Fin 4) (streams : Streams) (s : State) : Host.Outcome State Fault Refusal :=
  .next (if mfeOn s then takeStreams s streams else s)

/-- DETECTOR_RESULT (R270). -/
def execDetectorResult (det : Fin 64) (from_ : MeshTime) (words : List GridWord) (aux : List ConvWord) (till : MeshTime) (s : State) :
    Host.Outcome State Fault Refusal :=
  .next (if mfeOn s then detectorResult s det from_.toNat words aux till.toNat else s)

/-- The words of grid channels alone. -/
def takeRuns (s : State) (runs : List GridRun) : State := takeStreams s { aux := { from_ := 0, words := [] }, grid := runs }

/-- PHASOR_REPORT (R274, R275). -/
def execPhasorReport (volts currents : List GridRun) (s : State) : Host.Outcome State Fault Refusal :=
  .next (if mfeOn s then phasorReport (takeRuns s (volts ++ currents)) else s)

/-- BASE_INTERVAL_END (R276). -/
def execBaseIntervalEnd (streams : Streams) (s : State) : Host.Outcome State Fault Refusal :=
  .next (if mfeOn s then baseInterval (takeStreams s streams) else s)

/-- TEN_MINUTE_TICK (R276). -/
def execTenMinuteTick (s : State) : Host.Outcome State Fault Refusal := .next (if mfeOn s then tenMinute s else s)

/-- PQ_DIP_SWELL_EDGE (R278). -/
def execPqDipSwellEdge (ch : Fin 4) (from_ : MeshTime) (words : List GridWord) (aux : List ConvWord) (s : State) :
    Host.Outcome State Fault Refusal :=
  .next (
    if mfeOn s then
      let run : GridRun := { ch := ⟨ch.val, Nat.lt_of_lt_of_le ch.isLt (by decide)⟩, from_, words }
      urmsRun (takeStreams s { aux := { from_, words := aux }, grid := [run] }) ch from_.toNat
    else s)

/-- SUPRA_WINDOW_END (R279). -/
def execSupraWindowEnd (ch : Fin 9) (from_ : MeshTime) (words : List GridWord) (s : State) : Host.Outcome State Fault Refusal :=
  .next (if mfeOn s then supraRun (takeRuns s [{ ch, from_, words }]) ch from_.toNat else s)

/-- GALLERY_DONE (R285): every segment holds R_s records. -/
def execGalleryDone (streams : Streams) (s : State) : Host.Outcome State Fault Refusal :=
  .next (
    if mfeOn s then
      let s := takeStreams s streams
      if getF s F.DCH_GALSTAT_STATE = 2 ∧ galWhole s then galEnd s false false else s
    else s)

end Sys2Proof.Machine
end

