-- ==== Sys2Proof/Machine/Control.lean ====
section
/-! DEFINITION. LCE: ticks, actuators, interlocks, rules, sequences, locks and commands (R304–R337). -/

namespace Sys2Proof.Machine

/-! ### Tables -/

/-- An actuator or interlock record that holds a poisoned word is absent: zeros (R32). -/
def actRec (s : State) (i : Nat) : Bytes :=
  if poisoned s (Base.actuators + 16 * i) 16 then List.replicate 16 0 else memRead s (Base.actuators + 16 * i) 16
def ilkRec (s : State) (i : Nat) : Bytes :=
  if poisoned s (Base.interlocks + 8 * i) 8 then List.replicate 8 0 else memRead s (Base.interlocks + 8 * i) 8
def ruleRec (s : State) (i : Nat) : Bytes := memRead s (Base.rules + 32 * i) 32
def seqHdr (s : State) (i : Nat) : Bytes := memRead s (Base.sequences + 288 * i) 32
def seqStep (s : State) (i k : Nat) : Nat := memNat s (Base.sequences + 288 * i + 32 + 8 * k) 8

def actType (b : Bytes) : Nat := bits (u b 0 1) 0 3
def actRemote (b : Bytes) : Nat := bits (u b 0 1) 4 2
def actLock (b : Bytes) : Nat := u b 3 1
def actInit (b : Bytes) : Nat := u b 4 2

/-- A written value as the actuator type takes it (R312). -/
def actValue (ty v : Nat) : Nat := if ty = 1 ∨ ty = 5 then min v 1 else if ty = 0 then 0 else v % 65536

def seqLen (b : Bytes) : Nat := u b 0 1
def seqAbort (b : Bytes) : Nat := u b 1 1
def seqLock (b : Bytes) : Nat := u b 2 1

/-- The pins of an actuator record. -/
def pinsOf (b : Bytes) : List Nat :=
  match actType b with
  | 0 => []
  | 5 => [u b 1 1, u b 2 1]
  | _ => [u b 1 1]

/-- An absent sequence header (R32): no steps, no lock. -/
def noHdr : Bytes := [0, 0, 0xFF] ++ List.replicate 29 0

/-- The actuator's record is unreadable (R32, R336). -/
def actPoisoned (s : State) (i : Nat) : Bool := poisoned s (Base.actuators + 16 * i) 16

/-- The sequence's header is unreadable (R32, R336). -/
def hdrPoisoned (s : State) (k : Nat) : Bool := poisoned s (Base.sequences + 288 * k) 32

/-- The rule's word is unreadable: LCE skips the rule for the tick (R32). -/
def rulePoisoned (s : State) (i : Nat) : Bool := poisoned s (Base.rules + 32 * i) 32

/-- EN of a rule whose word LCE can read (R316, R32). -/
def ruleOn (s : State) (i : Nat) : Bool := !rulePoisoned s i && bit (u (ruleRec s i) 0 1) 0

/-- The base address and size of a table entry: 0 rules, 1 sequences, 2 actuators, 3 interlocks. -/
def tblAddr (t i : Nat) : Nat :=
  match t with
  | 0 => Base.rules + 32 * i
  | 1 => Base.sequences + 288 * i
  | 2 => Base.actuators + 16 * i
  | _ => Base.interlocks + 8 * i

def tblSize : Nat → Nat
  | 0 => 32
  | 1 => 288
  | 2 => 16
  | _ => 8

def tblCount : Nat → Nat
  | 0 => 256
  | 1 => 64
  | 2 => 32
  | _ => 16

/-! ### State access -/

def act (s : State) (i : Nat) : Act := nth Act.fresh s.lce.acts i
def setAct (s : State) (i : Nat) (a : Act) : State := { s with lce := { s.lce with acts := s.lce.acts.set i a } }
def rule (s : State) (i : Nat) : Rule := assocGet Rule.fresh s.lce.rules i
def setRule (s : State) (i : Nat) (r : Rule) : State := { s with lce := { s.lce with rules := assocSet s.lce.rules i r } }
def sequ (s : State) (i : Nat) : Seq := assocGet Seq.fresh s.lce.seqs i
def setSeq (s : State) (i : Nat) (q : Seq) : State := { s with lce := { s.lce with seqs := assocSet s.lce.seqs i q } }
def lock (s : State) (i : Nat) : Lock := nth Lock.fresh s.lce.locks i
def setLock (s : State) (i : Nat) (l : Lock) : State := { s with lce := { s.lce with locks := s.lce.locks.set i l } }

/-- A sequence is RUNNING or ABORTING. -/
def seqActive (s : State) (k : Nat) : Bool := (sequ s k).st == 1 || (sequ s k).st == 2

/-- The header that sequence `k` goes by: the one START read while it runs or aborts; a poisoned one is absent (R32, R323). -/
def seqHead (s : State) (k : Nat) : Bytes :=
  if seqActive s k then (sequ s k).hdr else if hdrPoisoned s k then noHdr else seqHdr s k

/-- The lock that guards a sequence that runs or aborts. -/
def seqGuard (s : State) (k : Nat) : Nat := seqLock (sequ s k).hdr

/-- The sequences that run or abort, ascending. -/
def activeSeqs (s : State) : List Nat := (s.lce.seqs.filter (fun e => e.2.st == 1 || e.2.st == 2)).map Prod.fst

/-- Rules, sequences and commands are executed: OPERATE, and no transition into SAFEHOLD (R35, R523). -/
def lceRuns (s : State) : Bool := mode s == .operate

/-- An OWNER field (R334). -/
def ownerCode (o : Owner) : Nat := o.id % 65536 + 65536 * (o.cls % 4)

def lceTs (s : State) : Bytes := leBytes s.lce.tickAt 8

def actPacket (s : State) (i cause v : Nat) (o : Owner) : State :=
  ctrlEvent s 2 (leBytes i 1 ++ leBytes cause 1 ++ leBytes v 2 ++ leBytes (ownerCode o) 4 ++ lceTs s)
def seqPacket (s : State) (k : Nat) : State :=
  let q := sequ s k
  ctrlEvent s 3 (leBytes k 1 ++ leBytes q.st 1 ++ leBytes q.cause 1 ++ leBytes q.step 1 ++ leBytes (ownerCode q.owner) 4 ++ lceTs s)
def lockPacket (s : State) (l kind : Nat) (o : Owner) : State :=
  ctrlEvent s 4 (leBytes l 1 ++ leBytes kind 1 ++ leBytes (ownerCode o) 4 ++ leBytes o.gen 2 ++ lceTs s)
def rulePacket (s : State) (r kind status : Nat) : State :=
  ctrlEvent s 1 (leBytes r 1 ++ leBytes kind 1 ++ leBytes status 2 ++ lceTs s)
def commandPacket (s : State) (cause orig : Nat) : State :=
  ctrlEvent s 6 (leBytes 0xFF 1 ++ leBytes cause 1 ++ leBytes orig 2 ++ lceTs s)

/-- An event is raised: visible in the next tick (R306), reported under LCE_EVMASKn (R334). -/
def raiseLce (s : State) (e : Nat) : State :=
  let s := { s with lce := { s.lce with raised := s.lce.raised ++ [e] } }
  let m := if e < 32 then bit (getF s F.LCE_EVMASK0_MASK) e else bit (getF s F.LCE_EVMASK1_MASK) (e - 32)
  if m then ctrlEvent s 5 (leBytes e 1 ++ lceTs s) else s

/-- A TRIGGER with `code` is sent to `dest` (R331). -/
def sendTrigger (s : State) (dest code : Nat) : State :=
  let (tag, s) := draw s
  stageLce s dest (leBytes 0 1 ++ leBytes tag 1 ++ leBytes (getF s F.LCE_STAT_GEN) 2 ++ leBytes 1 1 ++ leBytes 0 1
    ++ leBytes 6 1 ++ leBytes code 1 ++ leBytes 0 6) true

/-! ### Locks (R327–R330) -/

/-- A lock becomes FREE; its first waiter, if any, is granted it at the end of the tick if it is FREE then (R327, log entry 168). -/
def freeLock (s : State) (l kind : Nat) : State :=
  let k := lock s l
  lockPacket (setLock s l { k with st := .free, owner := Owner.none, implicit := false, lost := none,
                                   reserved := !k.waiters.isEmpty }) l kind k.owner

/-- A lock is granted: owner, lease in ms from the tick's start. -/
def grantLock (s : State) (l : Nat) (o : Owner) (lease : Nat) (implicit : Bool) : State :=
  lockPacket (setLock s l { lock s l with st := .held, owner := o, expiry := s.lce.tickAt + lease * Config.ticksPerMs,
                                          implicit, reserved := false, lost := none }) l 0 o

/-- Remaining lease in ms, saturating. -/
def leaseLeft (s : State) (l : Nat) : Nat :=
  let k := lock s l
  if k.st = .free then 0 else min 65535 ((k.expiry - s.lce.tickAt) / Config.ticksPerMs)

/-- May owner `o` act on an object guarded by lock `l` (R328)? -/
def lockStatus (s : State) (o : Owner) (l : Nat) (exempt : Bool) : Nat :=
  if 32 ≤ l ∨ exempt then 0
  else
    let k := lock s l
    match k.st with
    | .free => 0
    | .held => if k.owner = o then 0 else St.locked
    | .cleanup => St.locked

/-- Count a refusal of LOCKED (LCE_CNT1). -/
def countLocked (s : State) (st : Nat) : State := if st = St.locked then inc s F.LCE_CNT1_LOCKREF else s

/-- The lock's LOSTOWNER is this owner: the request is refused once (R330). -/
def priorOwner (s : State) (o : Owner) (l : Nat) : Bool := (lock s l).lostOwner == some (o.cls, o.id)
def clearPrior (s : State) (l : Nat) : State := setLock s l { lock s l with lostOwner := none }

/-- ACQUIRE (R327): a result, or none where the request is queued. -/
def acquire (s : State) (o : Owner) (l lease wait tag : Nat) (priv : Bool) (before : List OpResult) (after : List LceOp) :
    State × Option OpResult :=
  let k := lock s l
  if 32 ≤ l ∨ lease = 0 then (s, some ⟨St.badParam, 0, none⟩)
  else if priorOwner s o l then (clearPrior s l, some ⟨St.abortedPriorOwner, 0, none⟩)
  else if k.st = .free then (grantLock s l o lease false, some ⟨St.ok, lease, none⟩)
  else if k.st = .held ∧ k.owner = o then
    (setLock s l { k with expiry := s.lce.tickAt + lease * Config.ticksPerMs, implicit := false }, some ⟨St.ok, lease, none⟩)
  else if wait = 0 then (countLocked s St.locked, some ⟨St.locked, leaseLeft s l, none⟩)
  else if 4 ≤ k.waiters.length then (s, some ⟨St.busy, 0, none⟩)
  else
    let w : Waiter := { owner := o, tag, priv, lease, until_ := s.lce.tick + 4 * wait, before, after }
    (setLock s l { k with waiters := k.waiters ++ [w] }, none)

/-- RELEASE (R327). -/
def release (s : State) (o : Owner) (l : Nat) : State × Nat :=
  let k := lock s l
  if 32 ≤ l then (s, St.badParam)
  else if priorOwner s o l then (clearPrior s l, St.abortedPriorOwner)
  else if k.st = .held ∧ k.owner = o then
    if (activeSeqs s).any (fun q => seqGuard s q == l && (sequ s q).owner == o) then (s, St.busy)
    else (freeLock s l 1, St.ok)
  else (countLocked s St.locked, St.locked)

/-! ### Sequences and writes -/

/-- A write of actuator `i` (R312, R328, R336): kept until phase 6. -/
def writeAct (s : State) (o : Owner) (exempt : Bool) (i v : Nat) (src : WriteSrc) : State × Nat :=
  let b := actRec s i
  if 32 ≤ i then (s, St.badParam)
  else if actPoisoned s i then (s, St.busy)
  else if actType b = 0 then (s, St.badParam)
  else
    let st := lockStatus s o (actLock b) exempt
    if st ≠ 0 then (countLocked s st, st)
    else ({ s with lce := { s.lce with writes := s.lce.writes ++ [⟨i, actValue (actType b) v, o, src⟩] } }, 0)

/-- START (R324, R328): a sequence whose header is poisoned is absent, and so empty (R32, R322). -/
def startSeq (s : State) (o : Owner) (k : Nat) : State × Nat :=
  let h := seqHead s k
  if 64 ≤ k then (s, St.badParam)
  else if seqLen h = 0 then (s, St.badParam)
  else
    let l := seqLock h
    let st := lockStatus s o l false
    if st ≠ 0 then (countLocked s st, st)
    else if seqActive s k then (s, St.busy)
    else
      let hold := l < 32 && (lock s l).st == .free
      let s := if hold then grantLock s l o (u h 4 2) true else s
      (seqPacket (setSeq s k { Seq.fresh with st := 1, owner := o, start := s.lce.tick, implicit := hold, hdr := h }) k, 0)

/-- A sequence begins its abort section (R325). -/
def abortSeq (s : State) (k cause : Nat) (loss : Bool) : State :=
  let q := sequ s k
  if q.st = 1 then
    inc (setSeq s k { q with st := 2, step := seqAbort q.hdr, cause, waitTo := none, condAt := none, lossAbort := loss })
      F.LCE_CNT1_ABORTS
  else if q.st = 2 && loss then setSeq s k { q with lossAbort := true }
  else s

/-- ABORT by an owner (R325, R328). -/
def abortBy (s : State) (o : Owner) (k : Nat) : State × Nat :=
  if 64 ≤ k then (s, St.badParam)
  else
    let st := lockStatus s o (seqLock (seqHead s k)) false
    if st ≠ 0 then (countLocked s st, st) else (abortSeq s k 1 false, 0)

/-- A sequence ends DONE (3) or ABORTED (4), and releases the implicit hold it took (R325). -/
def endSeq (s : State) (k st : Nat) : State :=
  let q := sequ s k
  let s := seqPacket (setSeq s k { q with st, waitTo := none, condAt := none }) k
  let l := seqLock q.hdr
  let lk := lock s l
  if q.implicit && l < 32 && lk.st == .held && lk.implicit && lk.owner == q.owner then freeLock s l 1 else s

/-! ### Requests (R331–R333) -/

/-- A REMOTE setting against an owner and its privilege (R333). -/
def remoteStatus (o : Owner) (priv : Bool) (r : Nat) : Nat :=
  if o.cls = 2 then (if r = 0 then St.badParam else if r = 2 ∧ !priv then St.authRequired else 0) else 0

/-- One operation in phase 2: its result, or none where it is queued. -/
def runOp (s : State) (o : Owner) (tag : Nat) (priv : Bool) (before : List OpResult) (after : List LceOp) (p : LceOp) :
    State × Option OpResult :=
  let res (x : State × Nat) : State × Option OpResult := (x.1, some ⟨x.2, 0, none⟩)
  if !lceRuns s then (s, some ⟨St.badMode, 0, none⟩)
  else
    match p.opc with
    | 1 => acquire s o p.obj p.p1 (p.p2 % 65536) tag priv before after
    | 2 => res (release s o p.obj)
    | 3 =>
      let g := if p.obj < 32 ∧ !actPoisoned s p.obj then remoteStatus o priv (actRemote (actRec s p.obj)) else 0
      if g ≠ 0 then (s, some ⟨g, 0, none⟩)
      else
        let x := writeAct s o false p.obj p.p1 .op
        (x.1, some ⟨x.2, 0, if x.2 = 0 then some p.obj else none⟩)
    | 4 =>
      let s := readMem s (Base.sequences + 288 * p.obj) 32
      let g := if p.obj < 64 then remoteStatus o priv (bits (u (seqHead s p.obj) 3 1) 0 2) else 0
      if g ≠ 0 then (s, some ⟨g, 0, none⟩) else res (startSeq s o p.obj)
    | 5 =>
      let s := readMem s (Base.sequences + 288 * p.obj) 32
      let g := if p.obj < 64 then remoteStatus o priv (bits (u (seqHead s p.obj) 3 1) 0 2) else 0
      if g ≠ 0 then (s, some ⟨g, 0, none⟩) else res (abortBy s o p.obj)
    | 6 =>
      let src := if o.cls = 2 then o.id else ownAddr s
      ({ s with lce := { s.lce with triggers := s.lce.triggers ++ [(p.obj, src)] } }, some ⟨St.ok, 0, none⟩)
    | _ => (s, some ⟨St.badParam, 0, none⟩)

/-- The operations of a request in order: a refusal stops the rest, a queued ACQUIRE answers ACCEPTED for itself and the
rest (R331, R333). -/
def runOps (s : State) (o : Owner) (tag : Nat) (priv : Bool) (before : List OpResult) : List LceOp → State × List OpResult
  | [] => (s, before)
  | p :: rest =>
    match runOp s o tag priv before rest p with
    | (s, none) => (s, before ++ List.replicate (rest.length + 1) ⟨St.accepted, 0, none⟩)
    | (s, some r) =>
      if r.status = 0 then runOps s o tag priv (before ++ [r]) rest
      else (s, before ++ [r] ++ List.replicate rest.length ⟨r.status, 0, none⟩)

/-- The locks that a request names: the objects of its ACQUIRE and RELEASE operations, and the locks that guard what its SET and START
operations act on (R330, R332; DEDUCED, log entry 172). -/
def namedLocks (s : State) (ops : List LceOp) : List Nat :=
  ops.filterMap (fun p =>
    match p.opc with
    | 1 | 2 => some p.obj
    | 3 => if p.obj < 32 then some (actLock (actRec s p.obj)) else none
    | 4 => if p.obj < 64 then some (seqLock (seqHead s p.obj)) else none
    | _ => none)

/-- A request (R331): one from a LOSTOWNER that names the lock is refused whole, and nothing of it is executed (R330). -/
def runRequest (s : State) (o : Owner) (tag : Nat) (priv : Bool) (ops : List LceOp) : State × List OpResult :=
  let lost := ((namedLocks s ops).filter (· < 32)).filter (priorOwner s o)
  if lceRuns s && !lost.isEmpty then (lost.foldl clearPrior s, List.replicate ops.length ⟨St.abortedPriorOwner, 0, none⟩)
  else runOps s o tag priv [] ops

/-- Queue a reply for phase 7. -/
def reply (s : State) (o : Owner) (tag : Nat) (rs : List OpResult) (final : Bool) : State :=
  { s with lce := { s.lce with replies := s.lce.replies ++ [⟨o, tag, rs, final⟩] } }

/-- The operations of an LCE-COMMAND body or of LCE_OPS (R332). -/
def parseOps (b : Bytes) : Nat → List LceOp
  | 0 => []
  | n + 1 => ⟨u b 0 1, u b 1 1, u b 2 2, u b 4 4⟩ :: parseOps (b.drop 8) n

/-- Well-formed request (R333): NOPS 1–8, the length agrees, every OPC known. -/
def opsOk (nops : Nat) (b : Bytes) : Bool :=
  1 ≤ nops && nops ≤ 8 && b.length == 8 * nops
    && (parseOps b nops).all (fun p => 1 ≤ p.opc && p.opc ≤ 6)

/-- The address of a mailbox entry (R389). -/
def mailAddr (slot : Nat) : Nat := Base.mailbox + 2048 * slot

/-- LCE_COMMAND_RX: a packet delivered to the mailbox (R333). -/
def commandRx (s : State) (orig : Nat) (priv : Bool) (body : Bytes) : State :=
  let used := s.lce.work.filterMap (fun w => match w with | .mail k _ _ _ => some k | _ => none)
  match (List.range 64).find? (fun k => !used.contains k) with
  | none => commandPacket (inc s F.LCE_CNT0_MBXDROP) 1 orig
  | some k =>
    let s := memWrite s (mailAddr k) body
    { s with lce := { s.lce with work := s.lce.work ++ [.mail k orig body.length priv] } }

/-- HCP passes an LCE-COMMAND reply on as MESH_RX with CLASS 4 (R441). -/
def passReply (s : State) (orig : Nat) (priv : Bool) (body : Bytes) : State :=
  let n := getF s F.HCP_CFG_DELIVER
  if !hcpOn s then s
  else if 3 ≤ n then inc s F.HCP_CFG_NODELIV
  else
    emitEvent s n 0x1600 (leBytes (now s) 8 ++ leBytes orig 2 ++ leBytes (ownAddr s) 2 ++ leBytes 4 1
      ++ leBytes (b2n priv) 1 ++ leBytes 0 1 ++ leBytes 0 1 ++ body)

/-- Phase 2 for one piece of work. -/
def doWork (s : State) : LceWork → State
  | .ops o tag priv ops before final =>
    let (s, rs) := if final then runOps s o tag priv before ops else runRequest s o tag priv ops
    reply s o tag rs final
  | .mail slot orig len priv =>
    let s := readMem s (mailAddr slot) (max 1 len)
    let b := memRead s (mailAddr slot) len
    if poisoned s (mailAddr slot) (max 1 len) then commandPacket s 2 orig
    else if u b 0 1 = 1 then passReply s orig priv b
    else if u b 0 1 ≠ 0 ∨ !opsOk (u b 4 1) (b.drop 6) then commandPacket s 2 orig
    else
      let o : Owner := { cls := 2, id := orig, gen := u b 2 2 }
      let (s, rs) := runRequest s o (u b 1 1) priv (parseOps (b.drop 6) (u b 4 1))
      reply s o (u b 1 1) rs false

/-- Waiters whose wait has ended return LOCKED (R327). -/
def waiterTimeouts (s : State) : State :=
  (List.range 32).foldl (fun s l =>
    let k := lock s l
    let out := k.waiters.filter (fun w => w.until_ ≤ s.lce.tick)
    let s := setLock s l { k with waiters := k.waiters.filter (fun w => s.lce.tick < w.until_),
                                  reserved := k.reserved && k.waiters.any (fun w => s.lce.tick < w.until_) }
    out.foldl (fun s w =>
      reply (countLocked s St.locked) w.owner w.tag
        (w.before ++ List.replicate (w.after.length + 1) ⟨St.locked, 0, none⟩) true) s) s

/-! ### Loss of locks (R329) -/

/-- Mark the locks of an owner whose generation has been bumped. -/
def ownerReset (s : State) (cls id : Nat) : State :=
  (List.range 32).foldl (fun s l =>
    let k := lock s l
    if k.st = .held ∧ k.owner.cls = cls ∧ k.owner.id = id then setLock s l { k with lost := some 3 } else s) s

/-- A HOST owner's generation is bumped (R326). -/
def bumpHost (s : State) (n : Nat) : State :=
  ownerReset { s with lce := { s.lce with hostGen := s.lce.hostGen.set n ((nth 0 s.lce.hostGen n + 1) % 65536) } } 1 n

/-- Rule holders renew (R327). -/
def renewRules (s : State) : State :=
  (List.range 32).foldl (fun s l =>
    let k := lock s l
    if k.st = .held ∧ k.lost.isNone ∧ k.owner.cls = 0 ∧ ruleOn s k.owner.id then
      setLock s l { k with expiry := s.lce.tickAt + 65535 * Config.ticksPerMs }
    else s) s

/-- One lost lock: steps 1, 2 and 5 of R329. -/
def loseLock (s : State) (l kind : Nat) : State :=
  let k := lock s l
  let s := lockPacket (setLock s l { k with st := .cleanup, lost := none, lostOwner := some (k.owner.cls, k.owner.id) }) l kind k.owner
  let s := (activeSeqs s).foldl (fun s q => if seqGuard s q = l then abortSeq s q 5 true else s) s
  (List.range 32).foldl (fun s i =>
    let b := actRec s i
    if actLock b = l ∧ bit (u b 0 1) 3 ∧ actType b ≠ 0 ∧ !actPoisoned s i then
      { s with lce := { s.lce with writes := s.lce.writes ++ [⟨i, actValue (actType b) (actInit b), k.owner, .loss⟩] } }
    else s) s

/-- Phase 1: lease expiries and owner resets. -/
def lockLosses (s : State) : State :=
  (List.range 32).foldl (fun s l =>
    let k := lock s l
    match k.st, k.lost with
    | .held, some kind => loseLock s l kind
    | .held, none => if k.expiry ≤ s.lce.tickAt then loseLock (inc s F.LCE_CNT1_EXPIRED) l 2 else s
    | _, _ => s) s

/-- A lock in CLEANUP whose guarded sequences have all ended: steps 3 and 4 of R329. -/
def cleanups (s : State) : State :=
  (List.range 32).foldl (fun s l =>
    let k := lock s l
    if k.st = .cleanup ∧ !(activeSeqs s).any (fun q => seqGuard s q == l) then
      let s := k.waiters.foldl (fun s w =>
        reply s w.owner w.tag (w.before ++ List.replicate (w.after.length + 1) ⟨St.abortedPriorOwner, 0, none⟩) true) s
      freeLock (setLock s l { k with waiters := [] }) l 4
    else s) s

/-- End of the tick: the first waiter of each lock freed in it and still FREE is granted it (R327). -/
def grantWaiters (s : State) : State :=
  (List.range 32).foldl (fun s l =>
    let k := lock s l
    match k.st, k.waiters with
    | .free, w :: rest =>
      if !k.reserved then s else
      let s := grantLock (setLock s l { k with waiters := rest }) l w.owner w.lease false
      { s with lce := { s.lce with work := s.lce.work ++
          [.ops w.owner w.tag w.priv w.after (w.before ++ [⟨St.ok, w.lease, none⟩]) true] } }
    | _, _ => s) s

/-! ### Rules (R316–R321) -/

/-- The raw DET condition after one VALID result `v` (R319). -/
def detRaw (op a b v : Nat) (old : Bool) : Bool :=
  let x := fOrd v
  let p := fOrd a
  let q := fOrd b
  match op with
  | 0 => if p < x then true else if x < p - q then false else old
  | 1 => if x < p then true else if p + q < x then false else old
  | 2 => p ≤ x && x ≤ q
  | _ => !(p ≤ x && x ≤ q)

/-- The raw condition of rule `i` in this tick, with the ticks without a VALID result (R317, R319). -/
def rawCond (s : State) (i : Nat) : Bool × Nat :=
  let b := ruleRec s i
  let r := rule s i
  let o := u b 12 1
  match bits (u b 1 1) 0 4 with
  | 0 => (true, 0)
  | 1 =>
    let slot := bits o 0 6
    let raw := (s.lce.results.filter (fun x => x.1 == slot && x.2.2.2 == 0)).foldl
      (fun acc x => detRaw (u b 13 1) (u b 16 4) (u b 20 4) (if bit o 6 then x.2.2.1 else x.2.1) acc) r.raw
    let quiet := if s.lce.results.any (fun x => x.1 == slot && x.2.2.2 == 0) then 0 else r.quiet + 1
    let qt := u b 10 2
    let qf := bits (u b 3 1) 0 2
    (if qt ≠ 0 ∧ qt ≤ quiet ∧ qf ≠ 0 then qf == 2 else raw, quiet)
  | 2 => (bit s.lce.diLatched (o % 16) == (u b 13 1 == 0), 0)
  | 3 => (s.lce.visible.contains o, 0)
  | 4 => (s.lce.triggers.any (fun t => t.1 == o && (!bit (u b 13 1) 0 || t.2 == u b 14 2)), 0)
  | 5 => ((act s o).applied == u b 14 2, 0)
  | _ => ((sequ s o).st == u b 13 1, 0)

/-- COND of rule `i` (R318). -/
def evalCond (s : State) (i : Nat) : State :=
  let b := ruleRec s i
  let r := rule s i
  let fl := u b 0 1
  if rulePoisoned s i then rulePacket (inc s F.LCE_CNT0_SKIPS) i 2 0
  else if !bit fl 0 then (if r = Rule.fresh ∨ r = { Rule.fresh with gen := r.gen } then s else setRule s i { Rule.fresh with gen := r.gen })
  else
    let (raw, quiet) := rawCond s i
    let x := raw != bit fl 1
    -- consecutive ticks towards the change of COND: a tick that turns the raw condition counts as the first
    let n := if x == r.cond then 0 else if (r.raw != bit fl 1) == x then r.count + 1 else 1
    let lim := (if r.cond then u b 6 2 else u b 4 2) + 1
    setRule s i { r with raw, quiet, count := n, cond := if lim ≤ n then x else r.cond }

/-- The rules that can act or whose word is poisoned, ascending: FLAGS of every other is 0. -/
def rulesInUse (s : State) : List Nat :=
  let set := (s.sram.filter (fun c => Base.rules ≤ c.1 && c.1 < Base.rules + 0x2000 && c.1 % 32 = 0)).map
    (fun c => (c.1 - Base.rules) / 32)
  (List.range 256).filter (fun i => set.contains i || rulePoisoned s i)

/-- The action of rule `i` on a rise or a fall (R320, R321): its status. -/
def ruleAction (s : State) (i : Nat) (rise : Bool) : State × Nat :=
  let b := ruleRec s i
  let o : Owner := { cls := 0, id := i, gen := (rule s i).gen }
  let x := u b 24 1
  match bits (u b 1 1) 4 4 with
  | 1 => writeAct s o false x (if rise then u b 26 2 else u b 28 2) .rule
  | 2 => startSeq s o x
  | 3 => abortBy s o x
  | 4 => (raiseLce s x, 0)
  | 5 => (sendTrigger s (u b 24 2) (u b 26 1), 0)
  | 6 => (galTrigger s s.lce.tickAt, 0)
  | 7 =>
    if rise then
      let y := acquire s o x 65535 0 0 false [] []
      (y.1, (y.2.map (·.status)).getD 0)
    else release s o x
  | _ => (s, 0)

/-- Phase 3 (STATE) and phase 4 for one rule. -/
def actRule (s : State) (i : Nat) (up : Bool) : State :=
  let b := ruleRec s i
  let r := rule s i
  let was := r.st
  let s := setRule s i { r with st := up }
  let fire (s : State) (rise : Bool) : State :=
    let y := ruleAction s i rise
    if bit (u b 0 1) 4 then rulePacket y.1 i (if rise then 0 else 1) y.2 else y.1
  if up && !was then
    let ok : Bool := match r.fired with
      | some t => u b 8 2 ≤ s.lce.tick - t
      | none => true
    if ok then fire (setRule s i { rule s i with fired := some s.lce.tick }) true else s
  else if was && !up && bit (u b 0 1) 3 then fire s false
  else s

/-- STATE of a rule from the CONDs (R318). -/
def ruleState (s : State) (i : Nat) : Bool :=
  let b := ruleRec s i
  let fl := u b 0 1
  bit fl 0 && (rule s i).cond && (!bit fl 2 || (rule s (u b 2 1)).cond)

/-- Phases 3 and 4. -/
def runRules (s : State) : State :=
  let rs := rulesInUse s
  let s := rs.foldl evalCond (readMem s Base.rules 0x2000)
  let sts := rs.map (fun i =>
    (i, if rulePoisoned s i then (rule s i).st else ruleState s i))
  sts.foldl (fun s x => actRule s x.1 x.2) s

/-! ### Phase 5 (R323–R325) -/

inductive StepEnd where
  | goOn | wait | ended
  deriving DecidableEq, Repr

/-- The step that sequence `k` is at, as its body or its abort section has it (R323, R324). -/
def seqExec (s : State) (k : Nat) (q : Seq) (body : Bool) : State × StepEnd :=
  let w := seqStep s k q.step
  let a := bits w 8 8
  let b := bits w 16 16
  let t := bits w 32 24
  let c := bits w 56 8
  let next (s : State) (i : Nat) : State := setSeq s k { sequ s k with step := i, waitTo := none, condAt := none }
  match bits w 0 4 with
  | 0 => (endSeq s k (if body then 3 else 4), .ended)
  | 1 =>
    let y := writeAct s q.owner (q.lossAbort && !body) a b (.seq k body)
    (next y.1 (q.step + 1), .goOn)
  | 2 =>
    match q.waitTo with
    | some n => if n ≤ s.lce.tick then (next s (q.step + 1), .goOn) else (s, .wait)
    | none =>
      if t = 0 then (next s (q.step + 1), .goOn)
      else (setSeq s k { q with waitTo := some (s.lce.tick + 4 * t) }, .wait)
  | 3 =>
    let from_ := q.condAt.getD s.lce.tick
    if (rule s a).st then (next s (q.step + 1), .goOn)
    else if t ≠ 0 ∧ 4 * t ≤ s.lce.tick - from_ then
      (if c = 0xFF then (abortSeq s k 3 false, .goOn) else (next s c, .goOn))
    else (setSeq s k { q with condAt := some from_ }, .wait)
  | 4 =>
    match q.waitTo with
    | some n => if n ≤ s.lce.tick then (next s (q.step + 1), .goOn) else (s, .wait)
    | none =>
      if getF s F.TBU_STAT_STATE = 0 then (setSeq s k { q with waitTo := some (s.lce.tick + 1) }, .wait)
      else if getF s F.TBU_POS_PSLOT = a then (next s (q.step + 1), .goOn)
      else (s, .wait)
  | 5 => (next (raiseLce s a) (q.step + 1), .goOn)
  | 6 =>
    let made := assocGet 0 q.jumps q.step
    if c = 0 then (next s a, .goOn)
    else if made < c then (next (setSeq s k { q with jumps := assocSet q.jumps q.step (made + 1) }) a, .goOn)
    else (next s (q.step + 1), .goOn)
  | 7 => (next (sendTrigger s b a) (q.step + 1), .goOn)
  | _ => (next (galTrigger s s.lce.tickAt) (q.step + 1), .goOn)

/-- One step of sequence `k`. A poisoned word of the body or of the header aborts it; the header that START read names the abort section
(R325, R336). -/
def seqOne (s : State) (k : Nat) : State × StepEnd :=
  let q := sequ s k
  let h := q.hdr
  let body := q.st == 1
  let s := readMem s (Base.sequences + 288 * k + 32 + 8 * q.step) 8
  let bad := decide (q.step < seqLen h) && poisoned s (Base.sequences + 288 * k + 32 + 8 * q.step) 8
  if !body && bad then (endSeq s k 4, .ended)
  else if body && (bad || hdrPoisoned s k) then (abortSeq s k 6 false, .goOn)
  else if body && q.step == seqAbort h then (endSeq s k 3, .ended)
  else if seqLen h ≤ q.step then (endSeq s k (if body then 3 else 4), .ended)
  else seqExec s k q body

/-- Up to `n` steps of sequence `k` (R324). -/
def seqSteps (s : State) (k : Nat) : Nat → State
  | 0 => s
  | n + 1 =>
    match seqOne s k with
    | (s, .goOn) => seqSteps s k n
    | (s, _) => s

/-- Phase 5 for sequence `k`: MAXTIME first (R325). -/
def seqAdvance (s : State) (k : Nat) : State :=
  let q := sequ s k
  let lim := u q.hdr 6 4
  let s := if q.st = 1 ∧ lim ≠ 0 ∧ 4 * lim ≤ s.lce.tick - q.start then abortSeq s k 2 false else s
  if seqActive s k then seqSteps s k 8 else s

/-! ### Phases 6 and 7 (R306, R312, R315) -/

/-- What phase 6 decides for one actuator. -/
inductive Fate where
  | keep | apply | refused | deferred
  deriving DecidableEq, Repr

def onVal (l : List Nat) (i : Nat) : Bool := nth 0 l i != 0

/-- The last write of the tick to actuator `i`. -/
def lastWrite (s : State) (i : Nat) : Option ActWrite := (s.lce.writes.filter (fun w => w.act == i)).getLast?

/-- Proposed values (R315, step 1); a poisoned actuator keeps its applied value (R336). -/
def proposals (s : State) : List Nat :=
  (List.range 32).map (fun i =>
    if actPoisoned s i then (act s i).applied else
    match lastWrite s i with
    | some w => w.val
    | none => (act s i).pending.getD (act s i).applied)

/-- Step 2 once: the first REQUIRE record that forces a change. -/
def forceOne (s : State) (p : List Nat) : Option Nat :=
  ((List.range 16).find? (fun k =>
    let b := ilkRec s k
    u b 0 1 == 2 && onVal p (u b 1 1) && !onVal p (u b 2 1) && !actPoisoned s (u b 1 1))).map (fun k => u (ilkRec s k) 1 1)

/-- Step 2 repeated; the actuators forced, in order. -/
def forceAll (s : State) (p : List Nat) (done : List Nat) : Nat → List Nat × List Nat
  | 0 => (p, done)
  | n + 1 =>
    match forceOne s p with
    | some i => forceAll s (p.set i 0) (done ++ [i]) n
    | none => (p, done)

/-- Step 3: the fate of actuator `i` that turns on. -/
def exclFate (s : State) (p : List Nat) (i : Nat) : Fate :=
  if !(onVal p i && (act s i).applied == 0) then .apply
  else
    (List.range 16).foldl (fun f k =>
      let b := ilkRec s k
      let a := u b 1 1
      let c := u b 2 1
      if u b 0 1 = 1 ∧ (a = i ∨ c = i) then
        let j := if a = i then c else a
        if onVal p j then .refused
        else
          let off := match (act s j).offTick with
            | some t => s.lce.tick - t
            | none => 4 * u b 4 2
          if f ≠ .refused ∧ ((act s j).applied ≠ 0 ∨ off < 4 * u b 4 2) ∧ u b 4 2 ≠ 0 then .deferred else f
      else f) .apply

/-- The cause code of an applied change (R334). -/
def writeCause : WriteSrc → Nat
  | .loss => 4
  | .init => 5
  | _ => 0

/-- Apply value `v` to actuator `i` in phase 7, with the pulses it starts (R312). The packet of a forced change has gone with the forcing
(R315). -/
def applyAct (s : State) (i v cause : Nat) (written : Bool) (o : Owner) : State :=
  let a := act s i
  let b := actRec s i
  let ty := actType b
  let a' := { a with applied := v, pending := none,
                     offTick := if v = 0 ∧ a.applied ≠ 0 then some s.lce.tick else a.offTick,
                     pulseEnd := if ty = 2 then (if written then (if v = 0 then none else some (s.lce.tick + 4 * v)) else a.pulseEnd) else none,
                     coil := if ty = 5 ∧ v ≠ a.applied then some (v == 0, s.lce.tick + 4 * u b 6 2) else a.coil }
  let s := setAct s i a'
  if v ≠ a.applied ∧ cause ≠ 3 then actPacket s i cause v o else s

/-- Phase 6 and the application of phase 7 for one actuator; a poisoned record is not acted on (R32). -/
def settleAct (s : State) (p : List Nat) (forced : List Nat) (fates : List Fate) (i : Nat) : State :=
  if actPoisoned s i then s
  else
  let a := act s i
  let w := lastWrite s i
  let o := match w with
    | some w => w.owner
    | none => a.pendingOwner
  let v := nth 0 p i
  let isForced := forced.contains i
  match nth Fate.keep fates i with
  | .refused =>
    let s := actPacket (inc (setAct s i { a with pending := none }) F.LCE_CNT0_ILKREF) i 1 v o
    match w with
    | some { src := .seq k true, .. } => abortSeq s k 4 false
    | _ => s
  | .deferred =>
    let s := setAct s i { a with pending := some v, pendingOwner := o }
    if w.isSome then actPacket s i 2 v o else s
  | _ =>
    if w.isNone ∧ a.pending.isNone ∧ !isForced then s
    else
      let cause := if isForced then 3 else match w with
        | some w => writeCause w.src
        | none => 0
      applyAct s i v cause (w.isSome || a.pending.isSome || isForced) o

/-- The pulses that end in this phase 7 (R312): a write that the tick has applied has replaced the pulse's end, and a poisoned actuator
holds its applied value (R336). -/
def endPulses (s : State) : State :=
  (List.range 32).foldl (fun s i =>
    let a := act s i
    let s :=
      match a.pulseEnd with
      | some t => if t ≤ s.lce.tick ∧ !actPoisoned s i then
          actPacket (setAct s i { a with applied := 0, pulseEnd := none, offTick := some s.lce.tick }) i 0 0 a.pendingOwner else s
      | none => s
    match (act s i).coil with
    | some (_, t) => if t ≤ s.lce.tick then setAct s i { act s i with coil := none } else s
    | none => s) s

/-- The tick held differing writes of one actuator (R306). -/
def conflict (s : State) : Bool :=
  s.lce.writes.any (fun w => s.lce.writes.any (fun x => x.act == w.act && x.val != w.val))

/-- A reply's bytes: status and data of each entry, a SET's as phase 6 settled it (R315, R331). -/
def finishResults (fates : List Fate) (rs : List OpResult) : List OpResult :=
  rs.map (fun r =>
    match r.act with
    | some i =>
      match nth Fate.keep fates i with
      | .refused => { r with status := St.busy, act := none }
      | .deferred => { r with data := 1, act := none }
      | _ => { r with act := none }
    | none => r)

def resultBytes (rs : List OpResult) : Bytes := rs.flatMap (fun r => leBytes r.status 2 ++ leBytes r.data 2)

/-- Commit one reply in phase 7 (R333): to HOST-IN for a remote owner, to the port for LCE_OPS, nothing for a rule. -/
def sendReply (s : State) (fates : List Fate) (r : LceReply) : State :=
  let rs := finishResults fates r.results
  match r.owner.cls with
  | 2 =>
    stageLce s r.owner.id (leBytes 1 1 ++ leBytes r.tag 1 ++ leBytes r.owner.gen 2 ++ leBytes rs.length 1 ++ leBytes 0 1
      ++ resultBytes rs) false
  | 1 => { s with lce := { s.lce with replies := s.lce.replies ++ [{ r with results := rs }] } }
  | _ => s

/-- Every reply goes out, a SET's entry as phase 6 settled it (R333). -/
def flushReplies (s : State) (fates : List Fate) : State :=
  let rs := s.lce.replies
  let s := { s with lce := { s.lce with writes := [], replies := [], triggers := [] } }
  rs.foldl (fun s r => sendReply s fates r) s

/-- The entries decided before a queued ACQUIRE stand from this tick on (R333). -/
def settleWaiters (s : State) (fates : List Fate) : State :=
  { s with lce := { s.lce with
      locks := s.lce.locks.map (fun k => { k with waiters := k.waiters.map (fun w => { w with before := finishResults fates w.before }) }) } }

/-- LCE keeps the records that it reads whole, by which the pins are driven (R31, R336). -/
def latchRecords (s : State) : State :=
  { s with lce := { s.lce with acts := s.lce.acts.mapIdx (fun i a => if actPoisoned s i then a else { a with record := actRec s i }) } }

/-- Phases 6 and 7. -/
def resolve (s : State) : State :=
  let s := if conflict s then inc s F.LCE_CNT0_CONFLICT else s
  let (p, forced) := forceAll s (proposals s) [] 33
  let fates := (List.range 32).map (exclFate s p)
  let s := forced.foldl (fun s i => actPacket s i 3 0 (match lastWrite s i with | some w => w.owner | none => (act s i).pendingOwner)) s
  let s := endPulses ((List.range 32).foldl (fun s i => settleAct s p forced fates i) s)
  flushReplies (settleWaiters (latchRecords s) fates) fates

/-! ### The tick -/

/-- An actuator takes INIT at the entry to OPERATE, where no tick runs (R335, R42): the INIT values in force break no interlock (R313). A
poisoned record holds the applied value (R336). -/
def takeInit (s : State) (i : Nat) : State :=
  let b := actRec s i
  if actPoisoned s i then s
  else
  let s := setAct s i { act s i with pending := none, pulseEnd := none, record := b }
  applyAct s i (if actType b = 0 then 0 else actValue (actType b) (actInit b)) 5 true Owner.none

/-- A new record changes TYPE or a pin, so that the actuator takes INIT (R313): in a tick as its first write, which the interlocks
resolve with the others (R315). -/
def recordChanged (s : State) (i : Nat) (b : Bytes) : State :=
  if !lceRuns s then takeInit s i
  else
    let s := setAct s i { act s i with pending := none, pulseEnd := none }
    { s with lce := { s.lce with writes := s.lce.writes ++ [⟨i, actValue (actType b) (actInit b), Owner.none, .init⟩] } }

/-- One commit is installed (R313, R316, R323). -/
def installOne (s : State) (t i : Nat) (b : Bytes) : State :=
  let old := if t = 2 && actPoisoned s i then (act s i).record else memRead s (tblAddr t i) (tblSize t)
  let s := memWrite s (tblAddr t i) b
  match t with
  | 0 => ownerReset (setRule s i { Rule.fresh with gen := ((rule s i).gen + 1) % 65536 }) 0 i
  | 2 => if actType old ≠ actType b ∨ pinsOf old ≠ pinsOf b then recordChanged s i b else s
  | _ => s

/-- The commits that await the tick are installed, in commit order (R33). -/
def installCommit (s : State) : State :=
  let l := s.lce.commits
  l.foldl (fun s c => installOne s c.1 c.2.1 c.2.2) (setF { s with lce := { s.lce with commits := [] } } F.LCE_TBLWIN_PENDING 0)

/-- How long ago in mesh time the TIME domain stood at cycle `c`. -/
def cycleAgo (s : State) (c : Nat) : Nat :=
  (((s.tbu.cycles - c : Nat) : Int) * (1000000000 + trim s) / 1000000000).toNat

/-- The tick's start, 8,192 cycles of the LCE domain after that of the tick before, which are 30,720 of the TIME domain: the count, its
mesh time, the commits that take effect (R304). A command that comes after the tick's start finds it as many cycles ago. -/
def tickBegin (s : State) : State :=
  let c := s.lce.tickCyc + 30720
  let s := runTime s (c - s.tbu.cycles)
  let s := setF { s with lce := { s.lce with tick := s.lce.tick + 1, tickAt := now s - cycleAgo s c, tickCyc := c } } F.LCE_TICK_TICK
    (getF s F.LCE_TICK_TICK + 1)
  installCommit s

/-- The ticks whose start has come, at least one (R304). -/
def ticksDue (s : State) : Nat := max 1 ((s.tbu.cycles - s.lce.tickCyc) / 30720)

/-- Phases 1 and 2. -/
def tickInputs (s : State) : State :=
  let s := { s with lce := { s.lce with diLatched := getF s F.LCE_DI_LEVEL, visible := s.lce.raised, raised := [] } }
  let s := if lceRuns s then lockLosses (renewRules s) else s
  let w := s.lce.work
  let s : State := { s with lce := { s.lce with work := [] } }
  w.foldl doWork (if lceRuns s then waiterTimeouts s else s)

/-- LCE completes the LCE_OPS replies of HOST owners: HCP sends them (R436). -/
def hostReplies (s : State) : State :=
  let rs := s.lce.replies
  rs.foldl (fun s r =>
    let n := r.owner.id
    let seq := r.tag / 256
    if r.final then complete s n seq 0x2401 true St.ok (leBytes r.tag 1 ++ resultBytes r.results)
    else
      let st := if r.results.any (fun x => x.status == St.accepted) then St.accepted else St.ok
      match s.hcp.current with
      | some c => if c.orig.isNone ∧ HostPort.idx c.port = n ∧ c.op = 0x2401 ∧ c.seq = seq then finishCurrent s st (resultBytes r.results) else s
      | none => s)
    { s with lce := { s.lce with replies := [] } }

/-- CONTROL_TICK: the seven phases (R305). A halted or mirroring engine counts ticks, takes commits and answers its
mailbox, and no more. -/
def controlTick (s : State) : State :=
  let s := tickInputs (tickBegin s)
  let s :=
    if lceRuns s then
      let s := runRules s
      let s := (activeSeqs s).foldl seqAdvance s
      let s := cleanups s
      let s := resolve (readMem s Base.actuators 640)
      let s := grantWaiters s
      { s with lce := { s.lce with latched := false } }
    else flushReplies s []
  hostReplies { s with lce := { s.lce with results := [] } }

end Sys2Proof.Machine
end

