-- ==== Sys2Proof/Machine/ControlCmd.lean ====
section
/-! DEFINITION. LCE: pins, table commits, object state, mode changes, and the meanings of LCE's commands (R308–R337). -/

namespace Sys2Proof.Machine

/-! ### Output pins (R31, R308, R310, R312) -/

/-- The configuration nibble of DO pin `k` (LCE_DOCFGn). -/
def doCfg (s : State) (k : Nat) : Nat :=
  getF s ⟨F.LCE_DOCFG0_PIN0.addr + 4 * (k / 8), 4 * (k % 8), 4, 8, .rwl⟩

/-- A logic level at DO pin `k`: an open-drain pin lets go for high (R308). -/
def padLevel (s : State) (k : Nat) (high : Bool) : Level := if high then (if bit (doCfg s k) 0 then .highZ else .high) else .low

/-- An output stage at rest on a level. -/
def Level.pin : Level → Pin
  | .low => .low
  | .high => .high
  | .highZ => .highZ

/-- The stage of DO pin `k` for an active or inactive output: INV reverses its level (R308). -/
def activeLevel (s : State) (k : Nat) (active : Bool) : Level := padLevel s k (active != bit (doCfg s k) 1)
def doLevel (s : State) (k : Nat) (active : Bool) : Pin := (activeLevel s k active).pin

/-- The actuator that drives pin `k`, and whether as PINB, by the record that LCE last read whole: a poisoned word leaves the pin as it is
(R31, R336). -/
def pinAct (s : State) (k : Nat) : Option (Nat × Bool) :=
  ((List.range 32).find? (fun i =>
    let b := (act s i).record
    let ty := actType b
    ty != 0 && (u b 1 1 == k || (ty == 5 && u b 2 1 == k)))).map (fun i => (i, u (act s i).record 1 1 != k))

/-- The value that LCE computes for DO pin `k` (R312). -/
def lceDo (s : State) (k : Nat) : Pin :=
  match pinAct s k with
  | none => doLevel s k false
  | some (i, second) =>
    let a := act s i
    let b := a.record
    match actType b with
    | 3 => if a.applied = 0 then doLevel s k false else .pwm a.applied (bits (u b 8 4) 0 24) (activeLevel s k true) (activeLevel s k false)
    | 5 => doLevel s k (match a.coil with | some (x, _) => x == second | none => false)
    | _ => doLevel s k (a.applied != 0)

/-- What DO pin `k` takes behind an open gate (R31, entries 2 to 6). A pin whose safe state is hold keeps what it took at entry to
SAFEHOLD; a pin that held a PWM keeps the PWM (DESIGN CHOICE, log entry 125). -/
def doState (s : State) (k : Nat) : Pin :=
  match mode s with
  | .boot => .highZ
  | .safehold => (match bits (doCfg s k) 2 2 with | 0 => .low | 1 => (padLevel s k true).pin | 2 => .highZ | _ => nth .highZ s.lce.heldDo k)
  | .commission =>
    if bit (getF s F.LCE_TESTDO_EN) k then (padLevel s k (bit (getF s F.LCE_TESTDO_VAL) k)).pin else .highZ
  | _ => lceDo s k

/-- DO pin `k` (R31). -/
def doPin (s : State) (k : Nat) : Pin := if gateOpen s then doState s k else .highZ

/-- The DO pins as they stand at a SAFEHOLD cause, for the safe state hold (R31, R308). -/
def holdPins (s : State) : State := { s with lce := { s.lce with heldDo := (List.range 16).map (doState s) } }

/-- AO pin `k`, 0 or 1 (R31, R308). -/
def aoPin (s : State) (k : Nat) : Pin :=
  let f (g : Field) : Nat := getF s { g with addr := g.addr + 4 * k }
  if !gateOpen s then .highZ
  else
    match mode s with
    | .boot => .highZ
    | .safehold => if f F.LCE_AOSAFE0_HIZ = 1 then .highZ else .code (f F.LCE_AOSAFE0_CODE)
    | .commission => if f F.LCE_TESTAO0_EN = 1 then .code (f F.LCE_TESTAO0_CODE) else .highZ
    | _ =>
      match pinAct s (16 + k) with
      | some (i, _) => .code (act s i).applied
      | none => .code 0

/-! ### Table commits (R313, R316, R323) -/

/-- The staging image of an entry of table `t`. -/
def stagedEntry (s : State) (t : Nat) : Bytes :=
  (List.range (tblSize t / 4)).flatMap (fun w => leBytes (getF s (win F.LCE_TBLDATA_DATA w)) 4)

/-- Put bytes into the staging image. -/
def stageEntry (s : State) (b : Bytes) : State :=
  (List.range (b.length / 4)).foldl (fun s w => setF s (win F.LCE_TBLDATA_DATA w) (u b (4 * w) 4)) s

/-- REJECT codes: the first that applies (LCE_TBLWIN). -/
def rejects : List (Bool × Nat) → Nat
  | [] => 0
  | (bad, c) :: t => if bad then c else rejects t

/-- The check of a rule (R316, R317, R319, R320). -/
def ruleReject (i : Nat) (b : Bytes) : Nat :=
  let fl := u b 0 1
  let ct := bits (u b 1 1) 0 4
  let at_ := bits (u b 1 1) 4 4
  let o := u b 12 1
  let op := u b 13 1
  let x := u b 24 1
  let lo := u b 16 4
  let hi := u b 20 4
  rejects [
    (6 < ct || 7 < at_ || (ct == 1 && 3 < op) || (ct == 2 && 1 < op), 1),
    ((ct == 2 && 15 < o) || (ct == 3 && 63 < o) || (ct == 5 && 31 < o) || (ct == 6 && 63 < o)
      || (at_ == 1 && 31 < x) || ((at_ == 2 || at_ == 3 || at_ == 4) && 63 < x) || (at_ == 7 && 31 < x), 2),
    (bits (u b 3 1) 0 2 == 3 || u b 2 1 == i || (bit fl 3 && at_ != 1 && at_ != 7) || (ct == 6 && 4 < op)
      || (ct == 1 && (!isFinite lo || !isFinite hi || (op ≤ 1 && fLt hi 0) || (2 ≤ op && fLt hi lo))), 3)]

/-- The check of a sequence (R322, R323). -/
def seqReject (s : State) (i : Nat) (b : Bytes) : Nat :=
  let n := u b 0 1
  let ab := u b 1 1
  let step (k : Nat) : Nat := u b (32 + 8 * k) 8
  let steps := (List.range (min n 32)).map (fun k => (k, step k))
  let op (w : Nat) : Nat := bits w 0 4
  let a (w : Nat) : Nat := bits w 8 8
  rejects [
    (seqActive s i, 6),
    (steps.any (fun x => 8 < op x.2), 1),
    (steps.any (fun x => (op x.2 == 1 && 31 < a x.2) || (op x.2 == 4 && 15 < a x.2) || (op x.2 == 5 && 63 < a x.2)), 2),
    (32 < n || (n != 0 && n ≤ ab) || (32 ≤ u b 2 1 && u b 2 1 != 255) || bits (u b 3 1) 0 2 == 3
      || (u b 4 2 == 0 && u b 2 1 != 255), 3),
    (steps.any (fun x =>
      (ab ≤ x.1 && !(op x.2 ≤ 2 || op x.2 == 5)) || (op x.2 == 6 && ab ≤ a x.2)
        || (op x.2 == 3 && ab ≤ bits x.2 56 8 && bits x.2 56 8 != 255)), 4)]

/-- The INIT values of the actuator records break an interlock (R313). -/
def initConflict (acts ilks : List Bytes) : Bool :=
  let on (i : Nat) : Bool := let b := nth [] acts i; actType b != 0 && actInit b != 0
  ilks.any (fun b =>
    (u b 0 1 == 1 && on (u b 1 1) && on (u b 2 1)) || (u b 0 1 == 2 && on (u b 1 1) && !on (u b 2 1)))

/-- The commit that awaits the next tick for an entry (R33). -/
def commitOf (s : State) (t i : Nat) : Option Bytes := (s.lce.commits.find? (fun c => c.1 == t && c.2.1 == i)).map (fun c => c.2.2)

/-- The actuator and interlock records as they will stand at the next tick. -/
def nextActs (s : State) : List Bytes := (List.range 32).map (fun i => (commitOf s 2 i).getD (actRec s i))
def nextIlks (s : State) : List Bytes := (List.range 16).map (fun i => (commitOf s 3 i).getD (ilkRec s i))

/-- The check of an actuator record (R311–R313). -/
def actReject (s : State) (i : Nat) (b : Bytes) : Nat :=
  let ty := actType b
  let others := ((List.range 32).filter (· != i)).flatMap (fun j => pinsOf (nth [] (nextActs s) j))
  let pins := pinsOf b
  let lk := actLock b
  rejects [
    (5 < ty, 1),
    ((ty == 4 && !(16 ≤ u b 1 1 && u b 1 1 ≤ 17)) || (ty != 4 && pins.any (15 < ·)), 2),
    (actRemote b == 3 || (32 ≤ lk && lk ≤ 254) || (ty == 5 && u b 6 2 == 0) || (ty == 3 && bits (u b 8 4) 0 24 < 1000), 3),
    (pins.any others.contains || !distinct pins, 4),
    (initConflict ((nextActs s).set i b) (nextIlks s), 5)]

/-- The check of an interlock record (R314, R313). -/
def ilkReject (s : State) (i : Nat) (b : Bytes) : Nat :=
  rejects [
    (2 < u b 0 1, 1),
    (u b 0 1 != 0 && (31 < u b 1 1 || 31 < u b 2 1), 2),
    (u b 0 1 != 0 && u b 1 1 == u b 2 1, 3),
    (initConflict (nextActs s) ((nextIlks s).set i b), 5)]

/-- The cause of rejection of the staged entry, 0 for none. -/
def tblReject (s : State) (t i : Nat) : Nat :=
  let b := stagedEntry s t
  match t with
  | 0 => ruleReject i b
  | 1 => seqReject s i b
  | 2 => actReject s i b
  | _ => ilkReject s i b

/-- LOAD (R337): an entry whose commit is pending is copied as committed. -/
def tblLoad (s : State) (t i : Nat) : State := stageEntry s ((commitOf s t i).getD (memRead s (tblAddr t i) (tblSize t)))

/-- Checks of LCE's registers (R337). -/
def lceCheck (s : State) (a v : Nat) : Nat :=
  match a with
  | 0x90008 =>
    let t := bits v 0 2
    let i := bits v 2 8
    if tblCount t ≤ i ∨ tblSize t / 4 ≤ bits v 10 7 then St.badParam
    else if bit v 18 then
      match tblReject (if bit v 17 then tblLoad s t i else s) t i with
      | 0 => 0
      | 6 => St.busy
      | _ => St.badParam
    else 0
  | _ => 0

/-- A rejected selection or commit records its cause: a selector beyond the table is cause 2 (R337, LCE_TBLWIN). -/
def lceRejected (s : State) (a v : Nat) : State :=
  let t := bits v 0 2
  let i := bits v 2 8
  if a ≠ 0x90008 then s
  else if tblCount t ≤ i ∨ tblSize t / 4 ≤ bits v 10 7 then setF s F.LCE_TBLWIN_REJECT 2
  else if bit v 18 then
    setF s F.LCE_TBLWIN_REJECT (tblReject (if bit v 17 then tblLoad s t i else s) t i)
  else s

/-- LOAD and COMMIT: a commit waits for the next tick, and replaces an earlier one of the same entry (R33). -/
def lceAct (s : State) (a v : Nat) : State :=
  match a with
  | 0x90008 =>
    let t := bits v 0 2
    let i := bits v 2 8
    let s := if bit v 17 then tblLoad s t i else s
    if bit v 18 then
      setF (setFlag { s with lce := { s.lce with commits := s.lce.commits.filter (fun c => !(c.1 == t && c.2.1 == i)) ++ [(t, i, stagedEntry s t)] } }
          F.LCE_TBLWIN_PENDING)
        F.LCE_TBLWIN_REJECT 0
    else s
  | _ => s

/-! ### Object state (R337) -/

def lockCode : LockSt → Nat
  | .free => 0
  | .held => 1
  | .cleanup => 2

/-- LCE_OBJSTAT0; a sequence that has run past step 31 shows it cut to the field's five bits. -/
def objStat0 (s : State) : Nat :=
  let i := getF s F.LCE_OBJWIN_INDEX
  match getF s F.LCE_OBJWIN_KIND with
  | 0 => (act s i).applied + 65536 * b2n (act s i).pending.isSome
  | 1 => (sequ s i).st + 8 * ((sequ s i).step % 32) + 256 * (sequ s i).cause
  | 2 =>
    let k := lock s i
    lockCode k.st + 4 * b2n k.implicit + 8 * k.waiters.length
      + (if k.st = .free then 0 else 256 * ownerCode k.owner)
  | _ => b2n (rule s i).cond + 2 * b2n (rule s i).st + 65536 * (rule s i).gen

/-- LCE_OBJSTAT1. -/
def objStat1 (s : State) : Nat :=
  let i := getF s F.LCE_OBJWIN_INDEX
  match getF s F.LCE_OBJWIN_KIND with
  | 0 => (act s i).pending.getD 0
  | 1 => if (sequ s i).st = 0 then 0 else (s.lce.tick - (sequ s i).start) % 2 ^ 32
  | 2 => if (lock s i).st = .free then 0 else (lock s i).owner.gen % 65536 + 65536 * leaseLeft s i
  | _ => (rule s i).count % 65536

/-- LCE_STAT.STATE. -/
def lceState (s : State) : Nat :=
  match mode s with
  | .commission => 1
  | .operate => 2
  | .spare => 3
  | _ => 0

/-! ### Modes (R335, R41, R42, R43) -/

def allInit (s : State) : State := (List.range 32).foldl takeInit s

def bumpGen (s : State) : State := setF s F.LCE_STAT_GEN (getF s F.LCE_STAT_GEN + 1)

/-- Test values return to their reset values on leaving COMMISSION (R310). -/
def dropTest (s : State) : State :=
  [F.LCE_TESTDO_VAL, F.LCE_TESTDO_EN, F.LCE_TESTAO0_CODE, F.LCE_TESTAO0_EN, F.LCE_TESTAO1_CODE, F.LCE_TESTAO1_EN].foldl clearF s

/-- Entry to SAFEHOLD (R41): running sequences end without their abort steps. -/
def lceHalt (s : State) : State :=
  (activeSeqs s).foldl (fun s k => seqPacket (setSeq s k { sequ s k with st := 4, waitTo := none, condAt := none }) k) s

/-- Free every lock and record its owner (R335, R42); `bump` also bumps the owner's generation. -/
def freeAll (s : State) (bump : Bool) : State :=
  (List.range 32).foldl (fun s l =>
    let k := lock s l
    if k.st = .free then s
    else
      let o := k.owner
      let s := k.waiters.foldl (fun s w =>
        reply s w.owner w.tag (w.before ++ List.replicate (w.after.length + 1) ⟨St.abortedPriorOwner, 0, none⟩) true) s
      let lost := if k.st = .held then some (o.cls, o.id) else k.lostOwner
      let s := lockPacket (setLock s l { Lock.fresh with lostOwner := lost }) l 3 o
      if bump then
        (if o.cls = 0 then setRule s o.id { rule s o.id with gen := ((rule s o.id).gen + 1) % 65536 }
         else if o.cls = 1 then { s with lce := { s.lce with hostGen := s.lce.hostGen.set o.id ((nth 0 s.lce.hostGen o.id + 1) % 65536) } }
         else s)
      else s) s

/-- Rules restart from their start values, generations kept. -/
def restartRules (s : State) : State :=
  { s with lce := { s.lce with rules := s.lce.rules.map (fun e => (e.1, { Rule.fresh with gen := e.2.gen })) } }

/-- The LCE domain starts: its first tick begins 250 µs later (R304, R459). -/
def startTicks (s : State) : State := { s with lce := { s.lce with tickCyc := s.tbu.cycles } }

/-- LCE's share of a mode entry (R335, R42, R43). -/
def lceMode (old new : Mode) (s : State) : State :=
  let s := if old = .commission ∧ new ≠ .commission then dropTest s else s
  let s := if old = .boot ∨ old = .roost then startTicks s else s
  let s := if old = .safehold then
      allInit (freeAll { s with lce := { s.lce with seqs := [] } } true) else s
  match new with
  | .operate =>
    if old = .boot ∨ old = .commission then restartRules (bumpGen (allInit s))
    else if old = .safehold then restartRules s
    else if old = .roost then restartRules { s with lce := { s.lce with latched := true } }
    else s
  | .roost => freeAll s false
  | _ => s

end Sys2Proof.Machine
end

