-- ==== Sys2Proof/Machine/Phy.lean ====
section
/-! DEFINITION. LPHY's waveform as pure functions: presets, header, coding, interleaving, the cell map, frame sizes, modes and
levels (R86, R87, R97–R118, R124), and the layout of a port's superframe (R153). -/

namespace Sys2Proof.Machine

/-! ### Presets (R101) -/

/-- The lanes of a preset, as a 128-bit mask; `custom` is the CUSTOM mask. -/
def presetMask (code custom : Nat) : Nat :=
  match code with
  | 0 => 2 ^ 22 - 1
  | 1 => (2 ^ 30 - 2 ^ 23) + 2 ^ 35
  | 2 => 2 ^ 117 - 1
  | 3 => 2 ^ 128 - 1
  | _ => custom

/-- The CUSTOM mask in port `n`'s registers. -/
def customMask (s : State) (n : Nat) : Nat :=
  getF s (F.laneMask n 0) + 2 ^ 32 * getF s (F.laneMask n 1) + 2 ^ 64 * getF s (F.laneMask n 2) + 2 ^ 96 * getF s (F.laneMask n 3)

/-- The preset lanes in force on port `n`: those of the frame in flight, else those of the registers (R33). -/
def portMask (s : State) (n : Nat) : Nat :=
  match (line s n).tx with
  | some _ => (line s n).mask
  | none => presetMask (getF s (F.LPHY_BAND_PRESET n)) (customMask s n)

/-- L_P. -/
def lanesOf (mask : Nat) : Nat := popCount mask 128

/-- HSYM of R101 and R110. -/
def hsymOf (lp : Nat) : Nat := max 2 (ceilDiv 252 lp)

/-! ### Checks (R109, R112) -/

/-- One step of the CRC8 register (R109). -/
def crc8Step (crc : Nat) (b : Bool) : Nat :=
  let sh := crc * 2 % 256
  if b != bit crc 7 then sh ^^^ 7 else sh

/-- CRC8 over header bits in transmission order (R109). -/
def crc8 (h : List Bool) : Nat := h.foldl crc8Step 0xFF

/-- The `w` bits of a number, least significant first. -/
def lsbBits (x : Nat) : Nat → List Bool
  | 0 => []
  | w + 1 => bit x 0 :: lsbBits (x / 2) w

/-- Header bits h[0]–h[75] (R108). -/
def headerBits (h : FrameHdr) : List Bool :=
  lsbBits h.length.toNat 11 ++ lsbBits h.mode.toNat 2 ++ lsbBits h.lmid.toNat 12 ++ lsbBits h.src.toNat 16
    ++ lsbBits h.dst.toNat 16 ++ [h.bcast] ++ lsbBits h.epoch.toNat 16 ++ lsbBits h.fcf.toNat 2

/-- All 84 header bits: the CRC8 register's most significant bit goes first (R109). -/
def headerAll (h : FrameHdr) : List Bool := headerBits h ++ (lsbBits (crc8 (headerBits h)) 8).reverse

/-- Eight steps of the reflected CRC-32 register. -/
def crc32Step (c : Nat) : Nat → Nat
  | 0 => c
  | k + 1 => crc32Step (if c % 2 = 1 then c / 2 ^^^ 0xEDB88320 else c / 2) k

/-- CRC-32 of IEEE 802.3 (R112). -/
def crc32 (b : Bytes) : Nat := (b.foldl (fun c x => crc32Step (c ^^^ x.toNat) 8) 0xFFFFFFFF) ^^^ 0xFFFFFFFF

/-! ### Header placement (R110, R111) -/

/-- Tone of a dibit (R99). -/
def toneOf (b0 b1 : Bool) : Nat :=
  match b0, b1 with
  | false, false => 0
  | false, true => 1
  | true, true => 2
  | true, false => 3

/-- Starts of the six header copies (R110). -/
def headerOfs (m : Nat) : Nat := nth 0 [0, 42, 84, 21, 63, 105] m

/-- The cell of copy `m` of header dibit `i` (R110). -/
def headerCell (m i : Nat) : Nat := 126 * (m / 3) + (i + headerOfs m) % 126

/-- The header dibit in header cell `n`, none beyond the copies (R110). -/
def headerDibitAt (n : Nat) : Option Nat :=
  if 252 ≤ n then none
  else ((List.range 6).filterMap (fun m => (List.range 42).find? (fun i => headerCell m i == n))).head?

/-- The cell map of R111: the symbol and the index among the live lanes of cell `n`, from the live-lane counts of the block's
symbols. -/
def cellMap : (counts : List Nat) → (s n : Nat) → Option (Nat × Nat)
  | [], _, _ => none
  | c :: cs, s, n => if c ≤ n then cellMap cs (s + 1) (n - c) else some (s, (n + 37 * s) % c)

/-- Lane of index `j` among the live lanes of a mask. -/
def laneAt (mask j : Nat) : Nat := nth 0 (setBits mask 128) j

/-! ### Payload coding (R112–R115) -/

/-- Encoder input bits: payload, CRC-32, six zero bits (R112). -/
def encoderBits (payload : Bytes) : List Bool :=
  ((payload ++ leBytes (crc32 payload) 4).map (fun b => lsbBits b.toNat 8)).flatten ++ List.replicate 6 false

/-- The convolutional encoder (R113): `h` holds u_(n−1) … u_(n−6). -/
def convEncode : (h : List Bool) → List Bool → List (Bool × Bool)
  | _, [] => []
  | h, u :: us =>
    let d (k : Nat) : Bool := nth false h (k - 1)
    (xor u (xor (d 2) (xor (d 3) (xor (d 5) (d 6)))), xor u (xor (d 1) (xor (d 2) (xor (d 3) (d 6)))))
      :: convEncode (u :: h.take 5) us

/-- Coded sequence with the puncturing of mode 0 (R113). -/
def codedBits (mode : Nat) (payload : Bytes) : List Bool :=
  ((convEncode (List.replicate 6 false) (encoderBits payload)).mapIdx
    (fun n ab => if mode = 0 ∧ n % 2 = 1 then [ab.1] else [ab.1, ab.2])).flatten

/-- N_i of a payload of `len` bytes (R112). -/
def inputBits (len : Nat) : Nat := 8 * (len + 4) + 6

/-- D, the dibits of one copy (R113, R114). -/
def dibits (mode len : Nat) : Nat :=
  let nc := if mode = 0 then 3 * inputBits len / 2 else 2 * inputBits len
  (nc + 1) / 2

/-- Q of R114: the smallest prime of 31 or more that does not divide D. -/
def interleaveQ (d : Nat) : Nat := (([31, 37, 41, 43, 47] : List Nat).find? (fun q => d % q != 0)).getD 31

/-- Place of dibit `i` within a copy (R114). -/
def place (d i : Nat) : Nat := i * interleaveQ d % d

/-- Repetition factor (R115). -/
def repeats (mode : Nat) : Nat := if mode = 3 then 6 else if mode = 2 then 4 else 1

/-- Payload cells of a frame (R115). -/
def payloadCells (mode len : Nat) : Nat := if len = 0 then 0 else repeats mode * dibits mode len

/-- Payload dibit `i` of the coded sequence (R114). -/
def payloadDibit (mode : Nat) (payload : Bytes) (i : Nat) : Bool × Bool :=
  let c := codedBits mode payload
  (nth false c i, nth false c (i + dibits mode payload.length))

/-- Symbols that `cells` cells need, given the live-lane counts of the positions that follow the header; none where they do
not fit (R115). -/
def symbolsFor : (counts : List Nat) → (cells : Nat) → Option Nat
  | _, 0 => some 0
  | [], _ + 1 => none
  | c :: cs, n + 1 => (symbolsFor cs (n + 1 - c)).map (· + 1)

/-! ### Lane maps (R140) -/

/-- The open map over a preset: every preset lane in every phase slot. -/
def openMap (mask : Nat) : Bytes := (List.replicate 16 (leBytes mask 16)).flatten

/-- Lanes of a map in phase slot `p`, preset lanes alone. -/
def mapLanes (map : Bytes) (mask p : Nat) : Nat := u map (16 * p) 16 &&& mask

/-- Live cells of a map. -/
def mapCells (map : Bytes) : Nat := sumN (map.map (fun b => popCount b.toNat 8))

def poolBase (ix : Nat) : Nat := Base.lanemap + 256 * ix

/-- Where a pool entry stands: in ROOST banks 8 and 9 have no power, and those that the parked record names are the parked ones, CUR's and
ALT's behind the record (R390, R391, log entry 31). -/
def poolAddr (s : State) (ix : Nat) : Nat :=
  if s.pmu.mode = .roost then
    match parentCtx s with
    | some c =>
      if rGet s c R.curix = ix then Base.parking + 64 else if rGet s c R.altix = ix then Base.parking + 320 else poolBase ix
    | none => poolBase ix
  else poolBase ix

/-- The map at a pool index; 0xFFFF is the open map (R141). -/
def poolMap (s : State) (mask ix : Nat) : Bytes := if ix = 0xFFFF then openMap mask else memRead s (poolAddr s ix) 256

/-- Some word of the map is poisoned (R32). -/
def mapPoisoned (s : State) (ix : Nat) : Bool := ix != 0xFFFF && poisoned s (poolAddr s ix) 256

/-- LPHY and ECHO read a stored map (R393). -/
def readMap (s : State) (ix : Nat) : State := if ix = 0xFFFF then s else readMem s (poolAddr s ix) 256

/-- LPHY and ECHO read a link's record and the map that CURIX names (R393). -/
def readLink (s : State) (ctx : Nat) : State := readMap (readMem s (recAddr s ctx) 64) (rGet s ctx R.curix)

/-! ### Positions (R103, R152) -/

/-- Positions of `n` access slots. -/
def allocPositions (s : State) (n : Nat) : Nat := n * syms s

/-- The start of position `j` of an allocation that begins at access slot `a`, 1/16 tick (R152). -/
def positionStart (s : State) (a j : Nat) : Nat :=
  slotStart s (a + j / syms s) + j % syms s * 147456 * 16

/-- The phase slot at an instant, 1/16 tick (R61). -/
def phaseSlotAt (s : State) (t : Nat) : Nat :=
  ((((t : Int) - dref s) % per s) * 16 / per s).toNat % 16

/-- The phase slot of a position: the one that contains its centre (R61). -/
def positionSlot (s : State) (a j : Nat) : Nat := phaseSlotAt s (positionStart s a j + 73728 * 16)

/-- The position would end after the end of its access slot, so it is left silent (R64). -/
def positionSilent (s : State) (a j : Nat) : Bool :=
  slotStart s (a + j / syms s + 1) < positionStart s a j + 147456 * 16

/-- Live-lane counts of positions `from .. from + n - 1` on a map. -/
def liveCounts (s : State) (map : Bytes) (mask a start n : Nat) : List Nat :=
  (List.range n).map (fun i => lanesOf (mapLanes map mask (positionSlot s a (start + i))))

/-- Frame size F of a payload on a map, in an allocation from access slot `a` with `avail` positions for it; none where it does
not fit (R103, R104). -/
def frameSize (s : State) (map : Bytes) (mask a avail mode len : Nat) : Option Nat :=
  let h := 2 + hsymOf (lanesOf mask)
  if avail < h then none
  else (symbolsFor (liveCounts s map mask a h (avail - h)) (payloadCells mode len)).map (· + h)

/-- Size of a frame on the open map, which no phase slot bears on (R153). -/
def openSize (lp mode len : Nat) : Nat := 2 + hsymOf lp + ceilDiv (payloadCells mode len) lp

/-! ### Tones sent -/

/-- Tone that preamble symbol `i` sends on lane `k` (R107). -/
def preambleTone (i k : Nat) : Nat := (k + 2 * i) % 4

/-- The tone of header symbol `i` on lane `k`, over the preset lanes (R110, R111). -/
def headerTone (h : FrameHdr) (mask i k : Nat) : Option Nat :=
  let lp := lanesOf mask
  (List.range (lp * hsymOf lp)).findSome? (fun n =>
    match cellMap (List.replicate (hsymOf lp) lp) 0 n with
    | some (sy, j) =>
      if sy = i ∧ laneAt mask j = k then
        some (match headerDibitAt n with
          | some d => toneOf (nth false (headerAll h) d) (nth false (headerAll h) (d + 42))
          | none => 0)
      else none
    | none => none)

/-- The tone of payload symbol `i` on lane `k`, for the lanes live in each payload symbol (R111, R114, R115). -/
def payloadTone (mode : Nat) (payload : Bytes) (lanes : List Nat) (i k : Nat) : Option Nat :=
  let d := dibits mode payload.length
  let counts := lanes.map lanesOf
  (List.range (sumN counts)).findSome? (fun n =>
    match cellMap counts 0 n with
    | some (sy, j) =>
      if sy = i ∧ laneAt (nth 0 lanes sy) j = k then
        some (if repeats mode * d ≤ n then 0
          else match (List.range d).find? (fun x => place d x == n % d) with
            | some x => let b := payloadDibit mode payload x; toneOf b.1 b.2
            | none => 0)
      else none
    | none => none)

/-- The tone of ack-tail symbol `i` (0, 1) on lane `k` for tail word `w` (R124). -/
def tailTone (mask w i k : Nat) : Option Nat :=
  let lp := lanesOf mask
  (List.range (2 * lp)).findSome? (fun n =>
    match cellMap [lp, lp] 0 n with
    | some (sy, j) =>
      if sy = i ∧ laneAt mask j = k then some (toneOf (bit w (2 * (n % 8))) (bit w (2 * (n % 8) + 1))) else none
    | none => none)

/-- The tone that a transmission sends in its symbol `j` on lane `k`: none on a lane that is silent there, or in a position that
R64 leaves silent, whose cells still count (R64, R98, R105, R116). -/
def frameTone (s : State) (mask : Nat) (t : LineTx) (j k : Nat) : Option Nat :=
  let h := 2 + hsymOf (lanesOf mask)
  if !bit mask k ∨ t.size ≤ j ∨ positionSilent s t.slot (t.first + j) then none
  else if t.kind = .ack then tailTone mask (leNat t.payload) j k
  else if j < 2 then some (preambleTone j k)
  else if j < h then headerTone t.hdr mask (j - 2) k
  else payloadTone t.hdr.mode.toNat t.payload
    ((List.range (t.size - h)).map (fun i => mapLanes t.map mask (positionSlot s t.slot (h + i)))) (j - h) k

/-- Lanes that send a tone in symbol `j` of a transmission (R64, R105, R124). -/
def sendingLanes (s : State) (mask : Nat) (t : LineTx) (j : Nat) : Nat :=
  if positionSilent s t.slot (t.first + j) then 0
  else if t.kind = .ack ∨ j < 2 + hsymOf (lanesOf mask) then mask
  else mapLanes t.map mask (positionSlot s t.slot j)

/-! ### Modes and levels (R87, R117) -/

/-- The mode derived from a margin in 1/64 dB, thresholds in 0.25 dB, with the hysteresis of 4 units against the last mode started
(R117). -/
def deriveMode (thrP thrN thr4 : Nat) (last : Nat) (margin : Option Int) : Nat :=
  match margin with
  | none => 3
  | some m =>
    let ok (code thr : Nat) : Bool := 16 * ((thr : Int) + (if code < last then 4 else 0)) ≤ m
    if ok 0 thrP then 0 else if ok 1 thrN then 1 else if ok 2 thr4 then 2 else 3

/-- The mode sent: the most robust of the derived mode, FLOOR, SFM's request, and REP6 in SAFEHOLD (R117). -/
def sendMode (s : State) (n derived request : Nat) : Nat :=
  max (max derived (getF s (F.LPHY_MODESEL_FLOOR n))) (max request (if mode s = .safehold then 3 else 0))

/-- The thermal cap acts on port `n` (R90). -/
def capActs (s : State) (n : Nat) : Bool := flag s F.LPA_THERM_ACTIVE && !flag s (F.LPA_CTL_XMODE n)

/-- The level that a transmission of configured level `cfg` may have now: the cap and SAFEHOLD (R53, R87). -/
def levelAsked (s : State) (n cfg : Nat) : Nat :=
  let l := if capActs s n then min cfg (getF s F.LPA_THERM_THERM_CAP) else cfg
  if mode s = .safehold then min l 8 else l

/-- The starting level L0 with the step granted (R87). -/
def startLevel (s : State) (n cfg granted : Nat) : Nat := min (levelAsked s n cfg) granted

/-- VFS, µV, from VLD in mV; 12 V at most; the external driver's does not depend on VLD (R86, R91). -/
def vfsOf (s : State) (n vld : Nat) : Nat := if flag s (F.LPA_CTL_XMODE n) then 2000000 else min 12000000 (800 * vld)

/-- 2⁶⁴ times the amplitude of a level step relative to full level: 1.5 dB a step, 10^(−1.5 (15 − step) / 20) to 2⁻⁶⁴ (R86). -/
def levelRatio (step : Nat) : Nat :=
  nth 0
  [1383310656191258947, 1644067796120674858, 1953978237746891969, 2322307487925641085, 2760067622193291230, 3280346516853521691,
   3898699142045675473, 4633612614428078043, 5507058913328037232, 6545151785117258514, 7778927475525239208, 9245272631732769526,
   10988027116076902052, 13059294702595756037, 15521000842791511299, 18446744073709551616] step

/-- Peak-to-peak output at a level step, in µV, for a full scale `vfs` in µV (R86). -/
def levelVpp (vfs step : Nat) : Nat := (quot 63 (vfs * levelRatio step : Nat) (2 ^ 64)).toNat

/-- The port can transmit and receive: present, EN 1. -/
def portOn (s : State) (n : Nat) : Bool :=
  portPresent s n && (n == 4 || flag s (F.LPA_CTL_EN n))

/-- VLD is in fault (R83). -/
def vldFault (s : State) : Bool := flag s F.LPA_VLD_UV || flag s F.LPA_VLD_OV

/-- The port has current sense (R91, R148). -/
def hasSense (s : State) (n : Nat) : Bool := !flag s (F.LPA_CTL_XMODE n) || flag s (F.LPA_CTL_XSENSE n)

/-! ### The driver (R84, R91, R94) -/

/-- A transmission of the port is on the line. -/
def driving (s : State) (n : Nat) : Bool := (line s n).tx.any (fun t => !t.sent)

/-- The driver is powered, or an external one takes its place: only then can a transmission begin (R84, R91). -/
def powered (s : State) (n : Nat) : Bool := flag s (F.LPA_CTL_XMODE n) || getF s (F.LPA_STAT_DRV n) != 0

/-- An idle driver may stay powered: not in BOOT, SPARE, or ROOST between its wakes (R36, R84). -/
def idlePowered (s : State) : Bool :=
  match s.pmu.mode with
  | .boot | .spare => false
  | .roost => s.sfm.awake
  | _ => true

/-- Time after the last symbol at which the outputs are back in high impedance: a free value of at most 20 µs (R85). -/
def releaseTime (s : State) (t : Nat) : Nat × State :=
  let (v, s) := draw s
  (t + v % 2458, s)

/-- The port drives the line at a level: driver or XDRV_EN, and the receive gain forced to code 0. -/
def driveOn (s : State) (n level : Nat) : State :=
  let x := flag s (F.LPA_CTL_XMODE n)
  let g := getF s (F.LPA_STAT_GAIN_NOW n)
  let s := modLine s n (fun l => { l with xdrv := x, agc := match l.agc with | some k => some k | none => some g })
  let s := setF (setF s (F.LPA_STAT_LEVEL_NOW n) level) (F.LPA_STAT_GAIN_NOW n) 0
  if x then s else setF s (F.LPA_STAT_DRV n) 2

/-- The port's outputs return to high impedance: the driver is IDLE, or OFF with EN 0 and where it may not stay powered; in
external-driver mode it stays OFF. -/
def driveOff (s : State) (n : Nat) : State :=
  let s := modLine s n (fun l => { l with xdrv := false })
  if flag s (F.LPA_CTL_XMODE n) then s else setF s (F.LPA_STAT_DRV n) (b2n (flag s (F.LPA_CTL_EN n) && idlePowered s))

/-! ### Layout (R153) and link phase (R173) -/

/-- Smallest G of R153 as an exponent. -/
def gexpOf (wb : Nat) : Nat := if wb ≤ 1 then 0 else if wb ≤ 2 then 1 else if wb ≤ 4 then 2 else 3

/-- A port's layout: W_B, GEXP, JSTART, DSTART, U (R153). -/
structure Layout where
  wb : Nat
  gexp : Nat
  jstart : Nat
  dstart : Nat
  uspan : Nat
  deriving DecidableEq, Repr

/-- The layout from a beacon's and a random-access frame's positions (R153). -/
def layoutFrom (wb us : Nat) : Layout :=
  { wb, gexp := gexpOf wb, jstart := 7 + wb, dstart := 7 + wb + max 8 us, uspan := us }

/-- The layout of a line port with `lp` preset lanes (R153). -/
def lineLayout (lp : Nat) : Layout :=
  layoutFrom (ceilDiv (openSize lp 3 48) 6) (ceilDiv (openSize lp 1 32 + 2) 6)

/-- A link's phase within period `p`, from the parent's beacon-slot index, the beacon period and the child's short address
(R173). -/
def linkPhase (p g b a : Nat) : Nat := if g ≤ p then b % g + g * (a % (p / g)) else a % p

end Sys2Proof.Machine
end

