-- ==== Sys2Proof/Machine/Echo.lean ====
section
/-! DEFINITION. ECHO: the phase-impedance map, views and margins, lane maps and their agreement, sweeps (R129–R150). -/

namespace Sys2Proof.Machine

/-! ### The map (R132–R136) -/

/-- What an unlisted cell of a port reads as. -/
def cellDefault (l : LinePort) : MapCell :=
  { zmag := 0xFFFF, zph := 0, imp := 0, noise := 0x3FF, stale := false, zage := l.cellAge, nage := l.cellAge }

/-- Cell 16 × lane + phase slot (R132). -/
def cellIx (lane p : Nat) : Nat := 16 * lane + p

def cellGet (l : LinePort) (i : Nat) : MapCell := assocGet (cellDefault l) l.cells i

def cellPut (s : State) (n i : Nat) (c : MapCell) : State :=
  modLine s n (fun l => { l with cells := cellSet (cellDefault l) l.cells i c })

/-- The 64-bit word of a cell (R132). -/
def cellWord (c : MapCell) : Nat :=
  c.zmag + 2 ^ 16 * code c.zph 12 + 2 ^ 28 * c.imp + 2 ^ 32 * c.noise + 2 ^ 47 * b2n c.stale + 2 ^ 48 * c.zage + 2 ^ 56 * c.nage

/-- Ageing at a superframe boundary (R133): every cell's ages, and IMP of non-zero cells every 16 superframes. -/
def ageCells (s : State) (n : Nat) : State :=
  let decay := sfn s % 16 == 0
  modLine s n (fun l =>
    let l' := { l with cellAge := satAdd 8 l.cellAge 1 }
    let age (c : MapCell) : MapCell :=
      { c with zage := satAdd 8 c.zage 1, nage := satAdd 8 c.nage 1, imp := if decay then c.imp - 1 else c.imp }
    { l' with cells := (l.cells.map (fun e => (e.1, age e.2))).filter (fun e => e.2 != cellDefault l') })

/-- Two magnitudes differ by more than `db` dB (R133). -/
def zStepped (db a b : Nat) : Bool :=
  let hi := max a b
  let lo := min a b
  10 ^ db * lo ^ 20 < hi ^ 20

/-- The signed angle brought within ±180.0°. -/
def wrapAngle (x : Int) : Int :=
  let y := (x + 1800) % 3600 - 1800
  if y = -1800 ∧ 0 < x then 1800 else y

/-- An impedance measurement enters a cell; `always` for a sweep (R133).  DESIGN CHOICE: ZSTEPS counts every step, also where the old
value is replaced for another cause. -/
def measureZ (s : State) (n i mag : Nat) (ph : Int) (always : Bool) : State :=
  let c := cellGet (line s n) i
  let mag := min mag 0xFFFE
  let ph := clampI (-1800) 1800 ph
  let step := c.zmag != 0xFFFF && zStepped (getF s (F.LPHY_ECHOCFG_ZSTEP n)) mag c.zmag
  let out := always || c.stale || c.zmag == 0xFFFF || getF s (F.LPHY_ECHOAGE_ZAGE_MAX n) < c.zage || step
  let s := if step then inc s (F.LPHY_ECHOCNT_ZSTEPS n) else s
  let c' :=
    if out then { c with zmag := mag, zph := ph }
    else { c with zmag := ((c.zmag : Int) + quot 13 ((mag : Int) - c.zmag) 4).toNat,
                  zph := wrapAngle (c.zph + quot 14 (wrapAngle (ph - c.zph)) 4) }
  cellPut s n i { c' with stale := false, zage := 0 }

/-- A noise measurement enters a cell (R133): one eighth of the way, rounded towards the new value. -/
def measureNoise (s : State) (n i noise : Nat) : State :=
  let c := cellGet (line s n) i
  let v := min noise 1022
  let nv :=
    if c.noise = 0x3FF ∨ getF s (F.LPHY_ECHOAGE_NAGE_MAX n) < c.nage then v
    else if c.noise ≤ v then c.noise + ceilDiv (v - c.noise) 8
    else c.noise - ceilDiv (c.noise - v) 8
  cellPut s n i { c with noise := nv, nage := 0 }

/-- An erased cell counts in IMP and takes no measurement (R134). -/
def markErased (s : State) (n i : Nat) : State :=
  let c := cellGet (line s n) i
  cellPut s n i { c with imp := min 15 (c.imp + 1) }

/-- The cells of phase slot `p` are stale for each of these lanes. -/
def setStale (s : State) (n lanes p : Nat) : State :=
  (setBits lanes 128).foldl (fun s k =>
    let c := cellGet (line s n) (cellIx k p)
    cellPut s n (cellIx k p) { c with stale := true }) s

/-- A limited symbol marks the cells of its phase slot stale for every lane that sent a tone in it (R134). -/
def markLimited (s : State) (n lanes p : Nat) : State := inc (setStale s n lanes p) (F.LPHY_ECHOCNT_STALEMARK n)

/-- On a wake from ROOST every cell is unmeasured (R136). -/
def clearCells (s : State) : State :=
  { s with lines := s.lines.map (fun l => { l with cells := [], cellAge := 0, quiet := [] }) }

/-- The port measures impedance (R135). -/
def zSense (s : State) (n : Nat) : Bool := hasSense s n

/-- A cell is stale (R133); a port without current sense takes the impedance condition as met (R135). -/
def cellStale (s : State) (n : Nat) (c : MapCell) : Bool :=
  c.stale || (zSense s n && getF s (F.LPHY_ECHOAGE_ZAGE_MAX n) < c.zage) || getF s (F.LPHY_ECHOAGE_NAGE_MAX n) < c.nage

/-- Both quantities of a cell are measured. -/
def cellMeasured (s : State) (n : Nat) (c : MapCell) : Bool := (!zSense s n || c.zmag != 0xFFFF) && c.noise != 0x3FF

/-! ### Link records and the pool (R140, R141) -/

/-- S(g) of a link (R131). -/
def sGroup (s : State) (ctx g : Nat) : Nat := memNat s (recAddr s ctx + g) 1

/-- A link's record starts on the open map (R141). -/
def initRecord (s : State) (ctx : Nat) : State :=
  let s := memWrite s (recAddr s ctx) (List.replicate 32 0xFF)
  let s := rSet (rSet (rSet s ctx R.cur 0) ctx R.alt 0) ctx R.curix 0xFFFF
  let s := rSet (rSet (rSet s ctx R.altix 0xFFFF) ctx R.viewix 0xFFFF) ctx R.peermarg 0x8000
  let own := decide (ownAddr s < cGet s ctx C.pshort)
  let s := rSet (rSet s ctx R.ownmarg 0x8000) ctx R.nextlmid (1 + 0x8000 * b2n own)
  memWrite s (recAddr s ctx + 48) (List.replicate 16 0)

/-- Established line-port contexts: the links that ECHO serves. -/
def lineLinks (s : State) : List Nat := (ctxTouched s).filter (fun c => !cProvisional s c && cPort s c < 4)

/-- Pool entries in use. -/
def poolUsed (s : State) : List Nat :=
  ((((ctxTouched s).filter (fun c => cPort s c < 4)).map (fun c => [rGet s c R.curix, rGet s c R.altix, rGet s c R.viewix])).flatten).filter
    (fun i => i < 4096)

/-- A free pool entry: the lowest. -/
def poolFree (s : State) : Option Nat := (List.range 4096).find? (fun i => !(poolUsed s).contains i)

def curLmid (s : State) (ctx : Nat) : Nat := bits (rGet s ctx R.cur) 0 12
def altLmid (s : State) (ctx : Nat) : Nat := bits (rGet s ctx R.alt) 0 12
/-- State of ALT: 0 empty, 1 NEW, 2 OLD. -/
def altState (s : State) (ctx : Nat) : Nat := bits (rGet s ctx R.alt) 12 2
def isMapless (s : State) (ctx : Nat) : Bool := bit (rGet s ctx R.cur) 15
def isOwner (s : State) (ctx : Nat) : Bool := bit (rGet s ctx R.nextlmid) 15

/-- The bytes of a stored map with every phase slot of a poisoned word dead (R32, R150). -/
def mapSeen (s : State) (mask ix : Nat) : Bytes :=
  if ix = 0xFFFF then openMap mask
  else
    ((List.range 8).map (fun w =>
      if poisoned s (poolAddr s ix + 32 * w) 32 then List.replicate 32 0 else memRead s (poolAddr s ix + 32 * w) 32)).flatten

/-- CUR of a link; one whose record holds a poisoned word has no live lane (R32). -/
def curMap (s : State) (ctx : Nat) : Bytes :=
  if recPoisoned s ctx then List.replicate 256 0 else mapSeen s (portMask s (cPort s ctx)) (rGet s ctx R.curix)

/-- The map that a received LMID names for a link, where the link holds it and it is readable (R123, R145). -/
def heldMap (s : State) (ctx lmid : Nat) : Option Bytes :=
  let m := portMask s (cPort s ctx)
  let ix :=
    if lmid = 0 then some 0xFFFF
    else if curLmid s ctx = lmid then some (rGet s ctx R.curix)
    else if altState s ctx ≠ 0 ∧ altLmid s ctx = lmid then some (rGet s ctx R.altix)
    else none
  match ix with
  | some i => if mapPoisoned s i || recPoisoned s ctx then none else some (mapSeen s m i)
  | none => none

/-! ### Views and margins (R137, R138) -/

/-- The m of a cell in 0.25 dB units, where S(g) is measured. -/
def cellM (s : State) (ctx lane : Nat) (c : MapCell) : Option Int :=
  let g := sGroup s ctx (lane / 4)
  if g = 0xFF then none else some (2 * (g : Int) - c.noise)

/-- State of one cell in a link's view (R137). -/
def viewCell (s : State) (n ctx mask cur lane p : Nat) : Bool :=
  let c := cellGet (line s n) (cellIx lane p)
  let keep := bit cur lane
  if !bit mask lane then false
  else if cellStale s n c || !cellMeasured s n c then keep
  else
    match cellM s ctx lane c with
    | none => keep
    | some m =>
      if zSense s n && c.zmag < getF s (F.LPHY_ECHOCFG_ZMIN n) then false
      else if getF s (F.LPHY_ECHOCFG_IMP_DEAD n) ≠ 0 ∧ getF s (F.LPHY_ECHOCFG_IMP_DEAD n) ≤ c.imp then false
      else if (getF s (F.LPHY_ECHOCFG_LIVE_ON n) : Int) ≤ m then true
      else if m < getF s (F.LPHY_ECHOCFG_LIVE_OFF n) then false
      else keep

/-- An end's view of a link, as a lane map (R137). -/
def viewOf (s : State) (ctx : Nat) : Bytes :=
  let n := cPort s ctx
  let mask := portMask s n
  let cur := curMap s ctx
  ((List.range 16).map (fun p =>
    leBytes (natOfBits ((List.range 128).map (fun k => viewCell s n ctx mask (mapLanes cur mask p) k p))) 16)).flatten

/-- The element of rank `r`, lowest first. -/
def rankOf (l : List Int) (r : Nat) : Option Int :=
  l.find? (fun x => (l.filter (fun y => y < x)).length ≤ r && r < (l.filter (fun y => y ≤ x)).length)

/-- An end's receive margin of a link (R138). -/
def marginOf (s : State) (ctx : Nat) : Option Int :=
  let n := cPort s ctx
  let mask := portMask s n
  let cur := curMap s ctx
  let ms := ((List.range 16).map (fun p =>
    (setBits (mapLanes cur mask p) 128).filterMap (fun k =>
      let c := cellGet (line s n) (cellIx k p)
      if cellStale s n c || !cellMeasured s n c then none else cellM s ctx k c))).flatten
  rankOf ms (ms.length / 10)

/-- A margin as its 16-bit code: 0x8000 for none (R141). -/
def marginCode (m : Option Int) : Nat :=
  match m with
  | none => 0x8000
  | some v => code (clampI (-32767) 32767 v) 16

def marginVal (c : Nat) : Option Int := if c = 0x8000 then none else some (signed c 16)

/-- Sixteen times the margin that LPHY uses for a frame that starts at `level` (R138). -/
def margin16 (s : State) (ctx level : Nat) : Option Int :=
  (marginVal (rGet s ctx R.peermarg)).map (fun m => 16 * m + 96 * level - 6 * rGet s ctx R.lmean)

/-- A frame's starting level enters L̄ (R138, R141). -/
def countLevel (s : State) (ctx level : Nat) : State :=
  let s := modLink s ctx (fun l => { l with lvlSum := l.lvlSum + level, lvlCnt := l.lvlCnt + 1 })
  let l := link s ctx
  rSet s ctx R.lmean (quot 15 (16 * (l.lvlSum + l.prevSum : Nat)) (l.lvlCnt + l.prevCnt)).toNat

/-- A REPORT arrived: L̄ runs from the report before the last one on; with no frame in that time it is a free value
(R138). -/
def rollLevels (s : State) (ctx : Nat) : State :=
  let s := modLink s ctx (fun l => { l with prevSum := l.lvlSum, prevCnt := l.lvlCnt, lvlSum := 0, lvlCnt := 0 })
  let l := link s ctx
  if l.prevCnt = 0 then
    let (v, s) := draw s
    rSet s ctx R.lmean v
  else rSet s ctx R.lmean (quot 15 (16 * (l.prevSum : Nat)) l.prevCnt).toNat

/-! ### MAPX elements (R142) -/

/-- Runs of a 16-bit cyclic mask: first and last phase slot. -/
def maskRuns (m : Nat) : List (Nat × Nat) :=
  if m = 0xFFFF then [(0, 15)]
  else
    ((List.range 16).filter (fun p => bit m p && !bit m ((p + 15) % 16))).map (fun p =>
      (p, (p + ((List.range 16).filter (fun k => (List.range (k + 1)).all (fun j => bit m ((p + j) % 16)))).length - 1) % 16))

/-- Runs in which map `b` differs from map `a` over the preset lanes. -/
def mapRuns (a b : Bytes) : List Nat :=
  ((List.range 128).map (fun k =>
    let at_ (m : Bytes) (p : Nat) : Bool := bit (u m (16 * p + k / 8) 1) (k % 8)
    let mk (v : Bool) : Nat := natOfBits ((List.range 16).map (fun p => at_ b p == v && at_ a p != v))
    let enc (v : Bool) (r : Nat × Nat) : Nat := k + 2 ^ 7 * r.1 + 2 ^ 11 * r.2 + 2 ^ 15 * b2n v
    (maskRuns (mk true)).map (enc true) ++ (maskRuns (mk false)).map (enc false))).flatten

/-- Set or clear one cell of a map. -/
def mapPut (m : Bytes) (k p : Nat) (v : Bool) : Bytes :=
  let i := 16 * p + k / 8
  m.set i (BitVec.ofNat 8 (withBit (u m i 1) (k % 8) v))

/-- A map with a run applied; a run whose last slot is lower than its first wraps (R142). -/
def applyRun (m : Bytes) (r : Nat) : Bytes :=
  let first := bits r 7 4
  let last := bits r 11 4
  (List.range ((last + 16 - first) % 16 + 1)).foldl (fun m j => mapPut m (bits r 0 7) ((first + j) % 16) (bit r 15)) m

/-- A map cut to the preset lanes (R140). -/
def cutMap (m : Bytes) (mask : Nat) : Bytes :=
  ((List.range 16).map (fun p => leBytes (mapLanes m mask p) 16)).flatten

/-- Cells in which two maps differ. -/
def mapDiff (a b : Bytes) : Nat := sumN ((a.zip b).map (fun e => popCount (e.1.toNat ^^^ e.2.toNat) 8))

/-- Some cell live in `cur` and in `last` is dead in `m`. -/
def newlyDead (cur last m : Bytes) : Bool :=
  ((cur.zip last).zip m).any (fun e => (e.1.1.toNat &&& e.1.2.toNat &&& (255 - e.2.toNat)) != 0)

def andMap (a b : Bytes) : Bytes := (a.zip b).map (fun e => e.1 &&& e.2)

/-- The tail of an element: runs where they number 128 or fewer, the whole map otherwise (R142); COUNT of a whole map
is 0. -/
def mapTail (full : Bool) (base m : Bytes) : Nat × Nat × Bytes :=
  let rs := mapRuns base m
  if full || 128 < rs.length then (0, 0, m) else (1, rs.length, (rs.map (fun r => leBytes r 2)).flatten)

/-- A REPORT element (R142).  DESIGN CHOICE: without a view its FORM and COUNT are 0 (log entry 182). -/
def reportElem (lmid : Nat) (margin : Nat) (view : Option (Nat × Nat × Bytes)) : Bytes :=
  match view with
  | some (form, cnt, tail) => leBytes 1 1 ++ leBytes (lmid + 2 ^ 12 * form + 2 ^ 13) 2 ++ leBytes margin 2 ++ leBytes cnt 1 ++ tail
  | none => leBytes 1 1 ++ leBytes lmid 2 ++ leBytes margin 2 ++ leBytes 0 1

/-- A PROPOSE element (R142).  DESIGN CHOICE: of the open map, which carries no runs, its FORM and COUNT are 0 (log entry 182). -/
def proposeElem (lmid base : Nat) (map : Nat × Nat × Bytes) : Bytes :=
  if lmid = 0 then leBytes 2 1 ++ leBytes 0 2 ++ leBytes base 2 ++ leBytes 0 1
  else leBytes 2 1 ++ leBytes (lmid + 2 ^ 12 * map.1) 2 ++ leBytes base 2 ++ leBytes map.2.1 1 ++ map.2.2

/-- Bytes of the element that a body begins with (R142). -/
def elemSize (b : Bytes) : Nat :=
  let w := u b 1 2
  let tail := if bit w 12 then 2 * u b 5 1 else 256
  if u b 0 1 = 1 then (if bit w 13 then 6 + tail else 6)
  else if u b 0 1 = 2 then (if bits w 0 12 = 0 then 6 else 6 + tail)
  else b.length

/-- The map of an element with its runs applied to `base`, or its whole map. -/
def elemMap (b base : Bytes) : Bytes :=
  let tail := b.drop 6
  if bit (u b 1 2) 12 then (List.range (u b 5 1)).foldl (fun m i => applyRun m (u tail (2 * i) 2)) base
  else padTo 256 (tail.take 256)

/-- The element that rides at the head of the next frame to a peer: a PROPOSE before a REPORT. -/
def pendingElem (l : Link) : Bytes := if l.propose.isEmpty then l.report else l.propose

/-- Both ends hold short addresses (R141). -/
def bothShort (s : State) (ctx : Nat) : Bool :=
  ownValid s && cGet s ctx C.pshort != 0xFFFF

/-- Store a map in a pool entry. -/
def poolPut (s : State) (ix : Nat) (m : Bytes) : State := memWrite s (poolAddr s ix) m

/-- The last view reported, or stored from the peer; CUR before any is. -/
def lastView (s : State) (ctx : Nat) : Bytes :=
  if rGet s ctx R.viewix = 0xFFFF then curMap s ctx else mapSeen s (portMask s (cPort s ctx)) (rGet s ctx R.viewix)

/-- Keep a view in the VIEWIX entry, taking a free entry for it.  DESIGN CHOICE: without a free entry none is kept. -/
def keepView (s : State) (ctx : Nat) (m : Bytes) : State :=
  if rGet s ctx R.viewix < 4096 then poolPut s (rGet s ctx R.viewix) m
  else
    match poolFree s with
    | some i => poolPut (rSet s ctx R.viewix i) i m
    | none => s

/-- ECHO sends elements in this mode: not in SPARE, not in COMMISSION (R35, R150, R520). -/
def echoSends (s : State) : Bool := mode s == .operate || mode s == .safehold || mode s == .roost

/-- The REPORT decision of an end (R143).  DESIGN CHOICE: a margin against none counts as differing by 8 units or more. -/
def reportDecide (s : State) (ctx : Nat) : State :=
  if !echoSends s || (link s ctx).reported || !bothShort s ctx then s
  else
    let n := cPort s ctx
    let margin := marginOf s ctx
    let own := marginVal (rGet s ctx R.ownmarg)
    let c3 := match margin, own with
      | some a, some b => 8 ≤ (a - b).natAbs
      | none, none => false
      | _, _ => true
    let max_ := getF s F.LPHY_ECHOLINK_REPORT_MAX
    let c4 := max_ != 0 && max_ ≤ rGet s ctx R.since
    let sent (s : State) (e : Bytes) : State :=
      let s := modLink s ctx (fun l => { l with report := e, reported := true, full := if isOwner s ctx then l.full else false })
      rSet (rSet s ctx R.since 0) ctx R.ownmarg (marginCode margin)
    if isOwner s ctx then
      if c3 || c4 then sent s (reportElem (curLmid s ctx) (marginCode margin) none) else s
    else
      let v := viewOf s ctx
      let last := lastView s ctx
      if c3 || c4 || getF s (F.LPHY_ECHOAGE_CHG_MIN n) ≤ mapDiff v last || newlyDead (curMap s ctx) last v then
        let e := reportElem (curLmid s ctx) (marginCode margin) (some (mapTail (link s ctx).full (curMap s ctx) v))
        keepView (sent s e) ctx v
      else s

/-- Install a proposal as ALT in state NEW and carry its PROPOSE (R144). -/
def proposeMap (s : State) (ctx lmid ix : Nat) (m : Bytes) : State :=
  let full := (link s ctx).full || mapPoisoned s (rGet s ctx R.curix) || mapPoisoned s (rGet s ctx R.viewix)
  let e := proposeElem lmid (curLmid s ctx) (mapTail full (curMap s ctx) m)
  let s := if lmid = 0 then s else poolPut s ix m
  let s := rSet (rSet (rSet s ctx R.alt (lmid + 2 ^ 12)) ctx R.altix ix) ctx R.unack 0
  let nl := rGet s ctx R.nextlmid
  let s :=
    if lmid = 0 then s
    else rSet s ctx R.nextlmid ((if bits nl 0 12 = 0xFFF then 1 else bits nl 0 12 + 1) + 0x8000)
  inc (modLink s ctx (fun l => { l with propose := e, proposed := e, full := false, altMapless := lmid == 0 })) F.LPHY_MAPXCNT_PROPOSALS

/-- The PROPOSE decision of the owner (R144).  DESIGN CHOICE: EXHAUST counts at every recompute at which a proposal waits. -/
def proposeDecide (s : State) (ctx : Nat) : State :=
  if !echoSends s || !isOwner s ctx || altState s ctx ≠ 0 || !bothShort s ctx then s
  else
    let n := cPort s ctx
    let cur := curMap s ctx
    let cand := andMap (viewOf s ctx) (lastView s ctx)
    if getF s (F.LPHY_ECHOAGE_CHG_MIN n) ≤ mapDiff cand cur || newlyDead cur cur cand then
      if mapCells cand < getF s F.LPHY_ECHOLINK_MINCELLS then
        if rGet s ctx R.curix = 0xFFFF then s else proposeMap s ctx 0 0xFFFF (openMap (portMask s n))
      else
        match poolFree s with
        | some i => proposeMap s ctx (bits (rGet s ctx R.nextlmid) 0 12) i cand
        | none => inc s F.LPHY_MAPPOOL_EXHAUST
    else s

/-- The owner of a link whose ALT holds a poisoned word sends its next proposal whole (R150). -/
def altPoison (s : State) (ctx : Nat) : State :=
  if isOwner s ctx && altState s ctx != 0 && mapPoisoned s (rGet s ctx R.altix) then modLink s ctx (fun l => { l with full := true }) else s

/-- ECHO recomputes a link (R139), unless its record is unreadable (R32). -/
def echoRecompute (s : State) (ctx : Nat) : State :=
  if cEstablished s ctx && cPort s ctx < 4 then
    if recPoisoned s ctx then readLink s ctx else proposeDecide (reportDecide (altPoison (readLink s ctx) ctx) ctx) ctx
  else s

/-! ### Map agreement (R145) -/

/-- CUR and ALT change places; ALT takes state `st` (R145). MAPLESS belongs to a map that R144 proposed, and follows it (R146).  DESIGN
CHOICE: both marks of rule 4 are cleared at every swap, so that an ack from before a swap back counts no more; and after a takeover an open
map in ALT OLD, of which the mirrored record does not tell whether it was proposed, is not MAPLESS when it is CUR again (log entry 216). -/
def swapMaps (s : State) (ctx st : Nat) : State :=
  let cl := curLmid s ctx
  let al := altLmid s ctx
  let ci := rGet s ctx R.curix
  let ai := rGet s ctx R.altix
  let ml := isMapless s ctx
  -- an open map that is newer than CUR came with a proposal; of an older one the link knows
  let s := rSet (rSet s ctx R.cur (al + 0x8000 * b2n (al == 0 && (altState s ctx == 1 || (link s ctx).altMapless)))) ctx R.curix ai
  modLink (rSet (rSet s ctx R.alt (cl + 2 ^ 12 * st)) ctx R.altix ci) ctx (fun l => { l with altMapless := ml })

/-- Once both directions have worked on the newer map, the OLD entry is freed (R145, rule 4). -/
def freeOld (s : State) (ctx : Nat) : State :=
  let a := rGet s ctx R.alt
  if altState s ctx = 2 ∧ bit a 14 ∧ bit a 15 then rSet (rSet s ctx R.alt 0) ctx R.altix 0xFFFF else s

/-- Set a mark of ALT. -/
def altMark (s : State) (ctx b : Nat) : State := freeOld (rSet s ctx R.alt (withBit (rGet s ctx R.alt) b true)) ctx

/-- A frame accepted from the peer under an LMID (R145, rules 3 and 4). -/
def mapFrameAccepted (s : State) (ctx lmid : Nat) : State :=
  if altState s ctx = 1 ∧ altLmid s ctx = lmid then altMark (swapMaps s ctx 2) ctx 14
  else if altState s ctx = 2 ∧ curLmid s ctx = lmid then altMark s ctx 14
  else s

/-- An own frame was acked: the element it carried is delivered, the owner swaps on its PROPOSE (rule 1), and a frame on the
newer map marks ALT (rule 4). -/
def mapFrameAcked (s : State) (ctx lmid mapx : Nat) : State :=
  let s :=
    if mapx = 1 then modLink s ctx (fun l => { l with report := [], mapxAlone := false })
    else if mapx = 2 then
      let s := modLink s ctx (fun l => { l with propose := [], mapxAlone := false })
      if isOwner s ctx ∧ altState s ctx = 1 then rSet (swapMaps s ctx 2) ctx R.unack 0 else s
    else s
  if altState s ctx = 2 ∧ curLmid s ctx = lmid then altMark (rSet s ctx R.unack 0) ctx 15 else s

/-- The PROPOSE of the map in ALT, from the maps that the link holds. -/
def altPropose (s : State) (ctx : Nat) : Bytes :=
  proposeElem (altLmid s ctx) (curLmid s ctx)
    (mapTail false (curMap s ctx) (mapSeen s (portMask s (cPort s ctx)) (rGet s ctx R.altix)))

/-- The owner carries the PROPOSE of ALT in state NEW again: the one that it sent for that map, or after a takeover one formed from the
mirrored maps (R145). -/
def carryAgain (s : State) (ctx : Nat) : State :=
  modLink s ctx (fun l => { l with
    propose := if l.proposed.isEmpty || bits (u l.proposed 1 2) 0 12 != altLmid s ctx then altPropose s ctx else l.proposed })

/-- An own frame on the newer map went unacked (R145, rule 5). -/
def mapFrameUnacked (s : State) (ctx lmid : Nat) : State :=
  if altState s ctx = 2 ∧ curLmid s ctx = lmid then
    let k := satAdd 8 (rGet s ctx R.unack) 1
    let s := rSet s ctx R.unack k
    if getF s F.LPHY_ECHOLINK_MAPFAIL ≤ k ∧ !bit (rGet s ctx R.alt) 14 then
      let s := rSet (swapMaps s ctx 1) ctx R.unack 0
      if isOwner s ctx then inc (carryAgain s ctx) F.LPHY_MAPXCNT_REVERTS else s
    else s
  else s

/-- An accepted REPORT (R143).  DESIGN CHOICE: of one that names the owner's ALT in state NEW, which R143 does not mention, the margin counts
and the view is not stored (log entry 216). -/
def reportRx (s : State) (ctx : Nat) (b : Bytes) : State :=
  let lmid := bits (u b 1 2) 0 12
  let take (s : State) : State := rollLevels (rSet s ctx R.peermarg (u b 3 2)) ctx
  if !isOwner s ctx then take s
  else if lmid = curLmid s ctx then
    let s := take s
    let s :=
      if bit (u b 1 2) 13 then keepView s ctx (cutMap (elemMap b (curMap s ctx)) (portMask s (cPort s ctx))) else s
    proposeDecide s ctx
  else if altState s ctx = 2 ∧ lmid = altLmid s ctx then s
  else if altState s ctx = 1 ∧ lmid = altLmid s ctx then take s
  else
    let s := take s
    rSet (rSet (modLink s ctx (fun l => { l with full := true, propose := [] })) ctx R.alt 0) ctx R.altix 0xFFFF

/-- An accepted PROPOSE (R145, rule 2).  DESIGN CHOICE: where no pool entry is free for it, it is dropped without a count. -/
def proposeRx (s : State) (ctx : Nat) (b : Bytes) : State :=
  let lmid := bits (u b 1 2) 0 12
  let runs := bit (u b 1 2) 12
  if isOwner s ctx then s
  else if runs ∧ u b 3 2 % 4096 ≠ curLmid s ctx then
    inc (modLink s ctx (fun l => { l with full := true })) F.LPHY_MAPXCNT_BASEMISS
  else if lmid = 0 then
    modLink (rSet (rSet (rSet s ctx R.alt (2 ^ 12)) ctx R.altix 0xFFFF) ctx R.unack 0) ctx (fun l => { l with altMapless := true })
  else
    let m := cutMap (elemMap b (curMap s ctx)) (portMask s (cPort s ctx))
    let ix := if rGet s ctx R.altix < 4096 then some (rGet s ctx R.altix) else poolFree s
    match ix with
    | some i =>
      modLink (poolPut (rSet (rSet (rSet s ctx R.alt (lmid + 2 ^ 12)) ctx R.altix i) ctx R.unack 0) i m) ctx
        (fun l => { l with altMapless := false })
    | none => s

/-- An accepted MAPX element of either type. -/
def mapxRx (s : State) (ctx : Nat) (b : Bytes) : State :=
  if cPort s ctx < 4 ∧ 6 ≤ b.length then
    if u b 0 1 = 1 then reportRx s ctx b else if u b 0 1 = 2 then proposeRx s ctx b else s
  else s

/-- ECHO at a superframe boundary: ageing, then every link (R133, R139). -/
def echoBoundary (s : State) : State :=
  let s := (List.range (nLine s)).foldl ageCells s
  (lineLinks s).foldl (fun s c =>
    let s := rSet s c R.since (satAdd 8 (rGet s c R.since) 1)
    echoRecompute (modLink s c (fun l => { l with reported := false })) c) s

/-! ### Sweeps (R148, R149) -/

/-- SWEEP (R440). -/
def sweepEvent (s : State) (n result : Nat) : State :=
  raise s 3 0 (leBytes n 1 ++ leBytes result 1 ++ leBytes (getF s (F.LPHY_SWSTAT_POINTS n)) 2)

/-- Some other port's sweep holds or awaits requester 8's leave. -/
def sweepOthers (s : State) (n : Nat) : Bool :=
  (List.range 4).any (fun m => m != n && (getF s (F.LPHY_SWSTAT_STATE m) == 1 || getF s (F.LPHY_SWSTAT_STATE m) == 2))

/-- A port that drives a sweep point stops driving it, and is back in high impedance within 20 µs (R85, R94, R148). -/
def sweepOff (s : State) (n : Nat) : State :=
  if (line s n).sweepOn then
    let (e, s) := releaseTime s (now s)
    driveOff (modLine s n (fun l => { l with sweepOn := false, limitNow := false, drvTo := min l.drvTo e })) n
  else s

/-- A sweep ends: STATE, leave, event. -/
def sweepEnd (s : State) (n st result : Nat) : State :=
  let s := setF (sweepOff s n) (F.LPHY_SWSTAT_STATE n) st
  let s := modLine s n (fun l => { l with sweepLeft := [], sweepAbort := false })
  sweepEvent (if sweepOthers s n then s else withdrawLeave (releaseLeave s 8) 8) n result

/-- GO (R148).  DESIGN CHOICE: sweeps of several ports share the one leave of requester 8, which the last to end releases; the points of
earlier sweeps stay in the table until they are measured again. -/
def sweepStart (s : State) (n : Nat) : State :=
  let b := getF s (F.LPHY_SWEEP_FSTART n)
  let s := setF (setF (setF s (F.LPHY_SWSTAT_STATE n) 1) (F.LPHY_SWSTAT_POINTS n) 0) (F.LPHY_SWSTAT_BIN n) b
  let s := modLine s n (fun l => { l with sweepBin := b, sweepLeft := setBits (getF s (F.LPHY_SWPSMASK_PSMASK n)) 16,
                                          sweepAbort := false })
  if holdsLeave s 8 then setF s (F.LPHY_SWSTAT_STATE n) 2 else askLeave s 8 n 0 false

/-- The governor's answer reaches the sweeps that await leave: they run, or fail (R148). -/
def sweepAnswer (s : State) (granted : Bool) : State :=
  (List.range 4).foldl (fun s n =>
    if getF s (F.LPHY_SWSTAT_STATE n) = 1 then
      if granted then setF s (F.LPHY_SWSTAT_STATE n) 2
      else sweepEvent (setF (setFlag s (F.LPHY_SWSTAT_FAILED n)) (F.LPHY_SWSTAT_STATE n) 0) n 2
    else s) s

/-- At a phase-slot boundary an aborted sweep ends (R148). -/
def sweepSlot (s : State) : State :=
  (List.range 4).foldl (fun s n => if (line s n).sweepAbort then sweepEnd s n 0 1 else s) s

/-- A measured point enters the cell and the table (R148). -/
def sweepTake (s : State) (n slot b mag : Nat) (ph : Int) (z : ZExact) : State :=
  let s := measureZ s n (cellIx ((b - 12) / 4) slot) mag ph true
  let s := modLine s n (fun l =>
    let pts := (assocGet [] l.sweepTab b).filter (fun e => e.1 != slot)
    { l with sweepTab := assocSet l.sweepTab b ((slot, z.re, z.im, z.den) :: pts) })
  setF s (F.LPHY_SWSTAT_POINTS n) (getF s (F.LPHY_SWSTAT_POINTS n) + 1)

/-- The samples of a sweep point that ECHO demodulates, from 0.2 ms after the start of the phase slot to its end; the first was taken at
`from_`, one follows every 64 ticks (R148). -/
def sweepSpan (s : State) (from_ : Nat) (xs : List α) : List α :=
  let k (t : Nat) : Nat := ceilDiv (t - 16 * from_) 1024
  (xs.take (k (s.tbu.slotAt + per s / 16))).drop (k (s.tbu.slotAt + 16 * 24576))

/-- A point that engaged no limit: its result, if its current sufficed for one (R130), and the next point (R148, log entry 138).  DESIGN CHOICE:
FSTOP, FSTEP and PSMASK act as they stand when the next bin is taken, also where they are written while the sweep runs (log entry 217). -/
def sweepPoint (s : State) (n slot : Nat) (z : Option (Nat × Int)) (x : ZExact) : State :=
  let b := (line s n).sweepBin
  let s := match z with
    | some (mag, ph) => sweepTake s n slot b mag ph x
    | none => s
  let s := modLine s n (fun l => { l with sweepLeft := l.sweepLeft.erase slot })
  let s := setF s (F.LPHY_SWSTAT_BIN n) b
  if (line s n).sweepLeft.isEmpty then
    let b' := b + getF s (F.LPHY_SWEEP_FSTEP n)
    if b' ≤ getF s (F.LPHY_SWEEP_FSTOP n) then
      setF (modLine s n (fun l => { l with sweepBin := b', sweepLeft := setBits (getF s (F.LPHY_SWPSMASK_PSMASK n)) 16 }))
        (F.LPHY_SWSTAT_BIN n) b'
    else sweepEnd s n 3 0
  else s

/-- The sweep-table entry of a bin (R148): mean complex Z and the mask of its phase slots.  DESIGN CHOICE: of a bin without a measured
slot the spec states no Z; it reads 0, as does the mask (log entry 217). -/
def sweepEntry (l : LinePort) (b : Nat) : Nat × Nat × Nat :=
  let pts := assocGet [] l.sweepTab b
  if pts.isEmpty then (0, 0, 0)
  else
    let z := meanZ (pts.map (fun e => { re := e.2.1, im := e.2.2.1, den := e.2.2.2 }))
    (z.1, code z.2 12, sumN (pts.map (fun e => 2 ^ e.1)))

end Sys2Proof.Machine
end

