-- ==== Sys2Proof/Machine/Sequencer.lean ====
section
/-! DEFINITION. What starts at once when a transition, a loss or a reset begins: the PMU mode sequencer (R37–R44, R523), the
resets (R462–R465), the ownership handshake (R354), promotion and demotion (R351, R353), and the port reset (R432). -/

namespace Sys2Proof.Machine

/-- The place of a transition's cause in the list of R38; 7 for causes it does not name. A SAFEHOLD cause has its own place
(`causeRank`). -/
def transRank : TransKind → Nat
  | .safehold => 3
  | .promotion | .demotion => 4
  | .host => 6
  | .boot | .wake => 7

/-- The host request in hand, as the one whose MODE_SET selects a transition. -/
def modeReqOf (s : State) : Option ModeReq :=
  s.hcp.current.map (fun c => { port := HostPort.idx c.port, orig := c.orig, seq := c.seq, op := c.op,
                                before := (0x104 - u c.params 0 4) / 4 })

/-- Begin a mode transition (R45). -/
def beginTrans (s : State) (target : Mode) (kind : TransKind) : State :=
  { s with pmu := { s.pmu with trans := some { target, kind }
                               race := some { at_ := now s, rank := transRank kind,
                                              req := if kind = .host then modeReqOf s else none, undo := none } } }

/-- No transition is in progress. -/
def settled (s : State) : Bool := s.pmu.trans.isNone

/-! ### Line and radio frames cut short (R353) -/

/-- A frame that is taken back stands where it stood before it was started: its packet is READY, its random-access frame waits to pick,
and its leave is released. -/
def takeBack (s : State) (n : Nat) (f : LeaveFor) : State :=
  let s : State := match f with
    | .link c => modLink s c (fun l => { l with st := .ready })
    | .access id => { s with sfm := { s.sfm with access := s.sfm.access.map (fun x =>
        if x.id = id then { x with inFlight := false, slot := none } else x) } }
    | _ => s
  dropLeave s n f

/-- A line frame in flight ends after the symbol being sent, and one whose ack is awaited at once; its packet stays in its queue and no
try is counted (R353). -/
def cutLine (s : State) (n : Nat) : State :=
  match (line s n).tx with
  | none => s
  | some t =>
    if t.sent then takeBack (modLine s n (fun l => { l with tx := none })) n t.leave
    else modLine s n (fun l => { l with stop := true })

/-- A radio frame in flight ends at once, with PA_EN low. -/
def cutRadio (s : State) : State :=
  match s.rfx.tx with
  | none => { s with rfx := { s.rfx with paEn := false, paTo := 0, ackAir := none } }
  | some t =>
    takeBack { s with rfx := { s.rfx with tx := none, paEn := false, paTo := 0, ackAir := none } } 4 t.leave

/-! ### Causes of the same cycle (R38; log entry 126) -/

/-- A transition was selected in this cycle by a cause that stands below `rank` in the list of R38. -/
def rivals (s : State) (rank : Nat) : Bool := s.pmu.trans.isSome && s.pmu.race.any (fun r => r.at_ == now s && decide (rank < r.rank))

/-- A transition was selected in this cycle by a cause that stands above `rank`. -/
def outranked (s : State) (rank : Nat) : Bool := s.pmu.trans.isSome && s.pmu.race.any (fun r => r.at_ == now s && decide (r.rank < rank))

/-- The reply already formed for a MODE_SET, turned to BUSY: in the port's buffer and in the duplicate memory, or staged for its
remote originator. -/
def busyReply (s : State) (q : ModeReq) : State :=
  let params := leBytes St.busy 2 ++ (if q.op = 0xFC03 then leBytes q.before 2 else [])
  let dup (d : Dup) : Dup := if d.seq = q.seq ∧ d.op = q.op then { d with reply := some params } else d
  match q.orig with
  | some o =>
    { s with hcp := { s.hcp with remoteDups := s.hcp.remoteDups.map (fun e => if e.1 = o then (e.1, e.2.map dup) else e) }
             mqf := { s.mqf with staged := s.mqf.staged.map (fun x =>
                        let b := x.pkt.body
                        if !x.lce ∧ mhFinal b = o ∧ u b 9 1 % 4 = 1 ∧ u b 10 2 = q.seq ∧ u b 12 2 = q.op then
                          { x with pkt := { x.pkt with payload := x.pkt.payload.take 14 ++ puluacHead 0x11 q.seq q.op params } }
                        else x) } }
  | none =>
    let h := hport s q.port
    setHport s q.port { h with
      dups := h.dups.map dup
      out := h.out.map (fun k =>
        if k.vf % 4 = 1 ∧ k.seq = q.seq ∧ k.op = q.op then
          { k with params, mic := match k.ctr with
                                  | some c => packetMic h.sess.keys 1 c (puluacHead k.vf q.seq q.op params)
                                  | none => k.mic }
        else k) }

/-- Registers that the selection of a transition changes: those of MFE, DCH and LCE, and ERF's of a takeover. -/
def undoKey (k : Nat) : Bool :=
  [7, 8, 9].contains (k / 32 / 0x10000 % 16)
    || [F.ERF_STAT_OWN_OUT, F.ERF_STAT_GATE, F.ERF_STAT_SYNCED, F.ERF_EPOCH_EPOCH, F.ERF_TAKEOVER_TAKEOVERS,
        F.ERF_TAKEOVER_DEMOTIONS].any (fun f => fieldKey f == k)

/-- What a selection about to be made would give back. -/
def undoOf (s : State) : Undo :=
  { held := s.pmu.held, pending := s.pmu.pending, answers := s.pmu.answers, flash := s.hcp.flash, mfe := s.mfe, dch := s.dch, lce := s.lce,
    links := s.sfm.links, groupFc := s.sfm.groupFc, exhausted := s.sfm.exhausted, queues := s.mqf.queues, begun := s.erf.begun,
    promoted := s.erf.promoted, recordDue := s.erf.recordDue, deadAt := s.erf.deadAt, mirTx := s.erf.mirTx,
    ctxs := (ctxTouched s).map (fun i => (i, cGet s i C.txfc, cGet s i C.txlsn)), regs := s.regs.filter (fun e => undoKey e.1) }

/-- A displaced selection gives back what it changed. -/
def undoSel (s : State) (x : Undo) : State :=
  let s : State := { s with
    pmu := { s.pmu with held := x.held, pending := x.pending, answers := x.answers }
    hcp := { s.hcp with flash := x.flash }
    mfe := x.mfe
    dch := x.dch
    lce := x.lce
    sfm := { s.sfm with links := x.links, groupFc := x.groupFc, exhausted := x.exhausted }
    mqf := { s.mqf with queues := x.queues }
    erf := { s.erf with begun := x.begun, promoted := x.promoted, recordDue := x.recordDue, deadAt := x.deadAt, mirTx := x.mirTx }
    regs := (x.regs.filter (fun e => undoKey e.1)).foldl (fun m e => assocSet m e.1 e.2) (s.regs.filter (fun e => !undoKey e.1)) }
  x.ctxs.foldl (fun s c => cSet (cSet s c.1 C.txfc c.2.1) c.1 C.txlsn c.2.2) s

/-- A cause of a higher place arises in the cycle of the selection: the selected cause is discarded, and a MODE_SET returns BUSY. -/
def displace (s : State) : State :=
  match s.pmu.race with
  | none => s
  | some r =>
    let s := match r.req with
      | some q => busyReply s q
      | none => s
    let s := match r.undo with
      | some x => undoSel s x
      | none => s
    { s with pmu := { s.pmu with trans := none, race := none } }

/-- The selection in progress belongs to a cause of place `rank` from now on; a MODE_SET that made it returns BUSY. -/
def overtake (s : State) (rank : Nat) : State :=
  match s.pmu.race with
  | none => s
  | some r =>
    let s := match r.req with
      | some q => busyReply s q
      | none => s
    { s with pmu := { s.pmu with race := some { r with rank, req := none } } }

/-- What the selection just made would give back. -/
def noteUndo (s : State) (x : Undo) : State :=
  { s with pmu := { s.pmu with race := s.pmu.race.map (fun r => { r with undo := some x }) } }

/-- Nothing of what the node was sending goes on (R353). -/
def stopSending (s : State) : State := cutRadio ((List.range 4).foldl cutLine s)

/-! ### SAFEHOLD (R41, R523) -/

/-- The leave that DCH holds or asks for goes: the capture goes on at half rate (R41, R54, R286). -/
def galleryDrop (s : State) : State :=
  if getF s F.DCH_GALSTAT_STATE = 2 ∧ (holdsLeave s 6 ∨ s.pmu.pending.any (fun r => r.req == 6)) then
    galRefused (withdrawLeave (releaseLeave s 6) 6)
  else s

/-- The place of a SAFEHOLD cause in the list of R38: MODE_SET SAFEHOLD, ownership loss, any other. -/
def causeRank (cause : Field) : Nat :=
  if fieldKey cause = fieldKey F.PMU_SAFECAUSE_HOSTCMD then 6 else if fieldKey cause = fieldKey F.PMU_SAFECAUSE_OWNLOST then 5 else 3

/-- A SAFEHOLD transition is selected by a cause of place `rank`. -/
def beginSafehold (s : State) (rank : Nat) : State :=
  { s with pmu := { s.pmu with trans := some { target := .safehold, kind := .safehold }
                               race := some { at_ := now s, rank, req := if rank = 6 then modeReqOf s else none, undo := none } } }

/-- A SAFEHOLD cause selects the transition: leave is withdrawn but for line frames in flight, line requests are withdrawn,
LCE halts, excitation falls to its degraded form, and flash programming loses its leave (R41, R443). MFE and DCH that were off are on
from this cycle (R35, R523), and COMMISSION is left, with its forced paths and test values (R299, R310). -/
def enterSafehold (s : State) (rank : Nat) : State :=
  let before := undoOf s
  let wasOn := mfeOn s
  let s := galleryDrop (beginSafehold (holdPins s) rank)
  let keep (h : LeaveHeld) : Bool := h.req < 4 && (line s h.req).tx.any (fun t => t.leave == h.for_)
  let s : State := { s with
                     pmu := { s.pmu with held := s.pmu.held.filter keep,
                                         pending := s.pmu.pending.filter (fun r => 4 ≤ r.req) }
                     hcp := { s.hcp with flash := s.hcp.flash.map (fun f => { f with granted := false }) } }
  noteUndo (dropForce (dropTest (measMode wasOn (lceHalt s)))) before

/-- A demotion that a SAFEHOLD cause of its own cycle displaces leaves a chip in SAFEHOLD that has stopped sending (R353). -/
def afterDemotion (s : State) (t : Trans) : State :=
  if t.kind = .demotion then { s with erf := { s.erf with silenced := true } } else s

/-- A cause of SAFEHOLD arises: its bit is latched; it selects the transition, or abandons one that leaves SAFEHOLD
(R37, R523). Among causes of one cycle R38 settles which one acts. -/
def safeCause (s : State) (cause : Field) : State :=
  let s := setFlag s cause
  let rank := causeRank cause
  if s.pmu.inReset || s.pmu.shutdown then s
  else
    match s.pmu.mode, s.pmu.trans with
    | .boot, _ => s
    | .safehold, some _ =>
      let s := if rivals s rank then displace s else s
      modeEventFrom { s with pmu := { s.pmu with trans := none } } .safehold
    | .safehold, none => s
    | _, some t =>
      if outranked s rank then s
      else if t.target = .safehold then (if rivals s rank then overtake s rank else s)
      else if rivals s rank then afterDemotion (enterSafehold (displace s) rank) t
      else enterSafehold s rank
    | _, none => enterSafehold s rank

/-! ### Resets (R462–R466) -/

/-- A port reset (R432): session, mask, duplicates, buffers, event sequence; the HOST generation is bumped. -/
def portReset (s : State) (n : Nat) : State :=
  let s := setHport (setF s (F.evMask n) 0) n { PortState.fresh with marks := (hport s n).marks }
  let h := s.hcp
  let s : State := { s with hcp := { h with
                                     waiting := h.waiting.filter (fun w => HostPort.idx w.port != n)
                                     current := h.current.map (fun c => if c.orig.isNone ∧ HostPort.idx c.port = n then { c with dead := true } else c)
                                     flash := h.flash.map (fun f => if f.orig.isNone ∧ HostPort.idx f.port = n then { f with dead := true } else f)
                                     srcs := h.srcs.set n SrcState.fresh } }
  bumpHost s n

/-- Every host port is reset: entry to BOOT, and a restart of HCP (R432). -/
def portsReset (s : State) : State := (List.range 3).foldl portReset s

/-- The register fields that HCP's block holds. -/
def isHcpKey (k : Nat) : Bool := k / 32 / 0x10000 % 16 == 12

/-- A core reset (R41, R464): HCP registers are cleared and its port settings restored from the configuration record, its
flash leave is released, every port is reset, and CORERST counts. The other units keep their state. -/
def coreReset (s : State) : State :=
  let rec_ : List (Nat × Nat) := match s.nvm.cfg with
    | some c => c.regs.filter (fun e => isHcpKey e.1)
    | none => []
  let s : State := { s with regs := s.regs.filter (fun e => !isHcpKey e.1) }
  let s : State := { s with regs := rec_.foldl (fun m e => assocSet m e.1 e.2) s.regs }
  let s := portsReset s
  let s : State := { s with hcp := { s.hcp with current := none, waiting := [], flash := none, arpCache := [], arpWait := [] }
                            sec := { s.sec with sigWait := s.sec.sigWait.filter (· != .attest)
                                                queue := s.sec.queue.filter (fun j => j != .attest && j != .host) } }
  -- the restarted firmware writes FWDATA whole before it reads it (R41)
  let s := clearMem s 0x600000 0x80000
  withdrawLeave (releaseLeave (inc s F.PMU_RSTCAUSE_CORERST) 9) 9

/-- The registers that a reset keeps (R464): PMU_RSTCAUSE and THERM150, and after a system reset every PMU_SAFECAUSE bit. -/
def keptKeys (power : Bool) : List Nat :=
  [F.PMU_RSTCAUSE_SUPPLY, F.PMU_RSTCAUSE_CLKFAIL, F.PMU_RSTCAUSE_THERMEND, F.PMU_RSTCAUSE_RESETN, F.PMU_RSTCAUSE_DEVRESET,
   F.PMU_RSTCAUSE_WDOG2, F.PMU_RSTCAUSE_JTAG, F.PMU_RSTCAUSE_RAIL, F.PMU_RSTCAUSE_CORERST, F.PMU_SAFECAUSE_THERM150].map fieldKey
  ++ (if power then [] else [F.PMU_SAFECAUSE_MEMPOISON, F.PMU_SAFECAUSE_WDOG, F.PMU_SAFECAUSE_THERM140, F.PMU_SAFECAUSE_OWNLOST,
        F.PMU_SAFECAUSE_HOSTCMD].map fieldKey)

/-- The state that a power-on or system reset leaves while it is asserted (R464, R465): everything as after reset but what
R464 keeps. `cause` is added to the causes that the end of the reset latches. `aonLost` says that VDDAO fell. -/
def assertReset (s : State) (power aonLost : Bool) (cause : Nat) : State :=
  let kept := if aonLost then [] else s.regs.filter (fun e => (keptKeys power).contains e.1)
  let pending := if s.pmu.inReset then s.pmu.cause else 0
  { State.reset with
    chip := s.chip, nvm := s.nvm, flash := s.flash, drawn := s.drawn, pending := s.pending, regs := kept
    pmu := { State.reset.pmu with inReset := true, cause := pending ||| cause, shutdown := s.pmu.shutdown, above130 := s.pmu.above130,
                                  cmsnN := s.pmu.cmsnN, pairId := s.pmu.pairId } }

/-- A power-on reset (R462). -/
def powerOnReset (s : State) (aonLost : Bool) (cause : Nat) : State := assertReset s true aonLost cause

/-- A system reset (R462). -/
def systemReset (s : State) (cause : Nat) : State := assertReset s false false cause

/-! ### Output ownership (R354) -/

/-- OWN_OUT deasserts: the gate closes, and ownership ends. -/
def releaseOwn (s : State) : State :=
  excUpdate { setF (setF s F.ERF_STAT_OWN_OUT 0) F.ERF_STAT_GATE 0 with erf := { s.erf with begun := false } }

/-- The chip takes part in claiming ownership: COMMISSION or OPERATE (R354). -/
def claims (s : State) : Bool := mode s == .commission || mode s == .operate

/-- OWN_CLAIM: OWN_OUT is asserted once OWN_IN has been deasserted for 2 ms. -/
def ownClaim (s : State) : State :=
  if claims s && !flag s F.ERF_STAT_OWN_IN && !flag s F.ERF_STAT_OWN_OUT then
    { setF s F.ERF_STAT_OWN_OUT 1 with erf := { s.erf with begun := false } }
  else s

/-- GATE_OPEN: the gate opens and ownership begins. -/
def openGate (s : State) : State :=
  if flag s F.ERF_STAT_OWN_OUT && !flag s F.ERF_STAT_OWN_IN then
    excUpdate { setF s F.ERF_STAT_GATE 1 with erf := { s.erf with begun := true } }
  else s

/-- Some sequence runs or aborts (R37, R40). -/
def sequenceRuns (s : State) : Bool := !(activeSeqs s).isEmpty

/-- What a selection of this very cycle has changed, as it stood before. -/
def cycleUndo (s : State) : Option Undo := (s.pmu.race.bind (fun r => if r.at_ = now s ∧ s.pmu.trans.isSome then r.undo else none))

/-- The chip owned its outputs when the cycle began: a demotion of the cycle has released them (R523). -/
def cycleOwned (s : State) : Bool :=
  (cycleUndo s).any (fun x => x.begun && (assocFind? x.regs (fieldKey F.ERF_STAT_OWN_OUT)).getD 0 == 1)

/-- A sequence ran when the cycle began: a SAFEHOLD cause of the cycle has ended it (R523). -/
def cycleRan (s : State) : Bool := (cycleUndo s).any (fun x => x.lce.seqs.any (fun e => e.2.st == 1 || e.2.st == 2))

/-- The peer is seen asserting OWN_IN. Within 10 µs of the chip's own assertion this is a tie; once ownership has begun it is
a loss, unless a higher epoch has been seen (R40, R354). -/
def ownSeen (s : State) (dt : Nat) : State :=
  let s := setF s F.ERF_STAT_OWN_IN 1
  if !flag s F.ERF_STAT_OWN_OUT && !cycleOwned s then s
  else if !s.erf.begun && !cycleOwned s then
    if 10 * dt ≤ 12288 then
      let s := inc s F.ERF_OWNCNT_TIES
      if s.pmu.pairId then releaseOwn s else s
    else s
  else
    let s := excUpdate (setF s F.ERF_STAT_GATE 0)
    if getF s F.ERF_EPOCH_EPOCH < max (getF s F.ERF_PEEREPOCH_EPOCH) s.erf.seenEpoch then s
    else
      let running := (sequenceRuns s || cycleRan s) && s.pmu.mode == .operate
      let s := inc s F.ERF_OWNCNT_LOSSES
      let s := if s.pmu.pairId then releaseOwn s else s
      if running then safeCause s F.PMU_SAFECAUSE_OWNLOST else s

/-- A new OWN_IN level is accepted. -/
def ownInChange (s : State) (level : Bool) (dt : Nat) : State :=
  if level then ownSeen s dt else setF s F.ERF_STAT_OWN_IN 0

/-! ### Packets of a link, and exhausted counters (R167) -/

/-- The transmit queue of a port. -/
def txQueue (n : Nat) : Nat := if n = 4 then 8 else n
/-- Class content of an ADVERT with ATTACH or DETACH: it goes in the link's first send allocation (R199, R200). -/
def leadsLink (cls : Nat) (content : Bytes) : Bool :=
  cls == 2 && u content 8 1 == 1 && (bit (u content 9 1) 5 || bit (u content 9 1) 6)

/-- The packets queued for a link with their places, in the order of sending: an ADVERT that leads, then the oldest first; a packet in its
tries stays at the head (R170, R200). -/
def linkPackets (s : State) (n ctx : Nat) : List (Nat × QPkt) :=
  let l := link s ctx
  let ps := ((queue s (txQueue n)).entries.mapIdx (fun k e => (k, e))).filterMap (fun x =>
    match x.2.item with
    | .pkt p => if x.2.released ∨ p.ctx ≠ ctx then none else some (x.1, p)
    | _ => none)
  let lead (x : Nat × QPkt) : Bool := leadsLink (u x.2.payload 0 1 % 16) (x.2.payload.drop 6)
  let taken := l.tries != 0 || l.st == .sending || l.held.isSome
  if taken && !l.leadTaken then
    let rest := ps.filter (fun x => !lead x)
    rest.take 1 ++ ps.filter lead ++ rest.drop 1
  else ps.filter lead ++ ps.filter (fun x => !lead x)

/-- Discard every packet queued for a link (R167, R170). -/
def dropLink (s : State) (n ctx : Nat) : State :=
  let s := (linkPackets s n ctx).reverse.foldl (fun s x => setQueue s (txQueue n) (releaseAt (queue s (txQueue n)) x.1)) s
  modLink s ctx (fun l => { l with st := .ready, armed := false, tries := 0, ctl := [], ctlTaken := false, held := none })

/-- What waits to be sent under a context's key is discarded: packets, control messages and random-access frames, but for the one on
the air (R167). -/
def dropKeyed (s : State) (i : Nat) : State :=
  let n := cPort s i
  let l := link s i
  let out := l.st == .sending
  let s := ((linkPackets s n i).drop (b2n (out && !l.ctlTaken))).reverse.foldl
    (fun s x => setQueue s (txQueue n) (releaseAt (queue s (txQueue n)) x.1)) s
  let s := modLink s i (fun l =>
    if out then { l with ctl := l.ctl.take (b2n l.ctlTaken), held := none }
    else { l with st := .ready, armed := false, tries := 0, ctl := [], ctlTaken := false, held := none })
  { s with sfm := { s.sfm with access := s.sfm.access.filter (fun x => x.inFlight || x.bcast || !x.sec || x.ctx != i) } }

/-- A counter that has reached 0xFFF0_0000 sends no more: what waits for it is discarded, with one KEY event per context (R167). -/
def checkCounter (s : State) (i : Nat) : State :=
  if 0xFFF00000 ≤ cGet s i C.txfc ∧ !s.sfm.exhausted.contains i then
    keyEvent (dropKeyed { s with sfm := { s.sfm with exhausted := i :: s.sfm.exhausted } } i) 0 i
  else s

/-- The same for the group counter, under the index 0xFFFF. -/
def checkGroup (s : State) : State :=
  if 0xFFF00000 ≤ s.sfm.groupFc ∧ !s.sfm.exhausted.contains 0xFFFF then
    keyEvent { s with sfm := { s.sfm with exhausted := 0xFFFF :: s.sfm.exhausted,
                                          access := s.sfm.access.filter (fun x => x.inFlight || !x.bcast || !x.sec) } } 0 0xFFFF
  else s

/-- A context's send counter is exhausted (R167). -/
def counterDone (s : State) (ctx : Nat) : Bool := decide (0xFFF00000 ≤ cGet s ctx C.txfc)

/-- The group counter is exhausted (R167). -/
def groupDone (s : State) : Bool := decide (0xFFF00000 ≤ s.sfm.groupFc)

/-- Nothing more may be sent under a random-access frame's key (R167). -/
def accessDead (s : State) (x : AccessTx) : Bool :=
  x.sec && (if x.bcast then groupDone s else counterDone s x.ctx)

/-! ### Promotion and demotion (R351, R353) -/

/-- One context at a promotion: send counter and send LSN advance, its link starts its packets anew, and a proposal that the peer may not
hold is carried (R145, R351). -/
def promoteCtx (s : State) (i : Nat) : State :=
  let s := cSet s i C.txfc (min (cGet s i C.txfc + 0x100000) 0xFFFFFFFF)
  let s := cSet s i C.txlsn ((cGet s i C.txlsn + 1) % 256)
  let s := checkCounter (modLink s i (fun l => { l with st := .ready, tries := 0, propose := [], proposed := [] })) i
  if cEstablished s i && cPort s i < 4 && isOwner s i && altState s i == 1 then carryAgain s i else s

/-- ERF asks for leave to record the epoch (R340). -/
def recordEpoch (s : State) : State :=
  askLeave { s with erf := { s.erf with recordDue := true } } 9 1 0 false

/-- A spare promotes itself (R351, steps 1–5 and 9); an epoch of 0xFFFF_FFFF forbids it (R340). -/
def promote (s : State) : State :=
  if getF s F.ERF_EPOCH_EPOCH = 0xFFFFFFFF then erfEvent s 4
  else
    let s := if rivals s 4 then displace s else s
    let before := undoOf s
    let s := setF s F.ERF_EPOCH_EPOCH (getF s F.ERF_EPOCH_EPOCH + 1)
    let s := (ctxTouched s).foldl promoteCtx s
    let s := checkGroup { s with sfm := { s.sfm with groupFc := min (s.sfm.groupFc + 0x100000) 0xFFFFFFFF } }
    let s := s.erf.mirTx.foldl (fun s e => releaseGaps (commitQ s e.1 e.2.2).1 e.1) s
    let s : State := { s with erf := { s.erf with mirTx := [], promoted := true, deadAt := some (s.erf.deadAt.getD (now s)), rxAny := false, nak := false } }
    noteUndo (erfEvent (recordEpoch (inc (beginTrans s .operate .promotion) F.ERF_TAKEOVER_TAKEOVERS)) 5) before

/-- A primary demotes to SPARE (R353): its outputs and its claim go at once, its frames end without a try, and it adopts the
higher epoch. -/
def demote (s : State) (epoch : Nat) : State :=
  let s := if rivals s 4 then displace s else s
  let before := undoOf s
  let s := stopSending (releaseOwn s)
  let s := setF (setF s F.ERF_EPOCH_EPOCH (max epoch (getF s F.ERF_EPOCH_EPOCH))) F.ERF_STAT_SYNCED 0
  noteUndo (erfEvent (inc (beginTrans s .spare .demotion) F.ERF_TAKEOVER_DEMOTIONS) 6) before

/-- The role of ERF_STAT (R339): 0 unpaired, 1 SPARE, 2 PRIMARY. A chip whose SAFEHOLD was entered from SPARE keeps that role (log entry
169). -/
def role (s : State) : Nat :=
  if !s.pmu.paired then 0
  else
    match s.pmu.mode with
    | .operate => 2
    | .safehold => (match s.pmu.prev with | .operate => 2 | .spare => 1 | _ => 0)
    | .spare => 1
    | _ => 0

/-- A demotion is in progress. -/
def demoting (s : State) : Bool := s.pmu.trans.any (fun t => t.kind == .demotion)

/-- A paired chip sees a higher epoch, or the tie of R353: it demotes in OPERATE, and in SAFEHOLD it begins no more frames and beacons,
while one in flight is sent to its end (R104, log entry 185). A cause of
SAFEHOLD of the same cycle that stands below a demotion does not keep it from demoting (R38). -/
def seeHigher (s : State) (epoch : Nat) : State :=
  let s : State := { s with erf := { s.erf with seenEpoch := max epoch s.erf.seenEpoch } }
  if !s.pmu.paired then s
  else if demoting s then setF s F.ERF_EPOCH_EPOCH (max epoch (getF s F.ERF_EPOCH_EPOCH))
  else if s.pmu.mode = .operate ∧ rivals s 4 then demote s epoch
  else if mode s = .safehold then { s with erf := { s.erf with silenced := true } }
  else if s.pmu.mode = .operate then demote s epoch
  else s

end Sys2Proof.Machine
end

