-- ==== Sys2Proof/Machine/Mirror.lean ====
section
/-! DEFINITION. What a primary mirrors, and its collector: the records that tell the peer of each change (R348, log entry 21). -/

namespace Sys2Proof.Machine

/-- The chip is the primary of a pair: in OPERATE, and in a SAFEHOLD entered from there (R339). -/
def isPrimary (s : State) : Bool := role s == 2

/-! ### The mirrored state (R348) -/

/-- The record that holds an address of mirrored main SRAM: its start and length. -/
def blockOf (a : Nat) : Option (Nat × Nat) :=
  if Base.lanemap ≤ a ∧ a < 0x500000 then some (a / 256 * 256, 256)
  else if Base.fwd ≤ a ∧ a < 0x580000 then some (a / 8 * 8, 8)
  else if Base.linkrec ≤ a ∧ a < Base.retry then some (a / 64 * 64, 64)
  else if Base.contexts ≤ a ∧ a < Base.actuators then some (a / 128 * 128, 128)
  else if Base.actuators ≤ a ∧ a < Base.interlocks then some (a / 16 * 16, 16)
  else if Base.interlocks ≤ a ∧ a < Base.rules then some (a / 8 * 8, 8)
  else if Base.rules ≤ a ∧ a < Base.sequences then some (a / 32 * 32, 32)
  else if Base.sequences ≤ a ∧ a < Base.sequences + 18432 then
    some (Base.sequences + (a - Base.sequences) / 288 * 288, 288)
  else none

/-- The context whose counter and statistics fields an address holds: TXFC to RXGFC, Q to RXLSN, and RSSILAST on (R348, R378; DEDUCED, log
entry 233). -/
def countedAt (a : Nat) : Option Nat :=
  let o := a % 128
  if Base.contexts ≤ a ∧ a < Base.contexts + 0x80000 ∧ ((76 ≤ o ∧ o < 92) ∨ (97 ≤ o ∧ o < 101) ∨ 106 ≤ o) then some ((a - Base.contexts) / 128)
  else none

/-- The field of a stored register key. -/
def fieldAt (k : Nat) : Option Field :=
  let a := k / 32 % 0x100000
  (regsOfUnit (a / 0x10000)).findSome? (fun r =>
    (List.range r.ports).findSome? (fun n =>
      if r.addr + 0x100 * n = a then (r.fields n).find? (fun f => f.lo == k % 32) else none))

/-- A configuration field: RW or RWL (R348). -/
def isConfig (k : Nat) : Bool :=
  match fieldAt k with
  | some f => f.acc == .rw || f.acc == .rwl
  | none => false

/-- A field that is RW at a root, at a root (R12). -/
def rootField (s : State) (k : Nat) : Bool := isRoot s && ((fieldAt k).map (·.acc)) == some .rwRoot

/-- A mirrored configuration field, of every unit (R348). -/
def isMirrored (s : State) (k : Nat) : Bool := isConfig k || rootField s k

def lceMirror (s : State) : LceMirror :=
  { acts := s.lce.acts, rules := s.lce.rules, seqs := s.lce.seqs, locks := s.lce.locks, gen := getF s F.LCE_STAT_GEN,
    tick := s.lce.tick }

def mrtMirror (s : State) : MrtMirror :=
  { parent := getF s F.SFM_PARENT_ADDR, ctx := getF s F.SFM_PARENT_CTX, port := getF s F.SFM_STAT_PPORT,
    short := if flag s F.MRT_ADDR_VALID then some (getF s F.MRT_ADDR_SHORT) else none, nseq := getF s F.MRT_NSEQ_NSEQ,
    cost := getF s F.MRT_PATH_COST, hops := getF s F.MRT_PATH_HOPS,
    rreqs := s.mrt.rreqs.map (fun r => (r.target, r.at_, r.limit)) }

def keyMirror (s : State) : KeyMirror :=
  let k := s.sec
  { nodeKey := k.nodeKey, cert := k.cert, authKey := k.authKey, opKeys := k.opKeys, hostKeys := k.hostKeys, opSeq := k.opSeq,
    gkey := k.gkey, gpend := k.gpend }

/-- Keys as a record carries them: the node key sealed under the pair key (R385), with a nonce that the spec leaves open (log entry 227). -/
def sealedKeys (s : State) (k : KeyMirror) : KeyMirror :=
  { k with nodeKey := k.nodeKey.bind (fun n => s.sec.pairKey.map (fun p => wrapKey p (Config.sealNonce (now s)) n)) }

/-- The packets in the transmit queues of the line ports and the radio, each with its queue and place. -/
def txPackets (s : State) : List (Nat × Nat × QPkt) :=
  [0, 1, 2, 3, 8].flatMap (fun q =>
    let k := queue s q
    let r := k.entries.foldl (fun (acc : Nat × List (Nat × Nat × QPkt)) e =>
      let here := match e.item, e.released with
        | .pkt p, false => [(q, acc.1, p)]
        | _, _ => []
      ((acc.1 + e.words) % 2048, acc.2 ++ here)) (k.rd, [])
    r.2)

/-- What the mirror must hold now. -/
def snapshot (s : State) : Shadow :=
  { cells := s.sram.filter (fun c => (blockOf c.1).isSome), regs := s.regs.filter (fun e => isMirrored s e.1),
    active := getF s F.SFM_SLOTCTL_ACTIVE, slots := s.sfm.slots, scan := s.mfe.entries, keys := keyMirror s,
    lce := lceMirror s, mrt := mrtMirror s, groupFc := s.sfm.groupFc, tx := txPackets s }

/-! ### Records (R348) -/

/-- The keys under which two tables differ. -/
def changedKeys {α : Type} [DecidableEq α] (a b : List (Nat × α)) : List Nat :=
  ((b.filter (fun e => assocFind? a e.1 != some e.2) ++ a.filter (fun e => assocFind? b e.1 != some e.2)).map Prod.fst).eraseDups

/-- The entry of a table under one key, as a list. -/
def entryAt (l : List (Nat × Nat)) (k : Nat) : List (Nat × Nat) := (assocFind? l k).toList.map (fun v => (k, v))

/-- The places at which two lists differ. -/
def changedAt {α : Type} [DecidableEq α] (a b : List α) : List Nat := (List.range b.length).filter (fun i => a[i]? != b[i]?)

/-- The records of LCE's change from `a` to `b`. -/
def lceDiff (a b : LceMirror) : List MirRec :=
  (changedAt a.acts b.acts).map (fun i => .act b.tick i (nth Act.fresh b.acts i))
  ++ (changedKeys a.rules b.rules).map (fun i => .rule b.tick i (assocFind? b.rules i))
  ++ (changedKeys a.seqs b.seqs).map (fun i => .seq b.tick i (assocFind? b.seqs i))
  ++ (changedAt a.locks b.locks).map (fun i => .lock b.tick i (nth Lock.fresh b.locks i))
  ++ (if a.gen = b.gen then [] else [.gen b.tick b.gen])

/-- The records that bring a mirror from `a` to `b`, but for main SRAM (R348). -/
def mirDiff (s : State) (a b : Shadow) : List MirRec :=
  (changedKeys a.regs b.regs).map (fun k => .regs k (some (k + 1)) (entryAt b.regs k))
  ++ (changedKeys a.slots b.slots).map (fun k => .slots b.active k (some (k + 1)) (entryAt b.slots k))
  ++ (if a.active = b.active then [] else [.slots b.active 0 (some 0) []])
  ++ (if a.scan = b.scan then [] else [.scan b.scan])
  ++ (if a.keys = b.keys then [] else [.keys (sealedKeys s b.keys)])
  ++ lceDiff a.lce b.lce
  ++ (if a.mrt = b.mrt then [] else [.mrt b.mrt])
  ++ (if a.groupFc = b.groupFc then [] else [.fc b.groupFc])
  ++ (b.tx.filter (fun e => !a.tx.contains e)).map (fun e => .txPkt e.1 e.2.1 e.2.2)
  ++ (a.tx.filter (fun e => !b.tx.contains e)).map (fun e => .txEnd e.1 e.2.1)

/-- Bytes of main SRAM in a record, unless they are poisoned (R32). -/
def memRec (s : State) (a n : Nat) : List MirRec := if poisoned s a n then [] else [.mem a (memRead s a n)]

/-- Commit a record to ERF-TX: a queue without room takes a GAP marker (R23, R401). -/
def commitMir (s : State) (r : MirRec) : State := (commitQ s 12 (QPkt.own (msgBytes none [r]))).1

/-- A record of main SRAM is made: the collector reads the bytes, and notes the context whose record it is. -/
def commitBlock (s : State) (w : Nat × Nat) : State :=
  let s' := (memRec s w.1 w.2).foldl commitMir (readMem s w.1 w.2)
  match countedAt (w.1 + 76) with
  | some i => { s' with mir := { s'.mir with told := i :: s'.mir.told } }
  | none => s'

/-- The addresses of main SRAM at which the mirror differs. -/
def changedCells (a b : Shadow) : List Nat := changedKeys (a.cells.map (fun c => (c.1, c.2))) (b.cells.map (fun c => (c.1, c.2)))

/-- A context of which a record has been made in this phase slot, and of which nothing else has changed than counters and statistics: its
record waits for the next slot (R348). -/
def waits (s : State) (changed : List Nat) (i : Nat) : Bool :=
  s.mir.told.contains i && changed.all (fun a => countedAt a == some i || a / 128 != ctxBase i / 128)

/-- The changes that records are made of now. -/
def ripe (s : State) (changed : List Nat) : List Nat :=
  changed.filter (fun a => match countedAt a with | some i => !waits s changed i | none => true)

/-- The mirror's cells once records of the ripe changes have been made: the others stay as they were told. -/
def cellsTold (a b : Shadow) (held : List Nat) : List Host.Cell :=
  b.cells.filter (fun c => !held.contains c.1) ++ a.cells.filter (fun c => held.contains c.1)

/-- The collector: what has changed since it last ran goes to ERF-TX, one record for each item (R348). -/
def collectFrom (s : State) (a : Shadow) : State :=
  let b := snapshot s
  let changed := changedCells a b
  let now_ := ripe s changed
  let s : State := { s with mir := { s.mir with shadow := some { b with cells := cellsTold a b (changed.filter (fun x => !now_.contains x)) } } }
  let s := (now_.filterMap blockOf).eraseDups.foldl commitBlock s
  (mirDiff s a b).foldl commitMir s

/-- The collector runs at the end of every command that may change mirrored state, at a primary that hears its peer (R347, R348). -/
def collect (s : State) : State :=
  match s.mir.shadow with
  | some a => if isPrimary s && getF s F.ERF_STAT_PEER == 1 then collectFrom s a else s
  | none => s

/-- A new phase slot begins for the collector. -/
def mirSlot (s : State) : State := { s with mir := { s.mir with told := [] } }

end Sys2Proof.Machine
end

