-- ==== Sys2Proof/Machine/ErfLink.lean ====
section
/-! DEFINITION. ERF: heartbeats, peer and role decisions, and the sending side of the link (R338–R347, R350, R351, R356). -/

namespace Sys2Proof.Machine

/-- ERF is on: every mode but BOOT and ROOST, on a variant that has it (R5, R35). -/
def erfOn (s : State) : Bool := hasFull s && hcpOn s

/-- The chip is a spare in SPARE with no transition in progress. -/
def isSpare (s : State) : Bool := s.pmu.paired && s.pmu.mode == .spare && settled s

/-! ### Frames on the lanes (R342, R343) -/

/-- Put a frame on the link: on both lanes, or on the one that the peer reports in sync. -/
def putFrame (s : State) (b : Bytes) : State :=
  let one (k : Nat) (x : List Sym) : List (BitVec 10) × Bool := encodeLane (nth false s.erf.txRd k) x
  let l := (frameSyms (getF s F.ERF_STAT_LANES_TX) b).mapIdx one
  { s with erf := { s.erf with sent := b, sentLanes := l.map Prod.fst, txRd := l.map Prod.snd } }

/-! ### The retry buffer, ERFRETRY (R344, R389, R397) -/

/-- Bytes that a frame takes in ERFRETRY: whole words. -/
def wholeWords (n : Nat) : Nat := 32 * ceilDiv n 32

/-- Where the next frame goes in the ring of 64 KiB. -/
def retryEnd (s : State) : Nat :=
  match s.erf.retry.getLast? with
  | some f => (f.at_ + wholeWords f.len) % 65536
  | none => 0

/-- The retry buffer has room for a frame of `n` bytes. -/
def retryRoom (s : State) (n : Nat) : Bool := sumN (s.erf.retry.map (fun f => wholeWords f.len)) + wholeWords n ≤ 65536

/-- The pieces of the ring that a frame takes: address and bytes. -/
def ringPieces (at_ n : Nat) : List (Nat × Nat) :=
  let k := min n (65536 - at_)
  [(Base.retry + at_, k), (Base.retry, n - k)]

/-- Write a frame into the ring. -/
def ringWrite (s : State) (at_ : Nat) (b : Bytes) : State :=
  let k := min b.length (65536 - at_)
  memWrite (memWrite s (Base.retry + at_) (b.take k)) Base.retry (b.drop k)

/-- The bytes of a kept frame, as a read delivers them; whether a word of them is poisoned; the read. -/
def ringBytes (s : State) (f : SentFrame) : Bytes := (ringPieces f.at_ f.len).flatMap (fun p => memRead s p.1 p.2)
def ringBad (s : State) (f : SentFrame) : Bool := (ringPieces f.at_ f.len).any (fun p => poisoned s p.1 p.2)
def ringRead (s : State) (f : SentFrame) : State := (ringPieces f.at_ f.len).foldl (fun s p => readMem s p.1 p.2) s

/-! ### The sending side (R344, R345, R350) -/

/-- The mirrored regions of main SRAM: base and size. -/
def mirRegions (s : State) : List (Nat × Nat) :=
  [(Base.contexts, 128 * nCtx s), (Base.fwd, 0x80000), (Base.lanemap, 0x100000), (Base.linkrec, 64 * nCtx s),
   (Base.coef, 0x4000), (Base.actuators, 0x2400 + 18432)]

/-- All that a full copy sends (R348, R350). -/
def fullCopy (s : State) : List Piece :=
  (mirRegions s).map (fun r => .mem r.1 r.2)
  ++ [.regs 0, .slots 0, .scan, .keys, .gen, .mrt, .fc, .acts 0, .rules 0, .seqs 0, .locks 0]
  ++ (txPackets s).map (fun e => .tx e.1 e.2.1)

/-- A RESYNC at the transmitter: retry buffer and ERF-TX are emptied, COPYSTART is sent, LSEQ restarts at 1 with the first
chunk, and a full copy starts. -/
def startResync (s : State) : State :=
  if !isPrimary s then s
  else
    let s := inc s F.ERF_MIRSTAT_RESYNCS
    let s := setQueue s 12 Queue.empty
    let s := setF s F.ERF_MIRSTAT_COPY 0
    { s with erf := { s.erf with retry := [], resend := [], copyStart := true, copyDone := 0, copyLeft := fullCopy s, chunkTurn := true,
                                 txSeq := 1 }
             mir := { s.mir with shadow := some (snapshot s) } }

/-- Bytes of main SRAM, and entries of a table, in a chunk (log entry 21). -/
def chunkBytes : Nat := 1920
def chunkEntries : Nat := 100

/-- The first entries of a table with keys from `lo` on, and the key of the entry behind them. -/
def tablePart (l : List (Nat × Nat)) (lo : Nat) : List (Nat × Nat) × Option Nat :=
  let r := (l.filter (fun e => lo ≤ e.1)).mergeSort (fun a b => a.1 ≤ b.1)
  (r.take chunkEntries, (r[chunkEntries]?).map Prod.fst)

/-- The records of places `i` to `i + n` of a list of `size`. -/
def someOf (i n size : Nat) (f : Nat → MirRec) : List MirRec := ((List.range n).filter (fun k => i + k < size)).map (fun k => f (i + k))

/-- What goes into the next chunk of a piece, and what is left of it. -/
def cutPiece (s : State) : Piece → List MirRec × List Piece
  | .mem a n => (memRec s a (min n chunkBytes), if n ≤ chunkBytes then [] else [.mem (a + chunkBytes) (n - chunkBytes)])
  | .regs lo =>
    let r := tablePart (snapshot s).regs lo
    ([.regs lo r.2 r.1], r.2.toList.map .regs)
  | .slots lo =>
    let r := tablePart s.sfm.slots lo
    ([.slots (getF s F.SFM_SLOTCTL_ACTIVE) lo r.2 r.1], r.2.toList.map .slots)
  | .acts i => (someOf i 8 32 (fun k => .act s.lce.tick k (nth Act.fresh s.lce.acts k)), if i + 8 < 32 then [.acts (i + 8)] else [])
  | .rules i => (someOf i 16 256 (fun k => .rule s.lce.tick k (assocFind? s.lce.rules k)), if i + 16 < 256 then [.rules (i + 16)] else [])
  | .seqs i => (someOf i 2 64 (fun k => .seq s.lce.tick k (assocFind? s.lce.seqs k)), if i + 2 < 64 then [.seqs (i + 2)] else [])
  | .locks i => (someOf i 1 32 (fun k => .lock s.lce.tick k (nth Lock.fresh s.lce.locks k)), if i + 1 < 32 then [.locks (i + 1)] else [])
  | .scan => ([.scan s.mfe.entries], [])
  | .keys => ([.keys (sealedKeys s (keyMirror s))], [])
  | .gen => ([.gen s.lce.tick (getF s F.LCE_STAT_GEN)], [])
  | .mrt => ([.mrt (mrtMirror s)], [])
  | .fc => ([.fc s.sfm.groupFc], [])
  | .tx q p => (((txPackets s).filter (fun e => e.1 == q && e.2.1 == p)).map (fun e => .txPkt e.1 e.2.1 e.2.2), [])

/-- The read of main SRAM for a chunk. -/
def pieceRead (s : State) : Piece → State
  | .mem a n => readMem s a (min n chunkBytes)
  | _ => s

/-- Chunks that a piece still takes, for the progress of a copy. -/
def pieceChunks : Piece → Nat
  | .mem _ n => ceilDiv n chunkBytes
  | _ => 1

/-- The progress of a copy, %: 100 with its last chunk alone. -/
def copyPercent (sent : Nat) (left : List Piece) : Nat :=
  if left.isEmpty then 100 else min 99 (100 * sent / (sent + sumN (left.map pieceChunks)))

/-- Put a new frame on the link, and keep it until it is acknowledged. -/
def sendFrame (s : State) (b : Bytes) (rec_ : Bool) : State :=
  let at_ := retryEnd s
  let s := putFrame (ringWrite s at_ b) b
  { s with erf := { s.erf with retry := s.erf.retry ++ [{ lseq := s.erf.txSeq, rec_, at_, len := b.length }]
                               txSeq := (s.erf.txSeq + 1) % 65536 } }

/-- Send the next copy chunk, if the retry buffer has room. -/
def sendChunk (s : State) (p : Piece) (rest : List Piece) : State :=
  let c := cutPiece s p
  let left := c.2 ++ rest
  let pct := copyPercent (s.erf.copyDone + 1) left
  let b := erfFrame 3 s.erf.txSeq (pktBody (QPkt.own (msgBytes (some pct) c.1)))
  if !retryRoom s b.length then s
  else
    let s := setF (sendFrame (pieceRead s p) b false) F.ERF_MIRSTAT_COPY pct
    { s with erf := { s.erf with copyStart := false, chunkTurn := false, copyDone := s.erf.copyDone + 1, copyLeft := left } }

/-- The frame that would carry an entry of ERF-TX: its body is the packet (R343). -/
def recordFrame (s : State) (it : QItem) : Bytes :=
  erfFrame 2 s.erf.txSeq (match it with | .pkt p => pktBody p | .gap _ => [])

/-- Send the front of ERF-TX, if the retry buffer has room; a GAP marker there, one of a flush included, starts a RESYNC (R344, R345, R406,
R407). -/
def sendRecord (s : State) : State :=
  let s : State := { s with erf := { s.erf with chunkTurn := !s.erf.copyLeft.isEmpty } }
  match frontOf (queue s 12) with
  | none => s
  | some (_, e) =>
    if !retryRoom s (recordFrame s e.item).length then s
    else
      match takeQ s 12 with
      | (s, some (.pkt p)) => sendFrame s (recordFrame s (.pkt p)) true
      | (s, some (.gap _)) => startResync s
      | (s, none) => s

/-- Send a kept frame again; one that cannot be read starts a RESYNC (R344, R397). -/
def sendAgain (s : State) (f : SentFrame) (rest : List SentFrame) : State :=
  let s' := ringRead s f
  if ringBad s f then startResync s' else putFrame { s' with erf := { s'.erf with resend := rest } } (ringBytes s f)

/-- ERF_FRAME_TX: the link transmitter sends a frame that waits to be sent again, or a record, or a chunk; while a copy runs
they take turns (R344, R345, R350). Records go out only once the first chunk has restarted LSEQ. -/
def frameTx (s : State) : State :=
  if !erfOn s || !isPrimary s || getF s F.ERF_STAT_PEER != 1 then s
  else
    let s := collect s
    match s.erf.resend with
    | f :: t => sendAgain s f t
    | [] =>
      match s.erf.copyLeft with
      | p :: rest => if s.erf.copyStart || s.erf.chunkTurn || (frontOf (queue s 12)).isNone then sendChunk s p rest else sendRecord s
      | [] => sendRecord s

/-- A NAK: send again from the frame named, or RESYNC (R344). -/
def takeNak (s : State) (n : Nat) : State :=
  let t := s.erf.retry.dropWhile (fun f => f.lseq != n)
  if t.isEmpty then (if s.erf.txSeq = n then s else startResync s)
  else { s with erf := { s.erf with resend := t } }

/-- The frames behind the one named. -/
def framesAfter (n : Nat) (l : List SentFrame) : List SentFrame :=
  if l.any (fun f => f.lseq == n) then (l.dropWhile (fun f => f.lseq != n)).drop 1 else l

/-- An acknowledgement frees the retry buffer up to the frame named. -/
def takeAck (s : State) (n : Nat) : State :=
  if s.erf.retry.any (fun f => f.lseq == n) then
    { s with erf := { s.erf with retry := framesAfter n s.erf.retry, resend := framesAfter n s.erf.resend } }
  else s

/-- Records sent and not yet acknowledged (ERF_MIRSTAT.LAG). -/
def mirLag (s : State) : Nat := min 65535 (s.erf.retry.filter (·.rec_)).length

/-- The primary keeps nothing and collects nothing (R345, R347). -/
def mirrorOff (s : State) : State :=
  { s with erf := { s.erf with retry := [], resend := [], copyDone := 0, copyLeft := [], copyStart := false }
           mir := { shadow := none, told := [] } }

/-! ### Heartbeats (R346, R347) -/

/-- The heartbeat that this chip sends now. -/
def heartbeat (s : State) : Heartbeat :=
  { role := BitVec.ofNat 2 (role s), unfit := mode s == .safehold, synced := flag s F.ERF_STAT_SYNCED, pairId := s.pmu.pairId,
    own := flag s F.ERF_STAT_OWN_OUT, nak := s.erf.nak, copyStart := s.erf.copyStart && isPrimary s,
    mode := BitVec.ofNat 8 (Mode.code s.pmu.mode), lanes := BitVec.ofNat 2 (getF s F.ERF_STAT_LANES_RX),
    epoch := BitVec.ofNat 32 (getF s F.ERF_EPOCH_EPOCH), ackSeq := BitVec.ofNat 16 s.erf.rxAck,
    nakSeq := if s.erf.nak then BitVec.ofNat 16 s.erf.rxSeq else 0, sfn := BitVec.ofNat 32 (sfn s), mtime := s.tbu.time,
    dbo := BitVec.ofNat 16 (getF s F.TBU_DBO_DBO), shift := BitVec.ofInt 24 s.tbu.shift, count := BitVec.ofNat 3 s.tbu.countdown }

/-- HEARTBEAT_TX. -/
def heartbeatTx (s : State) : State :=
  if !erfOn s then s
  else
    let h := heartbeat s
    let s := putFrame (if h.nak then inc s F.ERF_LINKCNT_NAKS else s) (erfFrame 1 0 (hbBytes h))
    { s with erf := { s.erf with nak := false } }

/-- A spare that may promote now: in SPARE with no transition in progress, or one that a promotion of the same cycle displaces
(R38). -/
def mayPromote (s : State) : Bool := isSpare s || (s.pmu.paired && s.pmu.mode == .spare && rivals s 4)

/-- DEAD_COUNT heartbeat intervals of 500 µs (R347). -/
def deadTicks (s : State) : Nat := 61440 * getF s F.ERF_CFG_DEAD_COUNT

/-- The dead decision (R347): the event, and a primary keeps nothing and stops collecting; a spare promotes under R351, and the time of the
decision stays (R356). -/
def peerDead (s : State) : State :=
  if !erfOn s || getF s F.ERF_STAT_PEER == 2 then s
  else
    let s := mirrorOff (erfEvent (setF s F.ERF_STAT_PEER 2) 0)
    let s : State := if s.pmu.mode = .spare then { s with erf := { s.erf with deadAt := some (now s) } } else s
    if mayPromote s && (flag s F.ERF_STAT_SYNCED || flag s F.ERF_CFG_UNSYNC_OK) then promote s else s

/-- The spare of a root pair takes the domain's time from the primary (R80, R348).  DESIGN CHOICE: R80 names mesh time, number, DBO
and shift; the cycle on which the spare's boundary falls stays that of its own grid. -/
def takeRootTime (s : State) (h : Heartbeat) : State :=
  if isRoot s && mode s == .spare then
    let s := stepTime s ((h.mtime.toNat : Int) - now s)
    let s := setF (setF s F.TBU_SFNUM_SFNUM h.sfn.toNat) F.TBU_DBO_DBO h.dbo.toNat
    { s with tbu := { s.tbu with shift := h.shift.toInt, countdown := h.count.toNat } }
  else s

/-- A change of the lanes that the peer reports in sync (R342). -/
def takeLanes (s : State) (lanes : Nat) : State :=
  let old := getF s F.ERF_STAT_LANES_TX
  let s := setF s F.ERF_STAT_LANES_TX lanes
  if old = lanes then s
  else if lanes = 3 then erfEvent s 3
  else if lanes = 0 then s
  else erfEvent s 2

/-- What a PRIMARY's heartbeat decides: a demotion, or for a spare the adoption of the pair's epoch (R340, R353). -/
def takePrimary (s : State) (h : Heartbeat) : State :=
  if h.role != 2 then s
  else
    let s : State := { s with erf := { s.erf with seenPrimary := true } }
    let own := getF s F.ERF_EPOCH_EPOCH
    if role s = 2 ∨ mode s = .safehold then
      if own < h.epoch.toNat ∨ (own = h.epoch.toNat ∧ s.pmu.pairId) then seeHigher s h.epoch.toNat else s
    else if mode s = .spare ∧ own < h.epoch.toNat then setF s F.ERF_EPOCH_EPOCH h.epoch.toNat
    else s

/-- A spare's PRIMARY reports itself unfit (R347). -/
def unfitPrimary (s : State) (h : Heartbeat) : Bool := h.unfit && h.role == 2 && mode s == .spare

/-- The peer is heard: its epoch and its state, and its return from dead (R342, R351). A PRIMARY that a spare has found dead stays so while its
heartbeats carry UNFIT: it is decided dead once (R347). -/
def peerHeard (s : State) (h : Heartbeat) : State :=
  let back := getF s F.ERF_STAT_PEER == 2
  let s : State := { s with erf := { s.erf with hb := some h, hbAt := now s } }
  let s := setF s F.ERF_PEEREPOCH_EPOCH h.epoch.toNat
  if back && unfitPrimary s h then s
  else
    let s := setF s F.ERF_STAT_PEER 1
    if back then erfEvent { s with erf := { s.erf with deadAt := none } } 1 else s

/-- The first heartbeat since reset: a chip that is no PRIMARY adopts a higher epoch (R351). -/
def firstHeard (s : State) (h : Heartbeat) (first : Bool) : State :=
  if first && !s.erf.promoted && getF s F.ERF_EPOCH_EPOCH < h.epoch.toNat && role s != 2 then
    setF s F.ERF_EPOCH_EPOCH h.epoch.toNat
  else s

/-- COPYSTART of the PRIMARY: a spare takes the copy from its start (R346). -/
def copyHeard (s : State) (h : Heartbeat) : State :=
  if h.copyStart && h.role == 2 && isSpare s then
    { setF s F.ERF_STAT_SYNCED 0 with erf := { s.erf with rxAny := true, nak := false } }
  else s

/-- What a PRIMARY does with the spare's heartbeat (R343, R346): acknowledgements, a resync, a resend. -/
def primaryHears (s : State) (h : Heartbeat) (resync : Bool) : State :=
  let s := takeAck s h.ackSeq.toNat
  if resync then startResync s
  else if h.nak then takeNak s h.nakSeq.toNat
  else s

/-- A valid heartbeat (R347). -/
def heartbeatRx (s : State) (h : Heartbeat) : State :=
  let first := s.erf.hb.isNone
  let was := (s.erf.hb.map (fun x => x.role)).getD 0
  let resync := h.role == 1 && (getF s F.ERF_STAT_PEER != 1 || was != 1)
  let s := takeLanes (peerHeard s h) h.lanes.toNat
  let s := copyHeard (takePrimary (takeRootTime (firstHeard s h first) h) h) h
  if isPrimary s then primaryHears s h resync
  else if unfitPrimary s h then peerDead s
  else s

/-! ### The receiving lanes (R342) -/

/-- Lanes lost from sync are counted. -/
def dropLanes (s : State) : Nat → State
  | 0 => s
  | n + 1 => dropLanes (inc s F.ERF_LINKCNT_LANEDROP) n

/-- A receive lane hears code groups: its state, and the symbols heard in sync. -/
def hearLane (s : State) (k : Nat) (g : List (BitVec 10)) : State × List (Option Sym) :=
  let r := laneRun (nth RxLane.fresh s.erf.rxLanes k) g
  let s : State := { s with erf := { s.erf with rxLanes := s.erf.rxLanes.set k r.1 } }
  (dropLanes (setF s F.ERF_STAT_LANES_RX (withBit (getF s F.ERF_STAT_LANES_RX) k r.1.sync)) r.2.1, r.2.2)

/-! ### Registers (R356) -/

/-- The link is up: the peer is heard, and a receive lane is in sync (R339, R342, R347). -/
def linkUp (s : State) : Bool := getF s F.ERF_STAT_PEER == 1 && getF s F.ERF_STAT_LANES_RX != 0

/-- The extended address of a pair about to be formed (R339). -/
def pairExtOf (s : State) (v : Verdicts) : Nat := if s.pmu.pairId then v.peerExt.toNat else s.chip.ext

/-- The pair key from the chip's fresh private key and the peer's public one: salt from the two public keys in PAIR_ID order, info from the
pair's EXT (R385). -/
def pairKeyOf (s : State) (priv : Bytes) (v : Verdicts) : Option Bytes :=
  let own := x25519Pub priv
  deriveKey priv v.peerEpk (if s.pmu.pairId then v.peerEpk ++ own else own ++ v.peerEpk) (leBytes (pairExtOf s v) 8)

/-- The peer's signature of its fresh public key verifies under the installed device key, and a pair key follows (R385). -/
def pairProven (s : State) (v : Verdicts) : Bool :=
  s.sec.peerKey.any (fun k => ed25519Verify k v.peerEpk v.peerSig) && (pairKeyOf s (freshKey s).1 v).isSome

/-- The check of a write that sets PAIR_EN (R339, R385); it needs randomness (R386). -/
def pairCheck (s : State) (v : Verdicts) : Nat :=
  match s.erf.hb with
  | none => St.badParam
  | some h =>
    if !(linkUp s && h.mode.toNat == Mode.code .commission && h.pairId != s.pmu.pairId && s.sec.peerKey.isSome) then St.badParam
    else if !trngOk s then St.busy
    else need (pairProven s v)

/-- A write of ERF_CFG sets PAIR_EN. -/
def setsPair (s : State) (v : Nat) : Bool := fld F.ERF_CFG_PAIR_EN v == 1 && !flag s F.ERF_CFG_PAIR_EN

/-- Status of a write of an ERF register (R339, R356, R385). -/
def erfCheck (s : State) (a v : Nat) (vd : Verdicts) : Nat :=
  if a = F.ERF_CFG_PAIR_EN.addr then
    if fld F.ERF_CFG_DEAD_COUNT v < 4 then St.badParam
    else if setsPair s v then pairCheck s vd
    else St.ok
  else if a = F.ERF_CTL_PROMOTE.addr then
    firstBad [if fld F.ERF_CTL_PROMOTE v = 1 ∧ !(mode s == .spare && getF s F.ERF_STAT_PEER == 2) then St.badMode else St.ok,
              if fld F.ERF_CTL_RESYNC v = 1 ∧ role s ≠ 2 then St.badMode else St.ok]
  else St.ok

/-- A refused write of PAIR_EN with equal straps sets STRAPERR (R339). -/
def erfRejected (s : State) (a v : Nat) : State :=
  if a = F.ERF_CFG_PAIR_EN.addr ∧ fld F.ERF_CFG_PAIR_EN v = 1 ∧ (s.erf.hb.map (fun h => h.pairId)) = some s.pmu.pairId then
    setFlag s F.ERF_STAT_STRAPERR
  else s

/-- The pair is formed: the chip sends its fresh public key, signed with the device identity key, and keeps the pair key (R339, R385). -/
def formPair (s : State) (v : Verdicts) : State :=
  let (priv, s) := freshKey s
  let own := x25519Pub priv
  { s with sec := { s.sec with pairKey := pairKeyOf s priv v, pairSent := own ++ ed25519Sign s.chip.devSeed own }
           erf := { s.erf with pairExt := some (pairExtOf s v) } }

/-- The effect of an accepted write. -/
def erfAct (old s : State) (a v : Nat) (vd : Verdicts) : State :=
  if a = F.ERF_CFG_PAIR_EN.addr then
    if flag s F.ERF_CFG_PAIR_EN ∧ !flag old F.ERF_CFG_PAIR_EN then formPair s vd
    else if !flag s F.ERF_CFG_PAIR_EN then { s with erf := { s.erf with pairExt := none } }
    else s
  else if a = F.ERF_CTL_PROMOTE.addr then
    let s := if fld F.ERF_CTL_PROMOTE v = 1 ∧ isSpare s then promote s else s
    if fld F.ERF_CTL_RESYNC v = 1 then startResync s else s
  else s

/-! ### Meanings -/

def execHeartbeatTx (s : State) : Host.Outcome State Fault Refusal := .next (heartbeatTx s)

/-- PEER_DEAD (R347): DEAD_COUNT misses after the last valid heartbeat. -/
def execPeerDead (s : State) : Host.Outcome State Fault Refusal :=
  .next (if erfOn s && getF s F.ERF_STAT_PEER == 1 then peerDead (advanceTo s (s.erf.hbAt + deadTicks s)) else peerDead s)

def execErfFrameTx (s : State) : Host.Outcome State Fault Refusal := .next (frameTx s)

/-- ACKSEQ_STALL: a RESYNC, while the peer lives and frames wait for their acknowledgement (R345). -/
def execAckseqStall (s : State) : Host.Outcome State Fault Refusal :=
  .next (if erfOn s && getF s F.ERF_STAT_PEER == 1 && !s.erf.retry.isEmpty then startResync s else s)

/-- LANE_SYNC_CHANGE (R342). -/
def execLaneSyncChange (lane : Fin 2) (groups : List (BitVec 10)) (s : State) : Host.Outcome State Fault Refusal :=
  .next (if erfOn s then (hearLane s lane.val groups).1 else s)

/-- EPOCH_RECORD: the epoch is written to the configuration record under leave 9 (R340). -/
def execEpochRecord (s : State) : Host.Outcome State Fault Refusal :=
  .next (if !s.erf.recordDue then s
    else if holdsLeave s 9 || leaveCost s 9 0 == 0 then
      let s : State := { s with erf := { s.erf with recordDue := false }
                                nvm := { s.nvm with epoch := getF s F.ERF_EPOCH_EPOCH } }
      if s.hcp.flash.isSome then s else releaseLeave s 9
    else recordEpoch s)

/-- The instant at which a spare that has seen no PRIMARY since its reset promotes (R341): DEAD_COUNT intervals after its entry to
SPARE, and with PAIR_ID 1 a second without any heartbeat since then. -/
def noPrimaryAt (s : State) : Nat :=
  let quiet := match s.erf.hb with
    | some _ => max s.erf.spareAt s.erf.hbAt
    | none => s.erf.spareAt
  max (s.erf.spareAt + deadTicks s) (if s.pmu.pairId then quiet + Config.ticksPerSec else 0)

/-- NO_PRIMARY_TIMEOUT: a spare that has seen no PRIMARY since its reset promotes (R341). -/
def execNoPrimaryTimeout (s : State) : Host.Outcome State Fault Refusal :=
  .next (if erfOn s && mayPromote s && !s.erf.seenPrimary then promote (advanceTo s (noPrimaryAt s)) else s)

/-- OWN_IN_CHANGE. On a VH7430 the ball is a no-connect, and OWN_IN reads as tied low (R5, R480, R481). -/
def execOwnInChange (level : Bool) (dt : Nat) (s : State) : Host.Outcome State Fault Refusal :=
  .next (if inHold s || !hasFull s then s else ownInChange s level dt)

def execOwnClaim (s : State) : Host.Outcome State Fault Refusal :=
  .next (if inHold s then s else ownClaim s)

def execGateOpen (s : State) : Host.Outcome State Fault Refusal :=
  .next (if inHold s then s else openGate s)

/-- LCE_STALL_RELEASE: a stalled tick in OPERATE releases the outputs (R354). -/
def execLceStallRelease (s : State) : Host.Outcome State Fault Refusal :=
  .next (if mode s = .operate then releaseOwn s else s)

end Sys2Proof.Machine
end

