-- ==== Sys2Proof/Machine/Air.lean ====
section
/-! DEFINITION. The radio's air interface: the PPDU, air time, layout, spans and power (R217–R232).  Where R219 names IEEE 802.15.4g
and gives no bits, the order of the PHR's bits and of an octet's, the SFD, PN9 and the sense of a 2-FSK bit are PRESUMED from that
standard (log entry 148). -/

namespace Sys2Proof.Machine

/-- Bits on the air of a PSDU of `n` octets in 2-FSK bit times (R219). -/
def airBits (c : RfxCfg) (n : Nat) : Nat := 8 * (c.pre + 4) + (if c.mod_ = 0 then 8 * n else 4 * n)

/-- T(N) in 1/600,000 s (R218, R219). -/
def airTime (c : RfxCfg) (n : Nat) : Nat := airBits c n * (12 / (c.rate + 1))

/-- Access slots that `t` (1/600,000 s) needs at half a period of 65 Hz (R226). -/
def airSlots (t : Nat) : Nat := ceilDiv (t * 13) 60000

/-- The layout of port 4 (R226). -/
def airLayout (c : RfxCfg) : Layout :=
  layoutFrom (airSlots (airTime c 59 + 120)) (airSlots (airTime c 43 + 180 + airTime c 13 + 120))

/-- JLEN of port 4 (R227). -/
def airJlen (c : RfxCfg) (jseg : Nat) : Nat := airSlots (airTime c (jseg + 35) + 180 + airTime c 13 + 120)

/-- JLEN of a line port with `lp` preset lanes (R210). -/
def lineJlen (lp jseg : Nat) : Nat := ceilDiv (2 + hsymOf lp + ceilDiv (8 * (jseg + 28) + 6) lp + 2) 6

/-- The layout of any port, for the preset or radio configuration in force. -/
def layout (s : State) (n : Nat) : Layout :=
  if n = 4 then airLayout s.rfx.cfg else lineLayout (lanesOf (portMask s n))

/-- G of a port (R153). -/
def gOf (s : State) (n : Nat) : Nat := 2 ^ (layout s n).gexp

/-- Provisional allocation length of a port (R210, R227). -/
def jlenOf (s : State) (n : Nat) : Nat :=
  let j := getF s (F.MRT_JOIN_JSEG n)
  if n = 4 then airJlen s.rfx.cfg j else lineJlen (lanesOf (portMask s n)) j

/-- Random-access allocations of a port: first slots (R156). -/
def raStarts (l : Layout) : List Nat :=
  (List.range ((l.dstart - l.jstart) / max 1 l.uspan)).map (fun k => l.jstart + k * l.uspan)

/-- T in 1/16 tick: 1/600,000 s is 3,276.8 of them, so both sides are compared times 10. -/
def airFits (s : State) (t n : Nat) : Bool := t * 32768 ≤ 10 * (n * per s / 2)

/-- A unicast frame of `psdu` octets fits an allocation of `n` access slots (R223): T(N) + 0.3 ms ≤ H_n − T_A. -/
def airUnicastFits (s : State) (psdu n : Nat) : Bool :=
  airFits s (airTime s.rfx.cfg psdu + 180 + airTime s.rfx.cfg 13 + 120) n

/-- A broadcast frame fits (R223). -/
def airBroadcastFits (s : State) (psdu n : Nat) : Bool := airFits s (airTime s.rfx.cfg psdu + 120) n

/-- Ticks of an air time. -/
def airTicks (t : Nat) : Nat := t * 1024 / 5

/-! ### The PPDU (R218–R220) -/

/-- PN9 as IEEE 802.15.4g defines it, from all ones: each bit is the XOR of those 4 and 9 before it (R219, R520; PRESUMED, log
entry 22). -/
def pn9 : (h : List Bool) → Nat → List Bool
  | _, 0 => []
  | h, k + 1 =>
    let b := xor (nth true h 3) (nth true h 8)
    b :: pn9 (b :: h.take 8) k

/-- The `n` octets that a bit string spells, least significant bit first. -/
def octets (n : Nat) (bs : List Bool) : Bytes :=
  (List.range n).map (fun i => BitVec.ofNat 8 (natOfBits ((bs.drop (8 * i)).take 8)))

/-- `n` bytes of PN9, least significant bit first. -/
def pn9Bytes (n : Nat) : Bytes := octets n (pn9 (List.replicate 9 true) (8 * n))

/-- A PSDU whitened, or a whitened one restored (R219). -/
def whiten (p : Bytes) : Bytes := p.zipWith (· ^^^ ·) (pn9Bytes p.length)

/-- The radio header (R220). -/
def radioHeader (src dst : Nat) (bcast ack : Bool) (fcf epoch : Nat) : Bytes :=
  leBytes src 2 ++ leBytes dst 2 ++ leBytes (b2n bcast + 2 * b2n ack + 4 * (fcf % 4)) 1 ++ leBytes epoch 2

/-- A PSDU: radio header, MAC payload, FCS (R219, R220). -/
def radioPsdu (head payload : Bytes) : Bytes := head ++ payload ++ leBytes (crc32 (head ++ payload)) 4

/-- The FCS of a PSDU matches. -/
def fcsOk (p : Bytes) : Bool := u p (p.length - 4) 4 == crc32 (p.take (p.length - 4))

/-- The PHR of a PSDU of `n` octets: MS 0, FCS type 0, DW 1, length (R219). -/
def radioPhr (n : Nat) : BitVec 16 := BitVec.ofNat 16 (0x800 + n)

/-- The frame length that a PHR gives. -/
def phrLength (phr : BitVec 16) : Nat := phr.toNat % 2048

/-- Step 2 of R221: MS 0, FCS type 0, DW 1, length 11–1,291. -/
def phrOk (phr : BitVec 16) : Bool :=
  !bit phr.toNat 15 && !bit phr.toNat 12 && bit phr.toNat 11 && decide (11 ≤ phrLength phr) && decide (phrLength phr ≤ 1291)

/-- h·Rs/2 in Hz (R218). -/
def deviation (c : RfxCfg) : Int := (if c.modIdx = 0 then 25000 else 12500) * (c.rate + 1)

/-- The deviation of a 2-FSK bit, at the outer deviation where the frame's PSDU is 4-FSK (R218, R219). -/
def bitDeviation (c : RfxCfg) (b : Bool) : Int :=
  let d := if c.mod_ = 0 then deviation c else 3 * deviation c
  if b then d else -d

/-- The deviation of a dibit: its first bit gives the sign, its second the outer pair (R218). -/
def dibitDeviation (c : RfxCfg) (neg outer : Bool) : Int :=
  let d := if outer then 3 * deviation c else deviation c
  if neg then -d else d

def dibitDeviations (c : RfxCfg) : List Bool → List Int
  | b :: b' :: bs => dibitDeviation c b b' :: dibitDeviations c bs
  | _ => []

/-- The preamble, the SFD and the PHR of a PSDU of `n` octets, in the order in which their bits go (R219). -/
def airHead (c : RfxCfg) (n : Nat) : List Bool :=
  (List.replicate (4 * c.pre) [false, true]).flatten
    ++ [true, false, false, true, false, false, false, false, false, true, false, false, true, true, true, false]
    ++ (lsbBits (radioPhr n).toNat 16).reverse

/-- A frame on the air: the deviation of each symbol, in Hz, before the Gaussian filter (R218, R219). -/
def airSymbols (c : RfxCfg) (p : Bytes) : List Int :=
  let bs := (whiten p).flatMap (fun x => lsbBits x.toNat 8)
  (airHead c p.length).map (bitDeviation c) ++ (if c.mod_ = 0 then bs.map (bitDeviation c) else dibitDeviations c bs)

/-- The bits of a received symbol of the PSDU. -/
def symbolBits (c : RfxCfg) (k : Fin 4) : List Bool :=
  if c.mod_ = 0 then [decide (2 ≤ k.val)] else [decide (k.val ≤ 1), k.val == 0 || k.val == 3]

/-- The PSDU of `n` octets that received symbols spell; none where they end before it. -/
def radioDecode (c : RfxCfg) (n : Nat) (sym : List (Fin 4)) : Option Bytes :=
  let bs := sym.flatMap (symbolBits c)
  if bs.length < 8 * n then none else some (whiten (octets n bs))

/-- The header of a received PSDU; a radio frame has no MODE and no LMID. -/
def radioHdr (p : Bytes) : FrameHdr :=
  { length := BitVec.ofNat 11 (p.length - 11), mode := 0, lmid := 0, src := BitVec.ofNat 16 (u p 0 2), dst := BitVec.ofNat 16 (u p 2 2),
    bcast := bit (u p 4 1) 0, epoch := BitVec.ofNat 16 (u p 5 2), fcf := BitVec.ofNat 2 (u p 4 1 / 4) }

/-- ACKFRAME of a received PSDU. -/
def isAckFrame (p : Bytes) : Bool := bit (u p 4 1) 1

/-- The preamble's time, 8·PRE/Rs, in ticks. -/
def preTicks (s : State) : Nat := (quot 50 (8 * s.rfx.cfg.pre * (12 / (s.rfx.cfg.rate + 1)) * 1024 : Nat) 5).toNat

/-- The reference instant of a received frame: SFD detection less the board's receive delay and the preamble (R222). -/
def radioRef (s : State) (sfd : Nat) : Nat := sfd - getF s F.RFX_LAT_RXLAT - preTicks s

/-- The instant at RFIO of the first preamble bit of a frame that begins at access slot `a` (R222). -/
def radioFrom (s : State) (a : Nat) : Nat := ticks16 (slotStart s a) - getF s F.RFX_LAT_TXLAT

/-- The instant at which PA_EN rises for a frame sent under leave at access slot `a`: PA_LEAD µs before its first bit (R228). -/
def paRise (s : State) (a : Nat) : Nat := radioFrom s a - (quot 51 (getF s F.RFX_PWR_PA_LEAD * 3072 : Nat) 25).toNat

/-! ### Spans and duty (R223, R224, R230) -/

/-- The ack instant of an allocation: H_n − T_A from its start, in 1/16 tick (R224). -/
def ackInstant (s : State) (a n : Nat) : Nat :=
  slotStart s a + n * per s / 2 - (airTime s.rfx.cfg 13 + 120) * 32768 / 10

/-- The radio may send in this mode (R35, R232). -/
def radioMaySend (s : State) : Bool :=
  hasRadio s &&
  match mode s with
  | .boot | .spare => false
  | .safehold => s.rfx.cfg.rate == 0 && s.rfx.cfg.mod_ == 0
  | _ => true

/-- The second of mesh time. -/
def secondNow (s : State) : Nat := now s / Config.ticksPerSec

/-- Air time over the last 3,600 whole seconds and the current one, in 1/600,000 s (R230). -/
def dutySum (s : State) : Nat :=
  sumN ((s.rfx.duty.filter (fun e => secondNow s ≤ e.1 + 3600)).map (·.2))

/-- Air time is added to the current second. -/
def dutyAdd (s : State) (t : Nat) : State :=
  let d := s.rfx.duty.filter (fun e => secondNow s ≤ e.1 + 3600)
  { s with rfx := { s.rfx with duty := assocSet d (secondNow s) (assocGet 0 d (secondNow s) + t) } }

/-- A frame of this air time would raise the sum above DUTYMAX of 3,600 s (R230); 1,000 means no limit. -/
def dutyOver (s : State) (t : Nat) : Bool :=
  let m := getF s F.RFX_DUTY_DUTYMAX
  m != 1000 && m * 2160000 < dutySum s + t

/-- RFX_DUTY.USED in 0.1 % units of 3,600 s, saturating in its field. DESIGN CHOICE: R234 gives the unit and no rounding; a part of a unit
is not counted (log entry 190). -/
def dutyUsed (s : State) : Nat := min 1023 (dutySum s / 2160000)

/-- RFX_CFG and RFX_CHAN as written. -/
def cfgWritten (s : State) : RfxCfg :=
  { band := getF s F.RFX_CFG_BAND, rate := getF s F.RFX_CFG_RATE, mod_ := getF s F.RFX_CFG_MOD,
    modIdx := getF s F.RFX_CFG_MODIDX, pre := getF s F.RFX_CFG_PRE, centre := getF s F.RFX_CHAN_CENTRE }

/-- The channel lies wholly inside the band (R217), in kHz. -/
def chanOk (band rate centre : Nat) : Bool :=
  let half := 100 * (rate + 1)
  let lo := if band = 0 then 863000 else 902000
  let hi := if band = 0 then 870000 else 928000
  lo + half ≤ centre && centre + half ≤ hi

/-- At a superframe boundary outside COMMISSION the written configuration takes effect (R232). -/
def radioConfigApply (s : State) : State :=
  if mode s = .commission ∨ mode s = .boot then s else { s with rfx := { s.rfx with cfg := cfgWritten s } }

end Sys2Proof.Machine
end

