-- ==== Sys2Proof/Machine/Modem.lean ====
section
/-! DEFINITION. LPHY's modem: what a port sends in each symbol, preamble search, erasure, soft values and decoding (R97–R100, R107–R125),
and the measurements that ECHO takes from symbols (R129–R131). -/

namespace Sys2Proof.Machine

/-! ### Symbols sent -/

/-- The lanes and tones that a transmission sends in its symbol `j` (R98, R105, R124). -/
def symbolTones (s : State) (mask : Nat) (t : LineTx) (j : Nat) : List (Nat × Nat) :=
  (setBits mask 128).filterMap (fun k => (frameTone s mask t j k).map (fun x => (k, x)))

/-- The sine of a sweep point over the current phase slot: bin `b`, with a peak of half of full scale.  DESIGN CHOICE: its phase is 0 at the
start of the slot (R148, log entry 181). -/
def sweepOut (s : State) (b : Nat) : List Int :=
  (List.range (ceilDiv (per s / 16) 1024)).map (fun k => quot 64 ((fullScale / 2 : Nat) * waveSin (b * k)) (2 ^ 64))

/-- What LPHY delivers for symbol `j` of the transmission of a port, or for its sweep point, in 2⁻³⁰ of full scale; nothing where it sends
nothing, as after a frame whose ack it awaits (R64, R85, R88, R97, R148). -/
def lineOut (s : State) (n j : Nat) : List Int :=
  match (line s n).tx with
  | some t => if t.sent then [] else symbolSamples (getF s F.LPHY_CFR_ITER) (lanesOf (line s n).mask) (symbolTones s (line s n).mask t j)
  | none => if (line s n).sweepOn then sweepOut s (line s n).sweepBin else []

/-- The samples of the symbol being sent as the DAC's range and the level in force scale them: µV at the port's outputs (R86, R88, R91). -/
def lineDrive (s : State) (n : Nat) : List Int :=
  let j := match (line s n).tx with | some t => t.sym | none => 0
  (lineOut s n j).map (fun x =>
    quot 65 (x * ((line s n).vfs * levelRatio (getF s (F.LPA_STAT_LEVEL_NOW n)) : Nat)) (2 * fullScale * 2 ^ 64))

/-- CLIPSYM counts a symbol in which the final clip acts (R118). -/
def countClip (s : State) (n : Nat) (t : LineTx) (j : Nat) : State :=
  let mask := (line s n).mask
  if finalClipActs (getF s F.LPHY_CFR_ITER) (lanesOf mask) (symbolTones s mask t j) then inc s F.LPHY_CFR_CLIPSYM else s

/-! ### Preamble (R119, R120) -/

/-- The FFT window of the symbol that starts at sample `i`: 224 samples after its start (R119, step 3). -/
def fftWindow (x : List RxSample) (i : Nat) : List RxSample := (x.drop (i + 224)).take 2048

/-- Preset lanes whose strongest tone is the pattern tone in both preamble symbols (R107, R119). -/
def preambleHits (mask : Nat) (p0 p1 : List Nat) : Nat :=
  ((setBits mask 128).filter (fun k => strongest p0 k == preambleTone 0 k && strongest p1 k == preambleTone 1 k)).length

/-- Offsets of a search with the energies of P0 and P1 at each, and the preset lanes that match there. -/
def searchAt (mask : Nat) (x : List RxSample) (offsets : List Nat) : List (Nat × List Nat × List Nat × Nat) :=
  offsets.map (fun i =>
    let p0 := toneEnergies (fftWindow x i)
    let p1 := toneEnergies (fftWindow x (i + 2304))
    (i, p0, p1, preambleHits mask p0 p1))

/-- The offsets with the highest metric. -/
def bestOffsets (l : List (Nat × List Nat × List Nat × Nat)) : List (Nat × List Nat × List Nat × Nat) :=
  let m := l.foldl (fun b e => max b e.2.2.2) 0
  l.filter (fun e => e.2.2.2 == m)

/-- Energy of the six non-pattern tones of a lane over the preamble: 6 N_ℓ before its floor (R120). -/
def noiseSix (a : Acq) (k : Nat) : Nat :=
  (laneEnergy a.p0 k - energy a.p0 k (preambleTone 0 k)) + (laneEnergy a.p1 k - energy a.p1 k (preambleTone 1 k))

/-- N_ℓ in units of 1 / (384 L_P): raised to 1/64 of the mean over the preset lanes (R120). -/
def noiseScaled (a : Acq) (k : Nat) : Nat :=
  max (64 * lanesOf a.mask * noiseSix a k) (sumN ((setBits a.mask 128).map (noiseSix a)))

/-- 2 R_ℓ (R120). -/
def refTwice (a : Acq) (k : Nat) : Nat := laneEnergy a.p0 k + laneEnergy a.p1 k

/-! ### Erasure (R121) -/

/-- The lane's total energy in the symbol exceeds R_ℓ × 10^((6 + IMP_DB) / 10). -/
def impulse (a : Acq) (impDb : Nat) (e : List Nat) (k : Nat) : Bool :=
  refTwice a k ^ 10 * 10 ^ (6 + impDb) < (2 * laneEnergy e k) ^ 10

/-- One symbol as the decoder sees it: the lanes that carry cells in it, its energies, the lanes whose cells are erased, and whether
CLIP, a wide impulse or silence erases the symbol as a whole. -/
structure RxSym where
  lanes : Nat
  e : List Nat
  erased : List Nat
  whole : Bool

/-- A symbol of a received frame: position `j`, its window, the lanes that carry cells (R64, R121). -/
def rxSym (s : State) (n : Nat) (a : Acq) (j lanes : Nat) (w : List RxSample) : RxSym :=
  let e := toneEnergies w
  let live := setBits lanes 128
  let hit := live.filter (impulse a (getF s (F.LPHY_RXCTL_IMP_DB n)) e)
  let all := windowClips w || positionSilent s a.slot j || decide (getF s (F.LPHY_RXCTL_IMP_WIDE n) * live.length < 16 * hit.length)
  { lanes, e, erased := if all then live else hit, whole := all }

/-- IMPSYM and WIDEERA of a symbol (R121). -/
def countErased (s : State) (n lanes : Nat) (erased : List Nat) : State :=
  if erased.isEmpty then s
  else
    let s := inc s (F.LPHY_ERACNT_IMPSYM n)
    if erased.length = lanesOf lanes then inc s (F.LPHY_ERACNT_WIDEERA n) else s

/-! ### Soft values (R122) -/

/-- 8 λ rounded and clamped to ±127, for an energy difference on a lane.  DESIGN CHOICE: a tie is rounded up, of which R122 says nothing
(log entry 180). A lane without any noise energy has no stated λ, a free
value (log entry 134). -/
def softVal (a : Acq) (k : Nat) (d : Int) : Int :=
  let nn := noiseScaled a k
  if nn = 0 then (if d = 0 then 0 else (Config.real 62 [d.natAbs, b2n (d < 0)] % 255 : Nat) - 127)
  else clampI (-127) 127 (roundDiv (8 * 384 * lanesOf a.mask * d) nn)

/-- Soft values of the two bits of a cell: 0 where it is erased (R121, R122). -/
def softCell (a : Acq) (y : RxSym) (k : Nat) : Int × Int :=
  if y.erased.contains k then (0, 0)
  else
    let t (i : Nat) : Int := energy y.e k i
    (softVal a k (max (t 0) (t 1) - max (t 2) (t 3)), softVal a k (max (t 0) (t 3) - max (t 1) (t 2)))

/-- Soft values of cell `n` of a block of symbols, placed by the cell map (R111). -/
def blockCell (a : Acq) (ys : List RxSym) (n : Nat) : Int × Int :=
  match cellMap (ys.map (fun y => lanesOf y.lanes)) 0 n with
  | some (i, j) =>
    match ys[i]? with
    | some y => softCell a y (laneAt y.lanes j)
    | none => (0, 0)
  | none => (0, 0)

/-- The combined soft values of a dibit from the cells of its copies, saturating at ±2,047 (R122). -/
def combine (a : Acq) (ys : List RxSym) (cells : List Nat) : Int × Int :=
  let v := cells.map (blockCell a ys)
  (clampI (-2047) 2047 (v.foldl (fun x e => x + e.1) 0), clampI (-2047) 2047 (v.foldl (fun x e => x + e.2) 0))

/-! ### Header (R108–R110, R122) -/

/-- The 84 header bits, decided hard: 0 where the combined value is 0 or more (R110, R122). -/
def headerDecide (a : Acq) (ys : List RxSym) : List Bool :=
  let v := (List.range 42).map (fun i => combine a ys ((List.range 6).map (fun m => headerCell m i)))
  v.map (fun e => decide (e.1 < 0)) ++ v.map (fun e => decide (e.2 < 0))

/-- A field of the header bits, least significant bit first. -/
def hdrField (h : List Bool) (o w : Nat) : BitVec w := BitVec.ofNat w (natOfBits ((h.drop o).take w))

/-- The header fields (R108). -/
def headerFields (h : List Bool) : FrameHdr :=
  { length := hdrField h 0 11, mode := hdrField h 11 2, lmid := hdrField h 13 12, src := hdrField h 25 16, dst := hdrField h 41 16,
    bcast := nth false h 57, epoch := hdrField h 58 16, fcf := hdrField h 74 2 }

/-- CRC8 matches h[0]–h[75] (R109, R123 step 1). -/
def headerOk (h : List Bool) : Bool := (lsbBits (crc8 (h.take 76)) 8).reverse == h.drop 76

/-! ### Payload (R112–R115, R122) -/

/-- The combined soft values of the coded sequence (R114, R115). -/
def codedSoft (a : Acq) (ys : List RxSym) (mode len : Nat) : List Int :=
  let d := dibits mode len
  let v := (List.range d).map (fun i => combine a ys ((List.range (repeats mode)).map (fun m => m * d + place d i)))
  v.map (·.1) ++ v.map (·.2)

/-- The soft values of A_n and B_n; a removed bit is 0 (R113). -/
def stepSoft (mode : Nat) (c : List Int) (n : Nat) : Int × Int :=
  if mode ≠ 0 then (nth 0 c (2 * n), nth 0 c (2 * n + 1))
  else if n % 2 = 0 then (nth 0 c (3 * (n / 2)), nth 0 c (3 * (n / 2) + 1))
  else (nth 0 c (3 * (n / 2) + 2), 0)

/-- What the encoder emits from a state, the last six inputs with the newest lowest, for an input (R113). -/
def branchOut (st : Nat) (b : Bool) : Bool × Bool := ((convEncode (lsbBits st 6) [b]).head?).getD (false, false)

/-- A trellis state's survivor: its metric and its inputs, newest first. -/
abbrev Survivor := Option (Int × List Bool)

/-- The path into state `t` from `p`. -/
def extend (v : List Survivor) (x : Int × Int) (t p : Nat) : Survivor :=
  (nth none v p).map (fun m =>
    let b := bit t 0
    let o := branchOut p b
    (m.1 + (if o.1 then -x.1 else x.1) + (if o.2 then -x.2 else x.2), b :: m.2))

/-- The better of two paths; between equal ones the spec does not choose, a free value (log entry 133). -/
def survivor (n t : Nat) (a b : Survivor) : Survivor :=
  match a, b with
  | some x, some y => if x.1 < y.1 ∨ (x.1 = y.1 ∧ Config.roundsUp 44 n t) then some y else some x
  | some x, none => some x
  | none, y => y

/-- Steps of the soft-input Viterbi decoder over the 64 states (R122). -/
def viterbiRun : (n : Nat) → List (Int × Int) → List Survivor → List Survivor
  | _, [], v => v
  | n, x :: xs, v =>
    viterbiRun (n + 1) xs ((List.range 64).map (fun t => survivor n t (extend v x t (t / 2)) (extend v x t (t / 2 + 32))))

/-- The decoded encoder inputs, traced back from the all-zero state at the end of the tail (R122). -/
def viterbi (xs : List (Int × Int)) : List Bool :=
  match nth none (viterbiRun 0 xs (some (0, []) :: List.replicate 63 none)) 0 with
  | some r => r.2.reverse
  | none => []

/-- Payload and received CRC-32 of a frame from its payload symbols (R112–R115, R122). -/
def payloadDecode (a : Acq) (ys : List RxSym) (mode len : Nat) : Bytes × Nat :=
  if len = 0 then ([], crc32 [])
  else
    let c := codedSoft a ys mode len
    let b := viterbi ((List.range (inputBits len)).map (stepSoft mode c))
    let all := (List.range (len + 4)).map (fun i => BitVec.ofNat 8 (natOfBits ((b.drop (8 * i)).take 8)))
    (all.take len, leNat (all.drop len))

/-! ### What ECHO takes from received symbols (R129, R131, R134) -/

/-- Noise of a cell from the mean energy of bins of its lane (R131). -/
def noiseOf (s : State) (n : Nat) (e : List Nat) (k : Nat) (bins : List Nat) : Nat :=
  dbLevel 48 4 (getF s (F.LPA_STAT_GAIN_NOW n)) (sumN (bins.map (energy e k))) bins.length

/-- Noise from one symbol in phase slot `p`: of a lane that sends, its three unsent bins; of any other preset lane, all four; an
erased cell counts in IMP instead (R129, R134). -/
def symbolNoise (s : State) (n mask p : Nat) (sent : Nat → Option Nat) (e : List Nat) (erased : List Nat) : State :=
  (setBits mask 128).foldl (fun s k =>
    if erased.contains k then markErased s n (cellIx k p)
    else
      let bins := match sent k with
        | some t => (List.range 4).filter (fun i => i != t)
        | none => List.range 4
      measureNoise s n (cellIx k p) (noiseOf s n e k bins)) s

/-- A symbol that R121 erases as a whole gives no noise, and marks the cells that carry the frame alone (R121, R129). -/
def rxNoise (s : State) (n : Nat) (a : Acq) (j : Nat) (y : RxSym) : State :=
  let p := positionSlot s a.slot j
  symbolNoise s n (if y.whole then y.lanes else a.mask) p (fun k => if bit y.lanes k then some (strongest y.e k) else none) y.e y.erased

/-- Noise from the two preamble symbols, whose tones are known; a clipped one gives none (R107, R121, R129). -/
def preambleNoise (s : State) (n : Nat) (a : Acq) : State :=
  let one (s : State) (j : Nat) (e : List Nat) (c : Bool) : State :=
    if c then s else symbolNoise s n a.mask (positionSlot s a.slot j) (fun k => some (preambleTone j k)) e []
  one (one s 0 a.p0 a.c0) 1 a.p1 a.c1

/-- S(g) of the sender from the preamble reference, in 0.5 dB; taken outright while not measured, else moved by a quarter (R131,
log entry 135). -/
def rxLevels (s : State) (n ctx : Nat) (a : Acq) : State :=
  (List.range 32).foldl (fun s g =>
    let lanes := (setBits a.mask 128).filter (fun k => k / 4 == g)
    if lanes.isEmpty then s
    else
      let old := sGroup s ctx g
      let v := min 254 (dbLevel 49 2 (getF s (F.LPA_STAT_GAIN_NOW n)) (sumN (lanes.map (refTwice a))) (2 * lanes.length))
      memPut s (recAddr s ctx + g) 1 (if old = 0xFF then v else ((old : Int) + quot 18 ((v : Int) - old) 4).toNat)) s

/-! ### Impedance from own symbols (R129, R130, R134) -/

/-- The sensed current in 0.1 µA: that of the integrated driver as it is, from µA; that of an external amplifier from the voltage at
XISnP–XISnN in µV, held within its full scale of ±0.5 V, at XISCALE tenths of an ampere per volt (R89, R91). -/
def senseCurrent (s : State) (n : Nat) (x : Int) : Int :=
  if flag s (F.LPA_CTL_XMODE n) then clampI (-500000) 500000 x * (getF s (F.LPA_CTL_XISCALE n) : Int) else 10 * x

/-- The current samples of a window as ECHO takes them (R89, R91). -/
def senseVals (s : State) (n : Nat) (i : List (BitVec 32)) : List Int := i.map (fun x => senseCurrent s n x.toInt)

/-- The window of one own symbol, receive voltage and current, enters the cells of the lanes that sent in it; one that CLIP erases measures
nothing. -/
def measureSymbol (s : State) (n : Nat) (t : LineTx) (w : TxWin) : State :=
    let mask := (line s n).mask
    let p := positionSlot s t.slot (t.first + w.sym)
    if windowClips w.v then s
    else
      (symbolTones s mask t w.sym).foldl (fun s e =>
        let b := toneBin e.1 e.2
        match impedance (getF s (F.LPHY_ZCAL_ZSCALE n)) (getF s (F.LPHY_ZCAL_ZROT n)) 2048 (dft (windowVals w.v) b)
            (dft (senseVals s n w.i) b) with
        | some (m, ph) => measureZ s n (cellIx e.1 p) m ph false
        | none => s) s

/-- What an own transmission gives, its symbols below `upto` in the order in which they were sent: an impedance each, or from a limited one
the marks of its cells, which stand against the measurements of earlier symbols (R129, R134, R150). -/
def measureTx (s : State) (n : Nat) (t : LineTx) (upto : Nat) (ws : List TxWin) : State :=
  if !zSense s n then s
  else
    (List.range (min upto t.size)).foldl (fun s k =>
      if t.limited.contains k then setStale s n (sendingLanes s (line s n).mask t k) (positionSlot s t.slot (t.first + k))
      else (ws.filter (fun w => w.sym == k)).foldl (fun s w => measureSymbol s n t w) s) s

/-! ### Silent positions -/

/-- The port receives a frame: a preamble has been declared and its allocation has not ended. -/
def receiving (s : State) (n : Nat) : Bool := (line s n).acq.any (fun a => now s < a.until_)

/-- The noise of a silent position enters the map. -/
def quietTake (s : State) (n : Nat) (q : Quiet) : State :=
  q.noise.foldl (fun s e => measureNoise s n (cellIx e.1 q.p) e.2) s

/-- Noise of a silent position that ends now: it is held back for the two positions that a preamble may turn out to fill (R129, log
entry 137). -/
def silentNoise (s : State) (n : Nat) (x : List RxSample) : State :=
  if windowClips x || receiving s n then s
  else
    let e := toneEnergies (fftWindow x 0)
    let q : Quiet := { end_ := now s, p := phaseSlotAt s (16 * (now s - 73728)),
                       noise := (setBits (portMask s n) 128).map (fun k => (k, noiseOf s n e k (List.range 4))) }
    let all := q :: (line s n).quiet
    modLine ((all.drop 2).foldl (fun s q => quietTake s n q) s) n (fun l => { l with quiet := all.take 2 })

/-- A preamble whose first sample is at `at_` is declared: positions past before it were silent, those it fills were not. -/
def quietBefore (s : State) (n at_ : Nat) : State :=
  let s := ((line s n).quiet.filter (fun q => q.end_ < at_ + 73728)).foldl (fun s q => quietTake s n q) s
  modLine s n (fun l => { l with quiet := [] })

/-- The positions of a frame whose header was not accepted were silent ones (R129). -/
def headerSilent (s : State) (n : Nat) (a : Acq) (ys : List RxSym) : State :=
  let one (s : State) (j : Nat) (e : List Nat) (erased : List Nat) : State :=
    symbolNoise s n a.mask (positionSlot s a.slot j) (fun _ => none) e erased
  let s := if a.c0 then s else one s 0 a.p0 []
  let s := if a.c1 then s else one s 1 a.p1 []
  ys.zipIdx.foldl (fun s y => one s (2 + y.2) y.1.e y.1.erased) s

/-! ### The ack tail (R124, R125) -/

/-- Cells of an ack tail: those not erased, and those among them whose strongest tone is the expected one.  Only CLIP and silence
erase here, since R_ℓ comes with a preamble (log entry 136). -/
def tailScore (s : State) (mask word slot first : Nat) (ws : List (List RxSample)) : Nat × Nat :=
  (List.range 2).foldl (fun r i =>
    let w := nth [] ws i
    if windowClips w || positionSilent s slot (first + i) then r
    else
      let e := toneEnergies w
      let lanes := setBits mask 128
      (r.1 + (lanes.filter (fun k => some (strongest e k) == tailTone mask word i k)).length, r.2 + lanes.length)) (0, 0)

/-- The erased symbols of an ack tail count, and their cells take IMP (R121, R134). -/
def tailErased (s : State) (n mask slot first : Nat) (ws : List (List RxSample)) : State :=
  (List.range 2).foldl (fun s i =>
    if windowClips (nth [] ws i) || positionSilent s slot (first + i) then
      let p := positionSlot s slot (first + i)
      (setBits mask 128).foldl (fun s k => markErased s n (cellIx k p)) (countErased s n mask (setBits mask 128))
    else s) s

end Sys2Proof.Machine
end

