-- ==== Sys2Proof/Machine/Frames.lean ====
section
/-! DEFINITION. Forming frames: allocations, beacon slots, MAC payloads and their protection, transmit queues, and the leave
points of coming transmissions (R53, R154–R172, R370, R371). -/

namespace Sys2Proof.Machine

/-! ### Addresses -/

def ownEpoch (s : State) : Nat := getF s F.ERF_EPOCH_EPOCH
def joined (s : State) : Bool := isRoot s || getF s F.SFM_STAT_STATE == 1 || getF s F.SFM_STAT_STATE == 3
def isOrphan (s : State) : Bool := getF s F.SFM_STAT_STATE == 2

/-- The node sends frames and beacons (R35, R180, R353). -/
def maySend (s : State) : Bool :=
  !s.erf.silenced &&
  match mode s with
  | .operate | .safehold => true
  | .roost => s.sfm.awake
  | _ => false

/-- The node sends ack tails: also where it has stopped sending frames and beacons (R35, R353). -/
def sendsTails (s : State) : Bool :=
  match mode s with
  | .operate | .safehold => true
  | .roost => s.sfm.awake
  | _ => false

/-! ### Allocations (R158) -/

/-- An allocation active in a superframe. -/
structure Alloc where
  start : Nat
  len : Nat
  ctx : Nat
  send : Bool
  deriving DecidableEq, Repr

def slotKey (bank port e : Nat) : Nat := bank * 320 + port * 64 + e
def slotWord (s : State) (bank port e : Nat) : Nat := assocGet 0 s.sfm.slots (slotKey bank port e)
def putSlot (s : State) (bank port e w : Nat) : State :=
  { s with sfm := { s.sfm with slots := cellSet 0 s.sfm.slots (slotKey bank port e) w } }

def eStart (w : Nat) : Nat := bits w 0 7
def eLen (w : Nat) : Nat := bits w 7 7
def eCtx (w : Nat) : Nat := bits w 14 12
def eRecv (w : Nat) : Bool := bit w 26
def ePexp (w : Nat) : Nat := bits w 27 4

def activeBank (s : State) : Nat := getF s F.SFM_SLOTCTL_ACTIVE

/-- The node beacons on the port at all: BCN_EN and EN (R155). -/
def beaconsOn (s : State) (n : Nat) : Bool := flag s (F.SFM_PORTCFG_BCN_EN n) && portOn s n

/-- The beacon-slot index in force on a port (R33). -/
def bslot (s : State) (n : Nat) : Nat := nth 0 s.sfm.bslots n

/-- This node is the parent end of a link: of a child's, or on a lateral link by the lower short address (R159, R212). -/
def parentEnd (s : State) (ctx : Nat) : Bool :=
  cChild s ctx || (!cParent s ctx && decide (ownAddr s < cGet s ctx C.pshort))

/-- The link phase φ for a period (R158, R173). -/
def entryPhase (s : State) (n ctx p : Nat) : Nat :=
  let mine := parentEnd s ctx
  let b := if mine then (if beaconsOn s n then bslot s n else 0) else (link s ctx).beaconB.getD 0
  linkPhase p (gOf s n) b (if mine then cGet s ctx C.pshort else ownAddr s)

/-- An entry is active in superframe `sf` (R158). -/
def entryActive (s : State) (n w sf : Nat) : Bool :=
  eLen w != 0 && sf % 2 ^ ePexp w == entryPhase s n (eCtx w) (2 ^ ePexp w)

/-- The words of a port in force: the active bank, but for the links held in their old form (R159). -/
def wordsInForce (s : State) (n : Nat) : List Nat :=
  let held := (s.sfm.held.filter (fun h => h.port == n)).map (·.ctx)
  ((List.range 64).filterMap (fun e =>
    let w := slotWord s (activeBank s) n e
    if eLen w = 0 ∨ s.sfm.silent.contains (slotKey (activeBank s) n e) ∨ held.contains (eCtx w) then none else some w))
  ++ ((s.sfm.held.filter (fun h => h.port == n)).map (·.old)).flatten

/-- Provisional allocations of a port in superframe `sf` (R208). -/
def provAllocs (s : State) (n sf : Nat) : List Alloc :=
  ((s.mrt.provs.filter (fun p => p.port == n && sfReached sf p.effect &&
      (match p.until_ with | some u => !sfReached sf u || sf == u | none => true))).map (fun p =>
    [{ start := p.up, len := p.jlen, ctx := p.ctx, send := !p.parentEnd },
     { start := p.dn, len := p.jlen, ctx := p.ctx, send := p.parentEnd }])).flatten

/-- Allocations of a port active in superframe `sf`. -/
def allocsAt (s : State) (n sf : Nat) : List Alloc :=
  ((wordsInForce s n).filterMap (fun w =>
    if cEstablished s (eCtx w) ∧ cPort s (eCtx w) = n ∧ entryActive s n w sf then
      some { start := eStart w, len := eLen w, ctx := eCtx w, send := !eRecv w }
    else none)) ++ provAllocs s n sf

/-- The link has a send allocation, whether or not it is active in this superframe. -/
def holdsSend (s : State) (ctx : Nat) : Bool :=
  (wordsInForce s (cPort s ctx)).any (fun w => eCtx w == ctx && !eRecv w)
    || (provAllocs s (cPort s ctx) (sfn s)).any (fun a => a.ctx == ctx && a.send)

/-- The entries of a link that the active bank holds, in force or held for an ALLOC. -/
def linkWords (s : State) (n ctx : Nat) : List Nat :=
  (List.range 64).filterMap (fun e =>
    let w := slotWord s (activeBank s) n e
    if eLen w = 0 ∨ eCtx w ≠ ctx ∨ s.sfm.silent.contains (slotKey (activeBank s) n e) then none else some w)

/-- Test-frame allocations of COMMISSION: entries of the active bank with DIR 0 and PEXP 0 (R520). -/
def testAllocs (s : State) (n : Nat) : List Alloc :=
  (List.range 64).filterMap (fun e =>
    let w := slotWord s (activeBank s) n e
    if eLen w = 0 ∨ eRecv w ∨ ePexp w ≠ 0 then none
    else some { start := eStart w, len := eLen w, ctx := eCtx w, send := true })

/-- Positions of an allocation (R152). -/
def allocSize (s : State) (a : Alloc) : Nat := allocPositions s a.len

/-- No boundary shift cuts the allocation (R75). -/
def allocWhole (s : State) (a : Alloc) : Bool := slotUsable s (a.start + a.len - 1)

/-! ### Transmit queues (R23, R170) -/

/-- The receive queue of a port. -/
def rxQueue (n : Nat) : Nat := if n = 4 then 9 else n + 4

/-- MRT commits a packet to the transmit queue of a link: class, SEC, PRIV and class content, addressed to the context
(R197). -/
def sendTo (s : State) (ctx cls : Nat) (sec priv : Bool) (content : Bytes) : State :=
  let fctl := cls + 16 * b2n sec + 64 * b2n priv
  let p : QPkt := { QPkt.own (leBytes fctl 6 ++ content) with ctx, port := cPort s ctx, priv }
  let i := txQueue (cPort s ctx)
  releaseGaps (commitQ s i p).1 i

/-- The first entry not released up to the `k`-th whose header is poisoned, as SFM meets them on its way to that one (R407). -/
def badHeader (s : State) (i k : Nat) : Option (Nat × QEntry) :=
  (((queue s i).entries.mapIdx (fun j e => (j, e))).take (k + 1)).find? (fun x =>
    !x.2.released && qBad s i (placeOf (queue s i) x.1) x.2.item 0)

/-- SFM reads the packet that a link would send next (R403): a poisoned header on the way to it flushes, and a packet with a poisoned payload is
discarded, so that the next one is read (R406, R407). -/
def reachLink (s : State) (n ctx : Nat) : Nat → State
  | 0 => s
  | fuel + 1 =>
    let i := txQueue n
    match (linkPackets s n ctx).head? with
    | none => s
    | some (k, _) =>
      match badHeader s i k, (queue s i).entries[k]? with
      | some (j, e), _ => releaseGaps (flushAt (readQ s i (placeOf (queue s i) j) e.item 0) i j) i
      | none, some e =>
        let place := placeOf (queue s i) k
        let r := readPay (readQ s i place e.item 0) i place e.item (e.words - 1)
        if payBad s i place e.item (e.words - 1) then
          reachLink (countPoison (setQueue r i (releaseAt (queue r i) k)) i) n ctx fuel
        else r
      | none, none => s

/-- SFM reads what a link would send next. -/
def readNext (s : State) (n ctx : Nat) : State := reachLink s n ctx ((queue s (txQueue n)).entries.length + 1)

/-- What a link's next frame carries: a MAC-CONTROL body, or a queued packet, or a CARRIER for a pending element. -/
structure TxItem where
  ctl : Bool
  /-- place in the queue, for a queued packet -/
  at_ : Nat
  cls : Nat
  sec : Bool
  priv : Bool
  content : Bytes
  deriving DecidableEq, Repr

def ctlItem (b : Bytes) : TxItem := { ctl := true, at_ := 0, cls := 1, sec := true, priv := false, content := b }
def pktItem (k : Nat) (p : QPkt) : TxItem :=
  let f := u p.payload 0 1
  { ctl := false, at_ := k, cls := f % 16, sec := bit f 4, priv := bit f 6, content := p.payload.drop 6 }

/-- Body of a CARRIER (R171). -/
def carrierBody : Bytes := leBytes 5 1

/-- The item that a link has taken: the one on the air, or in its tries. -/
def takenItem (s : State) (n ctx : Nat) : Option TxItem :=
  let l := link s ctx
  if l.ctlTaken then l.ctl.head?.map ctlItem else ((linkPackets s n ctx).head?).map (fun x => pktItem x.1 x.2)

/-- The first thing of `a` and `b` that there is. -/
def firstOf (a b : Option TxItem) : Option TxItem := match a with | some x => some x | none => b

/-- An item is a frame of a join, of types 1–8 (R206). -/
def TxItem.joins (it : TxItem) : Bool := !it.ctl && it.cls == 3 && decide (u it.content 8 1 ≤ 8)

/-- An item may be sent in this mode: in a pair, a JOIN frame in OPERATE alone (R213). -/
def itemMaySend (s : State) (it : TxItem) : Bool := !it.joins || !s.pmu.paired || mode s == .operate

/-- An item is an ADVERT that goes in the link's first send allocation (R200). -/
def TxItem.leads (it : TxItem) : Bool := !it.ctl && leadsLink it.cls it.content

/-- The item that a link would send next (R142, R147, R170, R171, R200): an ADVERT of attachment or leaving where nothing is in its tries;
a CARRIER where an element must go alone, also ahead of a packet in its tries; the item in its tries; a control message before a queued
packet, and a CARRIER after both. -/
def linkItem (s : State) (n ctx : Nat) : Option TxItem :=
  let l := link s ctx
  let carrier := if (pendingElem l).isEmpty ∨ 4 ≤ n then none else some (ctlItem carrierBody)
  let packet := ((linkPackets s n ctx).head?).map (fun x => pktItem x.1 x.2)
  if l.tries = 0 ∧ l.held.isNone ∧ packet.any TxItem.leads then packet
  else if l.mapxAlone && l.held.isNone && carrier.isSome then carrier
  else if l.tries ≠ 0 then firstOf (takenItem s n ctx) (if l.ctlTaken then carrier else none)
  else firstOf (l.ctl.head?.map ctlItem) (firstOf packet carrier)

/-- Something more waits for the receiver besides the frame itself, which is among the waiting unless `extra` (PEND of R161). -/
def morePending (s : State) (n ctx : Nat) (extra : Bool) : Bool :=
  b2n (!extra) < (link s ctx).ctl.length + (linkPackets s n ctx).length
    + (s.sfm.access.filter (fun x => !x.bcast && x.port == n && x.ctx == ctx)).length

/-! ### MAC payload (R161, R370, R371) -/

/-- MAC-payload bytes 0–5. -/
def macHead (cls : Nat) (sec mapx priv pend : Bool) (lsn fc : Nat) : Bytes :=
  leBytes (cls + 16 * b2n sec + 32 * b2n mapx + 64 * b2n priv + 128 * b2n pend) 1 ++ leBytes lsn 1 ++ leBytes fc 4

/-- Key of a protected frame, and its KEYCLASS. -/
def linkKey (s : State) (ctx : Nat) : Bytes := memRead s (ctxBase ctx + 12) 32
/-- DESIGN CHOICE: a sender that holds no group key uses zeros, under which nothing verifies (log entry 224). -/
def groupKey (s : State) : Bytes := (s.sec.gkey.map (·.2)).getD (List.replicate 32 0)

/-- The nonce of R370, from KEYCLASS, SRC and MAC-payload bytes 0–5. -/
def frameNonce (keyClass src : Nat) (head : Bytes) (beacon : Bool) : Bytes :=
  leBytes keyClass 1 ++ leBytes 0 5 ++ leBytes src 2 ++ slice head 2 4 ++ leBytes (if beacon then 2 else 6) 1

/-- The additional authenticated data of R371. -/
def frameData (src dst : Nat) (bcast : Bool) (epoch len : Nat) (head : Bytes) : Bytes :=
  leBytes src 2 ++ leBytes dst 2 ++ leBytes (b2n bcast) 1 ++ leBytes epoch 2 ++ leBytes len 2 ++ head

/-- The MAC payload of a secured frame (R370, R371). -/
def sealBody (keyClass : Nat) (key : Bytes) (src dst : Nat) (bcast : Bool) (epoch : Nat) (head body : Bytes) (beacon : Bool) :
    Bytes :=
  let nonce := frameNonce keyClass src head beacon
  let aad := frameData src dst bcast epoch (14 + body.length) head
  if beacon then head ++ body ++ ccmMic key nonce (aad ++ body) [] else head ++ ccmSeal key nonce aad body

/-- A frame header (R108, R220). -/
def mkHdr (s : State) (src dst : Nat) (bcast : Bool) (len mode lmid fc : Nat) : FrameHdr :=
  { length := BitVec.ofNat 11 len, mode := BitVec.ofNat 2 mode, lmid := BitVec.ofNat 12 lmid, src := BitVec.ofNat 16 src,
    dst := BitVec.ofNat 16 dst, bcast, epoch := BitVec.ofNat 16 (ownEpoch s), fcf := BitVec.ofNat 2 fc }

/-- The node's extended address (R183, R339): the pair's, in a pair. -/
def nodeExt (s : State) : Nat := (if s.pmu.paired then s.erf.pairExt else none).getD s.chip.ext

/-- The source address of frames to a context: TEMP while an unjoined node joins (R185). -/
def srcFor (s : State) (ctx : Nat) : Nat :=
  match s.mrt.joiner with
  | some j => if j.ctx = ctx ∧ cProvisional s ctx then j.src else ownAddr s
  | none => ownAddr s

/-- Content of a DELAY_RESP with its t3, the reference instant of the frame that carries it (R172). -/
def fillDelay (s : State) (a : Alloc) (c : Bytes) : Bytes :=
  if u c 0 1 = 3 ∧ c.length = 9 then c ++ leBytes (ticks16 (slotStart s a.start)) 8 else c

/-- One unicast frame formed for an item: element, payload, header fields (R142, R161). -/
def unicastPayload (s : State) (n ctx fc : Nat) (it : TxItem) (elem content : Bytes) : Bytes :=
  let body := elem ++ content
  let lsn := if it.sec then cGet s ctx C.txlsn else 0
  let extra := it.ctl && it.content == carrierBody && (link s ctx).ctl.head? != some carrierBody
  let head := macHead it.cls it.sec (!elem.isEmpty) it.priv (morePending s n ctx extra) lsn (if it.sec then fc else 0)
  if it.sec then
    sealBody 0 (linkKey s ctx) (srcFor s ctx) (cGet s ctx C.pshort) false (ownEpoch s % 65536) head body false
  else head ++ body

/-! ### Rekeys (R376) -/

/-- A JOIN-class message to a context: mesh header, TYPE, SEG 0, fields. -/
def joinContent (orig final type seg : Nat) (fields : Bytes) : Bytes :=
  meshHdr orig final 1 32 false 0 ++ leBytes type 1 ++ leBytes seg 1 ++ fields

/-- A fresh random number of `n` bytes from the TRNG: a free value (log entry 5). -/
def randBytes (s : State) (n : Nat) : Nat × State :=
  let (v, s) := draw s
  (v % 256 ^ n, s)

/-- Cut a list into parts of at most `n`. -/
def partsOf {α : Type} (n : Nat) : (fuel : Nat) → List α → List (List α)
  | 0, _ => []
  | k + 1, l => if l.length ≤ n then [l] else l.take n :: partsOf n k (l.drop n)

/-- Cut content into segments of JSEG bytes: SEG byte and bytes (R206). -/
def segments (jseg : Nat) (b : Bytes) : List (Nat × Bytes) :=
  let ps := partsOf jseg 64 b
  ps.mapIdx (fun i p => (i + 16 * (ps.length - 1), p))

/-- Send a JOIN message over a link, in segments of the port's JSEG (R206, R375). -/
def joinSend (s : State) (ctx type : Nat) (sec : Bool) (fields : Bytes) : State :=
  (segments (getF s (F.MRT_JOIN_JSEG (cPort s ctx))) fields).foldl (fun s p =>
    sendTo s ctx 3 sec false (joinContent (srcFor s ctx) (cGet s ctx C.pshort) type p.1 p.2)) s

/-- SEC starts a rekey of a context (R376). -/
def rekeyStart (s : State) (ctx : Nat) : State :=
  let (n, s) := randBytes s 4
  let (priv, s) := freshKey s
  let s : State := { s with sec := { s.sec with
                                     rekeys := { ctx, nonce := n, priv, at_ := sfn s } :: s.sec.rekeys.filter (fun r => r.ctx != ctx) } }
  joinSend s ctx 9 true (leBytes n 4 ++ x25519Pub priv)

/-- A send counter reaches 0xF000_0000 with REKEY_EN: a rekey starts (R376). -/
def rekeyAuto (s : State) (ctx : Nat) : State :=
  if 0xF0000000 ≤ cGet s ctx C.txfc ∧ trngOk s ∧ flag s F.SEC_CFG_REKEY_EN ∧ !s.sec.rekeys.any (fun r => r.ctx == ctx) then
    rekeyStart s ctx
  else s

/-! ### Coming transmissions and their leave (R53, R84, R95) -/

/-- The node's beacon of a port in superframe `sf` is due (R154, R155, R178). -/
def beaconDue (s : State) (n sf : Nat) : Bool :=
  beaconsOn s n && maySend s && mode s != .roost &&
  (match s.sfm.upLost with | some 0 => false | some _ => true | none => joined s) &&
  sf % gOf s n == bslot s n % gOf s n

/-- A link's send allocation may carry a frame: the node is not ORPHAN, its context can be read, and a sleepy child has polled
(R32, R175, R177). -/
def linkMaySend (s : State) (ctx : Nat) : Bool :=
  maySend s && !ctxPoisoned s ctx && (!isOrphan s || cProvisional s ctx) &&
  (!(bit (cGet s ctx C.kstate) 3 && cChild s ctx) || (link s ctx).polledAt == some (sfn s))

/-- Starts of the node's own transmissions on a port, in 1/16 tick: send allocations, random access, beacon, and the beacon of
the next superframe at access slot 0. -/
def ownStarts (s : State) (n : Nat) : List Nat :=
  if mode s = .commission then (testAllocs s n).map (fun a => slotStart s a.start)
  else
    ((allocsAt s n (sfn s)).filterMap (fun a => if a.send then some (slotStart s a.start) else none))
    ++ (s.sfm.access.filterMap (fun x => if x.port = n then x.slot.map (slotStart s) else none))
    ++ (if beaconDue s n (sfn s) then [slotStart s (bslot s n)] else [])
    ++ (if beaconDue s n (sfn s + 1) then [nextBoundAt s + bslot s n * per s / 2] else [])

/-- The phase slot, counted from the current one, in which an instant lies; within one tick of its start counts as in it. -/
def slotsAhead (s : State) (t : Nat) : Int := ((t : Int) + 16 - s.tbu.slotAt) * 16 / per s

/-- Where the port's ack tail begins: one that has fallen due, or that the frame being received may earn (R84, R95, R103). -/
def tailAt (s : State) (n : Nat) : Option Nat :=
  match (line s n).ack, (line s n).acq with
  | some (_, a, len), _ => some (positionStart s a (allocPositions s len - 2))
  | none, some a =>
    if receiving s n && !a.done && decide (8 ≤ a.slot) then some (positionStart s a.slot (allocPositions s a.len - 2)) else none
  | none, none => none

/-- Starts of what the port may drive: none in a mode in which the node sends nothing; ack tails also of a chip that has stopped sending
frames and beacons (R36, R84, R353). -/
def driveStarts (s : State) (n : Nat) : List Nat :=
  if mode s = .commission then ownStarts s n
  else (if maySend s then ownStarts s n else []) ++ (if sendsTails s then (tailAt s n).toList else [])

/-- The driver of a line port is powered up two phase slots before a first symbol and for a sweep, and powered down where no
transmission comes within 16 phase slots; in external-driver mode and with EN 0 it is OFF (R84, R91, R96).  DESIGN CHOICE: of the allocations
that R84 counts, those are meant in which the port may drive: its send allocations, random access, beacons and ack tails (log entry 212). -/
def driverPower (s : State) (n : Nat) : State :=
  let ahead := (driveStarts s n).map (slotsAhead s)
  let d := getF s (F.LPA_STAT_DRV n)
  if driving s n || (line s n).sweepOn then s
  else if flag s (F.LPA_CTL_XMODE n) ∨ !flag s (F.LPA_CTL_EN n) then setF s (F.LPA_STAT_DRV n) 0
  else if getF s (F.LPHY_SWSTAT_STATE n) = 2 ∨ ahead.any (fun k => 0 ≤ k && k ≤ 2) then (if d = 0 then setF s (F.LPA_STAT_DRV n) 1 else s)
  else if ahead.any (fun k => 0 ≤ k && k ≤ 16) then s
  else setF s (F.LPA_STAT_DRV n) 0

/-- The operation has an answer that still serves it: a deferred frame was granted leave, or given step 8 after WAITMAX (R52, R53). -/
def answered (s : State) (n : Nat) (f : LeaveFor) : Bool :=
  match (answer s n f).1 with
  | .granted => true
  | .degraded => n < 4
  | _ => false

/-- Ask for the leave of a transmission on port `n`: a line port for its level where that exceeds step 8 outside SAFEHOLD, the
radio always, unless the request still waits or its answer still serves (R52–R54, R229). A beacon's answer serves that beacon alone. -/
def postLeave (s : State) (n : Nat) (f : LeaveFor) (cfg : Nat) : State :=
  let s := if f = .beacon then dropLeave s n f else s
  if answered s n f then s
  else if n = 4 then askFor s 4 f 4 0 (f == .beacon)
  else if levelAsked s n cfg ≤ 8 then s
  else askFor s n f n (levelAsked s n cfg) (f == .beacon)

/-- The leave point of a send allocation: a link that has something to send asks (R53, R170). -/
def allocLeave (s : State) (n : Nat) (a : Alloc) : State :=
  if a.send && slotsAhead s (slotStart s a.start) == 2 && linkMaySend s a.ctx && allocWhole s a then
    let l := link s a.ctx
    let s := if l.st = .sending then modLink s a.ctx (fun l => { l with armed := true })
             else if (linkItem s n a.ctx).isSome then modLink s a.ctx (fun l => { l with st := .leave }) else s
    let l' := link s a.ctx
    if l'.st = .leave ∨ l'.armed then postLeave s n (.link a.ctx) (getF s (F.LPA_LEVEL_DATA_LEVEL n)) else s
  else s

/-- The leave point of a picked random-access allocation (R53). -/
def accessLeave (s : State) (n : Nat) (x : AccessTx) : State :=
  match x.slot with
  | some a =>
    if x.port = n ∧ slotsAhead s (slotStart s a) == 2 then
      postLeave s n (.access x.id) (getF s (F.LPA_LEVEL_DATA_LEVEL n))
    else s
  | none => s

/-- The leave point of the port's beacon. -/
def beaconLeave (s : State) (n : Nat) : State :=
  let b := bslot s n
  if (beaconDue s n (sfn s) && slotsAhead s (slotStart s b) == 2)
      || (beaconDue s n (sfn s + 1) && slotsAhead s (nextBoundAt s + b * per s / 2) == 2) then
    postLeave s n .beacon (getF s (F.LPA_LEVEL_BEACON_LEVEL n))
  else s

/-- The leave points of one port at the start of the current phase slot (R53, R170). -/
def leavePoints (s : State) (n : Nat) : State :=
  if !portOn s n then s
  else if mode s = .commission then
    ((testAllocs s n).filter (fun a => slotsAhead s (slotStart s a.start) == 2)).foldl
      (fun s a => postLeave s n (.test a.start) (getF s (F.LPA_LEVEL_DATA_LEVEL n))) s
  else if !maySend s then s
  else
    let s := (allocsAt s n (sfn s)).foldl (fun s a => allocLeave s n a) s
    let s := s.sfm.access.foldl (fun s x => accessLeave s n x) s
    beaconLeave s n

/-- At its start a send allocation with no frame queued is left unused (R149). -/
def unusedAlloc (s : State) (n : Nat) : State :=
  match (allocsAt s n (sfn s)).find? (fun a => a.send && slotsAhead s (slotStart s a.start) == 0) with
  | none => s
  | some a =>
    let free := (link s a.ctx).st == .ready && (linkItem s n a.ctx).isNone && allocWhole s a && (line s n).tx.isNone
    modLine s n (fun l => { l with unused := if free then some (slotStart s a.start, slotStart s (a.start + a.len)) else none })

/-- The current phase slot is a sweep window of the port: wholly inside one access slot of an unused allocation, or in COMMISSION clear of
the commissioning link (R149). -/
def sweepWindow (s : State) (n : Nat) : Bool :=
  let a := s.tbu.slotAt
  let b := a + per s / 16
  portOn s n && !vldFault s && (line s n).tx.isNone && !receiving s n &&
  match mode s with
  | .operate => (line s n).unused.any (fun x => (List.range 128).any (fun k =>
      x.1 ≤ slotStart s k && slotStart s (k + 1) ≤ x.2 + 16 && slotStart s k ≤ a + 16 && b ≤ slotStart s (k + 1) + 16))
  | .commission => flag s (F.LPHY_SWEEP_FREE n) &&
    !(testAllocs s n).any (fun x => slotStart s x.start + 16 < b && a + 16 < slotStart s (x.start + x.len))
  | _ => false

/-- The port sweeps in the current phase slot (R148). -/
def sweepsNow (s : State) (n : Nat) : Bool :=
  getF s (F.LPHY_SWSTAT_STATE n) == 2 && sweepWindow s n && (line s n).sweepLeft.contains (phaseSlotAt s (s.tbu.slotAt + 16))

/-- At the start of a phase slot the port begins to drive its sweep point, or stops driving one (R148). -/
def sweepDrive (s : State) (n : Nat) : State :=
  if sweepsNow s n && powered s n then
    let (e, s) := releaseTime s (ticks16 (s.tbu.slotAt + per s / 16))
    driveOn (modLine s n (fun l => { l with sweepOn := true, limitNow := false, vfs := vfsOf s n (vldNow s),
                                            drvFrom := ticks16 s.tbu.slotAt, drvTo := e })) n (getF s (F.LPHY_SWEEP_SWLEVEL n))
  else sweepOff s n

/-- A start of the port's own lies in the phase slot from `a` to `b`, and the frame due at it is to begin; a VLD fault may clear before it
(R83, log entry 140). -/
def startsIn (s : State) (n a b : Nat) : Bool :=
  powered s n && (maySend s || mode s == .commission) &&
  (ownStarts s n).any (fun t => a ≤ t && t < b &&
    ((allocsAt s n (sfn s)).any (fun x => x.send && slotStart s x.start == t && (link s x.ctx).st == .leave)
      || !(allocsAt s n (sfn s)).any (fun x => x.send && slotStart s x.start == t)))

/-- TXGATEn over the phase slot that begins: the driver is enabled in some part of it.  It is asserted for an ack tail that a frame still
being received may earn, and for a start that a VLD fault prevents unless it clears in time, since the gate may not change inside a slot
(R95, log entry 140). -/
def txGate (s : State) (n : Nat) : State :=
  let a := s.tbu.slotAt
  let b := a + per s / 16
  let l := line s n
  let driven := (16 * l.drvFrom < b && a < 16 * l.drvTo) || driving s n || l.sweepOn
  let due := startsIn s n a b
    || (powered s n && sendsTails s && (tailAt s n).any (fun t => t < b && a < t + 2 * 147456 * 16))
  putFlag s (F.LPA_STAT_TXGATE n) (driven || (due && portOn s n))

/-- The gates of the phase slot that begins enter DCH's record (R266). -/
def noteGates (s : State) : State :=
  let mask := sumN ((List.range (nLine s)).map (fun n => if flag s (F.LPA_STAT_TXGATE n) then 2 ^ n else 0))
  { s with dch := { s.dch with gates := (ticks16 s.tbu.slotAt, mask) :: s.dch.gates } }

/-- LPA and LPHY at a phase-slot boundary. -/
def linePhaseSlot (s : State) : State :=
  let s := (List.range 5).foldl (fun s n => if portPresent s n then leavePoints s n else s) s
  let s := (List.range (nLine s)).foldl unusedAlloc s
  let s := (List.range (nLine s)).foldl sweepDrive (sweepSlot s)
  let s := (List.range (nLine s)).foldl driverPower s
  noteGates ((List.range (nLine s)).foldl txGate s)

/-! ### Beacons (R164) -/

/-- ZCO of a beacon sent on port `n` with reference instant `t` (R71). -/
def beaconZco (s : State) (n t : Nat) : Nat :=
  if n = 4 then 0xFFFFFF
  else
    match (det s n).st, (det s n).last with
    | .locked, some z => min (t - z) 0xFFFFFE
    | _, _ => 0xFFFFFF

/-- The smallest multiple of G on a port that is `period` or more (R173). -/
def wakeEvery (s : State) (n period : Nat) : Nat :=
  let g := gOf s n
  max g (ceilDiv period g * g)

/-- A sleepy child wakes in this superframe, as far as its POLLs have told (R173, R175, log entry 143). -/
def childWakes (s : State) (n c : Nat) : Bool :=
  let r := (link s c).roostPeriod
  let p := wakeEvery s n r
  r == 0 || sfn s % p == entryPhase s n c p % p

/-- Sleepy children that wake in this superframe with data pending on port `n`: oldest pending data first (R164, R175). DESIGN CHOICE: a
child with control messages alone ranks after every child with a queued packet, whatever their age, which R164 does not say
(log entry 186). -/
def pendList (s : State) (n : Nat) : List Nat :=
  let q := (queue s (txQueue n)).entries.filterMap (fun e =>
    match e.item with | .pkt p => if e.released then none else some p.ctx | _ => none)
  let ctl := s.sfm.links.filterMap (fun e => if e.2.ctl.isEmpty then none else some e.1)
  ((q ++ ctl).filter (fun c => cChild s c && cPort s c == n && bit (cGet s c C.kstate) 3 && childWakes s n c)).eraseDups.map (fun c => cGet s c C.pshort)

/-- A pending shift is announced from the superframe after the one that armed it (R74, R76). -/
def announced (s : State) : Bool := decide (s.tbu.countdown ≤ 4)

/-- Beacon body, bytes 6–39 (R164). -/
def beaconBody (s : State) (n : Nat) : Bytes :=
  let t := ticks16 (slotStart s (bslot s n))
  let pend := pendList s n
  let root0 := isRoot s && getF s F.TBU_STAT_STATE == 2
  leBytes (sfn s) 4 ++ leBytes t 8 ++ leBytes (beaconZco s n t) 3 ++ leBytes (getF s F.TBU_DBO_DBO) 2
  ++ leBytes (if announced s then code s.tbu.shift 24 else 0) 3
  ++ leBytes ((if announced s then s.tbu.countdown % 8 else 0) + 8 * (s.tbu.symsNext % 8) + 64 * b2n (is60 s) + 128 * b2n root0) 1
  ++ leBytes (bslot s n + 8 * b2n s.sfm.upLost.isSome + 16 * getF s (F.SFM_PORTCFG_PERMIT_JOIN n)
      + 32 * b2n (2 < pend.length) + 64 * min 2 pend.length) 1
  ++ leBytes (ownEpoch s) 4 ++ leBytes (getF s F.MRT_PATH_COST) 2 ++ leBytes (getF s F.MRT_PATH_HOPS) 1
  ++ leBytes (nth 0 pend 0) 2 ++ leBytes (nth 0 pend 1) 2
  ++ leBytes (natOfBits ((List.range 5).map (beaconsOn s))) 1

/-- The next group counter is taken. -/
def takeGroupFc (s : State) : State :=
  checkGroup { s with sfm := { s.sfm with groupFc := s.sfm.groupFc + 1 } }

/-- The payload of a beacon of port `n`, under the group counter in force. -/
def beaconPayload (s : State) (n : Nat) : Bytes :=
  sealBody 1 (groupKey s) (ownAddr s) 0xFFFF true (ownEpoch s % 65536) (macHead 0 true false false false 0 s.sfm.groupFc)
    (beaconBody s n) true

/-! ### Random access (R157) -/

/-- A frame becomes ready for random access. -/
def accessAdd (s : State) (port ctx dst : Nat) (bcast : Bool) (cls : Nat) (sec : Bool) (body : Bytes) : State :=
  { s with sfm := { s.sfm with accessNo := s.sfm.accessNo + 1
                               access := s.sfm.access ++ [{ port, ctx, dst, bcast, cls, sec, body, be := 1, tries := 0, id := s.sfm.accessNo,
                                                            wait := 0, slot := none, inFlight := false }] } }

/-- Random-access allocations of this superframe that begin at least two phase slots ahead (R157). -/
def raOpen (s : State) (n : Nat) : List Nat :=
  (raStarts (layout s n)).filter (fun a => 2 ≤ slotsAhead s (slotStart s a) && slotUsable s (a + (layout s n).uspan - 1))

/-- A POLL in random access. -/
def AccessTx.isPoll (x : AccessTx) : Bool := x.cls == 1 && u x.body 0 1 == 1

/-- The ALLOC parts of a link that wait for random access. -/
def AccessTx.isAlloc (x : AccessTx) (ctx : Nat) : Bool := x.cls == 1 && x.ctx == ctx && u x.body 0 1 == 4

/-- Random access is open to the node: not in SAFEHOLD, SPARE, BOOT or COMMISSION (R156, R520). -/
def raMaySend (s : State) : Bool := !s.erf.silenced && (mode s == .operate || (mode s == .roost && s.sfm.awake))

/-- A frame without an allocation picks one at random, with equal probability (R157). -/
def raPick (s : State) (k : Nat) : State :=
  match s.sfm.access[k]? with
  | none => s
  | some x =>
    let o := raOpen s x.port
    if !raMaySend s || x.inFlight || x.slot.isSome || x.wait != 0 || o.isEmpty then s
    else
      let (v, s) := draw s
      { s with sfm := { s.sfm with access := s.sfm.access.set k { x with slot := o[v % o.length]? } } }

/-- Every ready frame picks. -/
def raPickAll (s : State) : State := (List.range s.sfm.access.length).foldl raPick s

/-- A superframe begins: waits shorten, and picks of the last superframe that were not used are made again. -/
def raBoundary (s : State) : State :=
  raPickAll { s with sfm := { s.sfm with access := s.sfm.access.map (fun x =>
                                         if x.inFlight then x else { x with wait := x.wait - 1, slot := none }) } }

end Sys2Proof.Machine
end

