-- ==== Sys2Proof/Machine/Mesh.lean ====
section
/-! DEFINITION. MRT: link and path cost, the forwarding table, forwarding, routing messages, parent choice (R186–R205, R214). -/

namespace Sys2Proof.Machine

/-! ### Contexts -/

/-- MRT forwards and routes in this mode (R35). -/
def mrtOn (s : State) : Bool :=
  match mode s with
  | .operate | .roost | .safehold => true
  | _ => false

/-- The count of consecutive drops, with LINKDOWN (R188, R378). -/
def setDrops (s : State) (ctx k : Nat) : State :=
  cKBit (cSet s ctx C.drops (min k 255)) ctx 2 (getF s F.MRT_CFG_DROP_MAX ≤ min k 255)

/-- The context can be a next hop: established and not LINKDOWN (R188, R193). -/
def hopUsable (s : State) (ctx : Nat) : Bool :=
  cEstablished s ctx && !ctxPoisoned s ctx && cGet s ctx C.drops < getF s F.MRT_CFG_DROP_MAX

/-- The retry ratio moves after a try of a unicast frame (R187). -/
def moveQ (s : State) (ctx : Nat) (acked : Bool) : State :=
  let q := cGet s ctx C.q
  cSet s ctx C.q (if acked then q - ((q + 15) / 16) else q + (255 - q) / 16)

/-! ### Link and path cost (R187, R189) -/

/-- Base cost of a link by its mode (R187). -/
def baseCost (mode : Nat) : Nat := if mode = 0 then 6 else if mode = 1 then 8 else if mode = 2 then 32 else 48

/-- Mode from a link's margin without hysteresis and FLOOR; thresholds and margin in 1/64 dB. -/
def costMode (s : State) (n : Nat) (m16 : Option Int) : Nat :=
  match m16 with
  | none => 3
  | some m =>
    if 16 * (getF s (F.LPHY_MODESEL_THR_P n) : Int) ≤ m then 0
    else if 16 * (getF s (F.LPHY_MODESEL_THR_N n) : Int) ≤ m then 1
    else if 16 * (getF s (F.LPHY_MODESEL_THR_4 n) : Int) ≤ m then 2 else 3

/-- `link_cost` of R187 from base, cells, live cells, bias and q. -/
def costOf (c bias q : Nat) : Nat :=
  min 255 (max 1 (ceilDiv (c * 256) (256 - min q 224) + bias))

/-- The link cost of a context (R187). -/
def linkCost (s : State) (ctx : Nat) : Nat :=
  let n := cPort s ctx
  let q := cGet s ctx C.q
  if n < 4 then
    let base := baseCost (costMode s n (margin16 s ctx (getF s (F.LPA_LEVEL_DATA_LEVEL n))))
    let cells := 16 * lanesOf (portMask s n)
    let live := mapCells (cutMap (curMap s ctx) (portMask s n))
    if live = 0 then 255 else costOf (ceilDiv (base * cells) live) (getF s F.MRT_COSTCFG_LPBIAS) q
  else costOf (getF s F.MRT_COSTCFG_RFBASE) (getF s F.MRT_COSTCFG_RFBIAS) q

/-- The cost of one link at a superframe boundary (R187); a poisoned context is unknown, and reported (R32). -/
def linkCostOf (s : State) (c : Nat) : State :=
  let s := readMem s (ctxBase c) 128
  if ctxPoisoned s c then s else cSet s c C.cost (linkCost s c)

/-- Link costs of every established context at a superframe boundary (R187). -/
def linkCosts (s : State) : State := ((ctxTouched s).filter (fun c => !cProvisional s c)).foldl linkCostOf s

/-- The neighbour entry of the parent. -/
def parentNeighbour (s : State) : Option Neighbour :=
  (parentCtx s).bind (fun c => s.sfm.neighbours.find? (fun b => b.port == cPort s c && b.addr == cGet s c C.pshort))

/-- Path cost and HOPS (R189); no link is known through a poisoned context (R32). -/
def pathCost (s : State) : Nat × Nat :=
  if isRoot s then (0, 0)
  else
    match parentCtx s, parentNeighbour s with
    | some c, some b =>
      (if isOrphan s || b.upLost || ctxPoisoned s c then 65535 else min 65535 (b.cost + cGet s c C.cost), min 63 (b.hops + 1))
    | _, _ => (65535, getF s F.MRT_PATH_HOPS)

/-! ### The forwarding table (R192–R195) -/

def ftAddr (dest : Nat) : Nat := Base.fwd + 8 * dest
def ftWord (s : State) (dest : Nat) : Nat := memNat s (ftAddr dest) 8
def ftNh (w : Nat) : Nat := bits w 0 12
def ftPort (w : Nat) : Nat := bits w 12 3
def ftValid (w : Nat) : Bool := bit w 15
def ftCost (w : Nat) : Nat := bits w 16 16
def ftHops (w : Nat) : Nat := bits w 32 6
/-- 0 UP, 1 DOWN, 2 PEER, 3 STATIC. -/
def ftKind (w : Nat) : Nat := bits w 38 2
def ftStamp (w : Nat) : Nat := bits w 40 8
def ftDseq (w : Nat) : Nat := bits w 48 16

/-- An entry (R192), stamped with the superframe number. -/
def ftMake (s : State) (ctx cost hops kind dseq : Nat) : Nat :=
  ctx + 2 ^ 12 * cPort s ctx + 2 ^ 15 + 2 ^ 16 * (cost % 65536) + 2 ^ 32 * (hops % 64) + 2 ^ 38 * kind
  + 2 ^ 40 * (sfn s / 16 % 256) + 2 ^ 48 * (dseq % 65536)

/-- An entry as lookups see it: a poisoned word counts as not valid (R32, R193). -/
def ftSeen (s : State) (dest : Nat) : Option Nat :=
  let w := ftWord s dest
  if ftValid w && !poisoned s (ftAddr dest) 8 then some w else none

/-- `lookup` of R193. -/
def lookup (s : State) (final : Nat) : Option Nat :=
  let up := match ftSeen s 0 with
    | some w => if hopUsable s (ftNh w) then some w else none
    | none => none
  match ftSeen s final with
  | some w => if hopUsable s (ftNh w) ∧ final ≠ 0 then some w else if isRoot s then none else up
  | none => if isRoot s then none else up

/-- A change of a DOWN entry is noted for the next incremental ADVERT (R200). -/
def noteChange (s : State) (dest dseq cost hops : Nat) (withdraw moved : Bool) : State :=
  { s with mrt := { s.mrt with changes := (s.mrt.changes.filter (fun c => c.dest != dest)) ++
      [{ dest, dseq, cost, hops, withdraw, moved }] } }

/-- Invalidate an entry. -/
def ftDrop (s : State) (dest : Nat) : State :=
  let w := ftWord s dest
  let s := memPut s (ftAddr dest) 8 (withBit w 15 false)
  if ftKind w = 1 then noteChange s dest (ftDseq w) (ftCost w) (ftHops w) true false else s

/-- Destinations whose entry is valid, ascending. -/
def ftTouched (s : State) : List Nat :=
  ((s.sram.filter (fun c => Base.fwd ≤ c.1 && c.1 < Base.fwd + 0x80000 && c.1 % 8 = 1 && bit c.2.toNat 7)).map
    (fun c => (c.1 - Base.fwd) / 8))

/-- The table takes a route, and its change is noted (R199). -/
def takeRoute (s : State) (kind dest ctx dseq cost hops : Nat) (moved : Bool) : State :=
  let old := ftSeen s dest
  let s := memPut s (ftAddr dest) 8 (ftMake s ctx cost hops kind dseq)
  if kind = 1 then noteChange s dest dseq cost hops false moved
  else
    match old with
    | some w => if ftKind w = 1 then noteChange s dest (ftDseq w) (ftCost w) (ftHops w) true false else s
    | none => s

/-- An offer of a DOWN (1) or PEER (2) route (R194); a poisoned entry counts as none, and is reported (R32). A DOWN entry that a
PEER route replaces is withdrawn (R200, log entry 144). -/
def offer (s : State) (kind dest ctx dseq cost hops : Nat) (moved : Bool) : State :=
  let cost := max 1 (min cost 65535)
  if dest = ownAddr s ∨ dest = 0 ∨ 32 < hops then s
  else
    let s := readMem s (ftAddr dest) 8
    match ftSeen s dest with
    | none => takeRoute s kind dest ctx dseq cost hops moved
    | some w =>
      if ftKind w = 3 then s
      else if ftKind w = 0 then s
      else if seqNewer dseq (ftDseq w) then takeRoute s kind dest ctx dseq cost hops moved
      else if dseq % 65536 = ftDseq w ∧ (moved ∨ cost < ftCost w ∨ ftNh w = ctx) then
        if ftNh w = ctx ∧ ftCost w = cost ∧ ftHops w = hops ∧ ftKind w = kind ∧ !moved then
          memPut s (ftAddr dest) 8 (ftMake s ctx cost hops kind dseq)
        else takeRoute s kind dest ctx dseq cost hops moved
      else s

/-- The ager visits an entry (R195); a poisoned one is reported and left (R32). -/
def ageRoute (s : State) (dest : Nat) : State :=
  let s := readMem s (ftAddr dest) 8
  match ftSeen s dest with
  | some w =>
    if (ftKind w = 1 ∨ ftKind w = 2) ∧ getF s F.MRT_LIFE_ROUTE_LIFE ≤ (sfn s / 16 % 256 + 256 - ftStamp w) % 256 then
      ftDrop s dest
    else s
  | none => s

/-! ### The mesh header (R186) -/

/-- Content with HOPS rewritten. -/
def withHops (c : Bytes) (h : Nat) : Bytes :=
  slice c 0 4 ++ leBytes (h % 64 + (u c 4 1 / 64) * 64) 1 ++ c.drop 5

/-! ### Floods (R198) -/

/-- The pair of a flood has been accepted before (R198). -/
def floodSeen (s : State) (c : Bytes) : Bool := s.mrt.seen.contains (mhOrig c, mhMseq c)

/-- Keep the pair among the last 256. -/
def floodKeep (s : State) (c : Bytes) : State :=
  { s with mrt := { s.mrt with seen := ((mhOrig c, mhMseq c) :: s.mrt.seen).take 256 } }

/-- One broadcast copy of a scoped flood in random access on every port in use (R198). -/
def floodAll (s : State) (c : Bytes) : State :=
  (ports s).foldl (fun s n => if portOn s n then accessAdd s n 0xFFFF 0xFFFF true 2 true c else s) s

/-- One unicast copy of a tree flood to every child (R198). -/
def floodChildren (s : State) (cls : Nat) (priv : Bool) (c : Bytes) : State :=
  ((ctxTouched s).filter (fun x => cEstablished s x && cChild s x)).foldl (fun s x => sendTo s x cls true priv c) s

/-- The next flood sequence (R198). -/
def nextMseq (s : State) : Nat × State :=
  let m := (s.mrt.mseq + 1) % 65536
  (m, { s with mrt := { s.mrt with mseq := m } })

/-! ### Starting route requests (R202) -/

/-- A request for the target may be started now (R202): four pending at most, and one per target in any 16 superframes. -/
def rreqAllowed (s : State) (target : Nat) : Bool :=
  s.mrt.rreqs.length < 4 &&
  !s.mrt.asked.any (fun a => a.1 == target && (sfn s + 2 ^ 32 - a.2) % 2 ^ 32 < 16)

/-- A route request is originated (R202).  MRT_RREQ.STATE shows the outcome of each; DESIGN CHOICE: only one of the host's sets it to
waiting. -/
def rreqStart (s : State) (target : Nat) (host : Bool) : State :=
  let limit := getF s F.MRT_CFG_RREQ_SCOPE
  let (m, s) := nextMseq s
  let c := meshHdr (ownAddr s) target 1 limit true m ++ leBytes 2 1 ++ leBytes (getF s F.MRT_NSEQ_NSEQ) 2 ++ leBytes 0 2
  let s := floodKeep s c
  let s : State := { s with mrt := { s.mrt with
    rreqs := s.mrt.rreqs ++ [{ target, at_ := sfn s, limit }]
    asked := (target, sfn s) :: s.mrt.asked.filter (fun a => a.1 != target && (sfn s + 2 ^ 32 - a.2) % 2 ^ 32 < 16) } }
  floodAll (if host then setF s F.MRT_RREQ_STATE 1 else s) c

/-- AUTO_RREQ (R202): a packet originated at the node found no valid entry under the first test of R193. -/
def autoRreq (s : State) (target : Nat) : State :=
  let found := (ftSeen s target).any (fun w => hopUsable s (ftNh w))
  if flag s F.MRT_CFG_AUTO_RREQ ∧ !found ∧ target ≠ 0 ∧ rreqAllowed s target then rreqStart s target false else s

/-! ### Forwarding (R197) -/

/-- Commit a packet to the transmit queue of an entry's port, addressed to its next hop (R197). -/
def commitTo (s : State) (w cls : Nat) (priv : Bool) (c : Bytes) : State :=
  let p : QPkt := { QPkt.own (leBytes (cls + 16 + 64 * b2n priv) 6 ++ c) with ctx := ftNh w, port := ftPort w, priv }
  let i := txQueue (ftPort w)
  releaseGaps (commitQ s i p).1 i

/-- What a lookup of a destination reads: its entry, the UP entry, and the contexts they name; poison among them is reported
(R32, R193, R395). -/
def lookupReads (s : State) (final : Nat) : State :=
  let s := readMem (readMem s (ftAddr final) 8) (ftAddr 0) 8
  [final, 0].foldl (fun s d =>
    match ftSeen s d with
    | some w => readMem s (ctxBase (ftNh w)) 128
    | none => s) s

/-- The forwarding part of R197 for a packet that is not for this node: y is the neighbour it came from. The result is 0 where
it was committed, 1 for no route, 2 for a loop, 3 for the hop limit. -/
def forwardRaw (s : State) (y : Option Nat) (cls : Nat) (priv : Bool) (c : Bytes) : State × Nat :=
  if y.isSome ∧ mhLimit c ≤ mhHops c then (inc s F.MRT_DROPCNT_HOPLIMIT, 3)
  else
    let s := lookupReads s (mhFinal c)
    match lookup s (mhFinal c) with
    | none => (inc s F.MRT_DROPCNT_NOROUTE, 1)
    | some w =>
      if y = some (ftNh w) then (inc s F.MRT_DROPCNT_LOOP, 2)
      else if y.isSome then (commitTo (inc s F.MRT_FWDCNT_FORWARDED) w cls priv (withHops c (mhHops c + 1)), 0)
      else (commitTo s w cls priv c, 0)

/-- The routing type of a class content. -/
def routingType (c : Bytes) : Nat := u c 8 1

/-- Forward, with the RERR that a discard for no route or a loop sends (R197, R205). -/
def forward (s : State) (y : Option Nat) (cls : Nat) (priv : Bool) (c : Bytes) : State :=
  let (s, r) := forwardRaw s y cls priv c
  let isRerr := cls == 2 && routingType c == 4
  if (r = 1 ∨ r = 2) ∧ !isRerr ∧ mhOrig c ≠ ownAddr s ∧ !s.mrt.rerrs.contains (mhFinal c) then
    let s : State := { inc s F.MRT_RTCNT_RERRSENT with mrt := { s.mrt with rerrs := mhFinal c :: s.mrt.rerrs } }
    (forwardRaw (autoRreq s (mhOrig c)) none 2 false
      (meshHdr (ownAddr s) (mhOrig c) 1 32 false 0 ++ leBytes 4 1 ++ leBytes (mhFinal c) 2)).1
  else s

/-- A packet that this node originates for another one (R186, R197). -/
def originate (s : State) (final cls : Nat) (priv : Bool) (limit : Nat) (body : Bytes) : State :=
  forward (autoRreq s final) none cls priv (meshHdr (ownAddr s) final 1 limit false 0 ++ body)

/-! ### Route requests (R202–R204) -/

/-- ROUTE (R440). -/
def routeEvent (s : State) (target st : Nat) : State := raise s 5 1 (leBytes target 2 ++ leBytes st 1)

/-- The pending requests of this node for a target that `over` picks end, found (2) or not found (3) (R202, R204). -/
def rreqEnd (s : State) (target st : Nat) (ended : Rreq → Bool) : State :=
  let hit (r : Rreq) : Bool := r.target == target && ended r
  if s.mrt.rreqs.any hit then
    let s : State := { s with mrt := { s.mrt with rreqs := s.mrt.rreqs.filter (fun r => !hit r) } }
    routeEvent (setF s F.MRT_RREQ_STATE st) target st
  else s

/-- An RREQ from context y (R203). -/
def rreqRx (s : State) (y : Nat) (c : Bytes) : State :=
  if mhOrig c = ownAddr s then inc s F.MRT_RTCNT_DUPFLOOD
  else
    let cost := min 65535 (u c 11 2 + cGet s y C.cost)
    let s := offer s 2 (mhOrig c) y (u c 9 2) cost (mhHops c) false
    if floodSeen s c then inc s F.MRT_RTCNT_DUPFLOOD
    else
      let s := floodKeep s c
      if mhFinal c = ownAddr s ∧ ownValid s then
        { s with mrt := { s.mrt with rreps := s.mrt.rreps ++ [{ orig := mhOrig c }] } }
      else if mhHops c < mhLimit c then
        if raMaySend s then floodAll s (slice (withHops c (mhHops c + 1)) 0 11 ++ leBytes cost 2) else s
      else s

/-- An RREP from context y (R204): the offer, the requester's state, and onward. -/
def rrepRx (s : State) (y : Nat) (priv : Bool) (c : Bytes) : State :=
  let cost := min 65535 (u c 11 2 + cGet s y C.cost)
  let s := offer s 2 (mhOrig c) y (u c 9 2) cost (mhHops c) false
  if mhFinal c = ownAddr s then rreqEnd s (mhOrig c) 2 (fun _ => true)
  else forward s (some y) 2 priv (slice c 0 11 ++ leBytes cost 2)

/-- RREPs fall due at the end of the superframe (R203). -/
def rrepSend (s : State) : State :=
  let due := s.mrt.rreps
  due.foldl (fun s r =>
    originate s r.orig 2 false 32 (leBytes 3 1 ++ leBytes (getF s F.MRT_NSEQ_NSEQ) 2 ++ leBytes 0 2))
    { s with mrt := { s.mrt with rreps := [] } }

/-- An RERR from context y (R205): the entry for UNREACH goes; then onward to ORIG. -/
def rerrRx (s : State) (y : Nat) (priv : Bool) (c : Bytes) : State :=
  let s := match ftSeen s (u c 9 2) with
    | some w => if (ftKind w = 1 ∨ ftKind w = 2) ∧ ftNh w = y then ftDrop s (u c 9 2) else s
    | none => s
  if mhFinal c = ownAddr s then s else forward s (some y) 2 priv c

/-! ### ADVERT (R200, R201) -/

/-- One ADVERT entry. -/
def advEntry (c : Change) : Bytes :=
  leBytes c.dest 2 ++ leBytes c.dseq 2 ++ leBytes c.cost 2 ++ leBytes c.hops 1 ++ leBytes (b2n c.withdraw + 2 * b2n c.moved) 1

/-- Send an ADVERT to a context in as many parts as it needs, 156 entries each (R199, R200).  DESIGN CHOICE: the part index has 5 bits, so part
32 of a list of more than 4,992 entries counts as 0 again (log entry 219). -/
def advSend (s : State) (ctx flags : Nat) (es : List Change) : State :=
  let s := readMem s (ctxBase ctx) 128
  if ctxPoisoned s ctx then s
  else
  ((partsOf 156 (es.length + 1) es).mapIdx (fun i p => (i, p))).foldl (fun s x =>
    sendTo s ctx 2 true false (meshHdr (ownAddr s) (cGet s ctx C.pshort) 1 32 false 0 ++ leBytes 1 1 ++ leBytes (flags + x.1 % 32) 1
      ++ leBytes x.2.length 1 ++ (x.2.map advEntry).flatten)) s

/-- The node is a sleepy end-node by its certificate (R200, R365). -/
def isSleepy (s : State) : Bool := bit (u (s.sec.cert.getD []) 1 1) 1

/-- Entries of a full ADVERT: the node itself, then every valid DOWN entry; a sleepy node lists itself alone (R200). -/
def advFull (s : State) : List Change :=
  let self : Change := { dest := ownAddr s, dseq := getF s F.MRT_NSEQ_NSEQ, cost := 0, hops := 0, withdraw := false, moved := false }
  if isSleepy s then [self]
  else self :: (ftTouched s).filterMap (fun d =>
    match ftSeen s d with
    | some w => if ftKind w = 1 then
        some { dest := d, dseq := ftDseq w, cost := ftCost w, hops := ftHops w, withdraw := false, moved := false } else none
    | none => none)

/-- The full ADVERT of R200, with ATTACH at attachment. -/
def advertFull (s : State) (attach : Bool) : State :=
  match parentCtx s with
  | none => s
  | some p => advSend { s with mrt := { s.mrt with changes := [], advAt := some (sfn s) } } p (128 + 64 * b2n attach) (advFull s)

/-- ADV_PERIOD superframes have passed since the last full ADVERT (R200). -/
def advertDue (s : State) : Bool :=
  let p := getF s F.MRT_CFG_ADV_PERIOD
  p != 0 && (match s.mrt.advAt with | some t => decide (p ≤ (sfn s + 2 ^ 32 - t) % 2 ^ 32) | none => true)

/-- The incremental ADVERT of a superframe (R200). -/
def advertChanges (s : State) : State :=
  match parentCtx s with
  | none => s
  | some p =>
    if s.mrt.changes.isEmpty ∨ isSleepy s ∨ !mrtOn s then s
    else advSend { s with mrt := { s.mrt with changes := [] } } p 0 s.mrt.changes

/-- DETACH to an old parent, if its allocation is still held (R200). -/
def advertDetach (s : State) (ctx : Nat) : State :=
  if cEstablished s ctx ∧ holdsSend s ctx then advSend s ctx 32 [] else s

/-- Sequence `a` is not older than `b` (R185). -/
def seqNotOlder (a b : Nat) : Bool := (a + 65536 - b % 65536) % 65536 < 32768

/-- One entry of an ADVERT from child y (R201). -/
def advertEntry (s : State) (y : Nat) (attach : Bool) (e : Bytes) : State :=
  let dest := u e 0 2
  if bit (u e 7 1) 0 then
    match ftSeen s dest with
    | some w => if ftKind w = 1 ∧ ftNh w = y ∧ seqNotOlder (u e 2 2) (ftDseq w) then ftDrop s dest else s
    | none => s
  else offer s 1 dest y (u e 2 2) (min 65535 (u e 4 2 + cGet s y C.cost)) (u e 6 1 + 1) (attach || bit (u e 7 1) 1)

/-- An accepted ADVERT: content from its mesh header (R201). -/
def advertRx (s : State) (y : Nat) (c : Bytes) : State :=
  let f := u c 9 1
  let n := min (u c 10 1) ((c.length - 11) / 8)
  let s := if bit f 6 then cLinkBit s y 5 true else s
  let s := if cChild s y then
      (List.range n).foldl (fun s i => advertEntry s y (bit f 6) (slice c (11 + 8 * i) 8)) s
    else s
  if bit f 5 ∧ cChild s y then
    let s := cLinkBit s y 5 false
    let s : State := { s with mrt := { s.mrt with freeing := y :: s.mrt.freeing } }
    (ftTouched s).foldl (fun s d =>
      match ftSeen s d with
      | some w => if ftKind w = 1 ∧ ftNh w = y then ftDrop s d else s
      | none => s) s
  else s

/-! ### Deleting a context (R196) -/

/-- Some entry of the inactive bank names the context. -/
def inactiveNames (s : State) (ctx : Nat) : Bool :=
  (List.range 320).any (fun k => let w := assocGet 0 s.sfm.slots ((1 - activeBank s) * 320 + k); eLen w != 0 && eCtx w == ctx)

/-- SFM_SLOTCTL.HELD: some entry is held (R159). -/
def heldFlag (s : State) : State := putFlag s F.SFM_SLOTCTL_HELD (!s.sfm.held.isEmpty)

/-- Delete a context (R196). -/
def deleteCtx (s : State) (ctx : Nat) : State :=
  let n := cPort s ctx
  let s := dropLink s n ctx
  let mine := (List.range 320).filterMap (fun k =>
    let w := assocGet 0 s.sfm.slots (activeBank s * 320 + k)
    if eLen w ≠ 0 ∧ eCtx w = ctx then some (activeBank s * 320 + k) else none)
  let s : State := { s with sfm := { s.sfm with
    silent := mine ++ s.sfm.silent
    held := s.sfm.held.filter (fun h => h.ctx != ctx)
    allocRx := s.sfm.allocRx.filter (fun h => h.ctx != ctx)
    allocDue := s.sfm.allocDue.filter (fun h => h.ctx != ctx)
    links := assocErase s.sfm.links ctx
    exhausted := s.sfm.exhausted.filter (fun i => i != ctx)
    access := s.sfm.access.filter (fun x => x.bcast || x.ctx != ctx) } }
  let s : State := { s with mrt := { s.mrt with provs := s.mrt.provs.filter (fun p => p.ctx != ctx),
                                                autos := s.mrt.autos.filter (fun a => a.1 != ctx) }
                            sec := { s.sec with rekeys := s.sec.rekeys.filter (fun r => r.ctx != ctx) } }
  let s := memWrite (heldFlag s) (recAddr s ctx) (List.replicate 64 0)
  memWrite s (ctxBase ctx) (List.replicate 128 0)

/-- The ager visits a context (R196); a poisoned one is unknown, and reported (R32). -/
def ageCtx (s : State) (ctx : Nat) : State :=
  let s := readMem s (ctxBase ctx) 128
  let life := 64 * getF s F.MRT_LIFE_CTX_LIFE
  let silence := (sfn s + 2 ^ 32 - cGet s ctx C.lastsf) % 2 ^ 32
  if cEstablished s ctx ∧ !ctxPoisoned s ctx ∧ !cParent s ctx ∧ parentCtx s ≠ some ctx ∧ life ≠ 0 ∧ life ≤ silence
      ∧ (!bit (cGet s ctx C.kstate) 3 || decide (3 * (link s ctx).roostPeriod ≤ silence)) ∧ !inactiveNames s ctx then
    deleteCtx s ctx
  else s

/-! ### Parent choice (R189–R191) -/

/-- The beacons of a neighbour that count now: those of the last 2G superframes of its port, accepted ones alone at a joined node
(R190). -/
def beaconsIn (s : State) (b : Neighbour) : List (Nat × Int × Bool) :=
  b.quality.filter (fun q => (sfn s + 2 ^ 32 - q.1) % 2 ^ 32 ≤ 2 * gOf s b.port && (q.2.2 || !joined s))

/-- Mean of the qualities in the window: the quotient's rounding is not stated (log entry 6). -/
def meanQuality (s : State) (b : Neighbour) : Int :=
  let q := (beaconsIn s b).map (·.2.1)
  if q.isEmpty then 0 else quot 16 (q.foldl (· + ·) 0) q.length

/-- Estimate of a link cost without a context (R190). RFRSSI is signed dBm, RSSI in 0.5 dB. -/
def estimate (s : State) (b : Neighbour) : Nat :=
  if b.port < 4 then ceilDiv (32 * 256) (max (meanQuality s b).toNat 64)
  else
    let base := getF s F.MRT_COSTCFG_RFBASE
    if 2 * signed (getF s F.MRT_COSTCFG_RFRSSI) 8 ≤ meanQuality s b then base else 4 * base

/-- The established context held with a neighbour. -/
def ctxWith (s : State) (b : Neighbour) : Option Nat :=
  (ctxOf s b.port b.addr).bind (fun c => if cEstablished s c then some c else none)

/-- A candidate's score (R190). -/
def score (s : State) (b : Neighbour) : Nat :=
  min 65535 (b.cost + (match ctxWith s b with | some c => cGet s c C.cost | none => estimate s b))

/-- A neighbour is a candidate parent (R190); a beacon of a lower epoch than its context holds is never noted (R214). -/
def isCandidate (s : State) (b : Neighbour) : Bool :=
  portOn s b.port && !(beaconsIn s b).isEmpty && b.cost < 65535 && !b.upLost
  && b.hops < getF s F.MRT_CFG_MAXDEPTH
  && (match ctxWith s b with | some c => !cChild s c | none => b.permit)

/-- Lower score, then lower HOPS, port and address (R190). -/
def better (s : State) (a b : Neighbour) : Bool :=
  let key (x : Neighbour) : Nat := ((score s x * 256 + x.hops) * 8 + x.port) * 65536 + x.addr
  key a < key b

/-- The best of a list of neighbours. -/
def bestOf (s : State) : List Neighbour → Option Neighbour
  | [] => none
  | b :: bs => match bestOf s bs with
    | some c => if better s c b then some c else some b
    | none => some b

/-- The UP entry of R192. -/
def writeUp (s : State) (ctx : Nat) : State :=
  let p := pathCost s
  memPut s (ftAddr 0) 8 (ftMake s ctx p.1 p.2 0 0)

/-- The send LSN of a context advances: a unicast frame has ended as acked or dropped (R169). -/
def advanceLsn (s : State) (ctx : Nat) : State := cSet s ctx C.txlsn (cGet s ctx C.txlsn + 1)

/-- The first control message of a link is on the air. -/
def ctlFlies (l : Link) : Bool := l.st == .sending && l.ctlTaken

/-- The first control message of a link is in its tries, and not on the air. -/
def ctlTried (l : Link) : Bool := l.st != .sending && l.ctlTaken && l.tries != 0

/-- The first control message of a link is of type `ty`. -/
def ctlIs (ty : Nat) (b : Option Bytes) : Bool := b.any (fun b => u b 0 1 == ty)

/-- A link's control messages of type `ty` make way for newer ones (R159, R172, R181).  One on the air stays until its try has ended; one in
its tries is dropped, which uses up its LSN and its tries (R169, R170), and one that a CARRIER has gone ahead of is no longer held. -/
def ctlReplace (s : State) (ctx ty : Nat) (bodies : List Bytes) : State :=
  let l := link s ctx
  let gone := ctlTried l && ctlIs ty l.ctl.head?
  let first := if ctlFlies l then l.ctl.take 1 else []
  let rest := (l.ctl.drop first.length).filter (fun b => u b 0 1 != ty)
  let s := if gone then advanceLsn s ctx else s
  modLink s ctx (fun l => { l with
    ctl := first ++ rest ++ bodies
    tries := if gone then 0 else l.tries
    ctlTaken := l.ctlTaken && !gone
    held := if l.held.any (·.2) && ctlIs ty l.ctl[1]? then none else l.held })

/-- DELAY_REQ becomes due on a link: it goes in the next send allocation (R172). -/
def delayAgain (s : State) (ctx : Nat) : State := ctlReplace s ctx 2 [leBytes 2 1]

/-- An exchange begins, from which the 64 superframes to the next one count (R172). -/
def delayStart (s : State) (ctx : Nat) : State :=
  delayAgain (modLink s ctx (fun l => { l with delayAt := some (sfn s) })) ctx

/-- 64 superframes have passed since the last exchange began, or none has begun (R172). -/
def delayDue (s : State) (ctx : Nat) : Bool :=
  match (link s ctx).delayAt with
  | some t => decide (64 ≤ (sfn s + 2 ^ 32 - t) % 2 ^ 32)
  | none => true

/-- Path cost, HOPS and the UP entry, at a superframe boundary and with a new parent (R189, R208). -/
def pathUpdate (s : State) : State :=
  let s := match parentCtx s with | some c => readMem s (ctxBase c) 128 | none => s
  let p := pathCost s
  let s := setF (setF s F.MRT_PATH_COST p.1) F.MRT_PATH_HOPS p.2
  match parentCtx s with
  | some c => if isRoot s ∨ !(joined s || isOrphan s) then s else writeUp s c
  | none => s

/-- UPSTREAM_LOST of a node that has just taken its parent: 8 superframes of it where that parent's last beacon sets it (R178). -/
def upstreamOf (s : State) : State :=
  let lost := (parentNeighbour s).any (·.upLost)
  { s with sfm := { s.sfm with parentUpLost := lost, upLost := if lost then some 8 else none } }

/-- A context becomes the parent: SFM and MRT follow, with its link cost at once (R68, R178, R185, R187, R189, R191, R208). -/
def setParent (s : State) (ctx : Nat) : State :=
  let old := parentCtx s
  let s := match old with
    | some o => if o = ctx then s else cLinkBit s o 6 false
    | none => s
  let s := cLinkBit s ctx 6 true
  let s := setF (setF (setF s F.SFM_PARENT_ADDR (cGet s ctx C.pshort)) F.SFM_PARENT_CTX ctx) F.SFM_STAT_PPORT (cPort s ctx)
  let s := setF (setF s F.SFM_STAT_STATE 1) F.SFM_STAT_MISSES 0
  let s := setF s F.MRT_NSEQ_NSEQ (getF s F.MRT_NSEQ_NSEQ + 1)
  let s : State := { s with mrt := { s.mrt with changedAt := some (sfn s) }
                            sfm := { s.sfm with search := none, beaconAt := none }
                            tbu := { s.tbu with tlCount := 0 } }
  let s := upstreamOf (setF s F.TBU_STAT_TLOCK 0)
  delayStart (advertFull (pathUpdate (cSet s ctx C.cost (linkCost s ctx))) true) ctx

/-- A change of parent from `old`, which the node had, to `ctx` counts (R191). -/
def countChange (s : State) (old : Option Nat) (ctx : Nat) : State :=
  if old.any (fun o => o != ctx) then inc s F.MRT_RTCNT_PCHANGE else s

/-- A change to an established context takes effect at once, with DETACH to the old parent (R191, R200). -/
def changeParent (s : State) (ctx : Nat) : State :=
  let old := parentCtx s
  let s := setParent (countChange s old ctx) ctx
  match old with
  | some o => if o = ctx then s else advertDetach s o
  | none => s

/-- A neighbour is not passed over now (R209). -/
def notBarred (s : State) (b : Neighbour) : Bool :=
  !s.mrt.barred.any (fun x => x.1 == b.port * 65536 + b.addr && (match x.2 with | some t => !sfReached (sfn s) t | none => true))

/-- The neighbour's beacon was accepted in each of its last two due superframes (R154, R191). -/
def bothAccepted (s : State) (b : Neighbour) : Bool :=
  let g := gOf s b.port
  let last := sfn s + 2 ^ 32 - 1 - (sfn s + 2 ^ 32 - 1 - b.b % g) % g
  [last, last - g].all (fun t => b.quality.any (fun q => q.1 == t % 2 ^ 32 && q.2.2))

/-- The candidate that a joined node would change to, at a superframe boundary (R191). -/
def changeTarget (s : State) : Option Neighbour :=
  let cur := parentNeighbour s
  let own := getF s F.MRT_PATH_COST
  let hold := getF s F.MRT_PARENTCFG_PH_HOLD
  let held := match s.mrt.changedAt with
    | some t => decide (hold ≤ (sfn s + 2 ^ 32 - t) % 2 ^ 32)
    | none => true
  let cands := s.sfm.neighbours.filter (fun b =>
    isCandidate s b && notBarred s b && some (b.port, b.addr) != cur.map (fun c => (c.port, c.addr)))
  match bestOf s cands with
  | none => none
  | some b =>
    let gain := max (getF s F.MRT_PARENTCFG_PH_ABS) (own * getF s F.MRT_PARENTCFG_PH_REL / 64)
    if held && bothAccepted s b && score s b + gain < own then some b else none

/-- MRT's answer to a raised peer epoch (R214). -/
def epochRaised (s : State) (ctx : Nat) : State :=
  let s := setDrops (cSet s ctx C.q 0) ctx 0
  if parentCtx s = some ctx then delayStart s ctx else s

/-- An ORPHAN resumes with the parent that it had: no join and no change of parent (R177, R185, R191). -/
def resumeParent (s : State) : State :=
  let s := setF (setF s F.SFM_STAT_STATE 1) F.SFM_STAT_MISSES 0
  upstreamOf { s with sfm := { s.sfm with search := none, beaconAt := none } }

end Sys2Proof.Machine
end

