-- ==== Sys2Proof/Machine/Join.lean ====
section
/-! DEFINITION. Joining, rejoining and lateral links (R184, R185, R206–R213), key renewal messages (R375–R377), and automatic
allocations (R160). -/

namespace Sys2Proof.Machine

/-! ### SEC's part -/

/-- One signature is made in the current phase slot (R47). -/
def signOp (s : State) : State := { s with sec := { s.sec with sigs := s.sec.sigs + 1 } }

/-- An operation is asked of SEC: it takes its place behind those asked before (R374). -/
def secAsk (s : State) (j : SecJob) : State := { s with sec := { s.sec with queue := s.sec.queue ++ [j] } }

/-- The operation is a signature. -/
def SecJob.signs : SecJob → Bool
  | .attest | .parentSign _ _ | .joinerSign => true
  | _ => false

/-- A signature may be made now: none waits, and it is one of the first two of its phase slot, or leave for a burst is held or
costs nothing (R47). -/
def maySign (s : State) : Bool :=
  s.sec.sigWait.isEmpty && (decide (s.sec.sigs + (s.sec.queue.filter SecJob.signs).length < 2) || holdsLeave s 7 || leaveCost s 7 0 == 0)

/-- A signature beyond the second of its phase slot asks leave as requester 7 and waits for the answer; one that finds a burst
already paced waits for its turn (R47, R51). -/
def queueSig (s : State) (j : SecJob) : State :=
  let s : State := { s with sec := { s.sec with sigWait := s.sec.sigWait ++ [j] } }
  if s.sec.paced then s else askLeave s 7 0xFFFF 0 false

/-- A signature goes to SEC, or waits for leave. -/
def signAsk (s : State) (j : SecJob) : State := if maySign s then secAsk s j else queueSig s j

/-- The chip sends and answers JOIN frames: in a pair, in OPERATE alone (R213). -/
def joinsHere (s : State) : Bool := !s.pmu.paired || mode s == .operate

/-- The node holds what a join needs: node key, certificate, domain authority key (R364). -/
def mayJoin (s : State) : Bool := s.sec.nodeKey.isSome && s.sec.cert.isSome && s.sec.authKey.isSome

/-- The node key's signature over a byte string. -/
def nodeSign (s : State) (msg : Bytes) : Bytes := ed25519Sign (s.sec.nodeKey.getD []) msg

/-- The fields of a certificate that need no signature (R366): FORMAT, the reserved bits and bytes, DOMAIN, ISSUERID and NOTAFTER. -/
def certForm (s : State) (c : Bytes) : Bool :=
  c.length == 160 && u c 0 1 == 1 && u c 1 1 < 16 && (slice c 60 36).all (· == 0) &&
  (match s.sec.authKey with
   | some (d, k) => u c 2 2 == d && slice c 52 8 == (sha512 k).take 8
   | none => false) &&
  (u c 48 4 == 0 || decide (now s / Config.ticksPerSec < u c 48 4))

/-- SIG of a certificate verifies under the domain authority key (R365). -/
def certSigned (s : State) (c : Bytes) : Bool :=
  match s.sec.authKey with
  | some (_, k) => ed25519Verify k (c.take 96) (slice c 96 64)
  | none => false

/-- The verifier accepts a certificate (R366). -/
def certGood (s : State) (c : Bytes) : Bool := certForm s c && certSigned s c

/-- Every ROLE bit that FLAGS knows a permission for is permitted (R366). -/
def roleAllowed (c : Bytes) (role : Nat) : Bool := (List.range 3).all (fun k => !bit role k || bit (u c 1 1) k)

/-- Install a key in a context: counters at 0, none accepted (R368). -/
def putKey (s : State) (ctx : Nat) (k : Bytes) : State :=
  let s := memWrite s (ctxBase ctx + 12) k
  cSet (cSet (cSet s ctx C.txfc 0) ctx C.rxfc 0xFFFFFFFF) ctx C.rxfc2 0xFFFFFFFF

/-- The extended address as messages carry it (R183, R206). -/
def ext8 (s : State) : Bytes := leBytes (nodeExt s) 8

/-! ### Contexts and runs -/

/-- A provisional context for a neighbour (R208). -/
def newCtx (s : State) (i port addr ext epoch : Nat) : State :=
  let s := memWrite s (ctxBase i) (List.replicate 128 0)
  let s := cSet (cSet (cSet s i C.pext ext) i C.pshort addr) i C.link (port + 8 + 16)
  let s := cSet (cSet (cSet (cSet s i C.rxfc 0xFFFFFFFF) i C.rxfc2 0xFFFFFFFF) i C.rxgfc 0xFFFFFFFF) i C.pepoch epoch
  let s := cSet (cSet s i C.phclass 6) i C.lastsf (sfn s)
  let s : State := { s with sfm := { s.sfm with links := assocErase s.sfm.links i,
                                                silent := s.sfm.silent } }
  if port < 4 then initRecord s i else s

/-- Access slots of a port that some allocation, entry or reservation uses. -/
def slotTaken (s : State) (n a : Nat) : Bool :=
  (List.range 64).any (fun e =>
    let w := slotWord s (activeBank s) n e
    eLen w != 0 && eStart w ≤ a && a < eStart w + eLen w)
  || s.sfm.held.any (fun h => h.port == n && (h.old ++ h.entries).any (fun w => eLen w != 0 && eStart w ≤ a && a < eStart w + eLen w))
  || s.mrt.provs.any (fun p => p.port == n && ((p.up ≤ a && a < p.up + p.jlen) || (p.dn ≤ a && a < p.dn + p.jlen)))

/-- A free automatic slot: marked in SFM_AUTOPOOLn, in the data region, not taken (R160). -/
def slotFree (s : State) (n a : Nat) : Bool :=
  a < 128 && bit (getF s (F.autoPool n (a / 32))) (a % 32) && (layout s n).dstart ≤ a && !slotTaken s n a

/-- The lowest run of `len` free slots that starts at `start` or later. -/
def findRun (s : State) (n len start : Nat) : Option Nat :=
  (List.range 128).find? (fun a => start ≤ a && a + len ≤ 128 && (List.range len).all (fun j => slotFree s n (a + j)))

/-- Two runs: the two lowest. -/
def findRuns (s : State) (n len : Nat) : Option (Nat × Nat) :=
  match findRun s n len 0 with
  | none => none
  | some a => (findRun s n len (a + len)).map (fun b => (a, b))

/-! ### Messages -/

/-- Put a received segment beside those held; the whole message where it completes (R206). -/
def segJoin (held : List (Nat × Bytes)) (seg : Nat) (b : Bytes) : List (Nat × Bytes) × Option Bytes :=
  let i := seg % 16
  let last := seg / 16
  let h := assocSet held i b
  if (List.range (last + 1)).all (fun k => (assocFind? h k).isSome) then
    ([], some (((List.range (last + 1)).map (fun k => assocGet [] h k)).flatten))
  else (h, none)

/-- A segment of a key-renewal message of a link: the whole message where it completes. A first segment or another type begins a message
(R206, R375). -/
def linkSeg (s : State) (ctx ty : Nat) (c : Bytes) : State × Option Bytes :=
  let seg := u c 9 1
  let l := link s ctx
  let (held, whole) := segJoin (if seg % 16 = 0 ∨ l.segs.1 ≠ ty then [] else l.segs.2) seg (c.drop 10)
  (modLink s ctx (fun l => { l with segs := (ty, held) }), whole.map (fun m => c.take 10 ++ m))

/-! ### The parent's part -/

/-- JOIN_DENY (R206): in random access for a joiner without provisional allocations, in them otherwise. -/
def deny (s : State) (port dst ext cause : Nat) (ctx : Option Nat) : State :=
  let f := leBytes ext 4 ++ leBytes cause 1
  let s := inc s F.MRT_JOINCNT_DENIES
  match ctx with
  | some c => joinSend s c 8 false f
  | none => accessAdd s port 0xFFFF dst false 3 false (joinContent (ownAddr s) dst 8 0 f)

/-- A join in progress by its context. -/
def joinOf (s : State) (ctx : Nat) : Option Join := s.mrt.joins.find? (fun j => j.ctx == ctx)

def setJoin (s : State) (j : Join) : State :=
  { s with mrt := { s.mrt with joins := s.mrt.joins.map (fun x => if x.ctx = j.ctx then j else x) } }

/-- JOIN_OFFER to a joiner, in random access (R208). -/
def sendOffer (s : State) (j : Join) : State :=
  accessAdd s j.port j.ctx j.src false 3 false (joinContent (ownAddr s) j.src 2 0
    (leBytes j.ext 4 ++ leBytes j.nonceP 4 ++ leBytes j.up 1 ++ leBytes j.dn 1 ++ leBytes j.jlen 1 ++ leBytes j.effect 4))

/-- The node answers joins: OPERATE, joined or root, provisioned (R35, R213, R364). -/
def answersJoins (s : State) : Bool := mode s == .operate && joined s && mayJoin s

/-- A JOIN_REQ accepted on a port (R208, R211, R212): one of a join in progress gets its offer again, whatever PERMIT_JOIN now says
(R215). The established context that the extended address holds is the one of a rejoin, on the request's port or else on another; a lateral opening
takes one on its own port alone (log entry 146). -/
def joinReq (s : State) (port src : Nat) (c : Bytes) : State :=
  let ext := u c 10 8
  if !answersJoins s || c.length < 25 then s
  else
    match s.mrt.joins.find? (fun j => j.ext == ext) with
    | some j => sendOffer s j
    | none =>
      if !flag s (F.SFM_PORTCFG_PERMIT_JOIN port) then s
      else
      match freeCtx s with
      | none => deny s port src ext 2 none
      | some i =>
        if 4 ≤ s.mrt.joins.length ∨ !trngOk s then deny s port src ext 3 none
        else
          match findRuns s port (jlenOf s port) with
          | none => deny s port src ext 1 none
          | some (a, b) =>
            let mine := (ctxTouched s).filter (fun x => cEstablished s x && cGet s x C.pext == ext)
            let here := mine.find? (fun x => cPort s x == port)
            let old := if bit (u c 22 1) 4 then here else if here.isSome then here else mine.head?
            let s := newCtx s i port src ext 0
            let (nonce, s) := randBytes s 4
            let j : Join := { ctx := i, port, ext, src, nonceJ := u c 18 4, nonceP := nonce, role := u c 22 1, prev := u c 23 2,
                              up := a, dn := b, jlen := jlenOf s port, effect := (sfn s + 3) % 2 ^ 32, stage := .offered,
                              short := 0, bslot := 0xFF, segs := [], acked := [], oldCtx := old }
            let s : State := { s with mrt := { s.mrt with
              joins := s.mrt.joins ++ [j]
              provs := s.mrt.provs ++ [{ ctx := i, port, up := a, dn := b, jlen := j.jlen, effect := j.effect, until_ := none,
                                         parentEnd := true }] } }
            sendOffer (inc s F.MRT_JOINCNT_REQS) j

/-! ### The root's firmware (R184) -/

/-- The extended address that a short address is mapped to. -/
def mappedExt (s : State) (a : Nat) : Option Nat := assocFind? s.mrt.addrMap a
/-- The short address mapped to an extended address. -/
def mappedShort (s : State) (ext : Nat) : Option Nat := (s.mrt.addrMap.find? (fun e => e.2 == ext)).map (·.1)

/-- Assign a short address: the mapped one, or the lowest free from 0x0001 (R184). -/
def assignShort (s : State) (ext : Nat) : Option Nat × State :=
  match mappedShort s ext with
  | some a => (some a, s)
  | none =>
    match (List.range 65536).find? (fun a => a != 0 && (mappedExt s a).isNone &&
        (match assocFind? s.mrt.reserved a with | some e => e == ext | none => true)) with
    | some a => (some a, { s with mrt := { s.mrt with addrMap := assocSet s.mrt.addrMap a ext } })
    | none => (none, s)

/-- ADDR_GRANT's fields for a request: SHORT, BSLOT, STATUS. The beacon-slot index that the firmware gives is its own choice,
a free value among 0–7 and none (R154, log entry 5). -/
def grantFor (s : State) (ext role prev : Nat) : (Nat × Nat × Nat) × State :=
  let rejoin := bit role 3 && mappedExt s prev == some ext
  let (a, s) := if rejoin then (some prev, s) else assignShort s ext
  let (v, s) := draw s
  match a with
  | some a => ((a, if v % 9 = 8 then 0xFF else v % 9, 0), s)
  | none => ((0, 0xFF, 1), s)

/-- The parent has its answer: JOIN_ACCEPT, or JOIN_DENY with REFUSED (R208). -/
def granted (s : State) (ext short bslot status : Nat) : State :=
  match s.mrt.joins.find? (fun j => j.ext == ext && j.stage == .addressing) with
  | none => s
  | some j =>
    if status ≠ 0 then deny s j.port j.src ext 6 (some j.ctx)
    else
      let s := setJoin s { j with stage := .accepting, short, bslot }
      let key := match s.sec.gkey with
        | some (id, k) => leBytes id 1 ++ k
        | none => leBytes 0 1 ++ List.replicate 32 0
      joinSend s j.ctx 7 true (leBytes short 2 ++ leBytes bslot 1 ++ (if bit j.role 4 then leBytes 0 1 else key))

/-- An ADDR_REQ at the root (R208): content from the mesh header. -/
def addrReq (s : State) (c : Bytes) : State :=
  let ext := u c 10 8
  let (g, s) := grantFor s ext (u c 18 1) (u c 19 2)
  if mhOrig c = ownAddr s then granted s ext g.1 g.2.1 g.2.2
  else originate s (mhOrig c) 3 false 32 (leBytes 6 1 ++ leBytes 0 1 ++ leBytes ext 8 ++ leBytes g.1 2 ++ leBytes g.2.1 1 ++ leBytes g.2.2 1)

/-- An ADDR_GRANT at the parent. -/
def addrGrant (s : State) (c : Bytes) : State := granted s (u c 10 8) (u c 18 2) (u c 20 1) (u c 21 1)

/-- The parent asks the root for the joiner's address, or has it already (R208, R212). -/
def askAddress (s : State) (j : Join) : State :=
  if bit j.role 4 then granted s j.ext j.prev 0xFF 0
  else
    let req := leBytes 5 1 ++ leBytes 0 1 ++ leBytes j.ext 8 ++ leBytes j.role 1 ++ leBytes j.prev 2
    if isRoot s then addrReq s (meshHdr (ownAddr s) 0 1 32 false 0 ++ req)
    else originate s 0 3 false 32 req

/-- The parent denies a joiner whose JOIN_PROOF it holds. -/
def proofDeny (s : State) (j : Join) (cause : Nat) : State :=
  deny (setJoin s { j with stage := .offered, segs := [] }) j.port j.src j.ext cause (some j.ctx)

/-- The session key of an exchange at the parent, whose private half is `priv`, from the joiner's proof `m` (R368). -/
def parentKey (s : State) (j : Join) (priv m : Bytes) : Option Bytes :=
  deriveKey priv (slice m 160 32) (leBytes j.nonceP 4 ++ leBytes j.nonceJ 4) (ext8 s ++ leBytes j.ext 8 ++ leBytes j.role 1)

/-- The parent's certificate, its public half `epk` and its signature over the exchange (R366, R367). -/
def parentProofBody (s : State) (j : Join) (epk : Bytes) : Bytes :=
  (s.sec.cert.getD []) ++ epk ++ nodeSign s (leBytes j.nonceJ 4 ++ leBytes j.nonceP 4 ++ leBytes j.ext 8 ++ epk)

/-- The parent has proved itself: the link's key is `k`, and an address is asked for. -/
def parentProved (s : State) (ctx : Nat) (j : Join) (epk k : Bytes) : State :=
  let t := joinSend (signOp s) ctx 4 false (parentProofBody s j epk)
  askAddress (setJoin (putKey t ctx k) { j with stage := .addressing, segs := [] }) j

/-- With its private half `priv` the parent answers, or denies a shared secret of zeros. -/
def parentReply (s : State) (ctx : Nat) (j : Join) (priv m : Bytes) : State :=
  match parentKey s j priv m with
  | none => proofDeny s j 5
  | some k => parentProved s ctx j (x25519Pub priv) k

/-- The verified JOIN_PROOF `m` of a provisional context is answered: PARENT_PROOF, the link key, and ADDR_REQ (R208). A shared secret of zeros
fails the join as a SIGNATURE failure (R368). The parent's private half goes with this operation (R367). -/
def parentProofSend (s : State) (ctx : Nat) (m : Bytes) : State :=
  match joinOf s ctx with
  | none => s
  | some j =>
    if j.stage ≠ .proving then s
    else
      let r := freshKey s
      parentReply r.2 ctx j r.1 m

/-- The certificate of a JOIN_PROOF at the parent (R366). -/
def proofCertGood (s : State) (j : Join) (m : Bytes) : Bool :=
  let c := m.take 160
  certGood s c && u c 4 8 == j.ext && roleAllowed c j.role

/-- The signature of a JOIN_PROOF, over the parent's EXT or over zeros in its place (R367). -/
def proofSigned (s : State) (j : Join) (m : Bytes) : Bool :=
  let text (ext : Bytes) : Bytes := leBytes j.nonceP 4 ++ leBytes j.nonceJ 4 ++ ext ++ slice m 160 32
  let ok (ext : Bytes) : Bool := ed25519Verify (slice m 12 32) (text ext) (m.drop 192)
  ok (ext8 s) || ok (leBytes 0 8)

/-- SEC has checked a JOIN_PROOF (R208, R366, R367); without a healthy random source the parent answers BUSY (R387). -/
def joinChecked (s : State) (ctx : Nat) (m : Bytes) : State :=
  match joinOf s ctx with
  | none => s
  | some j =>
    if j.stage ≠ .proving then s
    else if !proofCertGood s j m then proofDeny (inc s F.SEC_CNT_CERTFAIL) j 4
    else if !proofSigned s j m then proofDeny s j 5
    else if !trngOk s then proofDeny s j 3
    else signAsk s (.parentSign ctx m)

/-- A JOIN_PROOF segment in a provisional allocation: a whole one goes to SEC (R208). -/
def joinProof (s : State) (ctx : Nat) (c : Bytes) : State :=
  match joinOf s ctx with
  | none => s
  | some j =>
    if j.stage ≠ .offered then s
    else
      let (held, whole) := segJoin j.segs (u c 9 1) (c.drop 10)
      let s := setJoin s { j with segs := held }
      match whole with
      | none => s
      | some m => secAsk (setJoin s { j with stage := .proving, segs := held }) (.joinCheck ctx m)

/-! ### ALLOC (R159, R160) -/

/-- Entries of a link as ALLOC carries them: CTX 0. -/
def wireEntry (w : Nat) : Nat := w - 2 ^ 14 * eCtx w

/-- The bodies of an ALLOC: up to 8 parts of up to `k` entries (R159, R171). -/
def allocBodies (k effect : Nat) (entries : List Nat) : List Bytes :=
  let ps := partsOf k 8 entries
  ps.mapIdx (fun i p => leBytes 4 1 ++ leBytes (i + 16 * (ps.length - 1)) 1 ++ leBytes p.length 1 ++ leBytes effect 4
    ++ (p.map (fun w => leBytes (wireEntry w) 4)).flatten)

/-- Hold a link's entries for an ALLOC with a new EFFECT, at least 4 superframes ahead, and send its parts (R159). A newer ALLOC
replaces one that still awaits EFFECT, whose old form stays (R181). To a child that no send allocation reaches the parts go in random
access, two entries each, so that their LENGTH stays within 32 (R156, R159, log entry 142); the 8 parts of an ALLOC hold no more than 16
entries there, and a link with more keeps its parts for a send allocation. -/
def allocSend (s : State) (port ctx : Nat) (old entries : List Nat) (ends : Bool) : State :=
  let effect := (sfn s + 4) % 2 ^ 32
  let prev := s.sfm.held.find? (fun h => h.ctx == ctx)
  -- the old form is in force until EFFECT, whatever the active bank holds
  let inForce := (prev.map (·.old)).getD old
  let reached := inForce.any (fun w => !eRecv w) || (provAllocs s port (sfn s)).any (fun a => a.ctx == ctx && a.send)
  let ra := !reached && decide (entries.length ≤ 16)
  let bodies := allocBodies (if ra then 2 else 8) effect entries
  -- a part of the older ALLOC that random access has tried uses up its LSN (R169)
  let tried := s.sfm.access.any (fun x => x.isAlloc ctx && !x.inFlight && x.tries != 0)
  let h : AllocHeld := { ctx, port, old := inForce, entries, effect, acked := [], parts := bodies.length,
                         ends := ends || (prev.map (·.ends)).getD false }
  let s : State := { s with sfm := { s.sfm with held := (s.sfm.held.filter (fun x => x.ctx != ctx)) ++ [h]
                                                access := s.sfm.access.filter (fun x => x.inFlight || !x.isAlloc ctx) } }
  let s := setFlag (ctlReplace (if tried then advanceLsn s ctx else s) ctx 4 (if ra then [] else bodies)) F.SFM_SLOTCTL_HELD
  if ra then raPickAll (bodies.foldl (fun s b => accessAdd s port ctx (cGet s ctx C.pshort) false 1 true b) s) else s

/-- Free entry indices of a port's active bank. -/
def freeEntries (s : State) (n : Nat) : List Nat := (List.range 64).filter (fun e => eLen (slotWord s (activeBank s) n e) == 0)

/-- The lowest `len` free slots (R160); each allocation of them is a run. -/
def autoRuns (s : State) (n len : Nat) : Option (Nat × Nat) := findRuns s n len

/-- Automatic allocations for a child just joined: the ALLOC carries every entry of the link (R159, R160). -/
def autoAlloc (s : State) (ctx : Nat) : State :=
  let n := cPort s ctx
  let len := getF s (F.SFM_PORTCFG_AUTOLEN n)
  match autoRuns s n len, freeEntries s n with
  | some (a, b), e1 :: e2 :: _ =>
    let w (start : Nat) (recv : Bool) : Nat := start + 2 ^ 7 * len + 2 ^ 14 * ctx + 2 ^ 26 * b2n recv
    let old := (wordsInForce s n).filter (fun w => eCtx w == ctx)
    let s := putSlot (putSlot s (activeBank s) n e1 (w a true)) (activeBank s) n e2 (w b false)
    let s : State := { s with mrt := { s.mrt with autos := (ctx, n, a, b, len) :: s.mrt.autos } }
    allocSend s n ctx old (linkWords s n ctx) true
  | _, _ => { s with mrt := { s.mrt with provs := s.mrt.provs.map (fun p => if p.ctx = ctx then { p with until_ := some (sfn s) } else p) } }

/-! ### Group keys (R377) -/

/-- A GKEY message to one child. -/
def gkeySend (s : State) (ctx : Nat) : State :=
  match s.sec.gpend with
  | some (id, effect, k) =>
    joinSend s ctx 11 true (leBytes id 1 ++ leBytes effect 4 ++ k)
  | none => s

/-- A pending group key goes to every child. -/
def gkeyChildren (s : State) : State :=
  ((ctxTouched s).filter (fun c => cEstablished s c && cChild s c)).foldl gkeySend s

/-- A GKEY accepted from the parent (R377). -/
def gkeyRx (s : State) (ctx : Nat) (c : Bytes) : State :=
  let effect := u c 11 4
  if parentCtx s ≠ some ctx ∨ sfReached (sfn s) effect ∨ c.length < 47 then s
  else gkeyChildren { s with sec := { s.sec with gpend := some (u c 10 1, effect, slice c 15 32) } }

/-- The group key in force changes: own counter at 0, every accepted group counter none (R377). -/
def gkeyInstall (s : State) (id : Nat) (k : Bytes) : State :=
  let s : State := { s with sec := { s.sec with gkey := some (id, k) }
                            sfm := { s.sfm with groupFc := 0, exhausted := s.sfm.exhausted.filter (fun i => i != 0xFFFF) } }
  (ctxTouched s).foldl (fun s c => cSet s c C.rxgfc 0xFFFFFFFF) s

/-- GROUP_KEY_EFFECT at a superframe boundary (R377). -/
def gkeyBoundary (s : State) : State :=
  match s.sec.gpend with
  | some (id, effect, k) =>
    if sfReached (sfn s) effect then
      let s := gkeyInstall s id k
      inc { s with sec := { s.sec with gpend := none } } F.SEC_KEYCNT_GKEYCHG
    else s
  | none => s

/-- The group key that a JOIN_ACCEPT carries (R369): the one already held changes nothing, counters and a pending key included, so that no
(key, SRC, FC) is used twice (R370). DESIGN CHOICE: all zeros stand for none (log entry 224). -/
def gkeyTake (s : State) (id : Nat) (k : Bytes) : State :=
  if s.sec.gkey = some (id, k) ∨ k.all (· == 0) then s else gkeyInstall s id k

/-! ### Establishing (R208, R211, R212) -/

/-- A join is over at the parent. -/
def joinGone (s : State) (ctx : Nat) : State :=
  { s with mrt := { s.mrt with joins := s.mrt.joins.filter (fun j => j.ctx != ctx) } }

/-- A context moves to the port on which its node rejoined: what waits for it on the old port, where it has no allocation any more, is
dropped without an event, and its link starts anew (R170, R211). -/
def movePort (s : State) (o n : Nat) : State :=
  if cPort s o = n then s
  else
    let s := dropLink s (cPort s o) o
    let s : State := { s with sfm := { s.sfm with
      held := s.sfm.held.filter (fun h => h.ctx != o)
      access := s.sfm.access.filter (fun x => x.inFlight || x.bcast || x.ctx != o) } }
    let s := cSet (heldFlag s) o C.link (cGet s o C.link / 8 * 8 + n)
    if n < 4 then initRecord s o else s

/-- The context that the join establishes at the parent: the provisional one, or on a rejoin the one held before, which takes
over the new key, the port and the provisional allocations (R211). -/
def mergeOld (s : State) (j : Join) : State × Nat :=
  match j.oldCtx with
  | some o =>
    if cEstablished s o then
      let k := linkKey s j.ctx
      let fc := cGet s j.ctx C.txfc
      let rx := cGet s j.ctx C.rxfc
      let s := movePort s o j.port
      let s := cSet (cSet (putKey s o k) o C.txfc fc) o C.rxfc rx
      let s := cKBit (cKBit (cKBit s o 0 false) o 1 false) o 4 false
      let s := cSet (cSet s o C.txlsn (cGet s j.ctx C.txlsn)) o C.rxlsn 0
      let s : State := { s with mrt := { s.mrt with provs := s.mrt.provs.map (fun p => if p.ctx = j.ctx then { p with ctx := o } else p) } }
      (deleteCtx s j.ctx, o)
    else (s, j.ctx)
  | none => (s, j.ctx)

/-- JOIN_ACCEPT is acked (R208). -/
def joinEstablish (s : State) (ctx : Nat) : State :=
  match joinOf s ctx with
  | none => s
  | some j =>
    let peer := bit j.role 4
    let (s, c) := mergeOld s j
    let s := joinGone s j.ctx
    let s := cLinkBit (cSet s c C.pshort j.short) c 4 false
    let s := cLinkBit s c (if peer then 7 else 5) true
    let s := cKBit s c 3 (bit j.role 1)
    let s := if cPort s c < 4 ∧ j.oldCtx ≠ some c then initRecord s c else s
    let s := inc s F.MRT_JOINCNT_ACCEPTS
    let s := if getF s (F.SFM_PORTCFG_AUTOLEN j.port) = 0 ∨ peer then
        { s with mrt := { s.mrt with provs := s.mrt.provs.map (fun p => if p.ctx = c then { p with until_ := some (sfn s) } else p) } }
      else autoAlloc s c
    if peer then s else gkeySend s c

/-- A segment of JOIN_ACCEPT is acked: with the last of them the link is established (R206, R208). -/
def joinAcked (s : State) (ctx seg : Nat) : State :=
  match joinOf s ctx with
  | none => s
  | some j =>
    let acked := seg % 16 :: j.acked
    if (List.range (seg / 16 + 1)).all (fun k => acked.contains k) then joinEstablish s ctx else setJoin s { j with acked }

/-- JOIN_LIFE superframes after EFFECT without an ack (R209). -/
def joinExpire (s : State) (ctx : Nat) : State :=
  match joinOf s ctx with
  | none => s
  | some j =>
    let ahead := slotsAhead s (slotStart s j.dn)
    let s := joinGone (inc s F.MRT_JOINCNT_EXPIRED) ctx
    if 0 < ahead ∧ sfReached (sfn s) j.effect then
      -- the TIMEOUT goes in the joiner's provisional allocation of this superframe, which ends with it
      let s := deny (dropLink s j.port ctx) j.port j.src j.ext 7 (some ctx)
      { s with mrt := { s.mrt with provs := s.mrt.provs.map (fun p => if p.ctx = ctx then { p with until_ := some (sfn s) } else p) } }
    else deleteCtx s ctx

/-! ### The joiner's part -/

def setJoiner (s : State) (j : Option Joiner) : State := { s with mrt := { s.mrt with joiner := j } }

/-- The completion of a LATERAL_OPEN: STATUS OK with CAUSE 0, or BUSY with the cause (R436). -/
def lateralDone (s : State) (j : Joiner) (cause : Nat) : State :=
  match j.host with
  | some (p, q) => complete s p q 0x1404 (sessionOpen (hport s p)) (if cause = 0 then St.ok else St.busy) (leBytes cause 1)
  | none => s

/-- TEMP of an attempt: the low 16 bits of the extended address XOR a random value, never 0 nor a SRC heard (R185). -/
def chooseTemp (s : State) : Nat × State :=
  let (v, s) := draw s
  let t := (nodeExt s ^^^ v) % 65536
  let bad (a : Nat) : Bool := a == 0 || s.sfm.heard.contains a || s.sfm.neighbours.any (fun b => b.addr == a)
  (((List.range 65536).map (fun k => (t + k) % 65536)).find? (fun a => !bad a) |>.getD 1, s)

/-- The ROLE byte of a request: the roles that the certificate permits among ROUTER, SLEEPY and PAIRED (R206, R366). -/
def roleByte (s : State) (rejoin peer : Bool) : Nat :=
  let flags := u (s.sec.cert.getD []) 1 1
  flags % 8 + 8 * b2n rejoin + 16 * b2n peer

/-- JOIN_REQ goes to a chosen parent (R208). -/
def joinSendReq (s : State) (j : Joiner) : State :=
  accessAdd s j.port j.ctx j.parent false 3 false (joinContent j.src j.parent 1 0
    (ext8 s ++ leBytes j.nonceJ 4 ++ leBytes (roleByte s j.rejoin j.peer) 1
      ++ leBytes (if j.rejoin || j.peer then ownAddr s else 0) 2))

/-- Begin a join, a rejoin or a lateral opening with a neighbour (R208, R211, R212); a node that lacks a key or certificate sends no JOIN_REQ
(R364). -/
def joinBegin (s : State) (b : Neighbour) (rejoin peer : Bool) (host : Option (Nat × Nat)) : State :=
  match (if trngOk s && mayJoin s then freeCtx s else none) with
  | none => s
  | some i =>
    let (t, s) := if rejoin || peer then (ownAddr s, s) else chooseTemp s
    let (nonce, s) := randBytes s 4
    let s := newCtx s i b.port b.addr 0 b.epoch
    let s := modLink s i (fun l => { l with beaconB := some b.b })
    let j : Joiner := { stage := .requesting, ctx := i, port := b.port, parent := b.addr, src := t, nonceJ := nonce, nonceP := 0, priv := [],
                        up := 0, dn := 0, jlen := 0, effect := 0, due := none, rejoin, peer, segs := [], search := 0, host }
    joinSendReq (setJoiner s (some j)) j

/-- Give up the attempt in hand: the provisional context goes (R209). -/
def joinAbandon (s : State) (j : Joiner) : State :=
  setJoiner (deleteCtx s j.ctx) none

/-- Candidates that are not passed over now (R209). -/
def openCandidates (s : State) : List Neighbour := s.sfm.neighbours.filter (fun b => isCandidate s b && notBarred s b)

/-- Superframes of an ORPHAN or join search: 2G of the present port with the largest G (R177, R208). -/
def searchLength (s : State) : Nat := 2 * ((ports s).map (gOf s)).foldl max 1

/-- A search begins: nothing has been heard in it, the candidates passed over in the last attempt count again, and the radio's part asks
leave (R177, R185, R209). -/
def searchOpen (s : State) : State :=
  let s : State := { s with sfm := { s.sfm with heard := [] }
                            mrt := { s.mrt with barred := s.mrt.barred.filter (fun x => x.2.isSome) } }
  if hasRadio s then askFor s 4 .listen 4 0 false else s

/-- A search is over: the radio's leave goes. -/
def searchOver (s : State) : State := dropLeave s 4 .listen

/-- An ORPHAN searches every port (R177). -/
def searchStart (s : State) : State :=
  searchOpen { s with sfm := { s.sfm with search := some (searchLength s) } }

/-- A node that has never joined searches for a parent (R208). -/
def joinLook (s : State) : State :=
  setJoiner (searchOpen s) (some { stage := .searching, ctx := 0xFFFF, port := 0, parent := 0, src := 0, nonceJ := 0, nonceP := 0, priv := [],
                                   up := 0, dn := 0, jlen := 0, effect := 0, due := none, rejoin := false, peer := false, segs := [],
                                   search := searchLength s, host := none })

/-- The POLL of a node to a parent or a neighbour (R171). -/
def pollBody (s : State) (c : Nat) : Bytes :=
  leBytes 1 1 ++ leBytes (b2n (!(linkPackets s (cPort s c) c).isEmpty)) 1 ++ leBytes (getF s F.SFM_ROOST_ROOST_PERIOD) 2

/-- An ORPHAN takes the best candidate: it resumes with one whose context it holds, rejoins with another, or searches again (R177,
R191, R211). -/
def orphanPick (s : State) : State :=
  match bestOf s (openCandidates s) with
  | none => searchStart s
  | some b =>
    let s : State := { s with sfm := { s.sfm with search := none } }
    match ctxWith s b with
    | some c => raPickAll (accessAdd s b.port c b.addr false 1 true (pollBody s c))
    | none => if mayJoin s then joinBegin s b true false none else searchStart s

/-- A joined node changes to a candidate: at once to one whose context it holds, by a rejoin to another (R191, R211). -/
def takeParent (s : State) (b : Neighbour) : State :=
  match ctxWith s b with
  | some c => changeParent s c
  | none => if mode s = .operate ∧ mayJoin s then joinBegin s b true false none else s

/-- The next candidate (R191, R209): an ORPHAN's or an unjoined node's best one, or a new search without one; a joined node changes only
as R191 lets it, and keeps its parent otherwise. -/
def nextCandidate (s : State) : State :=
  if isOrphan s then orphanPick s
  else if joined s then
    match changeTarget s with
    | some b => takeParent s b
    | none => { s with mrt := { s.mrt with barred := s.mrt.barred.filter (fun x => x.2.isSome) } }
  else
    match bestOf s (openCandidates s) with
    | some b => joinBegin s b false false none
    | none => joinLook s

/-- The search of a node that has never joined begins, or has ended (R208, R209). -/
def joinSearch (s : State) : State :=
  if joined s || isOrphan s || mode s != .operate || !mayJoin s then s
  else
    match s.mrt.joiner with
    | none => joinLook s
    | some j => if j.stage = .searching ∧ j.search = 0 then nextCandidate (searchOver s) else s

/-- A node that has never joined and is at no attempt begins its search at a superframe boundary (R208). -/
def joinAuto (s : State) : State := if s.mrt.joiner.isNone then joinSearch s else s

/-- The attempt ends without a link: a join goes on with the next candidate, the failed one passed over until `till`, or for this
attempt (R208, R209). -/
def joinFail (s : State) (j : Joiner) (cause : Nat) (till : Option Nat) : State :=
  let s := joinAbandon s j
  if j.peer then lateralDone s j cause
  else nextCandidate { s with mrt := { s.mrt with barred := (j.port * 65536 + j.parent, till) :: s.mrt.barred } }

/-- The parent's EXT by the certificate that an earlier exchange with its short address has left, or eight zero bytes (R367, log entry 187). -/
def knownExt (s : State) (parent : Nat) : Bytes :=
  match assocFind? s.sec.peerCerts parent with
  | some c => slice c 4 8
  | none => leBytes 0 8

/-- The joiner signs and sends its JOIN_PROOF (R208, R367). -/
def joinProofSend (s : State) : State :=
  match s.mrt.joiner with
  | none => s
  | some j =>
    if j.stage ≠ .offered ∨ !j.priv.isEmpty then s
    else
      let (priv, s) := freshKey s
      let epk := x25519Pub priv
      let sig := nodeSign s (leBytes j.nonceP 4 ++ leBytes j.nonceJ 4 ++ knownExt s j.parent ++ epk)
      joinSend (setJoiner (signOp s) (some { j with priv })) j.ctx 3 false ((s.sec.cert.getD []) ++ epk ++ sig)

/-- A joiner with an offer asks for its signature; without a healthy random source it waits (R386, R387). -/
def joinerGoOn (s : State) : State :=
  match s.mrt.joiner with
  | none => s
  | some j =>
    if j.stage ≠ .offered ∨ !j.priv.isEmpty ∨ !trngOk s ∨ s.sec.sigWait.contains .joinerSign ∨ s.sec.queue.contains .joinerSign then s
    else signAsk s .joinerSign

/-- An accepted JOIN_OFFER (R208). -/
def joinOffer (s : State) (port src : Nat) (c : Bytes) : State :=
  match s.mrt.joiner with
  | none => s
  | some j =>
    if j.stage ≠ .requesting ∨ j.port ≠ port ∨ j.parent ≠ src ∨ u c 10 4 ≠ nodeExt s % 2 ^ 32 ∨ c.length < 25 then s
    else
      let j : Joiner := { j with stage := .offered, nonceP := u c 14 4, up := u c 18 1, dn := u c 19 1, jlen := u c 20 1, effect := u c 21 4 }
      let s : State := { s with mrt := { s.mrt with
        provs := s.mrt.provs ++ [{ ctx := j.ctx, port, up := j.up, dn := j.dn, jlen := j.jlen, effect := j.effect, until_ := none,
                                   parentEnd := false }] } }
      joinerGoOn (setJoiner s (some { j with priv := [] }))

/-- The signature of a PARENT_PROOF (R367). -/
def parentSigned (s : State) (j : Joiner) (m : Bytes) : Bool :=
  ed25519Verify (slice m 12 32) (leBytes j.nonceJ 4 ++ leBytes j.nonceP 4 ++ ext8 s ++ slice m 160 32) (m.drop 192)

/-- The session key of an exchange at the joiner, from the parent's proof `m` (R368). -/
def joinerKey (s : State) (j : Joiner) (m : Bytes) : Option Bytes :=
  deriveKey j.priv (slice m 160 32) (leBytes j.nonceP 4 ++ leBytes j.nonceJ 4)
    (slice m 4 8 ++ ext8 s ++ leBytes (roleByte s j.rejoin j.peer) 1)

/-- The joiner has found its parent genuine: the link's key is `k`, and the answer to its request is awaited. -/
def parentTaken (s : State) (ctx : Nat) (j : Joiner) (m k : Bytes) : State :=
  let s : State := { s with sec := { s.sec with peerCerts := assocSet s.sec.peerCerts j.parent (m.take 160) } }
  setJoiner (putKey (cSet s ctx C.pext (u m 4 8)) ctx k) (some { j with stage := .awaiting, priv := [] })

/-- The joiner takes its genuine parent, or ends at a shared secret of zeros (R368). -/
def parentSettled (s : State) (ctx : Nat) (j : Joiner) (m : Bytes) : State :=
  match joinerKey s j m with
  | none => joinFail s j 5 none
  | some k => parentTaken s ctx j m k

/-- SEC has checked a PARENT_PROOF (R208, R366–R368): the link key, and the private half goes. A certificate that fails ends the attempt. -/
def parentChecked (s : State) (ctx : Nat) (m : Bytes) : State :=
  match s.mrt.joiner with
  | none => s
  | some j =>
    if j.ctx ≠ ctx ∨ j.stage ≠ .proving then s
    else
      if !certGood s (m.take 160) then joinFail (inc s F.SEC_CNT_CERTFAIL) j 4 none
      else if !parentSigned s j m then joinFail s j 5 none
      else parentSettled s ctx j m

/-- A PARENT_PROOF segment: a whole one goes to SEC (R208). -/
def parentProof (s : State) (ctx : Nat) (c : Bytes) : State :=
  match s.mrt.joiner with
  | none => s
  | some j =>
    if j.ctx ≠ ctx ∨ j.stage ≠ .offered then s
    else
      let (held, whole) := segJoin j.segs (u c 9 1) (c.drop 10)
      let s := setJoiner s (some { j with segs := held })
      match whole with
      | none => s
      | some m =>
        if j.priv.isEmpty then s else secAsk (setJoiner s (some { j with stage := .proving, segs := [] })) (.parentCheck ctx m)

/-- A rejoin granted another address keeps the new parent's context alone, and no learnt route (R211). -/
def dropOthers (s : State) (ctx : Nat) : State :=
  let s := ((ctxTouched s).filter (fun c => c != ctx)).foldl deleteCtx s
  (ftTouched s).foldl (fun s d => match ftSeen s d with
    | some w => if ftKind w = 1 ∨ ftKind w = 2 then ftDrop s d else s
    | none => s) s

/-- The provisional allocations of a context last until superframe `u`. -/
def provsUntil (s : State) (ctx u : Nat) : State :=
  { s with mrt := { s.mrt with provs := s.mrt.provs.map (fun p => if p.ctx = ctx then { p with until_ := some u } else p) } }

/-- JOIN_ACCEPT of a lateral link (R212). -/
def acceptLateral (s : State) (j : Joiner) (ctx : Nat) : State :=
  let s := cLinkBit s ctx 7 true
  let s := if j.port < 4 then initRecord s ctx else s
  lateralDone (provsUntil s ctx (sfn s)) j 0

/-- The address, beacon slot and group key that JOIN_ACCEPT carries (R208, R376). -/
def takeAccept (s : State) (j : Joiner) (ctx : Nat) (c : Bytes) : State :=
  let short := u c 10 2
  let bs := u c 12 1
  let s := if j.rejoin ∧ short ≠ ownAddr s then dropOthers s ctx else s
  let s := setFlag (setF s F.MRT_ADDR_SHORT short) F.MRT_ADDR_VALID
  let s := if j.port < 4 then initRecord s ctx else s
  let s := if bs < 8 then (List.range 5).foldl (fun s n => setF s (F.SFM_PORTCFG_BSLOT n) bs) s else s
  gkeyTake s (u c 13 1) (slice c 14 32)

/-- The new parent takes effect, and the old one is told (R191, R200, R208, R211). With its parent's AUTOLEN at 0 the provisional allocations end
at the next superframe boundary, else at the EFFECT of the parent's ALLOC; that AUTOLEN stands in the parent, so which of the two it is is a
free value, and an ALLOC that never comes is awaited for JOIN_LIFE (log entry 145). -/
def acceptParent (s : State) (j : Joiner) (ctx : Nat) (old : Option Nat) : State :=
  let orphan := isOrphan s
  let fresh := !j.rejoin || orphan || old.isNone
  let s := setParent (countChange s old ctx) ctx
  let s : State := { s with tbu := { s.tbu with fresh := s.tbu.fresh || fresh } }
  let s := if orphan then raise s 4 2 (leBytes 1 1 ++ leBytes j.parent 2) else s
  let s := match old with
    | some o => if o = ctx then s else advertDetach s o
    | none => s
  let (v, s) := draw s
  provsUntil s ctx (if v % 2 = 0 then sfn s else (sfn s + getF s F.MRT_LIFE_JOIN_LIFE) % 2 ^ 32)

/-- An accepted JOIN_ACCEPT, whole once its last segment has come (R206, R208, R211, R212). -/
def joinAccept (s : State) (ctx : Nat) (c : Bytes) : State :=
  match s.mrt.joiner with
  | none => s
  | some j =>
    if j.ctx ≠ ctx ∨ j.stage ≠ .awaiting then s
    else
      let (held, whole) := segJoin j.segs (u c 9 1) (c.drop 10)
      match whole with
      | none => setJoiner s (some { j with segs := held })
      | some m =>
        let s := cLinkBit (setJoiner s none) ctx 4 false
        if j.peer then acceptLateral s j ctx
        else
          let old := parentCtx s
          acceptParent (takeAccept s j ctx (c.take 10 ++ m)) j ctx old

/-- An accepted JOIN_DENY (R209). -/
def joinDenied (s : State) (port src : Nat) (c : Bytes) : State :=
  match s.mrt.joiner with
  | none => s
  | some j =>
    if j.port ≠ port ∨ j.parent ≠ src ∨ j.stage = .searching ∨ u c 10 4 ≠ nodeExt s % 2 ^ 32 then s
    else
      let cause := u c 14 1
      let life := getF s F.MRT_LIFE_JOIN_LIFE
      joinFail s j cause (if 1 ≤ cause ∧ cause ≤ 3 then some ((sfn s + life) % 2 ^ 32) else none)

/-! ### Rekeys (R376) -/

/-- A REKEY_REQ that cannot be answered before the random source is ready waits (R386). -/
def rekeyHold (s : State) (ctx : Nat) (c : Bytes) : State :=
  { s with sec := { s.sec with rekeyHeld := assocSet s.sec.rekeyHeld ctx c } }

/-- The new key of a rekeyed link at the end that answers, whose private half is `priv` and whose nonce is `n` (R376). -/
def rekeyKey (s : State) (ctx : Nat) (c priv : Bytes) (n : Nat) : Option Bytes :=
  deriveKey priv (slice c 14 32) (slice c 10 4 ++ leBytes n 4) (leBytes (cGet s ctx C.pext) 8 ++ ext8 s ++ leBytes 0 1)

/-- The end that answers takes the new key as KEY2 and sends REKEY_RESP. -/
def rekeyTake (s : State) (ctx : Nat) (body k : Bytes) : State :=
  let s := cSet (memWrite s (ctxBase ctx + 44) k) ctx C.rxfc2 0xFFFFFFFF
  joinSend (cKBit (cKBit s ctx 0 true) ctx 1 false) ctx 10 true body

/-- With its private half and its nonce the end answers, but for a shared secret of zeros. -/
def rekeyReply (s : State) (ctx : Nat) (c priv : Bytes) (n : Nat) : State :=
  match rekeyKey s ctx c priv n with
  | none => s
  | some k => rekeyTake s ctx (slice c 10 4 ++ leBytes n 4 ++ x25519Pub priv) k

/-- The responder's part: KEY2 and REKEY_RESP. DESIGN CHOICE: a REKEY_REQ whose shared secret is all zero bytes is not answered (R368, log
entry 225). -/
def rekeyAnswer (s : State) (ctx : Nat) (c : Bytes) : State :=
  let s : State := { s with sec := { s.sec with rekeys := s.sec.rekeys.filter (fun r => r.ctx != ctx) } }
  let n := randBytes s 4
  let r := freshKey n.2
  rekeyReply r.2 ctx c r.1 n.1

/-- A REKEY_REQ: content from the mesh header. The end with the higher short address abandons its own request. -/
def rekeyReqRx (s : State) (ctx : Nat) (c : Bytes) : State :=
  if s.sec.rekeys.any (fun r => r.ctx == ctx) ∧ ownAddr s < cGet s ctx C.pshort then s
  else if !trngOk s then rekeyHold s ctx c
  else rekeyAnswer s ctx c

/-- The REKEY_REQs that waited for the random source. -/
def rekeyHeldRun (s : State) : State :=
  s.sec.rekeyHeld.foldl (fun s e => if cEstablished s e.1 then rekeyReqRx s e.1 e.2 else s) { s with sec := { s.sec with rekeyHeld := [] } }

/-- A REKEY_RESP to the request in hand: KEY moves to KEY2, the new key to KEY, the counter to 0. -/
def rekeyRespRx (s : State) (ctx : Nat) (c : Bytes) : State :=
  match s.sec.rekeys.find? (fun r => r.ctx == ctx) with
  | none => s
  | some r =>
    if u c 10 4 ≠ r.nonce then s
    else
      match deriveKey r.priv (slice c 18 32) (slice c 10 4 ++ slice c 14 4) (ext8 s ++ leBytes (cGet s ctx C.pext) 8 ++ leBytes 0 1) with
      | none => s
      | some key =>
      let old := linkKey s ctx
      let rx := cGet s ctx C.rxfc
      let s := memWrite (putKey s ctx key) (ctxBase ctx + 44) old
      let s := cKBit (cKBit (cSet s ctx C.rxfc2 rx) ctx 0 true) ctx 1 true
      { s with sec := { s.sec with rekeys := s.sec.rekeys.filter (fun x => x.ctx != ctx) }
               sfm := { s.sfm with exhausted := s.sfm.exhausted.filter (fun i => i != ctx) } }

/-- A key-renewal message of a link, handled once its last segment has come (R206, R375–R377). -/
def renewalRx (s : State) (ctx type : Nat) (c : Bytes) : State :=
  match linkSeg s ctx type c with
  | (s, none) => s
  | (s, some m) =>
    match type with
    | 9 => rekeyReqRx s ctx m
    | 10 => rekeyRespRx s ctx m
    | _ => gkeyRx s ctx m

/-- A frame accepted under one of the keys moves a rekey on (R376, steps 4 and 5). -/
def rekeyFrame (s : State) (ctx : Nat) (under2 : Bool) : State :=
  let ks := cGet s ctx C.kstate
  if !bit ks 0 then s
  else
    let clear (s : State) : State :=
      let s := cKBit (cKBit (memWrite s (ctxBase ctx + 44) (List.replicate 32 0)) ctx 0 false) ctx 1 false
      inc (cSet s ctx C.rxfc2 0xFFFFFFFF) F.SEC_KEYCNT_REKEYS
    if bit ks 1 then (if under2 then s else clear s)
    else if under2 then
      let k2 := memRead s (ctxBase ctx + 44) 32
      let rx := cGet s ctx C.rxfc2
      let s := cSet (putKey s ctx k2) ctx C.rxfc rx
      clear { s with sfm := { s.sfm with exhausted := s.sfm.exhausted.filter (fun i => i != ctx) } }
    else s

end Sys2Proof.Machine
end

