-- ==== Sys2Proof/Machine/Mac.lean ====
section
/-! DEFINITION. SFM: accepting frames (R161–R169), beacons and MAC-CONTROL messages received (R164, R171–R175), and what the end
of a try does (R170, R187, R188). -/

namespace Sys2Proof.Machine

/-! ### Frames as SFM sees them -/

/-- A frame that a port passed to SFM: port, header, the access slot in which it began, MAC payload; SEC's part (`opened`), the body in clear and
whether the MIC verifies under the key in force and under KEY2; the reference instant less the receive latency, preamble metric or RSSI, line
MODE or 4, and LQI (R400). -/
structure RxFrame where
  port : Nat
  hdr : FrameHdr
  slot : Nat
  payload : Bytes
  plain : Bytes
  macOk : Bool
  key2Ok : Bool
  at_ : Nat
  quality : Int
  mode : Nat
  lqi : Nat

def RxFrame.cls (f : RxFrame) : Nat := u f.payload 0 1 % 16
def RxFrame.sec (f : RxFrame) : Bool := bit (u f.payload 0 1) 4
def RxFrame.hasMapx (f : RxFrame) : Bool := bit (u f.payload 0 1) 5
def RxFrame.fc (f : RxFrame) : Nat := u f.payload 2 4
/-- The body: in clear after CCM*, or as sent in a frame without protection or a beacon. -/
def RxFrame.body (f : RxFrame) : Bytes :=
  if !f.sec then f.payload.drop 6
  else if f.cls = 0 then (f.payload.drop 6).take (f.payload.length - 14)
  else f.plain
/-- The class content after any MAPX element. -/
def RxFrame.content (f : RxFrame) : Bytes := if f.hasMapx then f.body.drop (elemSize f.body) else f.body

/-- Where a frame began (R165, step 1). -/
inductive RxSlot where
  | none
  | assigned (ctx : Nat) (len : Nat)
  | beacon
  | random
  deriving DecidableEq, Repr

/-- The allocation, beacon slot or random-access allocation that begins at an access slot (R165, step 1). -/
def rxSlot (s : State) (n slot src cls : Nat) : RxSlot :=
  match (allocsAt s n (sfn s)).find? (fun a => !a.send && a.start == slot && cGet s a.ctx C.pshort == src) with
  | some a => .assigned a.ctx a.len
  | none =>
    if cls = 0 ∧ slot < 8 ∧ slot % gOf s n = sfn s % gOf s n then .beacon
    else if (raStarts (layout s n)).contains slot then .random
    else .none

/-- The candidate epoch of R166: none where the header's epoch is lower. -/
def epochSeen (e16 : Nat) (held : Nat) : Option Nat :=
  let d := (e16 + 65536 - held % 65536) % 65536
  if 32768 ≤ d ∨ 2 ^ 32 ≤ held + d then none else some (held + d)

/-- The epoch of a frame against a peer epoch: a beacon's full EPOCH is compared as a number, and a beacon too short to hold it has none
(R165, R166). A frame too short for its class has only the header's. -/
def frameEpoch (f : RxFrame) (held : Nat) : Option Nat :=
  if f.cls = 0 ∧ 6 ≤ f.payload.length then
    let e := u f.payload 28 4
    if f.payload.length < 32 ∨ e < held then none else some e
  else epochSeen f.hdr.epoch.toNat held

/-- The JOIN rule of R207 for a frame without protection, whose content stands behind any MAPX element (R161, R186). -/
def joinRule (s : State) (f : RxFrame) (w : RxSlot) : Bool :=
  let t := u f.content 8 1
  f.cls == 3 &&
  match w with
  | .random => t == 1 || t == 2 || t == 8
  | .assigned c _ => cProvisional s c && (t == 3 || t == 4 || t == 8)
  | _ => false

/-- A class that the slot allows (R165, step 6; R156); in random access also the ALLOC that R159 sends there (log entry 142). -/
def classAllowed (f : RxFrame) (w : RxSlot) : Bool :=
  match w with
  | .assigned _ _ => true
  | .beacon => f.cls == 0
  | .random => f.cls == 3 || (f.cls == 1 && !f.hdr.bcast && (u f.content 0 1 == 1 || u f.content 0 1 == 4)) || (f.cls == 2 && f.hdr.bcast)
  | .none => false

/-- The context of a frame: the allocation's, else the sender's on the port (R165, step 3). -/
def frameCtx (s : State) (f : RxFrame) (w : RxSlot) : Option Nat :=
  match w with
  | .assigned c _ => if ctxPoisoned s c then none else some c
  | _ => ctxOf s f.port f.hdr.src.toNat

/-! ### SEC on received frames (R370–R372) -/

/-- CCM* over a received frame under a key: its body in clear, and whether the MIC verifies. -/
def openFrame (keyClass : Nat) (key : Bytes) (f : RxFrame) : Bytes × Bool :=
  let head := f.payload.take 6
  let rest := f.payload.drop 6
  let src := f.hdr.src.toNat
  let nonce := frameNonce keyClass src head (f.cls == 0)
  let aad := frameData src f.hdr.dst.toNat f.hdr.bcast f.hdr.epoch.toNat f.hdr.length.toNat head
  if f.payload.length < 14 then ([], false)
  else if f.cls = 0 then
    let body := rest.take (rest.length - 8)
    (body, ccmMic key nonce (aad ++ body) [] == rest.drop (rest.length - 8))
  else ccmOpen key nonce aad rest

/-- A context holds a link key: a join in progress that has not derived it has none (R208, R368). -/
def keyHeld (s : State) (c : Nat) : Bool :=
  !(s.mrt.joins.any (fun j => j.ctx == c && (j.stage == .offered || j.stage == .proving)) ||
    s.mrt.joiner.any (fun j => j.ctx == c && j.stage != .awaiting))

/-- A unicast frame under KEY, and under KEY2 where the context holds one. -/
def underLink (s : State) (f : RxFrame) (c : Nat) : RxFrame :=
  let r := openFrame 0 (linkKey s c) f
  let r2 := openFrame 0 (memRead s (ctxBase c + 44) 32) f
  let ok := keyHeld s c && r.2
  let ok2 := bit (cGet s c C.kstate) 0 && r2.2
  { f with plain := if ok2 && !ok then r2.1 else r.1, macOk := ok, key2Ok := ok2 }

/-- A broadcast frame or beacon under the group key in force; a node without one verifies none. -/
def underGroup (s : State) (f : RxFrame) : RxFrame :=
  match s.sec.gkey with
  | some (_, k) => let r := openFrame 1 k f; { f with plain := r.1, macOk := r.2 }
  | none => f

/-- What SEC makes of a received frame: the key is the one that R372 selects. -/
def opened (s : State) (f : RxFrame) : RxFrame :=
  if !f.sec then f
  else if f.hdr.bcast then underGroup s f
  else
    match frameCtx s f (rxSlot s f.port f.slot f.hdr.src.toNat f.cls) with
    | some c => underLink s f c
    | none => f

/-- SEC verifies a frame that the own address sent: a broadcast under the group key, a unicast under a key of the context that DST names. -/
def ownVerifies (s : State) (f : RxFrame) : Bool :=
  if f.hdr.bcast then (underGroup s f).macOk
  else
    (ctxTouched s).any (fun c =>
      cPort s c == f.port && cGet s c C.pshort == f.hdr.dst.toNat && ((underLink s f c).macOk || (underLink s f c).key2Ok))

/-- The last counter accepted from the sender under the frame's key (R165, step 5; R372). -/
def lastFc (s : State) (f : RxFrame) (c : Nat) : Nat :=
  if f.hdr.bcast then cGet s c C.rxgfc
  else if bit (cGet s c C.kstate) 0 ∧ !f.macOk ∧ f.key2Ok then cGet s c C.rxfc2
  else cGet s c C.rxfc

/-- What acceptance decides. -/
inductive Verdict where
  | discard
  | reserved (ctx : Option Nat)
  | duplicate (ctx : Nat)
  | accepted (ctx : Option Nat)
  deriving DecidableEq, Repr

/-- The peer epoch that a frame carries, from its sender's context (R166). -/
def frameEp (s : State) (f : RxFrame) (ctx : Option Nat) : Option Nat :=
  match ctx with
  | some c => frameEpoch f (cGet s c C.pepoch)
  | none => some 0

/-- A MIC failure counts on the port and in the context (R165), and SFM rewinds what it has streamed of a packet for MRT into the port's
receive queue (R401). -/
def micFailed (s : State) (n : Nat) (f : RxFrame) (ctx : Option Nat) : State :=
  let s := inc s (F.SFM_RXERR_MICERR n)
  let s := if 2 ≤ f.cls ∧ f.cls ≤ 6 then rewindQ s (rxQueue n) (6 + f.content.length) else s
  match ctx with
  | some c => cInc s c C.micfail
  | none => s

/-- A higher epoch of the peer is adopted (R166). -/
def adoptEpoch (s : State) (ctx ep : Option Nat) : State :=
  match ctx, ep with
  | some c, some e =>
    if cGet s c C.pepoch < e then
      epochRaised (raise (inc (cSet s c C.pepoch e) F.SFM_STAT_EPOCHUP) 4 0 (leBytes c 2 ++ leBytes e 4)) c
    else s
  | _, _ => s

/-- Step 8: the class, and the duplicate check of R169. -/
def lastChecks (s : State) (f : RxFrame) (ctx : Option Nat) : State × Verdict :=
  if 7 ≤ f.cls then (inc s (F.SFM_RXERR_CLASS f.port), .reserved ctx)
  else
    match ctx with
    | some c =>
      if f.sec ∧ !f.hdr.bcast ∧ bit (cGet s c C.kstate) 4 ∧ cGet s c C.rxlsn = u f.payload 1 1 then
        (inc s (F.SFM_RXCNT_DUP f.port), .duplicate c)
      else (s, .accepted (some c))
    | none => (s, .accepted none)

/-- The MIC under the link key, or under KEY2 where the context holds one; a frame without one only under the JOIN rule (R207). -/
def micPasses (s : State) (f : RxFrame) (w : RxSlot) (ctx : Option Nat) : Bool :=
  if f.sec then
    14 ≤ f.payload.length && (f.macOk || (!f.hdr.bcast && ctx.any (fun c => bit (cGet s c C.kstate) 0) && f.key2Ok))
  else joinRule s f w

/-- Steps 1–8 of R165 with their counters; a higher epoch is adopted once step 7 passes (R166). -/
def acceptOrder (s : State) (f : RxFrame) : State × Verdict :=
  let n := f.port
  let w := rxSlot s n f.slot f.hdr.src.toNat f.cls
  let ctx := frameCtx s f w
  let ep := frameEp s f ctx
  if w = .none then (inc s (F.SFM_RXERR_SLOT n), .discard)
  else if f.hdr.bcast ∧ f.hdr.dst ≠ 0xFFFF ∧ !(f.hdr.dst == 0xFFFE && (ctx.any (cParent s))) then (s, .discard)
  else if ctx.isNone ∧ !(f.cls = 3 ∧ !f.sec ∧ w = .random) ∧ f.cls ≠ 0 then (inc s (F.SFM_RXERR_UNKNOWN n), .discard)
  else if ep.isNone then (inc s (F.SFM_RXCNT_EPOCHLOW n), .discard)
  else if f.payload.length < 6 ∨ f.fc % 4 ≠ f.hdr.fcf.toNat then (inc s (F.SFM_RXERR_FCERR n), .discard)
  else if f.sec ∧ ctx.any (fun c => lastFc s f c ≠ 0xFFFFFFFF ∧ f.fc ≤ lastFc s f c) then (inc s (F.SFM_RXERR_FCERR n), .discard)
  else if !classAllowed f w then (inc s (F.SFM_RXERR_SLOT n), .discard)
  else if !micPasses s f w ctx then (micFailed s n f ctx, .discard)
  else lastChecks (adoptEpoch s ctx ep) f ctx

/-- The RSSI of a frame passed to SFM: the last value, and the mean with weight 1/8, which the first frame begins (R231); a context that has
kept none holds 0 in both, which no measured RSSI is. -/
def keepRssi (s : State) (f : RxFrame) (c : Nat) : State :=
  if f.port = 4 then
    let r := f.quality
    let m := signed (cGet s c C.rssiMean) 16
    let none_ := cGet s c C.rssiLast == 0 && m == 0
    let mean := if none_ then r else m + quot 17 (r - m) 8
    cSet (cSet s c C.rssiLast (code r 16)) c C.rssiMean (code mean 16)
  else s

/-- Step 9: counters of an accepted frame (R165, R169, R188, R376). -/
def acceptCounters (s : State) (f : RxFrame) (c : Nat) : State :=
  let under2 := bit (cGet s c C.kstate) 0 && !f.macOk && f.key2Ok
  let s :=
    if !f.sec then s
    else if f.hdr.bcast then cSet s c C.rxgfc f.fc
    else
      let s := cSet s c (if under2 then C.rxfc2 else C.rxfc) f.fc
      rekeyFrame (cKBit (cSet s c C.rxlsn (u f.payload 1 1)) c 4 true) c under2
  let s := keepRssi (cInc (cSet s c C.lastsf (sfn s)) c C.rxframes) f c
  modLink (setDrops s c 0) c (fun l => { l with polledAt := some (sfn s) })

/-! ### Beacons (R164) -/

/-- The timing fields of a beacon (R71, R164). -/
def beaconTime (f : RxFrame) : BeaconTime :=
  let p := f.payload
  { sfn := u p 6 4, mtime := u p 10 8, zco := u p 18 3, dbo := u p 21 2, shift := signed (u p 23 3) 24,
    countdown := u p 26 1 % 8, symsCode := u p 26 1 / 8 % 8, nomf60 := bit (u p 26 1) 6, slot := u p 27 1 % 8 }

/-- A neighbour's clear fields are noted (R164, R190); `accepted` where it passed R165.  One beacon a superframe counts. -/
def noteNeighbour (s : State) (f : RxFrame) (accepted : Bool) : State :=
  let p := f.payload
  let addr := f.hdr.src.toNat
  let old := s.sfm.neighbours.find? (fun b => b.port == f.port && b.addr == addr)
  let at_ := if joined s then sfn s else u p 6 4
  let past := ((old.map (·.quality)).getD []).filter (fun q => (at_ + 2 ^ 32 - q.1) % 2 ^ 32 ≤ 2 * gOf s f.port)
  let b : Neighbour :=
    { port := f.port, addr, cost := u p 32 2, hops := u p 34 1, b := u p 27 1 % 8, upLost := bit (u p 27 1) 3,
      permit := bit (u p 27 1) 4, epoch := u p 28 4,
      quality := (at_, f.quality, accepted || past.any (fun q => q.1 == at_ && q.2.2)) :: past.filter (fun q => q.1 != at_) }
  { s with sfm := { s.sfm with neighbours := s.sfm.neighbours.filter (fun x => !(x.port == f.port && x.addr == addr)) ++ [b] } }

/-- ORPHAN event: parent found (R440). -/
def parentFound (s : State) (addr : Nat) : State := raise s 4 2 (leBytes 1 1 ++ leBytes addr 2)

/-- A sleepy child hears its parent's beacon (R175): POLL where it has reason to. -/
def pollDecide (s : State) (c : Nat) (p : Bytes) : State :=
  let n := cPort s c
  let cnt := u p 27 1 / 64
  let listed := (0 < cnt && cnt < 3 && u p 35 2 == ownAddr s) || (cnt == 2 && u p 37 2 == ownAddr s)
  let more := bit (u p 27 1) 5 || cnt == 3
  let has := !(linkPackets s n c).isEmpty || !(link s c).ctl.isEmpty
  let waits := s.sfm.access.any (fun x => x.ctx == c && x.isPoll)
  if (listed || more || has) ∧ !waits then
    raPickAll (accessAdd s n c (cGet s c C.pshort) false 1 true (leBytes 1 1 ++ leBytes (b2n has) 1 ++ leBytes s.sfm.roostNow 2))
  else s

/-- A beacon that a node in ROOST hears in a re-acquisition between its wakes wakes it, as a beacon of a wake superframe does (R175, R179,
log entry 220). -/
def reacqWake (s : State) (c : Nat) : State :=
  if s.sfm.awake then s else { s with sfm := { s.sfm with awake := true, wakeLeft := gOf s (cPort s c) } }

/-- A beacon accepted from the parent (R68–R72, R174–R179). -/
def parentBeacon (s : State) (f : RxFrame) (c : Nat) : State :=
  let p := f.payload
  let timed := (beaconTime f).nomf60 == is60 s
  let s := if timed then timeParentBeacon s c f.port (beaconTime f) f.at_ else s
  -- the instant of the beacon in mesh time as it now runs, which the beacon itself may have stepped (R68, R174)
  let heardAt := if timed then s.tbu.lastBeacon.getD f.at_ else f.at_
  let wasLost := s.sfm.parentUpLost
  let lost := bit (u p 27 1) 3
  let s : State := { setF s F.SFM_STAT_MISSES 0 with sfm := { s.sfm with
    beaconAt := some (sfn s, heardAt), parentUpLost := lost,
    -- an ORPHAN has no parent again until it resumes, rejoins or takes another (R178)
    upLost := if isOrphan s then s.sfm.upLost else if lost && !wasLost then some 8 else if lost then s.sfm.upLost else none } }
  let s := if getF s F.SFM_STAT_STATE = 3 then
      searchOver (setF { s with rfx := { s.rfx with reacq := none } } F.SFM_STAT_STATE 1)
    else s
  if mode s = .roost then pollDecide (reacqWake s c) c p else s

/-- The node has no place in the mesh yet. -/
def unjoined (s : State) : Bool := !isRoot s && getF s F.SFM_STAT_STATE == 0

/-- A beacon is heard, accepted or read in clear: TBU takes its fields, unless its nominal frequency differs and it is counted
(R60, R71); MRT notes it (R190).  Only an unjoined node takes fields from a beacon read in clear (log entry 131). -/
def beaconHeard (s : State) (f : RxFrame) (accepted : Bool) : State :=
  let b := beaconTime f
  let s :=
    if b.nomf60 != is60 s then inc s F.TBU_STAT_NOMFMISS
    else
      let s := if accepted || unjoined s then beaconFields s b else s
      if unjoined s && (parentCtx s).isNone then alignGrid s b f.at_ else s
  noteNeighbour s f accepted

/-- A beacon that passed R165. -/
def beaconRx (s : State) (f : RxFrame) (ctx : Option Nat) : State :=
  let s := beaconHeard s f true
  match ctx with
  | none => s
  | some c =>
    let s := modLink s c (fun l => { l with beaconB := some (u f.payload 27 1 % 8) })
    let s := if f.port < 4 then identifyPhase s f.port c (u f.payload 18 3) f.at_ else s
    if parentCtx s = some c ∧ !isRoot s then parentBeacon s f c else s

/-! ### MAC-CONTROL (R171, R172, R175, R159) -/

/-- DELAY_REQ at the time parent: DELAY_RESP in the next send allocation; t3 is filled in as its frame is formed (R172). -/
def delayReqRx (s : State) (c t2 : Nat) : State :=
  modLink (ctlReplace s c 3 [leBytes 3 1 ++ leBytes t2 8]) c (fun l => { l with t2 := some t2 })

/-- DELAY_RESP at the child (R69, R172). -/
def delayRespRx (s : State) (c : Nat) (b : Bytes) (t4 : Nat) : State :=
  match (link s c).t1 with
  | none => s
  | some (t1, sf) =>
    let s := modLink s c (fun l => { l with t1 := none })
    if 4 < (sfn s + 2 ^ 32 - sf) % 2 ^ 32 then delayAgain s c
    else
      match delayOf t1 (u b 1 8) (u b 9 8) t4 with
      | some d => modLink (cSet s c C.delay d) c (fun l => { l with delayMeasured := true })
      | none => s

/-- An ALLOC part at a child: its EFFECT's parts are gathered; a complete set waits for EFFECT (R159). -/
def allocRx (s : State) (c : Nat) (b : Bytes) : State :=
  let part := u b 1 1 % 16
  let last := u b 1 1 / 16
  let cnt := u b 2 1
  let effect := u b 3 4
  if parentEnd s c ∨ 7 < last ∨ last < part ∨ 8 < cnt ∨ b.length < 7 + 4 * cnt ∨ sfReached (sfn s) effect then s
  else
    let es := (List.range cnt).map (fun i => u b (7 + 4 * i) 4)
    let old := (s.sfm.allocRx.find? (fun x => x.ctx == c && x.effect == effect && x.last == last)).map (·.got)
    let got := assocSet (old.getD []) part es
    let x : AllocRx := { ctx := c, port := cPort s c, effect, last, got }
    let full := (List.range (last + 1)).all (fun k => (assocFind? got k).isSome)
    let rest (l : List AllocRx) : List AllocRx := l.filter (fun y => y.ctx != c)
    if full then { s with sfm := { s.sfm with allocRx := rest s.sfm.allocRx, allocDue := rest s.sfm.allocDue ++ [x] } }
    else { s with sfm := { s.sfm with allocRx := rest s.sfm.allocRx ++ [x] } }

/-- POLL at the parent: the child has polled, and its ROOST_PERIOD is learnt (R175). -/
def pollRx (s : State) (c : Nat) (b : Bytes) : State :=
  modLink s c (fun l => { l with polledAt := some (sfn s), roostPeriod := u b 2 2 })

/-- A MAC-CONTROL message (R171). -/
def macControl (s : State) (f : RxFrame) (c : Nat) : State :=
  let b := f.content
  match u b 0 1 with
  | 1 => pollRx s c b
  | 2 => delayReqRx s c f.at_
  | 3 => delayRespRx s c b f.at_
  | 4 => allocRx s c b
  | 5 => s
  | _ => inc s (F.SFM_RXERR_CLASS f.port)

/-- A class 2–6 packet goes to the port's receive queue in clear (R162, R400). -/
def toRxQueue (s : State) (f : RxFrame) (ctx : Option Nat) : State :=
  (commitQ s (rxQueue f.port)
    { priv := bit (u f.payload 0 1) 6, bcast := f.hdr.bcast, rx := true, payload := f.payload.take 6 ++ f.content, ts := 0,
      ctx := ctx.getD 0xFFFF, port := f.port, src := f.hdr.src.toNat, dst := f.hdr.dst.toNat, fc := f.fc,
      lsn := u f.payload 1 1, mode := f.mode, lqi := f.lqi }).1

/-- Step 9 and dispatch (R162, R165); a spare keeps counters and epochs and takes beacons, no more (R80, R180). -/
def deliverFrame (s : State) (f : RxFrame) (ctx : Option Nat) : State :=
  let s := inc s (F.SFM_RXCNT_ACCEPTED f.port)
  let s := match ctx with | some c => acceptCounters s f c | none => s
  let spare := mode s == .spare
  let s := match ctx with
    | some c => if f.hasMapx ∧ !f.hdr.bcast ∧ !spare then mapxRx s c f.body else s
    | none => s
  match f.cls, ctx with
  | 0, _ => beaconRx s f ctx
  | 1, some c => if spare then s else macControl s f c
  | 1, none => s
  | _, _ => if spare then s else toRxQueue s f ctx

/-- Tail word of an accepted unicast frame (R168). -/
def tailWord (f : RxFrame) : Nat := f.fc % 65536 ^^^ f.hdr.dst.toNat

/-- A frame that the node's own pair sent under a higher epoch (R353): SEC verified it. -/
def ownHigher (s : State) (f : RxFrame) : Option Nat :=
  if s.pmu.paired ∧ ownValid s ∧ f.hdr.src.toNat = ownAddr s ∧ f.sec ∧ ownVerifies s f then
    match frameEpoch f (ownEpoch s) with
    | some e => if ownEpoch s < e then some e else none
    | none => none
  else none

/-- The node reads beacons outside the order of R165: it searches or is ORPHAN (R164, R177). -/
def readsClear (s : State) : Bool :=
  (isOrphan s || (!isRoot s && getF s F.SFM_STAT_STATE == 0) ||
    s.mrt.joiner.any (fun j => j.stage == .searching)) && mode s != .commission

/-- A source address heard in a search (R185). -/
def noteSrc (s : State) (src : Nat) : State :=
  if readsClear s && !s.sfm.heard.contains src then { s with sfm := { s.sfm with heard := src :: s.sfm.heard } } else s

/-- SFM reads the contexts of a sender; a poisoned one is unknown, and reported (R32). -/
def ctxReads (s : State) (port addr : Nat) : State :=
  ((ctxTouched s).filter (fun i => cPort s i == port && cGet s i C.pshort == addr)).foldl
    (fun s i => readMem s (ctxBase i) 128) s

/-- A beacon that the node reads in clear (R164); one of a lower epoch than its sender's context holds is not used (R166, R214). -/
def clearBeacon (s : State) (f : RxFrame) : Bool :=
  readsClear s && f.cls == 0 && f.hdr.bcast && f.hdr.dst == 0xFFFF && f.payload.length == 48 &&
    (frameEp s f (ctxOf s f.port f.hdr.src.toNat)).isSome

/-- SFM's decision on a frame: the new state, and whether it is acked (R165). -/
def sfmFrame (s : State) (f : RxFrame) : State × Bool :=
  let (s, v) := acceptOrder (ctxReads s f.port f.hdr.src.toNat) f
  match v with
  | .discard => (if clearBeacon s f then beaconHeard s f false else s, false)
  | .reserved ctx => (match ctx with | some c => keepRssi s f c | none => s, !f.hdr.bcast)
  | .duplicate c => (keepRssi s f c, !f.hdr.bcast)
  | .accepted ctx => (deliverFrame s f ctx, !f.hdr.bcast)

/-! ### The end of a try (R170, R187, R188) -/

/-- The item that a link has taken leaves its queue. A CARRIER that is over no longer keeps its element for itself (R147). -/
def dropItem (s : State) (n ctx : Nat) : State :=
  let l := link s ctx
  if l.ctlTaken then
    modLink s ctx (fun l => { l with ctl := l.ctl.drop 1, mapxAlone := l.mapxAlone && l.ctl.head? != some carrierBody })
  else
    match (linkPackets s n ctx).head? with
    | some x => setQueue s (txQueue n) (releaseAt (queue s (txQueue n)) x.1)
    | none => s

/-- The link's packet is over: the next one may start, or the one that a CARRIER went ahead of goes on with its tries (R147). -/
def linkNext (s : State) (ctx : Nat) : State :=
  modLink s ctx (fun l => { l with tries := (l.held.map (·.1)).getD 0, ctlTaken := (l.held.map (·.2)).getD false, held := none,
                                   armed := false, st := if l.armed then .leave else .ready })

/-- An ALLOC part was acked (R159). -/
def allocAcked (s : State) (ctx : Nat) (b : Bytes) : State :=
  { s with sfm := { s.sfm with held := s.sfm.held.map (fun h =>
    if h.ctx = ctx ∧ h.effect = u b 3 4 then { h with acked := (u b 1 1 % 16) :: h.acked } else h) } }

/-- The JOIN type of an item, 0 for none. -/
def itemJoin (it : TxItem) : Nat := if it.cls = 3 ∧ !it.ctl then u it.content 8 1 else 0

/-- A unicast try ended with an ack (R170). `lmid`, `mapx` are those of the frame. -/
def ackedTry (s : State) (n ctx lmid mapx : Nat) (it : TxItem) : State :=
  let s := inc (moveQ s ctx true) (F.SFM_TXCNT_ACKED n)
  let s := setDrops s ctx 0
  let s := if it.ctl ∧ u it.content 0 1 = 4 then allocAcked s ctx it.content else s
  let s := linkNext (advanceLsn (dropItem s n ctx) ctx) ctx
  let s := if n < 4 then echoRecompute (mapFrameAcked s ctx lmid mapx) ctx else s
  if itemJoin it = 7 then joinAcked s ctx (u it.content 9 1) else s

/-- A control message that a newer one has replaced while it was on the air: an ALLOC part of another EFFECT than the one held, a DELAY_RESP to
an older request (R159, R172, R181). -/
def replaced (s : State) (ctx : Nat) (b : Bytes) : Bool :=
  (u b 0 1 == 4 && !s.sfm.held.any (fun h => h.ctx == ctx && h.effect == u b 3 4))
    || (u b 0 1 == 3 && (link s ctx).t2 != some (u b 1 8))

/-- The control message that a link has taken has been replaced. -/
def takenReplaced (s : State) (ctx : Nat) : Bool := (link s ctx).ctlTaken && (link s ctx).ctl.head?.any (replaced s ctx)

/-- A unicast try ended without an ack (R170). Nothing is sent again under an exhausted counter (R167), nor is a control message that a newer
one has replaced (R181). -/
def missedTry (s : State) (n ctx lmid : Nat) : State :=
  let s := cInc (moveQ s ctx false) ctx C.ackmiss
  let s := if n < 4 then echoRecompute (mapFrameUnacked s ctx lmid) ctx else s
  let t := (link s ctx).tries + 1
  if counterDone s ctx || takenReplaced s ctx then linkNext (advanceLsn (dropItem s n ctx) ctx) ctx
  else if s.sfm.retryMax < t then
    let s := inc s (F.SFM_TXCNT_DROPPED n)
    let s := linkEvent s ctx 0
    linkNext (advanceLsn (dropItem (setDrops s ctx (cGet s ctx C.drops + 1)) n ctx) ctx) ctx
  else
    modLink (inc s (F.SFM_TXCNT_RETRIES n)) ctx (fun l =>
      { l with tries := t, armed := false, st := if l.armed then .leave else .ready })

/-- The outcome of a link's frame (R125, R170): of a packet that was dropped while it was on the air, nothing more is counted. -/
def linkOutcome (s : State) (n ctx lmid mapx : Nat) (acked : Bool) : State :=
  if (link s ctx).st ≠ .sending then s
  else if acked then
    match takenItem s n ctx with
    | some it => ackedTry s n ctx lmid mapx it
    | none => linkNext s ctx
  else missedTry s n ctx lmid

/-- A unicast frame of random access is dropped: its LSN is used up and the link's drops rise (R169, R170, R188). -/
def accessDropped (s : State) (x : AccessTx) : State :=
  if 4096 ≤ x.ctx then s
  else
    let s := setDrops s x.ctx (cGet s x.ctx C.drops + 1)
    if x.sec then advanceLsn s x.ctx else s

/-- What an ack does for the message that the frame carried: an ALLOC part (R159), a JOIN_REQ (R209). -/
def accessTold (s : State) (x : AccessTx) : State :=
  if x.cls = 3 ∧ u x.body 8 1 = 1 then
    setJoiner s (s.mrt.joiner.map (fun j => if j.ctx = x.ctx then { j with due := some ((sfn s + 4) % 2 ^ 32) } else j))
  else if x.cls = 1 ∧ u x.body 0 1 = 4 then allocAcked s x.ctx x.body
  else s

/-- A random-access try ended (R157): broadcast frames are sent once; a failure backs off. -/
def accessDone (s : State) (k : Nat) (acked : Bool) : State :=
  match s.sfm.access[k]? with
  | none => s
  | some x =>
    let rest : State := { s with sfm := { s.sfm with access := s.sfm.access.eraseIdx k } }
    if x.bcast then rest
    else if acked then
      let s := inc rest (F.SFM_TXCNT_ACKED x.port)
      accessTold (if x.sec ∧ x.ctx < 4096 then advanceLsn s x.ctx else s) x
    else if accessDead s x || (x.cls == 1 && decide (x.ctx < 4096) && replaced s x.ctx x.body) then (if x.ctx < 4096 then advanceLsn rest x.ctx else rest)
    else if s.sfm.retryMax < x.tries + 1 then
      accessDropped (linkEvent (inc rest (F.SFM_TXCNT_DROPPED x.port)) x.ctx 0) x
    else
      let be := min (x.be + 1) (getF s F.SFM_CFG_BEMAX)
      let (v, s) := draw s
      let x' : AccessTx :=
        { x with tries := x.tries + 1, be, wait := v % 2 ^ x.be, slot := none, inFlight := false }
      let s : State := { s with sfm := { s.sfm with access := s.sfm.access.set k x' } }
      inc s (F.SFM_TXCNT_RETRIES x.port)

/-- The place of the random-access frame in flight on a port. -/
def accessFlying (s : State) (n : Nat) : Option Nat := s.sfm.access.findIdx? (fun x => x.port == n && x.inFlight)

/-- An ORPHAN's POLL to a known neighbour was acked: the node is joined again (R177); to its old parent without a change (R185). -/
def orphanResume (s : State) (ctx : Nat) : State :=
  if isOrphan s then
    let s := if parentCtx s = some ctx then resumeParent s else setParent (countChange s (parentCtx s) ctx) ctx
    parentFound { s with tbu := { s.tbu with fresh := true } } (cGet s ctx C.pshort)
  else s

/-- ECHO after a random-access frame to the peer of a line link, sent on the open map with an element of type `mapx` (R139, R142). -/
def accessEcho (s : State) (n ctx mapx : Nat) (acked : Bool) : State :=
  if n < 4 ∧ cEstablished s ctx then
    echoRecompute (if acked then mapFrameAcked s ctx 0 mapx else mapFrameUnacked s ctx 0) ctx
  else s

/-- The outcome of a random-access unicast frame in flight. -/
def accessOutcome (s : State) (n mapx : Nat) (acked : Bool) : State :=
  match accessFlying s n with
  | none => s
  | some k =>
    match s.sfm.access[k]? with
    | none => s
    | some x =>
      let s := if x.ctx < 4096 then moveQ s x.ctx acked else s
      let s := if acked ∨ 4096 ≤ x.ctx then s else cInc s x.ctx C.ackmiss
      let s := if acked ∧ x.ctx < 4096 then setDrops s x.ctx 0 else s
      let s := accessEcho (accessDone s k acked) n x.ctx mapx acked
      if acked ∧ x.isPoll ∧ x.ctx < 4096 then orphanResume s x.ctx else s

end Sys2Proof.Machine
end

