-- ==== Sys2Proof/Machine/Transmit.lean ====
section
/-! DEFINITION. Transmissions of the line ports and the radio: a frame is formed and started at its allocation, runs symbol by
symbol, and ends (R83–R94, R103–R106, R142, R155–R157, R170, R223–R230, R520). -/

namespace Sys2Proof.Machine

/-! ### Leave at the start of a frame -/

/-- The step granted for a transmission on port `n`, the answer used up; step 8 where no leave was asked for; none while its request
waits, which stays pending (R52, R53, R170). -/
def takeGrant (s : State) (n : Nat) (f : LeaveFor) : State × Option Nat :=
  if awaits s n f then (s, none)
  else
    match answer s n f with
    | (.none, _) => (s, some 8)
    | (.failed, _) => (useAnswer s n f, none)
    | (_, step) => (useAnswer s n f, some step)

/-- A link's packet goes back to READY for the next allocation; leave granted for it is released (R170). -/
def backToReady (s : State) (n ctx : Nat) : State :=
  dropLeave (modLink s ctx (fun l => { l with st := .ready, armed := false })) n (.link ctx)

/-- A refusal defers the packet to the link's next allocation: under WAIT its request stays pending, and a grant that comes later serves
that one (R52, R53, R229). -/
def deferLink (s : State) (ctx : Nat) : State := modLink s ctx (fun l => { l with st := .ready, armed := false })

/-! ### Line ports -/

/-- The end of position `j` of an allocation that begins at access slot `a`, in ticks. -/
def positionEnd (s : State) (a j : Nat) : Nat := ticks16 (positionStart s a j) + 147456

/-- A transmission starts driving the line: driver or XDRV_EN, gain and level (R84–R86, R91, R94). -/
def startDrive (s : State) (n vld : Nat) (t : LineTx) : State :=
  let mask := portMask s n
  let (e, s) := releaseTime s (positionEnd s t.slot (t.first + t.size - 1))
  let s := modLine s n (fun l => { l with tx := some t, acq := none, mask, preset := getF s (F.LPHY_BAND_PRESET n), limitNow := false,
                                          capDue := false, cut := false, stop := false, vfs := vfsOf s n vld,
                                          drvFrom := ticks16 (positionStart s t.slot t.first), drvTo := e })
  noteVld (driveOn s n t.level0) vld

/-- A line frame starts. -/
def startLine (s : State) (n vld : Nat) (t : LineTx) : State := inc (startDrive s n vld t) (F.LPHY_TXCNT_TXFRAMES n)

/-! ### Symbols -/

/-- The current limit engages in the symbol being sent, which sets its cells stale, or at a sweep point, which is then taken again
(R89, R134, R148). -/
def limitHit (s : State) (n : Nat) : State :=
  match (line s n).tx with
  | none => if (line s n).sweepOn && hasSense s n then modLine s n (fun l => { l with limitNow := true }) else s
  | some t =>
    if t.sent || !hasSense s n || t.limited.contains t.sym then s
    else
      let mask := (line s n).mask
      let s := modLine s n (fun l => { l with limitNow := true, tx := some { t with limited := t.sym :: t.limited } })
      markLimited s n (sendingLanes s mask t t.sym) (positionSlot s t.slot (t.first + t.sym))

/-- The level of the next symbol (R89, R90): the lower of fold and cap. -/
def nextLevel (s : State) (n lvl : Nat) : Nat :=
  let l1 := if (line s n).limitNow then lvl - getF s (F.LPA_CTL_FOLDSTEP n) else lvl
  let l2 := if (line s n).capDue then min lvl (getF s F.LPA_THERM_THERM_CAP) else lvl
  min l1 l2

/-- The frame or tail ends: outputs in high impedance, a frame's leave released, the limit reported (R85, R89). -/
def endLine (s : State) (n : Nat) (t : LineTx) : State :=
  let s := modLine s n (fun l => { l with limitNow := false, capDue := false, cut := false })
  let s := driveOff s n
  let s := dropLeave s n t.leave
  if t.limited.isEmpty then s else lineEvent (inc (setFlag s (F.LPA_STAT_LIMIT n)) (F.LPA_CNT_LIMITS n)) n 0

/-- A line try without an ack: counters, and SFM's outcome (R125, R170). -/
def lineMissed (s : State) (n : Nat) (t : LineTx) : State :=
  let s := inc (modLine s n (fun l => { l with tx := none })) (F.LPHY_TXCNT_ACKMISS n)
  if t.kind = .access then accessOutcome s n t.mapx false else linkOutcome s n t.ctx t.hdr.lmid.toNat t.mapx false

/-- A transmission of no link ends: it is over once its last symbol is. -/
def lineOver (s : State) (n : Nat) (t : LineTx) : State :=
  let s := modLine s n (fun l => { l with tx := none })
  if t.kind = .access then (match accessFlying s n with | some k => accessDone s k true | none => s) else s

/-- A transmission ends after the symbol in flight, which returns the outputs to high impedance; what its symbols gave ECHO stands (R83,
R85, R129). -/
def endEarly (s : State) (n : Nat) (t : LineTx) (own : List TxWin) : State :=
  let s := endLine (measureTx s n t (t.sym + 1) own) n t
  let (e, s) := releaseTime s (positionEnd s t.slot (t.first + t.sym))
  modLine s n (fun l => { l with drvTo := min l.drvTo e })

/-- A transmission that a demotion stopped ends after the symbol in flight, and is no try (R353). -/
def stopLine (s : State) (n : Nat) (t : LineTx) (own : List TxWin) : State :=
  takeBack (modLine (endEarly s n t own) n (fun l => { l with tx := none, stop := false })) n t.leave

/-- A transmission during which a VLD fault arose ends after the symbol in flight (R83). -/
def abortLine (s : State) (n : Nat) (t : LineTx) (own : List TxWin) : State :=
  let s := endEarly s n t own
  let s := lineEvent (inc (setFlag s (F.LPA_STAT_VLD n)) (F.LPA_CNT_ABORTS n)) n 1
  if t.kind = .ack ∨ t.hdr.bcast then lineOver s n t else lineMissed s n t

/-- The last symbol of a transmission has ended (R85, R89, R129). -/
def lineFinish (s : State) (n : Nat) (t : LineTx) (own : List TxWin) : State :=
  if (line s n).stop then stopLine s n t own
  else
  let s := endLine (measureTx s n t t.size own) n t
  if t.kind = .ack ∨ t.hdr.bcast then lineOver s n t
  else modLine s n (fun l => { l with tx := some { t with sent := true } })

/-- The next symbol begins at the level that fold and cap leave it (R87, R89, R90).  DESIGN CHOICE: a limited symbol at step 0, or with
FOLDSTEP 0, lowers nothing and leaves the driver ACTIVE, which R84 calls FOLDED at a lowered level alone (log entry 213). -/
def nextSymbol (s : State) (n : Nat) (t : LineTx) : State :=
  let lvl := getF s (F.LPA_STAT_LEVEL_NOW n)
  let next := nextLevel s n lvl
  let s := if next < lvl then
      let s := setF s (F.LPA_STAT_LEVEL_NOW n) next
      if flag s (F.LPA_CTL_XMODE n) then s else setF s (F.LPA_STAT_DRV n) 3
    else s
  modLine s n (fun l => { l with limitNow := false, capDue := false, tx := some { t with sym := t.sym + 1 } })

/-- A symbol of the transmission in flight ends (R83, R87–R90, R118).  The last symbol of a frame ends with FRAME_TX_END, that of an
ack tail here.  DESIGN CHOICE: a VLD fault that arises in the last symbol abandons nothing, since the frame or tail has then been
sent in full; R83 does not say. -/
def symbolSent (s : State) (n : Nat) (t : LineTx) (own : List TxWin) : State :=
  let s := advanceTo s (positionEnd s t.slot (t.first + t.sym))
  if t.sym + 1 < t.size then
    let s := countClip s n t t.sym
    if (line s n).stop then stopLine s n t own
    else if (line s n).cut then abortLine s n t own
    else nextSymbol s n t
  else if t.kind = .ack then lineFinish (countClip s n t t.sym) n t own
  else s

/-- An ack tail whose two symbols have passed is over, whether or not a command marked its end (R85). -/
def tailOver (s : State) (n : Nat) : State :=
  match (line s n).tx with
  | some t => if t.kind = .ack && decide (positionEnd s t.slot (t.first + t.size - 1) ≤ now s) then lineFinish s n t [] else s
  | none => s

/-- Ack tails that have passed are over on every port. -/
def tailsOver (s : State) : State := (List.range (nLine s)).foldl tailOver s

/-- The gain that AGC chooses between frames from a symbol's peak, in steps of −0.5 dBFS, and CLIP (R93). -/
def agcStep (g peak : Nat) (clip : Bool) : Nat :=
  if clip then g - 2 else if peak < 18 then g - 1 else if 36 < peak then min 16 (g + 1) else g

/-- The receive gain at a symbol boundary: held at code 0 while the driver is enabled; the gain that stood before returns at the first
boundary after it; else frozen, chosen by AGC or fixed (R93, R94).  DESIGN CHOICE: a write of AGC or GAIN takes effect here, at the
port's next symbol boundary (log entry 215). -/
def gainStep (s : State) (n peak : Nat) (clip : Bool) : State :=
  let l := line s n
  let g := getF s (F.LPA_STAT_GAIN_NOW n)
  match l.agc with
  | some g0 =>
    if now s < l.drvTo ∨ l.sweepOn then s
    else
      let g' := if flag s (F.LPA_RX_AGC n) then g0 else getF s (F.LPA_RX_GAIN n)
      modLine (setF s (F.LPA_STAT_GAIN_NOW n) g') n (fun l => { l with agc := none })
  | none =>
    setF s (F.LPA_STAT_GAIN_NOW n)
      (if !flag s (F.LPA_RX_AGC n) then getF s (F.LPA_RX_GAIN n) else if now s < l.frozenTo then g else agcStep g peak clip)

/-- A symbol position ends while the port does not send: CLIPS, the noise of a silent position, the gain (R92–R94, R129). -/
def symbolHeard (s : State) (n peak : Nat) (x : List RxSample) : State :=
  let s := if windowClips x then inc s (F.LPA_CNT_CLIPS n) else s
  gainStep (silentNoise s n x) n peak (windowClips x)

/-- FRAME_TX_END (R85, R89, R50). -/
def lineEnd (s : State) (n : Nat) (own : List TxWin) : State :=
  match (line s n).tx with
  | none => s
  | some t =>
    if t.sent then s
    else
      let s := advanceTo s (positionEnd s t.slot (t.first + t.size - 1))
      lineFinish (countClip s n t (t.size - 1)) n t own

/-! ### Frames of links -/

/-- A frame formed for a link, or none where it does not fit its allocation (R104). -/
structure Formed where
  hdr : FrameHdr
  payload : Bytes
  map : Bytes
  size : Nat
  mapx : Nat
  mode : Nat

/-- Mode and map of a link's frame (R105, R117, R146): LMID, map and mode. -/
def frameMap (s : State) (n ctx level : Nat) : Nat × Bytes × Nat :=
  let mask := portMask s n
  let prov := cProvisional s ctx
  let lmid := if prov then 0 else curLmid s ctx
  let req := if prov then 1 else if isMapless s ctx then 3 else 0
  let der := if lmid = 0 then 0 else
    deriveMode (getF s (F.LPHY_MODESEL_THR_P n)) (getF s (F.LPHY_MODESEL_THR_N n)) (getF s (F.LPHY_MODESEL_THR_4 n))
      (link s ctx).lastMode (margin16 s ctx level)
  (lmid, if lmid = 0 then openMap mask else curMap s ctx, sendMode s n der req)

/-- Form the frame of an item with or without a MAPX element, for an allocation (R103, R104, R142). -/
def formLine (s : State) (n slot avail ctx level : Nat) (it : TxItem) (elem content : Bytes) : Option Formed :=
  let m := frameMap s n ctx level
  let mask := portMask s n
  let fc := cGet s ctx C.txfc + 1
  let p := unicastPayload s n ctx fc it elem content
  if 1280 < p.length then none
  else
    (frameSize s m.2.1 mask slot avail m.2.2 p.length).map (fun f =>
      { hdr := mkHdr s (srcFor s ctx) (cGet s ctx C.pshort) false p.length m.2.2 m.1 (if it.sec then fc else 0), payload := p,
        map := m.2.1, size := f, mapx := u elem 0 1, mode := m.2.2 })

/-- The frame fits some send allocation of the link (R170). -/
def fitsSome (s : State) (n ctx level : Nat) (it : TxItem) (content : Bytes) : Bool :=
  ((wordsInForce s n).any (fun w => eCtx w == ctx && !eRecv w &&
    (formLine s n (eStart w) (allocPositions s (eLen w) - 2) ctx level it [] content).isSome))
  || (provAllocs s n (sfn s)).any (fun a => a.ctx == ctx && a.send &&
    (formLine s n a.start (allocSize s a - 2) ctx level it [] content).isSome)

/-- A CARRIER that goes alone becomes the head of the link's control messages; a packet in its tries waits behind it (R147). -/
def placeCarrier (s : State) (ctx : Nat) (it : TxItem) : State :=
  if it.ctl ∧ it.content = carrierBody ∧ (link s ctx).ctl.head? ≠ some carrierBody then
    modLink s ctx (fun l => { l with ctl := carrierBody :: l.ctl, held := if l.tries = 0 then none else some (l.tries, l.ctlTaken), tries := 0 })
  else s

/-- What a started unicast frame changes at its link (R138, R167, R170, R172, R376). -/
def countTry (s : State) (ctx slot : Nat) (it : TxItem) (mode : Nat) : State :=
  let s := if it.sec then cSet s ctx C.txfc (cGet s ctx C.txfc + 1) else s
  let s := cInc s ctx C.txframes
  let s := modLink s ctx (fun l => { l with st := .sending, armed := false, ctlTaken := it.ctl, lastMode := mode,
                                            leadTaken := if it.ctl then l.leadTaken else it.leads,
                                            t1 := if it.ctl ∧ u it.content 0 1 = 2 then some (ticks16 (slotStart s slot), sfn s) else l.t1 })
  rekeyAuto (checkCounter s ctx) ctx

/-- A packet that fits no allocation of its link is dropped, with its LINK event (R170). -/
def tooBig (s : State) (n ctx : Nat) (it : TxItem) : State :=
  let s := modLink s ctx (fun l => { l with ctlTaken := it.ctl })
  linkNext (advanceLsn (dropItem (linkEvent (inc s (F.SFM_TXCNT_TOOBIG n)) ctx 1) n ctx) ctx) ctx

/-- A link's frame at its send allocation on a line port, with the step granted (R104, R142, R147, R170). -/
def sendLine (s : State) (n vld : Nat) (a : Alloc) (it : TxItem) (granted : Nat) : State :=
  let c := a.ctx
  let level := startLevel s n (getF s (F.LPA_LEVEL_DATA_LEVEL n)) granted
  let content := fillDelay s a it.content
  let l := link s c
  let carrier := it.ctl && it.content == carrierBody
  let elem := if cProvisional s c || (l.mapxAlone && !carrier) then [] else pendingElem l
  let avail := allocSize s a - 2
  let bad := !cProvisional s c && (recPoisoned s c || mapPoisoned s (rGet s c R.curix))
  let s := if cProvisional s c then s else readLink s c
  let full := if bad then none else formLine s n a.start avail c level it elem content
  let bare := if bad || elem.isEmpty || carrier then none else formLine s n a.start avail c level it [] content
  let go (s : State) (f : Formed) : State :=
    let s := placeCarrier s c it
    let s := countTry (countLevel s c level) c a.start it f.mode
    startLine s n vld { kind := .data, ctx := c, hdr := f.hdr, payload := f.payload, map := f.map, size := f.size,
                        alloc := allocSize s a, slot := a.start, first := 0, sym := 0, level0 := level, limited := [], mapx := f.mapx, sent := false,
                        leave := .link c }
  match full, bare with
  | some f, _ => go s f
  | none, some f => go (modLink s c (fun l => { l with mapxAlone := true })) f
  | none, none =>
    let s := inc (backToReady s n c) (F.LPHY_TXCNT_NOFIT n)
    if !bad ∧ !carrier ∧ !fitsSome s n c level it content then tooBig s n c it else s

/-- Payload of a test frame of `len` bytes with counter `fc` (R520). -/
def testPayload (len fc : Nat) : Bytes := (leBytes 1 1 ++ leBytes 0 1 ++ leBytes fc 4 ++ pn9Bytes (len - 6)).take len

/-- The next test counter of a port. -/
def takeTestFc (s : State) (n : Nat) : Nat × State :=
  let fc := nth 0 s.sfm.testFc n
  (fc, { s with sfm := { s.sfm with testFc := s.sfm.testFc.set n ((fc + 1) % 2 ^ 32) } })

/-- A transmission can begin on the port: enabled, VLD good, nothing in flight, the driver powered (R83, R84, R96). -/
def mayBegin (s : State) (n : Nat) : Bool := portOn s n && !vldFault s && (line s n).tx.isNone && powered s n

/-- A COMMISSION test frame on a line port (R520): the largest LENGTH that fits. -/
def testLine (s : State) (n slot vld : Nat) : State :=
  match (testAllocs s n).find? (fun a => a.start == slot) with
  | none => s
  | some a =>
    let (s, g) := takeGrant s n (.test slot)
    match g with
    | none => s
    | some granted =>
      if !mayBegin s n || !slotUsable s (a.start + a.len - 1) then dropLeave s n (.test slot)
      else
        let lp := lanesOf (portMask s n)
        let mode := sendMode s n 0 1
        match ((List.range 1281).reverse).find? (fun k => openSize lp mode k ≤ allocSize s a) with
        | none => inc (dropLeave s n (.test slot)) (F.LPHY_TXCNT_NOFIT n)
        | some len =>
          let (fc, s) := takeTestFc s n
          let level := startLevel s n (getF s (F.LPA_LEVEL_DATA_LEVEL n)) granted
          startLine s n vld { kind := .test, ctx := 0xFFFF, hdr := mkHdr s (ownAddr s) 0xFFFF true len mode 0 fc,
                              payload := testPayload len fc, map := openMap (portMask s n), size := openSize lp mode len, alloc := allocSize s a,
                              slot, first := 0, sym := 0, level0 := level, limited := [], mapx := 0, sent := false,
                              leave := .test slot }

/-- FRAME_TX_START on a line port: the send allocation at access slot `slot` begins (R170). -/
def frameStart (s : State) (n slot vld : Nat) : State :=
  let s := tailOver (advanceTo s (ticks16 (slotStart s slot))) n
  if mode s = .commission then testLine s n slot vld
  else
    match (allocsAt s n (sfn s)).find? (fun a => a.send && a.start == slot) with
    | none => s
    | some a =>
      let c := a.ctx
      if (link s c).st ≠ .leave then s
      else
        let s := readNext (readMem s (ctxBase c) 128) n c
        let (s, g) := takeGrant s n (.link c)
        if counterDone s c then backToReady (dropLink s n c) n c
        else if !mayBegin s n || !linkMaySend s c || !allocWhole s a then backToReady s n c
        else
          match g, linkItem s n c with
          | none, _ => deferLink s c
          | some _, none => backToReady s n c
          | some granted, some it => if itemMaySend s it then sendLine s n vld a it granted else backToReady s n c

/-! ### Beacons and random access on line ports -/

/-- BEACON_TX on a line port (R154, R155, R164). -/
def beaconLine (s : State) (n vld : Nat) : State :=
  let b := bslot s n
  if !beaconDue s n (sfn s) then s
  else
    let s := tailOver (advanceTo s (ticks16 (slotStart s b))) n
    let (s, g) := takeGrant s n .beacon
    if !mayBegin s n || !slotUsable s (b + (layout s n).wb - 1) || groupDone s then dropLeave s n .beacon
    else
      let s := takeGroupFc s
      let p := beaconPayload s n
      let mask := portMask s n
      let level := startLevel s n (getF s (F.LPA_LEVEL_BEACON_LEVEL n)) (g.getD 8)
      startLine s n vld { kind := .beacon, ctx := 0xFFFF, hdr := mkHdr s (ownAddr s) 0xFFFF true 48 3 0 s.sfm.groupFc, payload := p,
                          map := openMap mask, size := openSize (lanesOf mask) 3 48, alloc := (layout s n).wb * syms s, slot := b, first := 0, sym := 0,
                          level0 := level, limited := [], mapx := 0, sent := false, leave := .beacon }

/-- The random-access frame whose picked allocation comes first on a port, of those whose allocation does not lie in a phase slot that has
passed: a frame that missed its allocation picks again in the next superframe (R157). -/
def accessNext (s : State) (n : Nat) : Option (Nat × AccessTx × Nat) :=
  let l := (s.sfm.access.mapIdx (fun k x => (k, x))).filterMap (fun e =>
    match e.2.slot with
    | some a => if e.2.port = n ∧ !e.2.inFlight ∧ 0 ≤ slotsAhead s (slotStart s a) then some (e.1, e.2, a) else none
    | none => none)
  l.foldl (fun best e => match best with | some b => if e.2.2 < b.2.2 then some e else best | none => some e) none

/-- The pending element that a unicast random-access frame carries to the peer of an established line link, where its LENGTH stays within
32 (R142, R156). -/
def accessElem (s : State) (x : AccessTx) : Bytes :=
  let e := pendingElem (link s x.ctx)
  if x.port < 4 && x.sec && !x.bcast && cEstablished s x.ctx && decide (14 + e.length + x.body.length ≤ 32) then e else []

/-- The MAC payload of a random-access frame with its element, its counter taken: unicast under the context key, broadcast under the group
key, JOIN unprotected (R161). -/
def accessPayload (s : State) (x : AccessTx) (elem : Bytes) : Bytes × Nat × State :=
  let pend := !x.bcast && decide (x.ctx < 4096) && morePending s x.port x.ctx false
  if !x.sec then (macHead x.cls false false false pend 0 0 ++ x.body, 0, s)
  else if x.bcast then
    let s := takeGroupFc s
    let fc := s.sfm.groupFc
    (sealBody 1 (groupKey s) (ownAddr s) x.dst true (ownEpoch s % 65536) (macHead x.cls true false false false 0 fc) x.body false, fc, s)
  else
    let fc := cGet s x.ctx C.txfc + 1
    let s := checkCounter (cSet s x.ctx C.txfc fc) x.ctx
    (sealBody 0 (linkKey s x.ctx) (ownAddr s) x.dst false (ownEpoch s % 65536)
      (macHead x.cls true (!elem.isEmpty) false pend (cGet s x.ctx C.txlsn) fc) (elem ++ x.body) false, fc, s)

/-- The frame's context can be read (R32). -/
def accessReadable (s : State) (x : AccessTx) : Bool := 4096 ≤ x.ctx || !ctxPoisoned s x.ctx

def setAccess (s : State) (k : Nat) (x : AccessTx) : State := { s with sfm := { s.sfm with access := s.sfm.access.set k x } }
def dropAccess (s : State) (k : Nat) : State := { s with sfm := { s.sfm with access := s.sfm.access.eraseIdx k } }

/-- The source of a random-access frame: TEMP for an unjoined joiner. -/
def accessSrc (s : State) (x : AccessTx) : Nat := if x.ctx < 4096 then srcFor s x.ctx else ownAddr s

/-- RANDOM_ACCESS_TX on a line port (R156, R157). -/
def accessLine (s : State) (n vld : Nat) : State :=
  match accessNext s n with
  | none => s
  | some (k, x, a) =>
    let s := tailOver (advanceTo s (ticks16 (slotStart s a))) n
    let (s, g) := takeGrant s n (.access x.id)
    let us := (layout s n).uspan
    let later (s : State) : State := dropLeave (setAccess s k { x with slot := none }) n (.access x.id)
    if accessDead s x then dropLeave (dropAccess s k) n (.access x.id)
    -- a WAIT refusal defers the frame, whose request stays pending (R52, R53)
    else if g.isNone then setAccess s k { x with slot := none }
    else if !raMaySend s || !accessReadable s x || !mayBegin s n || !slotUsable s (a + us - 1) then later s
    else
      let mask := portMask s n
      let lp := lanesOf mask
      let mode := sendMode s n 0 1
      let elem := accessElem s x
      let len := 6 + elem.length + x.body.length + (if x.sec then 8 else 0)
      let size := openSize lp mode len
      if us * syms s < size + (if x.bcast then 0 else 2) then inc (later s) (F.LPHY_TXCNT_NOFIT n)
      else
        let (p, fc, s) := accessPayload (setAccess s k { x with inFlight := true }) x elem
        let level := startLevel s n (getF s (F.LPA_LEVEL_DATA_LEVEL n)) (g.getD 8)
        let s := if x.ctx < 4096 ∧ !x.bcast then
            modLink (cInc (countLevel s x.ctx level) x.ctx C.txframes) x.ctx (fun l => { l with lastMode := mode })
          else s
        startLine s n vld
          { kind := .access, ctx := x.ctx, hdr := mkHdr s (accessSrc s x) x.dst x.bcast len mode 0 fc, payload := p, map := openMap mask,
            size, alloc := us * syms s, slot := a, first := 0, sym := 0, level0 := level, limited := [], mapx := u elem 0 1,
            sent := false, leave := .access x.id }

/-! ### Ack tails -/

/-- The ack is judged (R125): cells that matched against those not erased. -/
def ackHeard (s : State) (n hits total : Nat) : Bool :=
  0 < total && getF s (F.LPHY_RXCTL_ACK_FRAC n) * total ≤ 16 * min hits total

/-- The tail word of a unicast frame, from its own counter (R168). -/
def sentWord (t : LineTx) : Nat := u t.payload 2 4 % 65536 ^^^ t.hdr.dst.toNat

/-- ACK_TAIL_RX (R125, R170): the port judges its two ack-tail positions. -/
def lineAck (s : State) (n : Nat) (ws : List (List RxSample)) : State :=
  match (line s n).tx with
  | none => s
  | some t =>
    if !t.sent then s
    else
      let s := advanceTo s (positionEnd s t.slot (t.alloc - 1))
      let mask := (line s n).mask
      let r := tailScore s mask (sentWord t) t.slot (t.alloc - 2) ws
      let s := tailErased s n mask t.slot (t.alloc - 2) ws
      if ackHeard s n r.1 r.2 then
        let s := modLine s n (fun l => { l with tx := none })
        if t.kind = .access then accessOutcome s n t.mapx true else linkOutcome s n t.ctx t.hdr.lmid.toNat t.mapx true
      else lineMissed s n t

/-- ACK_TAIL_TX (R53, R84, R87, R124, R168): the tail begins at position A − 2, without leave.  DEDUCED: a chip that has stopped sending
frames and beacons still sends its tails, which R353 does not name. -/
def lineTail (s : State) (n vld : Nat) : State :=
  match (line s n).ack with
  | none => s
  | some (w, a, len) =>
    let p := allocPositions s len - 2
    let s := advanceTo s (ticks16 (positionStart s a p))
    let s := modLine s n (fun l => { l with ack := none })
    if !mayBegin s n || !sendsTails s then s
    else
      let level := startLevel s n (getF s (F.LPA_LEVEL_ACK_LEVEL n)) 8
      startDrive s n vld { kind := .ack, ctx := 0xFFFF, hdr := mkHdr s (ownAddr s) 0xFFFF false 0 0 0 0, payload := leBytes w 2, map := [],
                           size := 2, alloc := allocPositions s len, slot := a, first := p, sym := 0, level0 := level, limited := [],
                           mapx := 0, sent := false, leave := .unit }

/-! ### The radio (R222–R230) -/

/-- What a frame to be sent on the radio is: sender and destination, MAC payload, FC, its allocation, and who sends it. -/
structure RadioOut where
  ctx : Nat
  src : Nat
  dst : Nat
  bcast : Bool
  payload : Bytes
  fc : Nat
  slot : Nat
  len : Nat
  beacon : Bool
  access : Bool
  leave : LeaveFor

/-- The frame formed, its first bit at the start of its allocation (R220, R222). -/
def formRadio (s : State) (o : RadioOut) : RadioTx :=
  { ctx := o.ctx, psdu := radioPsdu (radioHeader o.src o.dst o.bcast false o.fc (ownEpoch s)) o.payload, bcast := o.bcast, src := o.src,
    dst := o.dst, fc := o.fc, from_ := radioFrom s o.slot, slot := o.slot, len := o.len, beacon := o.beacon, access := o.access,
    sent := false, leave := o.leave }

/-- A radio frame starts: power, PA_EN, air time (R228, R230). -/
def startRadio (s : State) (o : RadioOut) (leave : Bool) : State :=
  let pw := if leave then getF s F.RFX_PWR_TXPWR else getF s F.RFX_PWR_ACK_PWR
  let t := formRadio s o
  let s := dutyAdd s (airTime s.rfx.cfg t.psdu.length)
  inc { s with rfx := { s.rfx with tx := some t, paEn := leave, power := pw } } F.RFX_TXCNT_TXFRAMES

/-- The leave of a radio frame: granted, or not; a request that still waits stays pending (R52, R229). -/
def radioGrant (s : State) (f : LeaveFor) : State × Bool :=
  if awaits s 4 f then (s, false)
  else
    let a := (answer s 4 f).1
    -- without a request nothing was granted, unless the cost is zero (R47)
    (useAnswer s 4 f, a != .failed && (holdsFor s 4 f || getF s F.PMU_LEAVE_COST0_RFX == 0))

/-- A link's frame on the radio fits its allocation, or some allocation of the link (R170, R223). -/
def radioFitsSome (s : State) (ctx psdu : Nat) : Bool :=
  (wordsInForce s 4).any (fun w => eCtx w == ctx && !eRecv w && airUnicastFits s psdu (eLen w))
  || (provAllocs s 4 (sfn s)).any (fun a => a.ctx == ctx && a.send && airUnicastFits s psdu a.len)

/-- A link's frame at its radio allocation. -/
def sendRadio (s : State) (a : Alloc) (it : TxItem) : State :=
  let c := a.ctx
  let content := fillDelay s a it.content
  let fc := cGet s c C.txfc + 1
  let p := unicastPayload s 4 c fc it [] content
  let psdu := p.length + 11
  if !airUnicastFits s psdu a.len then
    let s := backToReady s 4 c
    if radioFitsSome s c psdu then s else tooBig s 4 c it
  else if dutyOver s (airTime s.rfx.cfg psdu) then inc (backToReady s 4 c) F.RFX_TXCNT_DUTYDEFER
  else
    let s := countTry s c a.start it 3
    startRadio s { ctx := c, src := srcFor s c, dst := cGet s c C.pshort, bcast := false, payload := p, fc := if it.sec then fc else 0,
                   slot := a.start, len := a.len, beacon := false, access := false, leave := .link c } true

/-- The longest test content that an allocation of `len` access slots holds (R520). -/
def testLength (s : State) (len : Nat) : Option Nat := ((List.range 1281).reverse).find? (fun k => airBroadcastFits s (k + 11) len)

/-- A test frame of the longest content that fits, or none (R230, R520). -/
def testRadioSend (s : State) (slot alen : Nat) : Option Nat → State
  | none => dropLeave s 4 (.test slot)
  | some len =>
    if dutyOver s (airTime s.rfx.cfg (len + 11)) then inc (dropLeave s 4 (.test slot)) F.RFX_TXCNT_DUTYDEFER
    else
      let (fc, s) := takeTestFc s 4
      startRadio s { ctx := 0xFFFF, src := ownAddr s, dst := 0xFFFF, bcast := true, payload := testPayload len fc, fc, slot, len := alen,
                     beacon := false, access := false, leave := .test slot } true

/-- A COMMISSION test frame on the radio (R520). -/
def testRadio (s : State) (slot : Nat) : State :=
  match (testAllocs s 4).find? (fun a => a.start == slot) with
  | none => s
  | some a =>
    let (s, g) := radioGrant s (.test slot)
    if !g then s
    else if s.rfx.tx.isSome || !slotUsable s (a.start + a.len - 1) then dropLeave s 4 (.test slot)
    else testRadioSend s slot a.len (testLength s a.len)

/-- RADIO_FRAME_TX_START: the send allocation at access slot `slot` begins (R170, R223, R229, R230). -/
def radioStart (s : State) (slot : Nat) : State :=
  let s := advanceTo s (paRise s slot)
  if !hasRadio s then s
  else if mode s = .commission then testRadio s slot
  else
    match (allocsAt s 4 (sfn s)).find? (fun a => a.send && a.start == slot) with
    | none => s
    | some a =>
      let c := a.ctx
      if (link s c).st ≠ .leave then s
      else
        let s := readNext (readMem s (ctxBase c) 128) 4 c
        let (s, g) := radioGrant s (.link c)
        if counterDone s c then backToReady (dropLink s 4 c) 4 c
        else if !radioMaySend s || s.rfx.tx.isSome || !linkMaySend s c || !allocWhole s a then backToReady s 4 c
        else if !g then deferLink s c
        else
          match linkItem s 4 c with
          | none => backToReady s 4 c
          | some it => if itemMaySend s it then sendRadio s a it else backToReady s 4 c

/-- BEACON_TX on the radio (R229): without leave at ACK_PWR with PA_EN low. -/
def beaconRadio (s : State) : State :=
  let b := bslot s 4
  if !beaconDue s 4 (sfn s) || !radioMaySend s then s
  else
    let s := advanceTo s (paRise s b)
    let (s, g) := radioGrant s .beacon
    if s.rfx.tx.isSome || !slotUsable s (b + (layout s 4).wb - 1) || groupDone s then dropLeave s 4 .beacon
    else
      let s := takeGroupFc s
      startRadio s { ctx := 0xFFFF, src := ownAddr s, dst := 0xFFFF, bcast := true, payload := beaconPayload s 4, fc := s.sfm.groupFc,
                     slot := b, len := (layout s 4).wb, beacon := true, access := false, leave := .beacon } g

/-- RANDOM_ACCESS_TX on the radio. -/
def accessRadio (s : State) : State :=
  match accessNext s 4 with
  | none => s
  | some (k, x, a) =>
    let s := advanceTo s (paRise s a)
    let (s, g) := radioGrant s (.access x.id)
    let us := (layout s 4).uspan
    let psdu := 17 + x.body.length + (if x.sec then 8 else 0)
    let later (s : State) : State := dropLeave (setAccess s k { x with slot := none }) 4 (.access x.id)
    if accessDead s x then dropLeave (dropAccess s k) 4 (.access x.id)
    -- a WAIT refusal defers the frame, whose request stays pending (R52, R229)
    else if !g then setAccess s k { x with slot := none }
    else if !raMaySend s || !accessReadable s x || !radioMaySend s || s.rfx.tx.isSome || !slotUsable s (a + us - 1) then later s
    else if dutyOver s (airTime s.rfx.cfg psdu) then inc (later s) F.RFX_TXCNT_DUTYDEFER
    else
      let (p, fc, s) := accessPayload (setAccess s k { x with inFlight := true }) x []
      let s := if x.ctx < 4096 ∧ !x.bcast then cInc s x.ctx C.txframes else s
      startRadio s { ctx := x.ctx, src := accessSrc s x, dst := x.dst, bcast := x.bcast, payload := p, fc, slot := a, len := us,
                     beacon := false, access := true, leave := .access x.id } true

/-- A frame's last bit has gone: PA_EN falls within 10 µs, a free instant (R228). -/
def paFall (s : State) : State :=
  if s.rfx.paEn then
    let (v, s) := draw s
    { s with rfx := { s.rfx with paEn := false, paTo := now s + v % 1229 } }
  else s

/-- RADIO_FRAME_TX_END (R228, R50). -/
def radioEnd (s : State) : State :=
  match s.rfx.tx with
  | none => s
  | some t =>
    if t.sent then s
    else
      let s := advanceTo s (t.from_ + airTicks (airTime s.rfx.cfg t.psdu.length))
      let s := dropLeave (paFall s) 4 t.leave
      if t.bcast then
        let s : State := { s with rfx := { s.rfx with tx := none } }
        if t.access then (match accessFlying s 4 with | some k => accessDone s k true | none => s) else s
      else { s with rfx := { s.rfx with tx := some { t with sent := true } } }

/-- The ack frame of an accepted frame (R224). -/
def ackFrame (s : State) (k : AckDue) : Bytes := radioPsdu (radioHeader k.src k.dst false true k.fcf (ownEpoch s)) (leBytes k.word 2)

/-- RADIO_ACK_TX (R224): the ack frame starts at the ack instant, at ACK_PWR, with PA_EN low and without leave, and counts in the duty
sum.  Where its instant has passed, or the radio may not send or still does, nothing is sent. -/
def radioTail (s : State) : State :=
  match s.rfx.ack with
  | none => s
  | some k =>
    let at_ := ticks16 (ackInstant s k.slot k.len)
    let late := decide (at_ < now s)
    let s := advanceTo { s with rfx := { s.rfx with ack := none } } (at_ - getF s F.RFX_LAT_TXLAT)
    if late || !radioMaySend s || s.rfx.tx.isSome then s
    else
      let from_ := at_ - getF s F.RFX_LAT_TXLAT
      dutyAdd { s with rfx := { s.rfx with power := getF s F.RFX_PWR_ACK_PWR,
                                           ackAir := some { psdu := ackFrame s k, from_, till := from_ + airTicks (airTime s.rfx.cfg 13) } } }
        (airTime s.rfx.cfg 13)

/-- An ack frame is on the air. -/
def acking (s : State) : Bool := s.rfx.ackAir.any (fun a => decide (now s < a.till))

/-! ### What the radio receives (R221, R225, R233) -/

/-- The carrier offset lies within ±60 ppm of the channel (R218). -/
def offsetOk (s : State) (g : RadioSig) : Bool := decide (10000 * (signed g.fofs.toNat 12).natAbs ≤ 6 * s.rfx.cfg.centre)

/-- SFD detection lies within ±RX_WIN µs of the instant expected for a frame that begins at `c`, 1/16 tick, from a sender whose link delay
is `d` (R225). -/
def radioWindow (s : State) (c d sfd : Nat) : Bool :=
  let off := ((16 * (sfd - getF s F.RFX_LAT_RXLAT) : Nat) - ((c + 16 * (preTicks s + d) : Nat) : Int)).natAbs
  decide (100 * off ≤ 16 * 12288 * getF s F.RFX_RXCTL_RX_WIN)

/-- Of signals in one window the one that exceeds every other by 8 dB, else what they give together (R233). -/
def airPick (air : RadioAir) (gs : List RadioSig) : Option RadioSig :=
  match gs with
  | [] => none
  | [g] => some g
  | _ => some ((gs.find? (fun g => (gs.filter (fun h => decide (signed g.rssi.toNat 10 < signed h.rssi.toNat 10 + 16))).length ≤ 1)).getD air.mix)

/-- Steps 1–3 of R221: the window, skipped in a scan, with the cases of R233; PHR; FCS, of a frame demodulated no further than the end of
its allocation, which `span` gives with its length in access slots. DESIGN CHOICE: RFX_STAT.RSSI_LAST and FOFS are written at the SFD, so a
frame that then fails PHR or FCS, and an ack frame, count as the last received (R234, log entry 191). -/
def radioChecks (s : State) (air : RadioAir) (scan : Bool) (win : Nat → Bool) (span : RadioSig → Nat × Nat) :
    State × Option (RadioSig × Bytes) :=
  let near := air.sigs.filter (offsetOk s)
  match airPick air (near.filter (fun g => scan || win g.sfdAt.toNat)) with
  | none =>
    (if !scan ∧ (!near.isEmpty ∨ air.sigs.any (fun g => win g.sfdAt.toNat)) then inc s F.RFX_RXCNT_WINMISS else s, none)
  | some g =>
    let s := setF (setF (advanceTo s g.sfdAt.toNat) F.RFX_STAT_RSSI_LAST g.rssi.toNat) F.RFX_STAT_FOFS g.fofs.toNat
    if !phrOk g.phr then (inc s F.RFX_RXCNT_PHRERR, none)
    else
      let n := phrLength g.phr
      let e := radioRef s g.sfdAt.toNat + airTicks (airTime s.rfx.cfg n)
      let end_ := slotStart s ((span g).1 + (span g).2)
      let s := advanceTo s (min e (ticks16 end_))
      match radioDecode s.rfx.cfg n g.psdu with
      | some p => if 16 * e ≤ end_ ∧ fcsOk p then (s, some (g, p)) else (inc s F.RFX_RXCNT_FCSERR, none)
      | none => (inc s F.RFX_RXCNT_FCSERR, none)

/-- The instant at which the ack frame of a sent frame is awaited, 1/16 tick, and the link delay of its sender (R224). -/
def ackAwaited (s : State) (t : RadioTx) : Nat × Nat :=
  (ackInstant s t.slot t.len, if t.ctx < 4096 then cGet s t.ctx C.delay else 0)

/-- A PSDU heard in the ack window is the ack of the frame sent (R224). -/
def acksFrame (t : RadioTx) (p : Bytes) : Bool :=
  isAckFrame p && p.length == 13 && u p 0 2 == t.dst && u p 2 2 == t.src && u p 7 2 == (t.fc % 65536 ^^^ t.dst)

/-- RADIO_ACK_RX (R224, R225): what is heard in the ack window of the frame sent. -/
def radioAck (s : State) (air : RadioAir) : State :=
  match s.rfx.tx with
  | none => s
  | some t =>
    if !t.sent then s
    else
      let (c, d) := ackAwaited s t
      let r := radioChecks s air false (radioWindow s c d) (fun _ => (t.slot, t.len))
      let s : State := { r.1 with rfx := { r.1.rfx with tx := none } }
      let ok := r.2.any (fun x => acksFrame t x.2)
      let s := if ok then s else inc s F.RFX_TXCNT_ACKMISS
      if t.access then accessOutcome s 4 0 ok else linkOutcome s 4 t.ctx 0 0 ok

end Sys2Proof.Machine
end

