-- ==== Sys2Proof/Machine/LineRows.lean ====
section
/-! DEFINITION. Frames received by the line ports and the radio (R119–R125, R221–R225, R520), losing and finding a parent
(R173–R179), and the commands of LPA, LPHY, ECHO, SFM and RFX. -/

namespace Sys2Proof.Machine

/-! ### Reception on a line port -/

/-- The port listens: present, enabled, not sending, in a mode in which LPHY receives (R35, R180). -/
def hearing (s : State) (n : Nat) : Bool :=
  portOn s n && !((line s n).tx.any (fun t => !t.sent)) &&
  match mode s with
  | .boot => false
  | .roost => s.sfm.awake
  | _ => true

/-- Positions of the allocation that begins at an access slot, as SFM knows it (R123, step 2). -/
def rxPositions (s : State) (n slot src : Nat) (bcast : Bool) : Option Nat :=
  match rxSlot s n slot src (if bcast then 0 else 1) with
  | .assigned _ len => some (allocPositions s len)
  | .beacon => some (allocPositions s (layout s n).wb)
  | .random => some (allocPositions s (layout s n).uspan)
  | .none => none

/-- A header that passed step 2 (LPHY_LASTRXn). -/
def lastRx (s : State) (n : Nat) (h : FrameHdr) : State :=
  setF (setF (setF (setF s (F.LPHY_LASTRX_MODE n) h.mode.toNat) (F.LPHY_LASTRX_LMID n) h.lmid.toNat)
    (F.LPHY_LASTRX_LENGTH n) h.length.toNat) (F.LPHY_LASTRX_CRCOK n) 0

/-- DST is the node's short address or one armed for a join (R123, step 3); a frame from a pair's own address is decoded
(R353). -/
def wanted (s : State) (h : FrameHdr) : Bool :=
  h.bcast || (ownValid s && h.dst.toNat == ownAddr s) || s.mrt.joiner.any (fun j => j.stage != .searching && j.src == h.dst.toNat)
  || (s.pmu.paired && ownValid s && h.src.toNat == ownAddr s)

/-- The context whose maps a header's LMID names: the sender's, or for a frame of the pair's own the addressee's. -/
def headerCtx (s : State) (n : Nat) (h : FrameHdr) : Option Nat :=
  ctxOf s n (if s.pmu.paired ∧ h.src.toNat = ownAddr s then h.dst.toNat else h.src.toNat)

/-- Access slots of the allocation in which a frame of class `cls` from `src` came. -/
def rxSpan (s : State) (n slot src cls : Nat) : Nat :=
  match rxSlot s n slot src cls with
  | .assigned _ l => l
  | _ => (layout s n).uspan

/-- A received line frame as SFM sees it: the reference instant has the receive latency removed (R68, R165, R400). -/
def lineFrame (s : State) (n : Nat) (a : Acq) (h : FrameHdr) (payload : Bytes) : RxFrame :=
  opened s { port := n, hdr := h, slot := a.slot, payload, plain := [], macOk := false, key2Ok := false,
             at_ := a.at_ - getF s (F.rxLat n), quality := (a.metric : Int), mode := h.mode.toNat, lqi := min 255 a.metric }

/-- The ack tail of an accepted unicast frame falls due, and its lane map is seen (R109, R146).  DESIGN CHOICE: a MAPX element in the frame has
acted before rule 3 of R145 takes the header's LMID, an order that R145 leaves open (log entry 216). -/
def lineAcked (s : State) (n : Nat) (f : RxFrame) (c : Option Nat) (len : Nat) : State :=
  let s := if mode s = .spare then s
    else modLine s n (fun l => { l with ack := some (tailWord f, f.slot, len) })
  match c with
  | some c => if cEstablished s c then echoRecompute (mapFrameAccepted s c f.hdr.lmid.toNat) c else s
  | none => s

/-- Step 6 of R123: SFM decides; an accepted unicast frame arms its ack tail; ECHO follows (R139, R145). -/
def linePass (s : State) (n : Nat) (a : Acq) (f : RxFrame) : State :=
  let s := setFlag (inc s (F.LPHY_RXCNT_FRAMES n)) (F.LPHY_LASTRX_CRCOK n)
  match ownHigher s f with
  | some e => seeHigher s e
  | none =>
    let c := ctxOf s n f.hdr.src.toNat
    let s := match c with
      | some c => if f.hdr.bcast then s else rxLevels s n c a
      | none => s
    let len := rxSpan s n f.slot f.hdr.src.toNat f.cls
    let r := sfmFrame s f
    if r.2 then lineAcked r.1 n f c len else r.1

/-- LPHY reads the record and the lane maps of a link (R32, R393). -/
def mapReads (s : State) (c : Option Nat) : State :=
  match c with
  | some c => readMap (readLink s c) (if altState s c = 0 then 0xFFFF else rGet s c R.altix)
  | none => s

/-! #### Acquisition (R119) -/

/-- The delay of the neighbour that beacons in an access slot, where a link knows it. -/
def beaconDelay (s : State) (n slot : Nat) : Nat :=
  match (ctxTouched s).find? (fun c => !cProvisional s c && cPort s c == n && (link s c).beaconB == some slot) with
  | some c => cGet s c C.delay
  | none => 0

/-- What SFM arms at an access slot: an allocation to receive, a beacon slot of an active index, or a random-access allocation, with its
length in access slots and the link delay, 0 for an unknown sender (R119, R165). -/
def armedAt (s : State) (n slot : Nat) : Option (Nat × Nat) :=
  match (allocsAt s n (sfn s)).find? (fun a => !a.send && a.start == slot) with
  | some a => some (a.len, cGet s a.ctx C.delay)
  | none =>
    if slot < 8 ∧ slot % gOf s n = sfn s % gOf s n then some ((layout s n).wb, beaconDelay s n slot)
    else if (raStarts (layout s n)).contains slot then some ((layout s n).uspan, 0)
    else none

/-- A search of 2G superframes of the port is under way on it (R177, R208). -/
def portSearches (s : State) (n : Nat) : Bool :=
  let on (left : Nat) : Bool := decide (searchLength s - left < 2 * gOf s n)
  (isOrphan s && s.sfm.search.any on) || s.mrt.joiner.any (fun j => j.stage == .searching && on j.search)

/-- SFM scans the port with FREESEARCH: in an ORPHAN or join search, which forces it, in COMMISSION, and where FREESEARCH is 1 while the
node searches (R119, R177, R208, R520). -/
def lineScans (s : State) (n : Nat) : Bool :=
  mode s == .commission || portSearches s n || (flag s (F.LPHY_RXCTL_FREESEARCH n) && readsClear s)

/-- In ROOST the parent's beacon is sought over ±w of its expected instant, 1/16 tick (R174). -/
def wakeSearch (s : State) (drift centre off : Nat) : Bool :=
  4 * off ≤ per s &&
  match s.sfm.beaconAt with
  | some (_, t) => 1000000 * off ≤ 16 * (1000000 * 24576 + drift * (ticks16 centre - t))
  | none => true

/-- The access slot is the parent's beacon slot on the port. -/
def parentSlot (s : State) (n slot : Nat) : Bool :=
  (parentCtx s).any (fun c => cPort s c == n && (link s c).beaconB == some slot)

/-- A preamble that begins at instant `t` of the receive path is searched for at an armed position: around the position's start plus the
link delay, ±PRE_WIN µs, or ±w in ROOST (R119, R174). -/
def searched (s : State) (n slot t : Nat) : Bool :=
  match armedAt s n slot with
  | none => false
  | some (_, d) =>
    let c := slotStart s slot + 16 * d
    let off := ((16 * (t - getF s (F.rxLat n)) : Nat) - (c : Int)).natAbs
    let w := getF s (F.LPHY_RXCTL_PRE_WIN n)
    if mode s = .roost ∧ parentSlot s n slot then wakeSearch s (getF s F.SFM_ROOST_DRIFT_LP) c off
    else w != 0 && decide (100 * off ≤ 16 * 12288 * w)

/-- The access slot whose start lies nearest to an instant, 1/16 tick. -/
def slotNear (s : State) (t : Nat) : Nat := min 127 ((2 * (t - slotStart s 0) + per s / 2) / per s)

/-- A preamble is declared at the end of P1, and the gain freezes to the end of the frame's allocation (R93, R119).  A scan takes the
access slot nearest to the preamble; a frame outside every known allocation may run to the superframe's end (log entry 139). -/
def acquireFrame (s : State) (n slot t : Nat) (e : Nat × List Nat × List Nat × Nat) (x : List RxSample) : State :=
  let slot := if lineScans s n then slotNear s (16 * (t - getF s (F.rxLat n))) else slot
  let len := match armedAt s n slot with | some (l, _) => l | none => 128 - slot
  let mask := portMask s n
  let s := quietBefore (advanceTo s (t + 2 * 147456)) n t
  -- the receive path stops where the allocation ends, and where one of the port's own begins (R123, R126)
  let own := (ownStarts s n).filter (fun x => 16 * t < x)
  let until_ := ticks16 (own.foldl min (slotStart s (slot + len)))
  modLine (inc s (F.LPHY_HDRCNT_PREDET n)) n (fun l =>
    { l with frozenTo := until_,
             acq := some { at_ := t, slot, len, mask, metric := (quot 20 (256 * e.2.2.2 : Nat) (lanesOf mask)).toNat, p0 := e.2.1,
                           p1 := e.2.2.1, c0 := windowClips (fftWindow x e.1), c1 := windowClips (fftWindow x (e.1 + 2304)), until_,
                           done := false } })

/-- The offsets with the highest metric, where it reaches the threshold: at the position that begins at access slot `slot`, or at
every sample in a scan (R119). -/
def preambleFound (s : State) (n slot start : Nat) (x : List RxSample) : List (Nat × List Nat × List Nat × Nat) :=
  let mask := portMask s n
  let offs := (List.range (x.length - 4607)).filter (fun i => lineScans s n || searched s n slot (start + 64 * i))
  (bestOffsets (searchAt mask x offs)).filter (fun e => getF s (F.LPHY_RXCTL_PRE_THR n) * lanesOf mask ≤ 256 * e.2.2.2)

/-- PREAMBLE_DETECT (R107, R119, R126): samples of the receive path from instant `start` on, searched at the position that begins at access
slot `slot`, or at every sample in a scan.  The offset with the highest metric counts; of equal ones the spec takes none, a free
choice (log entry 133). -/
def preambleAt (s : State) (n slot start : Nat) (x : List RxSample) : State :=
  if !hearing s n || receiving s n then s
  else
    match preambleFound s n slot start x with
    | [] => s
    | [e] => acquireFrame s n slot (start + 64 * e.1) e x
    | e :: es =>
      let (v, s) := draw s
      let e := nth e (e :: es) (v % (es.length + 1))
      acquireFrame s n slot (start + 64 * e.1) e x

/-! #### A frame after its preamble (R123) -/

/-- LPHY is through with the frame that it has acquired (R93, log entry 139). -/
def acqDrop (s : State) (n : Nat) (a : Acq) : State :=
  modLine s n (fun l => { l with acq := none, frozenTo := if (armedAt s n a.slot).isSome then l.frozenTo else min l.frozenTo (now s) })

/-- LPHY stops demodulating the frame, which goes on to the end of its allocation (R123, steps 3 and 4). -/
def acqLeave (s : State) (n : Nat) : State := modLine s n (fun l => { l with acq := l.acq.map (fun a => { a with done := true }) })

/-- The end of position `j` of a frame being received. -/
def rxEnd (s : State) (a : Acq) (j : Nat) : Nat :=
  a.at_ + ticks16 (positionStart s a.slot j - positionStart s a.slot 0) + 147456

/-- Erasures and noise of demodulated symbols, the first at position `j` (R121, R129, R134). -/
def frameSymbols (s : State) (n : Nat) (a : Acq) (j : Nat) (ys : List RxSym) : State :=
  ys.zipIdx.foldl (fun s y => rxNoise s n a (j + y.2) y.1) s

/-- Counts of erased symbols (R121). -/
def erasedCounts (s : State) (n : Nat) (ys : List RxSym) : State := ys.foldl (fun s y => countErased s n y.lanes y.erased) s

/-- F fits the sender's allocation on the map that the header names, where both are known (R123, step 2). -/
def lineFits (s : State) (n : Nat) (a : Acq) (h : FrameHdr) (map : Option Bytes) : Bool :=
  match map, rxPositions s n a.slot h.src.toNat h.bcast with
  | some m, some p => (frameSize s m a.mask a.slot (if h.bcast then p else p - 2) h.mode.toNat h.length.toNat).isSome
  | _, _ => true

/-- The payload of a frame on a lane map, demodulated to its end, but no further than the receive path goes: none where its CRC-32 fails
(R112–R115, R123 step 5, R126).  DESIGN CHOICE: a frame that goes on beyond that fails at step 5 (log entry 183). -/
def linePayload (s : State) (n : Nat) (a : Acq) (rx : LineRx) (h : FrameHdr) (map : Bytes) : State × Option Bytes :=
  let hs := hsymOf (lanesOf a.mask)
  let counts := liveCounts s map a.mask a.slot (2 + hs) (rx.syms.length - hs)
  let sp := (symbolsFor counts (payloadCells h.mode.toNat h.length.toNat)).getD counts.length
  let reach := ((List.range sp).filter (fun i => rxEnd s a (2 + hs + i) ≤ a.until_ + 1)).length
  let ys := (List.range reach).map (fun i =>
    rxSym s n a (2 + hs + i) (mapLanes map a.mask (positionSlot s a.slot (2 + hs + i))) (nth [] rx.syms (hs + i)))
  let s := frameSymbols (erasedCounts s n ys) n a (2 + hs) ys
  let s := acqDrop (advanceTo s (if reach = sp then rxEnd s a (1 + hs + sp) else a.until_)) n a
  let r := payloadDecode a ys h.mode.toNat h.length.toNat
  (s, if reach = sp ∧ crc32 r.1 = r.2 then some r.1 else none)

/-- Reception of the commissioning link, from step 4 on (R520). -/
def lineBench (s : State) (n : Nat) (a : Acq) (rx : LineRx) (h : FrameHdr) : State :=
  if h.lmid ≠ 0 then acqLeave (inc s (F.LPHY_ERACNT_MAPMISS n)) n
  else
    match linePayload s n a rx h (openMap a.mask) with
    | (s, none) => inc s (F.LPHY_RXCNT_CRCERR n)
    | (s, some _) => setFlag (inc s (F.LPHY_RXCNT_FRAMES n)) (F.LPHY_LASTRX_CRCOK n)

/-- Steps 3–6 of R123, for a header of the link `c` whose map is `map`. -/
def lineBody (s : State) (n : Nat) (a : Acq) (rx : LineRx) (h : FrameHdr) (c : Option Nat) (map : Option Bytes) : State :=
  if !wanted s h then acqLeave s n
  else
    match map with
    | none => acqLeave (mapReads (inc s (F.LPHY_ERACNT_MAPMISS n)) c) n
    | some m =>
      match linePayload s n a rx h m with
      | (s, none) => inc s (F.LPHY_RXCNT_CRCERR n)
      | (s, some p) => linePass s n a (lineFrame s n a h p)

/-- The header positions, of `hs`, that lie within the receive path's reach: it goes no further than the sender's allocation, nor past the start
of one of the port's own (R123, R126).  DESIGN CHOICE: a header that goes on beyond that fails at step 1 (log entry 183). -/
def headerReach (s : State) (a : Acq) (hs : Nat) : Nat :=
  ((List.range hs).filter (fun i => rxEnd s a (2 + i) ≤ a.until_ + 1)).length

/-- LINE_FRAME_RX: what follows a declared preamble, in the order of R123. -/
def lineRx (s : State) (n : Nat) (rx : LineRx) : State :=
  match (line s n).acq with
  | none => s
  | some a =>
    if !hearing s n || a.done then s
    else
      let hs := hsymOf (lanesOf a.mask)
      let reach := headerReach s a hs
      let s := advanceTo s (if reach = hs then rxEnd s a (1 + hs) else a.until_)
      let ys := (List.range reach).map (fun i => rxSym s n a (2 + i) a.mask (nth [] rx.syms i))
      let s := erasedCounts s n ys
      let bits := headerDecide a ys
      let h := headerFields bits
      let bench := mode s == .commission
      let c := headerCtx s n h
      let map := if h.lmid = 0 then some (openMap a.mask) else c.bind (fun c => heldMap s c h.lmid.toNat)
      if reach != hs || !headerOk bits || decide (1280 < h.length.toNat) || (!bench && !lineFits s n a h map) then
        acqDrop (headerSilent (inc s (F.LPHY_HDRCNT_HDRERR n)) n a ys) n a
      else
        let s := noteSrc (lastRx (frameSymbols (preambleNoise s n a) n a 2 ys) n h) h.src.toNat
        if bench then lineBench s n a rx h else lineBody s n a rx h c map

/-! ### Reception on the radio -/

/-- The radio receives continuously: in COMMISSION, and under leave in a search or a re-acquisition (R177, R179, R225, R520). -/
def radioScans (s : State) : Bool :=
  mode s == .commission ||
    ((portSearches s 4 || s.rfx.reacq.isSome) && (holdsFor s 4 .listen || getF s F.PMU_LEAVE_COST0_RFX == 0))

/-- A received radio frame as SFM sees it (R165, R220, R222). -/
def radioFrame (s : State) (slot : Nat) (g : RadioSig) (p : Bytes) : RxFrame :=
  let rssi := signed g.rssi.toNat 10
  opened s { port := 4, hdr := radioHdr p, slot, payload := (p.drop 7).take (p.length - 11), plain := [], macOk := false,
             key2Ok := false, at_ := radioRef s g.sfdAt.toNat, quality := rssi, mode := 4,
             lqi := (clampI 0 255 (quot 19 rssi 2 + 160)).toNat }

/-- A frame with a good FCS for this node: a higher PRIMARY, or SFM and the ack due (R165, R224, R352). -/
def radioTake (s : State) (f : RxFrame) : State :=
  let s := inc s F.RFX_RXCNT_FRAMES
  match ownHigher s f with
  | some e => seeHigher s e
  | none =>
    let len := rxSpan s 4 f.slot f.hdr.src.toNat f.cls
    let r := sfmFrame s f
    let s := r.1
    if r.2 ∧ mode s ≠ .spare then
      { s with rfx := { s.rfx with ack := some { word := tailWord f, src := f.hdr.dst.toNat, dst := f.hdr.src.toNat, fcf := f.hdr.fcf.toNat,
                                                 slot := f.slot, len } } }
    else s

/-- The radio receives: a unit that is off, or a transmission, hears nothing. -/
def radioHears (s : State) : Bool :=
  hasRadio s && !s.rfx.tx.any (fun t => !t.sent) && !acking s && mode s != .boot &&
    !(mode s == .roost && !s.sfm.awake && s.rfx.reacq.isNone)

/-- The parent's beacon in access slot `slot` is sought with the window of R174: in ROOST, and in a re-acquisition without leave (R179). -/
def radioSeeks (s : State) (slot : Nat) : Bool := parentSlot s 4 slot && (mode s == .roost || s.rfx.reacq.isSome)

/-- The reception window of the allocation that begins at an access slot (R174, R225). -/
def radioOpen (s : State) (slot sfd : Nat) : Bool :=
  match armedAt s 4 slot with
  | none => false
  | some (_, d) =>
    let c := slotStart s slot
    if radioSeeks s slot then
      let x := c + 16 * (preTicks s + d)
      wakeSearch s (getF s F.SFM_ROOST_DRIFT_RF) (c + 16 * d) ((16 * (sfd - getF s F.RFX_LAT_RXLAT) : Nat) - (x : Int)).natAbs
    else radioWindow s c d sfd

/-- The allocation in which a signal began: the one listened to; in a scan the access slot nearest to its start, with what SFM arms there
or the rest of the superframe. -/
def radioSpan (s : State) (slot : Nat) (scan : Bool) (g : RadioSig) : Nat × Nat :=
  let a := if scan then slotNear s (16 * radioRef s g.sfdAt.toNat) else slot
  (a, match armedAt s 4 a with | some (l, _) => l | none => 128 - a)

/-- RADIO_FRAME_RX: the order of R221. -/
def radioRx (s : State) (rx : RadioRx) : State :=
  if !radioHears s then s
  else
    let scan := radioScans s
    let span := radioSpan s rx.slot.val scan
    match radioChecks s rx.air scan (radioOpen s rx.slot.val) span with
    | (s, none) => s
    | (s, some (g, p)) =>
      let f := radioFrame s (span g).1 g p
      let s := noteSrc s f.hdr.src.toNat
      if isAckFrame p then s
      else if mode s = .commission then inc s F.RFX_RXCNT_FRAMES
      else if !wanted s f.hdr then s
      else radioTake s f

/-- The radio listens now: in a scan, in the ack window of a frame sent, or from the start of an armed allocation to the end of its window. -/
def radioListens (s : State) : Bool :=
  radioHears s &&
    (radioScans s
      || s.rfx.tx.any (fun t => t.sent && (decide ((ackAwaited s t).1 ≤ 16 * now s) || radioWindow s (ackAwaited s t).1 (ackAwaited s t).2 (now s)))
      || radioOpen s (aslotNow s) (now s)
      || (armedAt s 4 (aslotNow s)).any (fun e => decide (now s ≤ ticks16 (slotStart s (aslotNow s)) + preTicks s + e.2)))

/-! ### Sleepy nodes (R173–R175) -/

/-- The wake period in force towards the parent: the smallest multiple of G that is ROOST_PERIOD or more (R173). -/
def wakePeriod (s : State) (ctx : Nat) : Nat := wakeEvery s (cPort s ctx) s.sfm.roostNow

/-- Superframe `sf` is a wake superframe (R173). -/
def wakesIn (s : State) (ctx sf : Nat) : Bool :=
  let p := wakePeriod s ctx
  sf % p == entryPhase s (cPort s ctx) ctx p % p

/-- The parent's beacon slot of a superframe has passed, with its window (R174). -/
def beaconOver (s : State) (c : Nat) : Bool :=
  match (link s c).beaconB with
  | some b => decide (slotStart s b + per s / 2 < 16 * now s)
  | none => false

/-- ROOST_WAKE_WINDOW: the receive path is powered 1 ms before the window, in the wake superframe or at the end of the one before, whose
boundary does not count against the wake (R173–R175). -/
def wakeWindow (s : State) : State :=
  match parentCtx s with
  | some c =>
    let here := wakesIn s c (sfn s) && !beaconOver s c
    if mode s = .roost ∧ !s.sfm.awake ∧ (here ∨ wakesIn s c ((sfn s + 1) % 2 ^ 32)) then
      { s with sfm := { s.sfm with awake := true, wakeLeft := gOf s (cPort s c) + b2n (!here),
                                   roostNow := getF s F.SFM_ROOST_ROOST_PERIOD } }
    else s
  | none => s

/-- A sleepy node may sleep again as far as its parent's beacon goes: it has been accepted, or its span has passed, in a superframe in which
it is due; a wake that has only powered the receive path for the next superframe goes on (R174–R176). -/
def beaconServed (s : State) (c : Nat) : Bool :=
  decide (s.sfm.wakeLeft ≤ gOf s (cPort s c)) &&
  match (link s c).beaconB with
  | some b => sfn s % gOf s (cPort s c) != b % gOf s (cPort s c) || s.sfm.beaconAt.any (fun x => x.1 == sfn s)
      || decide (slotStart s (b + (layout s (cPort s c)).wb) ≤ 16 * now s)
  | none => true

/-- Nothing of the node's is on the air or awaits its ack. -/
def nothingFlies (s : State) : Bool := s.lines.all (fun l => l.tx.isNone) && s.rfx.tx.isNone

/-- The end of the last of the node's allocations active in this superframe, 1/16 tick; 0 without one (R175). -/
def allocsEnd (s : State) : Nat :=
  ((ports s).map (fun n => ((allocsAt s n (sfn s)).map (fun a => slotStart s (a.start + a.len))).foldl max 0)).foldl max 0

/-- ROOST_SLEEP (R175): at the end of the last active allocation, once the beacon is over, and unless a POLL is still to be sent or tried
again in this wake. An ORPHAN stays awake to search (R177), and a node in a re-acquisition to hear its parent (R179). -/
def roostSleep (s : State) : State :=
  let polls := s.sfm.access.any (fun x => x.isPoll && (x.inFlight || 0 < s.sfm.wakeLeft))
  if mode s ≠ .roost ∨ !s.sfm.awake ∨ isOrphan s ∨ s.rfx.reacq.isSome ∨ polls ∨ !nothingFlies s ∨ !(parentCtx s).all (beaconServed s) then s
  else
    let s := advanceTo s (ticks16 (allocsEnd s))
    let s : State := { s with sfm := { s.sfm with awake := false, access := s.sfm.access.filter (fun x => !x.isPoll) } }
    (List.range (nLine s)).foldl (fun s n => if (line s n).tx.isNone then setF s (F.LPA_STAT_DRV n) 0 else s) (clearCells s)

/-! ### Losing and finding a parent (R176–R179) -/

/-- ORPHAN_ENTRY (R177, R178): the search keeps a node in ROOST awake; UPSTREAM_LOST stands in the beacons of 8 superframes, counted from
its first cause. -/
def orphanEntry (s : State) (addr : Nat) : State :=
  let s := searchOver { s with rfx := { s.rfx with reacq := none } }
  let s := inc (setF s F.SFM_STAT_STATE 2) F.SFM_STAT_ORPHANS
  let s : State := { s with sfm := { s.sfm with upLost := some (s.sfm.upLost.getD 8), awake := mode s == .roost || s.sfm.awake },
                            tbu := { s.tbu with fresh := true } }
  searchStart (raise s 4 2 (leBytes 0 1 ++ leBytes addr 2))

/-- The parent's beacon is due in this superframe (R176). -/
def parentBeaconDue (s : State) (ctx : Nat) : Bool :=
  match (link s ctx).beaconB with
  | some b => sfn s % gOf s (cPort s ctx) == b % gOf s (cPort s ctx)
  | none => false

/-- BEACON_MISS (R176, R179), at the end of the span of a due beacon: one miss a superframe. -/
def beaconMissed (s : State) : State :=
  match parentCtx s with
  | none => s
  | some c =>
    let listens := mode s == .operate || mode s == .safehold || (mode s == .roost && (s.sfm.awake || s.rfx.reacq.isSome))
    if isRoot s || isOrphan s || !joined s || !listens || !parentBeaconDue s c || s.sfm.beaconAt.any (fun b => b.1 == sfn s)
        || s.sfm.missAt == some (sfn s) then s
    else
      let b := (link s c).beaconB.getD 0
      let s := advanceTo s (ticks16 (slotStart s (b + (layout s (cPort s c)).wb)))
      let n := getF s F.SFM_STAT_MISSES + 1
      let s : State := { setF s F.SFM_STAT_MISSES n with sfm := { s.sfm with missAt := some (sfn s) } }
      if 3 ≤ n then orphanEntry s (cGet s c C.pshort)
      else if n = 2 ∧ cPort s c = 4 then
        askFor (setF { s with rfx := { s.rfx with reacq := some ((sfn s + 2) % 2 ^ 32) } } F.SFM_STAT_STATE 3) 4 .listen 4 0 false
      else s

/-- RF_REACQ_END (R179). -/
def reacqEnd (s : State) : State :=
  match s.rfx.reacq with
  | some e =>
    if sfReached (sfn s) e then
      let s := if getF s F.SFM_STAT_STATE = 3 then setF s F.SFM_STAT_STATE 1 else s
      searchOver { s with rfx := { s.rfx with reacq := none } }
    else s
  | none => s

/-- ORPHAN_SEARCH_END (R177). -/
def orphanEnd (s : State) : State :=
  let busy := s.mrt.joiner.isSome || s.sfm.access.any (·.isPoll)
  if !isOrphan s || busy || s.sfm.search.any (fun k => k != 0) then s else orphanPick (searchOver s)

/-! ### Commands of LPA (R83, R89, R92–R94) -/

/-- A VLD fault ends what a port is sending after the symbol in flight, unless that is its last (R83). -/
def vldCut (s : State) (n : Nat) : State :=
  match (line s n).tx with
  | some t => if !t.sent && decide (t.sym + 1 < t.size) then modLine s n (fun l => { l with cut := true }) else s
  | none => s

/-- VLD_FAULT (R83). Frames in flight end at their next symbol boundary.  DESIGN CHOICE: a sweep point being driven, of which R83 does not
speak, is driven to the end of its phase slot, counted nowhere, and taken again in a later window (log entry 211). -/
def execVldFault (mv : BitVec 15) (s : State) : Host.Outcome State Fault Refusal :=
  .next (collect (
    if mode s = .boot then s
    else
      let s := noteVld s mv.toNat
      if mv.toNat ≤ 7600 then (List.range 4).foldl vldCut (setFlag s F.LPA_VLD_UV)
      else if 18500 ≤ mv.toNat then (List.range 4).foldl vldCut (setFlag s F.LPA_VLD_OV)
      else s))

/-- VLD_FAULT_CLEAR (R83). -/
def execVldFaultClear (mv : BitVec 15) (s : State) : Host.Outcome State Fault Refusal :=
  .next (
    if mode s = .boot then s
    else
      let s := noteVld s mv.toNat
      if 7900 ≤ mv.toNat ∧ mv.toNat ≤ 18200 then setF (setF s F.LPA_VLD_UV 0) F.LPA_VLD_OV 0 else s)

/-- CURRENT_LIMIT (R89, R134). -/
def execCurrentLimit (port : Fin 4) (s : State) : Host.Outcome State Fault Refusal := .next (limitHit s port.val)

/-- SYMBOL_BOUNDARY (R87–R94, R129): an own symbol ends, or the port has listened to the position that ends at `at_`. -/
def execSymbolBoundary (port : Fin 4) (at_ : MeshTime) (peak : BitVec 8) (samples : List RxSample) (own : List TxWin) (s : State) :
    Host.Outcome State Fault Refusal :=
  .next (collect (
    let n := port.val
    let s' := if hearing s n then symbolHeard (advanceTo s at_.toNat) n peak.toNat samples else s
    match (line s n).tx with
    | some t => if t.sent then s' else symbolSent s n t own
    | none => s'))

/-- PREAMBLE_DETECT (R93, R119). -/
def execPreambleDetect (port : Fin 4) (run : RxRun) (s : State) : Host.Outcome State Fault Refusal :=
  .next (preambleAt s port.val run.slot.val run.from_.toNat run.samples)

/-! ### Commands of LPHY and SFM on a line port -/

/-- FRAME_TX_START (R170, R520). -/
def execFrameTxStart (port : Fin 4) (slot : Fin 128) (vld : BitVec 15) (s : State) : Host.Outcome State Fault Refusal :=
  .next (collect (frameStart s port.val slot.val vld.toNat))

/-- FRAME_TX_END (R85). -/
def execFrameTxEnd (port : Fin 4) (own : List TxWin) (s : State) : Host.Outcome State Fault Refusal := .next (collect (lineEnd s port.val own))

/-- ACK_TAIL_TX (R124). -/
def execAckTailTx (port : Fin 4) (vld : BitVec 15) (s : State) : Host.Outcome State Fault Refusal := .next (collect (lineTail s port.val vld.toNat))

/-- ACK_TAIL_RX (R125). -/
def execAckTailRx (port : Fin 4) (first second : List RxSample) (s : State) : Host.Outcome State Fault Refusal :=
  .next (collect (lineAck s port.val [first, second]))

/-- BEACON_TX (R155, R229). -/
def execBeaconTx (port : Fin 5) (vld : BitVec 15) (s : State) : Host.Outcome State Fault Refusal :=
  .next (collect (if port.val = 4 then beaconRadio s else beaconLine s port.val vld.toNat))

/-- RANDOM_ACCESS_TX (R157). -/
def execRandomAccessTx (port : Fin 5) (vld : BitVec 15) (s : State) : Host.Outcome State Fault Refusal :=
  .next (collect (if port.val = 4 then accessRadio s else accessLine s port.val vld.toNat))

/-- RANDOM_ACCESS_BACKOFF_END (R157): the frames of the port whose wait is over pick an allocation of this superframe. -/
def execRandomAccessBackoffEnd (port : Fin 5) (s : State) : Host.Outcome State Fault Refusal :=
  .next ((List.range s.sfm.access.length).foldl (fun s k =>
    if (s.sfm.access[k]?).any (fun x => x.port == port.val) then raPick s k else s) s)

/-- LINE_FRAME_RX (R123, R165). -/
def execLineFrameRx (port : Fin 4) (rx : LineRx) (s : State) : Host.Outcome State Fault Refusal := .next (collect (lineRx s port.val rx))

/-! ### Commands of the radio -/

/-- RADIO_FRAME_RX (R221). -/
def execRadioFrameRx (rx : RadioRx) (s : State) : Host.Outcome State Fault Refusal := .next (collect (radioRx s rx))

/-- RADIO_FRAME_TX_START (R223). -/
def execRadioFrameTxStart (slot : Fin 128) (s : State) : Host.Outcome State Fault Refusal := .next (collect (radioStart s slot.val))

/-- RADIO_FRAME_TX_END (R228). -/
def execRadioFrameTxEnd (s : State) : Host.Outcome State Fault Refusal := .next (collect (radioEnd s))

/-- RADIO_ACK_TX (R224). -/
def execRadioAckTx (s : State) : Host.Outcome State Fault Refusal := .next (collect (radioTail s))

/-- RADIO_ACK_RX (R224). -/
def execRadioAckRx (air : RadioAir) (s : State) : Host.Outcome State Fault Refusal := .next (collect (radioAck s air))

/-! ### Commands of ECHO -/

/-- A link's context takes SFM and ECHO messages: established, and the chip is no spare (R180). -/
def takesMessages (s : State) (ctx : Nat) : Bool := cEstablished s ctx && mode s != .spare && mode s != .boot && mode s != .commission

/-- REPORT_RX (R143). -/
def execReportRx (ctx : BitVec 12) (elem : Bytes) (s : State) : Host.Outcome State Fault Refusal :=
  .next (collect (if takesMessages s ctx.toNat && cPort s ctx.toNat < 4 then reportRx s ctx.toNat elem else s))

/-- PROPOSE_RX (R145). -/
def execProposeRx (ctx : BitVec 12) (elem : Bytes) (s : State) : Host.Outcome State Fault Refusal :=
  .next (collect (if takesMessages s ctx.toNat && cPort s ctx.toNat < 4 then proposeRx s ctx.toNat elem else s))

/-- SWEEP_POINT_DONE (R130, R148, R149): the receive voltage and the sensed current of the point that the port drives; a limited point is
taken again. -/
def execSweepPointDone (port : Fin 4) (p : Fin 16) (from_ : MeshTime) (v : List RxSample) (i : List (BitVec 32)) (s : State) :
    Host.Outcome State Fault Refusal :=
  .next (
    let n := port.val
    let l := line s n
    let v := sweepSpan s from_.toNat v
    if l.sweepOn && !l.limitNow && sweepsNow s n && p.val == phaseSlotAt s (s.tbu.slotAt + 16) && !v.isEmpty then
      let zs := getF s (F.LPHY_ZCAL_ZSCALE n)
      let zr := getF s (F.LPHY_ZCAL_ZROT n)
      let vb := dft (windowVals v) l.sweepBin
      let ib := dft (senseVals s n (sweepSpan s from_.toNat i)) l.sweepBin
      sweepPoint s n p.val (impedance zs zr v.length vb ib) (zExact zs zr vb ib)
    else s)

/-- CARRIER_RX (R142, R171). -/
def execCarrierRx (ctx : BitVec 12) (elem : Bytes) (s : State) : Host.Outcome State Fault Refusal :=
  .next (collect (if takesMessages s ctx.toNat && cPort s ctx.toNat < 4 && !elem.isEmpty then mapxRx s ctx.toNat elem else s))

/-! ### Commands of SFM -/

/-- ALLOC_RX (R159). -/
def execAllocRx (ctx : BitVec 12) (body : Bytes) (s : State) : Host.Outcome State Fault Refusal :=
  .next (collect (if takesMessages s ctx.toNat then allocRx s ctx.toNat body else s))

/-- POLL_RX (R175). -/
def execPollRx (ctx : BitVec 12) (body : Bytes) (s : State) : Host.Outcome State Fault Refusal :=
  .next (collect (if takesMessages s ctx.toNat then pollRx s ctx.toNat body else s))

/-- DELAY_EXCHANGE_DUE (R172): at a node with a time parent, once in 64 superframes. -/
def execDelayExchangeDue (ctx : BitVec 12) (s : State) : Host.Outcome State Fault Refusal :=
  .next (if takesMessages s ctx.toNat && cParent s ctx.toNat && !isRoot s && delayDue s ctx.toNat then delayStart s ctx.toNat else s)

/-- DELAY_REQ_RX (R172). -/
def execDelayReqRx (ctx : BitVec 12) (t2 : MeshTime) (s : State) : Host.Outcome State Fault Refusal :=
  .next (collect (if takesMessages s ctx.toNat then delayReqRx s ctx.toNat t2.toNat else s))

/-- DELAY_RESP_RX (R69, R172). -/
def execDelayRespRx (ctx : BitVec 12) (body : Bytes) (t4 : MeshTime) (s : State) : Host.Outcome State Fault Refusal :=
  .next (collect (if takesMessages s ctx.toNat then delayRespRx s ctx.toNat body t4.toNat else s))

/-- DELAY_RESP_TIMEOUT (R172). -/
def execDelayRespTimeout (ctx : BitVec 12) (s : State) : Host.Outcome State Fault Refusal :=
  .next (
    match (link s ctx.toNat).t1 with
    | some (_, sf) =>
      if 4 < (sfn s + 2 ^ 32 - sf) % 2 ^ 32 then delayAgain (modLink s ctx.toNat (fun l => { l with t1 := none })) ctx.toNat else s
    | none => s)

/-- BEACON_MISS (R176). -/
def execBeaconMiss (s : State) : Host.Outcome State Fault Refusal := .next (collect (beaconMissed s))

/-- RF_REACQ_END (R179). -/
def execRfReacqEnd (s : State) : Host.Outcome State Fault Refusal := .next (collect (reacqEnd s))

/-- ORPHAN_SEARCH_END (R177). -/
def execOrphanSearchEnd (s : State) : Host.Outcome State Fault Refusal := .next (collect (orphanEnd s))

/-- UPSTREAM_LOST_END (R178). -/
def execUpstreamLostEnd (s : State) : Host.Outcome State Fault Refusal :=
  .next (if s.sfm.upLost = some 1 then { s with sfm := { s.sfm with upLost := some 0 } } else s)

/-- ROOST_WAKE_WINDOW (R173, R174). -/
def execRoostWakeWindow (s : State) : Host.Outcome State Fault Refusal := .next (wakeWindow s)

/-- ROOST_SLEEP (R175). -/
def execRoostSleep (s : State) : Host.Outcome State Fault Refusal := .next (roostSleep s)

end Sys2Proof.Machine
end

