-- ==== Sys2Proof/Machine/Boundary.lean ====
section
/-! DEFINITION. The superframe boundary: allocation banks and ALLOC (R158–R160, R181), and what SFM, ECHO, MRT and RFX do at each
boundary (R33, R62, R133, R139, R187–R191, R203, R208, R232, R377). -/

namespace Sys2Proof.Machine

/-! ### Swapping the banks (R158) -/

/-- The link phase of an entry when it is checked (R158). -/
def checkPhase (s : State) (n w : Nat) : Nat := entryPhase s n (eCtx w) (2 ^ ePexp w)

/-- Two entries intersect and are active in a common superframe. -/
def entriesClash (s : State) (n a b : Nat) : Bool :=
  let m := 2 ^ min (ePexp a) (ePexp b)
  eStart a < eStart b + eLen b && eStart b < eStart a + eLen a && checkPhase s n a % m == checkPhase s n b % m

/-- An entry of a bank by itself: in the data region, of a context that the variant has, PEXP 0–12 (R5, R158). -/
def entryOk (s : State) (n w : Nat) : Bool :=
  (layout s n).dstart ≤ eStart w && eStart w + eLen w ≤ 128 && eCtx w < nCtx s && ePexp w ≤ 12

/-- The entries in use of a port in a bank. -/
def bankWords (s : State) (bank n : Nat) : List Nat :=
  ((List.range 64).map (slotWord s bank n)).filter (fun w => eLen w != 0)

/-- No two entries of a list clash. -/
def noClash (s : State) (n : Nat) : List Nat → Bool
  | [] => true
  | w :: ws => ws.all (fun v => !entriesClash s n w v) && noClash s n ws

/-- The inactive bank may become active (R158). -/
def swapOk (s : State) : Bool :=
  (ports s).all (fun n =>
    let ws := bankWords s (1 - activeBank s) n
    ws.all (entryOk s n) && noClash s n ws)

/-- Contexts with an allocation to send in on a port. -/
def sendersOf (s : State) (n : Nat) : List Nat :=
  ((wordsInForce s n).filterMap (fun w => if eRecv w then none else some (eCtx w))).eraseDups

/-- A link's packets are dropped without an event: each counts as a drop, and the LSN of one that was tried is used up (R169, R170,
R188). -/
def dropPackets (s : State) (n c : Nat) : State :=
  let l := link s c
  let k := (linkPackets s n c).length + l.ctl.length
  let s := if k = 0 then s else setDrops s c (cGet s c C.drops + k)
  let s := if l.st = .sending ∨ l.tries ≠ 0 ∨ l.held.isSome then advanceLsn s c else s
  dropLink s n c

/-- Links that lose their last send allocation lose their packets, without an event (R170). -/
def dropFreed (s : State) (n : Nat) (before : List Nat) : State :=
  let after := sendersOf s n
  before.foldl (fun s c => if after.contains c then s else dropPackets s n c) s

/-- Contexts whose entries a swap changes at a port. -/
def changedLinks (s : State) (n : Nat) : List Nat :=
  let a := activeBank s
  ((List.range 64).map (fun e =>
    let o := slotWord s a n e
    let w := slotWord s (1 - a) n e
    if o = w then [] else ([o, w].filter (fun x => eLen x != 0)).map eCtx)).flatten.eraseDups

/-- SLOT_BANK_SWAP (R158, R159): entries of links whose parent end this node is are held in their old form, and go out in an
ALLOC. -/
def swapBanks (s : State) : State :=
  if !flag s F.SFM_SLOTCTL_PENDING then s
  else
    let before := (ports s).map (fun n => (n, sendersOf s n))
    let held := ((ports s).map (fun n =>
      ((changedLinks s n).filter (fun c => cEstablished s c && cPort s c == n && parentEnd s c)).map (fun c =>
        (n, c, (wordsInForce s n).filter (fun w => eCtx w == c))))).flatten
    let s := setF (setF s F.SFM_SLOTCTL_ACTIVE (1 - activeBank s)) F.SFM_SLOTCTL_PENDING 0
    let s : State := { s with sfm := { s.sfm with silent := [] }, mrt := { s.mrt with autos := [] } }
    let s := held.foldl (fun s h =>
      allocSend s h.1 h.2.1 h.2.2 ((bankWords s (activeBank s) h.1).filter (fun w => eCtx w == h.2.1)) false) s
    before.foldl (fun s b => dropFreed s b.1 b.2) s

/-! ### ALLOC at EFFECT (R159) -/

/-- The provisional allocations of a link end. -/
def endProvs (s : State) (ctx : Nat) : State :=
  { s with mrt := { s.mrt with provs := s.mrt.provs.filter (fun p => p.ctx != ctx) } }

/-- One held link at the parent: in force where every part was acked, held again under a new EFFECT otherwise. -/
def heldEffect (s : State) (h : AllocHeld) : State :=
  if !sfReached (sfn s) h.effect then s
  else if (List.range h.parts).all (fun k => h.acked.contains k) then
    let before := sendersOf s h.port
    let s : State := { s with sfm := { s.sfm with held := s.sfm.held.filter (fun x => x.ctx != h.ctx) } }
    let s := if h.ends then endProvs s h.ctx else s
    dropFreed s h.port (before.filter (fun c => c == h.ctx))
  else allocSend s h.port h.ctx h.old h.entries h.ends

/-- An entry as the child installs it: DIR inverted, CTX the child's own of its parent. -/
def childEntry (ctx w : Nat) : Nat :=
  eStart w + 2 ^ 7 * eLen w + 2 ^ 14 * ctx + 2 ^ 26 * b2n (!eRecv w) + 2 ^ 27 * ePexp w

/-- Install a complete ALLOC at the child: its entries of the link are replaced. -/
def installAlloc (s : State) (x : AllocRx) : State :=
  if !sfReached (sfn s) x.effect then s
  else
    let before := sendersOf s x.port
    let b := activeBank s
    let s := (List.range 64).foldl (fun s e =>
      let w := slotWord s b x.port e
      if eLen w ≠ 0 ∧ eCtx w = x.ctx then putSlot s b x.port e 0 else s) s
    let words := (((List.range (x.last + 1)).map (fun k => assocGet [] x.got k)).flatten.filter (fun w => eLen w != 0)).map (childEntry x.ctx)
    let s := ((freeEntries s x.port).zip words).foldl (fun s e => putSlot s b x.port e.1 e.2) s
    let s : State := { s with sfm := { s.sfm with allocDue := s.sfm.allocDue.filter (fun y => y.ctx != x.ctx) } }
    dropFreed (endProvs s x.ctx) x.port (before.filter (fun c => c == x.ctx))

/-- ALLOC_EFFECT at both ends (R159). -/
def allocEffect (s : State) : State :=
  let s := s.sfm.held.foldl heldEffect s
  heldFlag (s.sfm.allocDue.foldl installAlloc s)

/-- Automatic allocations of a child that has sent DETACH are freed (R196). -/
def freeAutos (s : State) : State :=
  let s := s.mrt.freeing.foldl (fun s c =>
    let n := cPort s c
    let before := sendersOf s n
    let mine := s.mrt.autos.filter (fun a => a.1 == c)
    let s := mine.foldl (fun s a =>
      (List.range 64).foldl (fun s e =>
        let w := slotWord s (activeBank s) n e
        if eLen w = a.2.2.2.2 ∧ eCtx w = c ∧ ePexp w = 0 ∧ (eStart w = a.2.2.1 ∨ eStart w = a.2.2.2.1) then putSlot s (activeBank s) n e 0
        else s) s) s
    let s : State := { s with mrt := { s.mrt with autos := s.mrt.autos.filter (fun a => a.1 != c) } }
    let s : State := if mine.isEmpty then s else { s with sfm := { s.sfm with held := s.sfm.held.filter (fun h => h.ctx != c) } }
    dropFreed s n (before.filter (fun x => x == c))) s
  heldFlag { s with mrt := { s.mrt with freeing := [] } }

/-- Provisional allocations whose last superframe has passed end (R208); with them the provisional context of a join that expired
(R209). -/
def provsExpire (s : State) : State :=
  let past (p : Provisional) : Bool := p.until_.any (fun u => sfReached (sfn s) (u + 1))
  let gone := (s.mrt.provs.filter (fun p => past p && p.parentEnd && cProvisional s p.ctx && (joinOf s p.ctx).isNone)).map (·.ctx)
  let s : State := { s with mrt := { s.mrt with provs := s.mrt.provs.filter (fun p => !past p) } }
  gone.foldl deleteCtx s

/-! ### The boundary -/

/-- Superframe counters of searches, UPSTREAM_LOST and wakes (R175, R177, R178, R208). -/
def countDown (s : State) : State :=
  { s with sfm := { s.sfm with search := s.sfm.search.map (fun k => k - 1), upLost := s.sfm.upLost.map (fun k => if k = 0 then 0 else max 1 (k - 1)),
                               wakeLeft := s.sfm.wakeLeft - 1 }
           mrt := { s.mrt with joiner := s.mrt.joiner.map (fun j => { j with search := j.search - 1 }), rerrs := [] } }

/-- Values that take force at a superframe boundary (R33). -/
def sfmShadows (s : State) : State :=
  { s with sfm := { s.sfm with retryMax := getF s F.SFM_CFG_RETRY_MAX, bslots := (List.range 5).map (fun n => getF s (F.SFM_PORTCFG_BSLOT n)) } }

/-- PARENT_CHANGE and REJOIN_START (R191, R211): until a rejoin in hand is accepted the old parent remains; beside a lateral opening a
candidate whose context is held is taken at once, and a rejoin waits for the exchange to end (log entry 188). -/
def parentChoice (s : State) : State :=
  if isRoot s || !joined s || s.mrt.joiner.any (fun j => !j.peer) || (parentCtx s).isNone then s
  else
    match changeTarget s with
    | none => s
    | some b => if s.mrt.joiner.isSome && (ctxWith s b).isNone then s else takeParent s b

/-- MRT at a boundary (R187–R191, R200, R203). -/
def mrtBoundary (s : State) : State :=
  if !mrtOn s then s
  else
    let s := rrepSend s
    let s := pathUpdate (linkCosts s)
    advertChanges (pathUpdate (parentChoice s))

/-- SUPERFRAME_BOUNDARY. -/
def superframeBoundary (s : State) : State :=
  if s.pmu.mode = .boot then s
  else
    let s := sfmShadows (radioConfigApply (tbuBoundary s))
    let s := freeAutos (allocEffect (swapBanks (countDown s)))
    let s := mrtBoundary (gkeyBoundary (provsExpire s))
    raBoundary (echoBoundary (joinAuto s))

/-- SUPERFRAME_BOUNDARY (R62). -/
def execSuperframeBoundary (s : State) : Host.Outcome State Fault Refusal := .next (collect (superframeBoundary s))

end Sys2Proof.Machine
end

