-- ==== Sys2Proof/Machine/Deliver.lean ====
section
/-! DEFINITION. MRT's handling of packets (R25, R26, R197, R198, R380), delivery to HCP (R437–R440), and the commands of MRT. -/

namespace Sys2Proof.Machine

/-! ### Delivery to HCP -/

/-- The MESH_RX event of a HOST packet taken from HOST-OUT: to the DELIVER port alone (R438, R440). -/
def meshRx (s : State) (p : QPkt) : State :=
  let n := getF s F.HCP_CFG_DELIVER
  let c := p.body
  if 3 ≤ n then inc s F.HCP_CFG_NODELIV
  else
    emitEvent s n 0x1600 (leBytes (now s) 8 ++ leBytes (mhOrig c) 2 ++ leBytes (mhFinal c) 2 ++ leBytes p.cls 1
      ++ leBytes (b2n p.priv + 2 * b2n (mhFlood c)) 1 ++ leBytes (mhHops c) 1 ++ leBytes p.lqi 1 ++ c.drop 8)

/-- The class that marks MRT's own event in HOST-OUT: a reserved one, which no packet of the mesh that MRT delivers has (R26, log entry 127). -/
def ownEventClass : Nat := 15

/-- HCP takes what stands in HOST-OUT, up to a PULUAC-REMOTE packet, which it handles in turn with host requests (R441, log
entry 9). -/
def drainHostOut (s : State) : Nat → State
  | 0 => s
  | fuel + 1 =>
    if !hcpOn s then s
    else
      match frontOf (queue s 11) with
      | none => s
      | some (_, e) =>
        match e.item, frontBad s 11 with
        | .pkt p, false =>
          if p.cls = 6 then s
          else
            let s := (takeQ s 11).1
            drainHostOut (if p.cls = ownEventClass then raiseAt s p.ts 5 2 p.body else meshRx s p) fuel
        | _, _ =>
          let (s, it) := takeQ s 11
          drainHostOut (match it with | some (.gap g) => gapEvent s 11 g | _ => s) fuel

/-- Everything that HCP can take from HOST-OUT now. -/
def takeHostOut (s : State) : State := drainHostOut s ((queue s 11).entries.length + 1)

/-- A packet for a local consumer: as it came, with the class content that MRT delivers (R400, log entry 223). -/
def localPkt (p : QPkt) (c : Bytes) : QPkt := { p with payload := p.payload.take 6 ++ c, ts := 0 }

/-- Commit a packet to HOST-OUT. -/
def toHostOut (s : State) (p : QPkt) : State := takeHostOut (commitQ s 11 p).1

/-- An LCE-COMMAND or PULUAC-REMOTE packet goes to its consumer. -/
def toConsumer (s : State) (p : QPkt) : State :=
  if p.cls = 4 then commandRx s (mhOrig p.body) p.priv (p.body.drop 8) else toHostOut s p

/-! ### Operator signatures (R26, R380) -/

/-- The held packets of a class. -/
def heldFor (s : State) (cls : Nat) : List QPkt := if cls = 4 then s.mrt.holdLce else s.mrt.holdRemote
def setHeld (s : State) (cls : Nat) (l : List QPkt) : State :=
  if cls = 4 then { s with mrt := { s.mrt with holdLce := l } } else { s with mrt := { s.mrt with holdRemote := l } }

/-- Deliver or hold a packet of class 4 or 6: a privileged one waits for SEC, and a later one of its class behind it (R26, R374). -/
def deliverHeld (s : State) (p : QPkt) : State :=
  let h := heldFor s p.cls
  if p.priv then secAsk (setHeld s p.cls (h ++ [p])) (.operator (p.cls == 6))
  else if !h.isEmpty then setHeld s p.cls (h ++ [p])
  else toConsumer s p

/-- Packets that wait behind a held one and carry no signature go on, up to the next privileged one. -/
def flushHeld (s : State) (cls : Nat) : State :=
  let h := heldFor s cls
  (h.takeWhile (fun p => !p.priv)).foldl toConsumer (setHeld s cls (h.dropWhile (fun p => !p.priv)))

/-- The 72-byte trailer of R380. -/
def trailer (p : QPkt) : Bytes := p.payload.drop (p.payload.length - 72)

/-- What an operator signs (R380): the destination's EXT, the class code, the class content after the mesh header up to the trailer, OPIDX and
OPSEQ; DEDUCED: the three reserved bytes between the two are not among them (log entry 228). -/
def signedText (s : State) (p : QPkt) : Bytes :=
  let t := trailer p
  ext8 s ++ leBytes p.cls 1 ++ (p.payload.drop 14).take (p.payload.length - 86) ++ t.take 1 ++ slice t 4 4

/-- The signature of a held packet: accepted, or good with a stale OPSEQ (R380). -/
def sigStatus (s : State) (p : QPkt) : Bool × Bool :=
  let t := trailer p
  let i := u t 0 1
  let fresh := decide (nth 0 s.sec.opSeq i < u t 4 4)
  let known := decide (86 ≤ p.payload.length) && (if i < 4 then nth none s.sec.opKeys i else none).any
    (fun k => ed25519Verify k (signedText s p) (slice t 8 64))
  (known && fresh, known && !fresh)

/-- The last accepted OPSEQ of each key, held with the configuration (R380, R390). -/
def setOpSeq (s : State) (l : List Nat) : State :=
  memWrite { s with sec := { s.sec with opSeq := l }, nvm := { s.nvm with opSeq := l } } Base.image (l.flatMap (fun x => leBytes x 4))

/-- SEC has checked the oldest held packet of a class (R26, R380). -/
def sigVerified (s : State) (cls : Nat) : State :=
  match heldFor s cls with
  | [] => s
  | p :: rest =>
    let s := setHeld s cls rest
    let (ok, stale) := sigStatus s p
    let s :=
      if ok then
        let t := trailer p
        let s := setOpSeq s (s.sec.opSeq.set (u t 0 1) (u t 4 4))
        toConsumer s { p with payload := p.payload.take (p.payload.length - 72) }
      else
        let s := inc (if stale then inc s F.SEC_CNT_REPLAY else s) F.MRT_RTCNT_SIGFAIL
        if cls = 4 then commandPacket s 0 (mhOrig p.body)
        else toHostOut s (QPkt.own (leBytes ownEventClass 6 ++ leBytes 6 1 ++ leBytes (mhOrig p.body) 2))
    flushHeld s cls

/-! ### Local delivery (R25) -/

/-- A packet of a class or type with no consumer. -/
def noConsumer (s : State) : State := inc s F.MRT_DROPCNT_NOCONS

/-- The context of the neighbour that a received packet came from. -/
def packetCtx (p : QPkt) : Option Nat := if p.rx ∧ p.ctx ≠ 0xFFFF then some p.ctx else none

/-- A ROUTING packet: ADVERT at its parent; RREP and RERR at their final node and, since each rewrites or reads them, on the
way (R199–R205). -/
def deliverRouting (s : State) (y : Option Nat) (priv : Bool) (c : Bytes) : State :=
  match y, routingType c with
  | some y, 1 => if c.length < 11 then noConsumer s else advertRx s y c
  | some y, 3 => if c.length < 13 then noConsumer s else rrepRx s y priv c
  | some y, 4 => if c.length < 11 then noConsumer s else rerrRx s y priv c
  | _, _ => noConsumer s

/-- A JOIN packet by its type; types 1–4 and 8 travel without SEC, the others with it (R206).  In a pair only the chip in OPERATE answers those of
a join (R213). -/
def deliverJoin (s : State) (p : QPkt) (c : Bytes) (sec : Bool) : State :=
  if u c 8 1 ≤ 8 ∧ !joinsHere s then s
  else
  match u c 8 1, sec, packetCtx p with
  | 1, false, _ => joinReq s p.port p.src c
  | 2, false, _ => joinOffer s p.port p.src c
  | 3, false, some x => joinProof s x c
  | 4, false, some x => parentProof s x c
  | 5, true, _ => if isRoot s then addrReq s c else noConsumer s
  | 6, true, _ => addrGrant s c
  | 7, true, some x => joinAccept s x c
  | 8, false, _ => joinDenied s p.port p.src c
  | 9, true, some x | 10, true, some x | 11, true, some x => renewalRx s x (u c 8 1) c
  | _, _, _ => noConsumer s

/-- Deliver by class (R25). -/
def deliver (s : State) (p : QPkt) (cls : Nat) (sec : Bool) (c : Bytes) : State :=
  let s := inc s F.MRT_FWDCNT_DELIVERED
  match cls with
  | 2 => deliverRouting s (packetCtx p) p.priv c
  | 3 => deliverJoin s p c sec
  | 4 => deliverHeld s (localPkt p c)
  | 5 => toHostOut s (localPkt p c)
  | 6 => deliverHeld s (localPkt p c)
  | _ => noConsumer s

/-! ### Floods (R198) -/

/-- A packet with FLOOD set. -/
def floodRx (s : State) (p : QPkt) (cls : Nat) (c : Bytes) : State :=
  match cls, packetCtx p with
  | 2, some y =>
    if routingType c = 2 ∧ 13 ≤ c.length then rreqRx s y c
    else if [1, 3, 4].contains (routingType c) then s
    else noConsumer s
  | 4, some y | 5, some y | 6, some y =>
    if parentCtx s ≠ some y then s
    else if floodSeen s c then inc s F.MRT_RTCNT_DUPFLOOD
    else
      let s := floodKeep s c
      let s := deliver s p cls true c
      if mhHops c < mhLimit c then floodChildren s cls p.priv (withHops c (mhHops c + 1)) else s
  | _, _ => s

/-- The root originates a tree flood. -/
def floodOrigin (s : State) (p : QPkt) : State :=
  let (m, s) := nextMseq s
  let c := meshHdr (ownAddr s) (mhFinal p.body) 1 (mhLimit p.body) true m ++ p.body.drop 8
  floodChildren (floodKeep s c) p.cls p.priv c

/-! ### MRT_PACKET_HANDLE (R197) -/

/-- FINAL names this node: its short address, or TEMP during its own join (R185, R186). -/
def isOwn (s : State) (cls final : Nat) : Bool :=
  (ownValid s && final == ownAddr s) ||
  (cls == 3 && (match s.mrt.joiner with | some j => j.src == final | none => false))

/-- A packet from HOST-IN, with the request that gave it: MRT completes the mesh header (R186). -/
def hostInTaken (s : State) (p : QPkt) (tag : Option (Nat × Nat)) : State :=
  let b := p.body
  let dst := mhFinal b
  if 1266 < b.length then answerSend s tag St.badLength
  else if mhFlood b ∧ !isRoot s then answerSend s tag St.badParam
  else
    let s := answerSend s tag St.ok
    if mhFlood b then floodOrigin s p
    else
      let c := meshHdr (ownAddr s) dst 1 (mhLimit b) false 0 ++ b.drop 8
      if ownValid s ∧ dst = ownAddr s then deliver s p p.cls true c
      else forward (autoRreq s dst) none p.cls p.priv c

/-- MRT takes the front of HOST-IN. A packet discarded for a poisoned word has been taken (R437); those that a FLUSH marker stands for have been
dropped. -/
def hostInFront (s : State) : State :=
  let tags := (queue s 10).entries.map (·.tag)
  match takeE s 10 with
  | (s, some e) =>
    match e.item with
    | .pkt p => hostInTaken s p e.tag
    | .gap g => if g.flush then tags.foldl (fun s t => answerSend s t St.queueFull) s else s
  | (s, none) => answerSend s (tags.headD none) St.ok

/-- A packet from an RX queue. -/
def rxTaken (s : State) (p : QPkt) : State :=
  let fctl := u p.payload 0 1
  let cls := fctl % 16
  let c := p.payload.drop 6
  if c.length < 8 then noConsumer s
  else if mhFlood c then floodRx s p cls c
  else if isOwn s cls (mhFinal c) then deliver s p cls (bit fctl 4) c
  else if cls = 2 ∧ (routingType c = 3 ∨ routingType c = 4) then deliverRouting s (packetCtx p) p.priv c
  else forward s (packetCtx p) cls p.priv c

/-- The queues that MRT reads (R23). -/
def mrtReads (q : Nat) : Bool := (4 ≤ q && q ≤ 7) || q == 9 || q == 10

/-- MRT takes the front of a queue and handles it. -/
def mrtHandle (s : State) (q : Nat) : State :=
  if !mrtReads q || !mrtOn s then s
  else
    if q = 10 then hostInFront s
    else
      match takeQ s q with
      | (s, some (.pkt p)) => rxTaken s p
      | (s, _) => s

/-! ### Commands of MRT -/

/-- OPERATOR_SIG_VERIFIED (R26, R374, R380): the check of a held packet ends in its turn, at the front of SEC's queue. -/
def operatorVerified (s : State) (remote : Bool) : State :=
  match s.sec.queue with
  | .operator r :: t =>
    if mrtOn s ∧ r = remote then sigVerified { s with sec := { s.sec with queue := t } } (if remote then 6 else 4) else s
  | _ => s

/-- MRT takes routing and joining messages from a link: the context is established and MRT runs. -/
def mrtHears (s : State) (ctx : Nat) : Bool := mrtOn s && cEstablished s ctx

/-- ADVERT_RX (R201). -/
def execAdvertRx (ctx : BitVec 12) (body : Bytes) (s : State) : Host.Outcome State Fault Refusal :=
  .next (collect (if mrtHears s ctx.toNat then (if body.length < 11 then noConsumer s else advertRx s ctx.toNat body) else s))

/-- RREQ_RX (R203). -/
def execRreqRx (ctx : BitVec 12) (body : Bytes) (s : State) : Host.Outcome State Fault Refusal :=
  .next (collect (if mrtHears s ctx.toNat then (if body.length < 13 then noConsumer s else rreqRx s ctx.toNat body) else s))

/-- RREP_RX (R204). -/
def execRrepRx (ctx : BitVec 12) (body : Bytes) (s : State) : Host.Outcome State Fault Refusal :=
  .next (collect (if mrtHears s ctx.toNat then (if body.length < 13 then noConsumer s else rrepRx s ctx.toNat false body) else s))

/-- RERR_RX (R205). -/
def execRerrRx (ctx : BitVec 12) (body : Bytes) (s : State) : Host.Outcome State Fault Refusal :=
  .next (collect (if mrtHears s ctx.toNat then (if body.length < 11 then noConsumer s else rerrRx s ctx.toNat false body) else s))

/-- ADVERT_PERIODIC (R200). -/
def execAdvertPeriodic (s : State) : Host.Outcome State Fault Refusal :=
  .next (collect (if mrtOn s && joined s && advertDue s then advertFull s false else s))

/-- ROUTE_AGER_VISIT (R195). -/
def execRouteAgerVisit (dest : BitVec 16) (s : State) : Host.Outcome State Fault Refusal :=
  .next (collect (if mrtOn s then ageRoute s dest.toNat else s))

/-- CONTEXT_AGER_VISIT (R196). -/
def execContextAgerVisit (ctx : BitVec 12) (s : State) : Host.Outcome State Fault Refusal :=
  .next (collect (if mrtOn s then ageCtx s ctx.toNat else s))

/-- RREQ_TIMEOUT (R202): a pending request that has waited 4 × LIMIT superframes ends, not found. -/
def execRreqTimeout (target : BitVec 16) (s : State) : Host.Outcome State Fault Refusal :=
  .next (collect (
    rreqEnd s target.toNat 3 (fun r => decide (4 * r.limit ≤ (sfn s + 2 ^ 32 - r.at_) % 2 ^ 32))))

/-- JOIN_SEARCH_END (R208, R209). -/
def execJoinSearchEnd (s : State) : Host.Outcome State Fault Refusal := .next (collect (joinSearch s))

/-- JOIN_REQ_RX (R208). -/
def execJoinReqRx (port : Fin 5) (src : BitVec 16) (body : Bytes) (s : State) : Host.Outcome State Fault Refusal :=
  .next (collect (if portOn s port.val then joinReq s port.val src.toNat body else s))

/-- ADDR_REQ_RX (R184, R208). -/
def execAddrReqRx (body : Bytes) (s : State) : Host.Outcome State Fault Refusal :=
  .next (collect (if mrtOn s && joinsHere s then (if isRoot s then addrReq s body else noConsumer s) else s))

/-- ADDR_GRANT_RX (R208). -/
def execAddrGrantRx (body : Bytes) (s : State) : Host.Outcome State Fault Refusal :=
  .next (collect (if mrtOn s && joinsHere s then addrGrant s body else s))

/-- JOIN_ACCEPT_RX (R208, R211, R212). -/
def execJoinAcceptRx (ctx : BitVec 12) (body : Bytes) (s : State) : Host.Outcome State Fault Refusal :=
  .next (collect (if mrtOn s && joinsHere s then joinAccept s ctx.toNat body else s))

/-- JOIN_DENY_RX (R209). -/
def execJoinDenyRx (port : Fin 5) (src : BitVec 16) (body : Bytes) (s : State) : Host.Outcome State Fault Refusal :=
  .next (collect (if mrtOn s && joinsHere s then joinDenied s port.val src.toNat body else s))

/-- JOIN_OFFER_TIMEOUT (R209): four superframes after the acked JOIN_REQ, it goes again. -/
def execJoinOfferTimeout (s : State) : Host.Outcome State Fault Refusal :=
  .next (collect (
    match s.mrt.joiner with
    | some j =>
      match j.due with
      | some d => if j.stage = .requesting ∧ sfReached (sfn s) d then
          let j : Joiner := { j with due := none }
          joinSendReq (setJoiner s (some j)) j
        else s
      | none => s
    | none => s))

/-- JOIN_LIFE_EXPIRY (R209). -/
def execJoinLifeExpiry (ctx : BitVec 12) (s : State) : Host.Outcome State Fault Refusal :=
  .next (collect (
    match joinOf s ctx.toNat with
    | some j => if sfReached (sfn s) ((j.effect + getF s F.MRT_LIFE_JOIN_LIFE) % 2 ^ 32) then joinExpire s ctx.toNat else s
    | none => s))

/-- JOIN_ACCEPT_TIMEOUT (R209): on to the next candidate. -/
def execJoinAcceptTimeout (s : State) : Host.Outcome State Fault Refusal :=
  .next (collect (
    match s.mrt.joiner with
    | some j =>
      let live := j.stage = .offered ∨ j.stage = .proving ∨ j.stage = .awaiting
      if live ∧ sfReached (sfn s) ((j.effect + getF s F.MRT_LIFE_JOIN_LIFE) % 2 ^ 32) then joinFail s j 7 none else s
    | none => s))

end Sys2Proof.Machine
end

