-- ==== Sys2Proof/Machine/Memory.lean ====
section
/-! DEFINITION. Firmware images in flash (R360–R362), and MQF: critical regions and the scrubber (R392–R398), the copy of HOST-IN (R404), and the
bank arbiters (R408–R414). -/

namespace Sys2Proof.Machine

/-! ### Critical regions (R396) -/

/-- A word lies in a critical region: FIRMWARE or FWDATA (R389). -/
def criticalWord (w : Nat) : Bool := w < 4 * 16384 || (12 * 16384 ≤ w && w < 13 * 16384)

/-! ### Firmware images (R360–R362) -/

/-- Byte 0 of an image slot (R360). -/
def slotBase (slot : Nat) : Nat := 0x400000 * slot

/-- Bytes and numbers of an image header. -/
def hdrBytes (s : State) (slot off n : Nat) : Bytes := flashBytes s (slotBase slot + off) n
def hdrNat (s : State) (slot off n : Nat) : Nat := leNat (hdrBytes s slot off n)

/-- LENGTH of an image, and its body (R360). -/
def imageLen (s : State) (slot : Nat) : Nat := hdrNat s slot 12 4
def imageBody (s : State) (slot : Nat) : Bytes := hdrBytes s slot 256 (imageLen s slot)

/-- The rollback level: burnt fuses (R358). -/
def rollbackLevel (s : State) : Nat := popCount s.chip.fuses 64

/-- Why the header of a slot is no candidate, as SEC_BOOTSTAT codes it; 0 for a candidate (R361, R362). -/
def headerCause (s : State) (slot : Nat) : Nat :=
  let n := imageLen s slot
  if hdrNat s slot 0 4 ≠ 0x1A7C4660 ∨ n < 4 ∨ 2097152 < n ∨ n % 4 ≠ 0 then 2
  else
    match s.chip.rootHash with
    | none => 0
    | some h => if sha512 (hdrBytes s slot 16 32) ≠ h then 3 else if hdrNat s slot 8 1 < rollbackLevel s then 4 else 0

/-- The verdict on the image of a candidate: hash, then signature (R361). -/
def bodyCause (s : State) (slot : Nat) : Nat :=
  if sha512 (imageBody s slot) ≠ hdrBytes s slot 48 64 then 5
  else if !ed25519Verify (hdrBytes s slot 16 32) (hdrBytes s slot 0 192) (hdrBytes s slot 192 64) then 6
  else 1

/-- The body of a slot's image goes into the FIRMWARE region (R361). -/
def loadBody (s : State) (slot : Nat) : State := memWrite s 0 (imageBody s slot)

/-- The verdict recorded for a slot, and its record (R361, R388). -/
def slotCause (s : State) (slot : Nat) : Nat := getF s (if slot = 0 then F.SEC_BOOTSTAT_ACAUSE else F.SEC_BOOTSTAT_BCAUSE)
def recordSlot (s : State) (slot cause : Nat) : State :=
  setF s (if slot = 0 then F.SEC_BOOTSTAT_ACAUSE else F.SEC_BOOTSTAT_BCAUSE) cause

/-- The slot that the ROM takes next: of the slots not yet tried the candidate with the higher VERSION, A on equal ones (R361). -/
def romSlot (s : State) : Option Nat :=
  match [0, 1].filter (fun k => slotCause s k == 0 && headerCause s k == 0) with
  | [0, 1] => some (if hdrNat s 0 4 4 < hdrNat s 1 4 4 then 1 else 0)
  | k :: _ => some k
  | [] => none

/-- A slot's image and the retained hash agree (R43, R396). -/
def reloadOk (s : State) : Bool := sha512 (imageBody s (getF s F.SEC_BOOTSTAT_SLOT)) == memRead s Base.hash 64

/-- The body in the FIRMWARE region and the retained hash agree (R41). -/
def firmwareOk (s : State) : Bool := sha512 (memRead s 0 (imageLen s (getF s F.SEC_BOOTSTAT_SLOT))) == memRead s Base.hash 64

/-! ### Poison in critical regions (R396) -/

/-- A core reset after poison: the ROM loads FIRMWARE again from the slot that runs, and the firmware writes FWDATA anew (R41, R396). -/
def coreReload (s : State) : State := coreReset (loadBody (clearMem s 0 0x200000) (getF s F.SEC_BOOTSTAT_SLOT))

/-- The image that runs has failed: the ROM goes on with the other candidate, or the device enters BOOT recovery (R396). -/
def imageFailed (s : State) : State :=
  let s := recordSlot (coreReset { s with pmu := { s.pmu with trans := none } }) (getF s F.SEC_BOOTSTAT_SLOT) 7
  if (romSlot s).isNone then { s with pmu := { s.pmu with recovery := true } } else s

/-- An uncorrectable read in a critical region, by any requester (R396); `readOk`: the flash can be read for the reload. In BOOT the cores alone are
reset: in recovery they restart it. -/
def criticalPoison (s : State) (readOk : Bool) : State :=
  if inHold s then s
  else
    match mode s with
    | .boot => if s.pmu.trans.isSome then imageFailed s else coreReset s
    | .roost => safeCause s F.PMU_SAFECAUSE_MEMPOISON
    | _ =>
      let ok := readOk && reloadOk s
      let s := safeCause s F.PMU_SAFECAUSE_MEMPOISON
      if ok then coreReload s else systemReset s 32

/-! ### The scrubber (R398) -/

/-- The committed words of queue SRAM that no consumer has released, ascending: queue word, queue, entry, and whether it is the
entry's header. -/
def queueWords (s : State) : List (Nat × Nat × Nat × Nat) :=
  let one (q : Nat) : List (Nat × Nat × Nat × Nat) :=
    let r := queue s q
    let rows := (r.entries.mapIdx (fun k e => (k, e))).foldl (fun (acc : Nat × List (Nat × Nat × Nat × Nat)) x =>
      (acc.1 + x.2.words,
       acc.2 ++ (if x.2.released then [] else (List.range x.2.words).map (fun j => (2048 * q + (acc.1 + j) % 2048, q, x.1, j)))))
      (r.rd, [])
    rows.2.mergeSort (fun a b => a.1 ≤ b.1)
  (List.range 16).flatMap one

/-- The next committed queue word from `w` on. -/
def nextQueueWord (s : State) (w : Nat) : Option (Nat × Nat × Nat × Nat) := (queueWords s).find? (fun x => w ≤ x.1)

/-- Move the scrubber on after the read of a main-SRAM word or a queue word; a pass ends after the last queue word. -/
def scrubNext (s : State) (word : Nat) (inQueue : Bool) : State :=
  let toQueue (s : State) (from_ : Nat) : State :=
    match nextQueueWord s from_ with
    | some x => setF (setF s F.MQF_SCRUB_POS x.1) F.MQF_SCRUB_INQUEUE 1
    | none => inc (setF (setF s F.MQF_SCRUB_POS 0) F.MQF_SCRUB_INQUEUE 0) F.MQF_SCRUB_PASSES
  if inQueue then toQueue s (word + 1)
  else if word = 262143 then toQueue s 0
  else setF s F.MQF_SCRUB_POS (word + 1)

/-- The stored word of data `d` with the bits `bad` turned, as the decoder leaves it: the data that a read delivers, the bits in which the stored
word differs from their code word, and the bits that the decoder corrects (R393, R395). -/
def settleWord (d bad : Nat) : Nat × Nat × Option (List Nat) :=
  if eccMark ≤ bad then (wordData (encodeWord d ^^^ (bad % eccMark)), eccMark, none)
  else
    let w := encodeWord d ^^^ bad
    match decodeFlips d bad with
    | none => (wordData w, w ^^^ encodeWord (wordData w), none)
    | some l => (wordData (turnBits w l), turnBits 0 l, some l)

/-- The bits that stood wrong and those that the read finds wrong. -/
def wrongBits (s : State) (key : Nat) (errs : List (Fin 275)) : Nat := flipsOf s key ^^^ turnBits 0 (errs.map (·.val))

/-- The data of a main-SRAM word become what a read delivers. -/
def putData (s : State) (w d : Nat) : State :=
  if d = memWord s w then s else { s with sram := cellsWrite sramReset s.sram (32 * w) (leBytes d 32) }

/-- A scrub read of a word of the Puluac buffers. What was written stands beside the wrong bits, so the data of no word move. -/
def scrubBuf (s : State) (w : Nat) (errs : List (Fin 275)) : State :=
  let bad := bufMark (hport s (bufPort w)) w ^^^ turnBits 0 (errs.map (·.val))
  noteRead (setMark s w bad) w (markCode bad)

/-- A scrub read of a main-SRAM word: a poisoned one of a critical region leads to SAFEHOLD at once (R396, R398). -/
def scrubMain (s : State) (w : Nat) (errs : List (Fin 275)) (readOk : Bool) : State :=
  if isBufWord w then scrubBuf s w errs
  else
  let r := settleWord (memWord s w) (wrongBits s w errs)
  let s := noteRead (setFlips (putData s w r.1) w r.2.1) w r.2.2
  if r.2.2.isNone && criticalWord w then criticalPoison s readOk else s

/-- Entry `k` of a queue with word `j` read as other data than were written. -/
def putQData (s : State) (q k j d : Nat) : State :=
  let r := queue s q
  setQueue s q { r with entries := r.entries.mapIdx (fun i y => if i = k ∧ itemWord y.item j ≠ d then { y with item := itemWith y.item j d } else y) }

/-- A scrub read of a committed queue word: word, queue, entry, word within it. A poisoned word's data stay as they were written: no consumer takes
them (R406, R407). -/
def scrubQueue (s : State) (x : Nat × Nat × Nat × Nat) (errs : List (Fin 275)) : State :=
  let (w, q, k, j) := x
  let key := 262144 + w
  let d := match (queue s q).entries[k]? with | some e => itemWord e.item j | none => 0
  let bad := wrongBits s key errs
  let r := settleWord d bad
  let s := match r.2.2 with
    | some _ => setFlips (putQData s q k j r.1) key r.2.1
    | none => setFlips s key bad
  noteRead s key r.2.2

/-- The words that ROOST leaves powered: banks 14 and 15 (R391, R398). -/
def scrubPowered (s : State) (w : Nat) (inQueue : Bool) : Bool :=
  match mode s with
  | .roost => !inQueue && decide (14 * 16384 ≤ w)
  | _ => true

/-- SCRUB_READ: the word that MQF_SCRUB names, with the bits found wrong in it; past the last committed queue word the pass ends. -/
def scrubRead (s : State) (errs : List (Fin 275)) (readOk : Bool) : State :=
  let pos := getF s F.MQF_SCRUB_POS
  let inQ := flag s F.MQF_SCRUB_INQUEUE
  if getF s F.MQF_CFG_SCRUB_PERIOD = 0 ∨ s.pmu.inReset ∨ s.pmu.shutdown ∨ !scrubPowered s pos inQ then s
  else if inQ then
    match nextQueueWord s pos with
    | some x => scrubQueue (scrubNext s x.1 true) x errs
    | none => scrubMain (setF (scrubNext s pos true) F.MQF_SCRUB_POS 1) 0 errs readOk
  else scrubMain (scrubNext s pos false) pos errs readOk

/-- SCRUB_READ (R398). -/
def execScrubRead (errs : List (Fin 275)) (readOk : Bool) (s : State) : Host.Outcome State Fault Refusal :=
  .next (scrubRead s errs readOk)

/-! ### HOST-IN (R404) -/

/-- HOST_IN_COPY: the copy of HCP's, or LCE's, packet ends; the other's is not copied before its turn. -/
def hostInCopy (s : State) (lce : Bool) : State :=
  match s.mqf.staged with
  | [] => s
  | x :: _ => if x.lce = lce then stageEnd s else s

/-! ### Bank arbitration (R408–R414) -/

/-- Requesters as they would win (R409): URGENT by rank, then NORMAL by rank. -/
def winOrder (urgent : Nat) (ranks : List Nat) (l : List Nat) : List Nat :=
  l.mergeSort (fun a b => (b2n (!bit urgent a)) * 16 + nth 0 ranks a ≤ (b2n (!bit urgent b)) * 16 + nth 0 ranks b)

/-- The requesters that may preempt a holder whose grant is decided now (R411). -/
def preempters (s : State) (b req : Nat) : Nat :=
  let urgent := getF s F.MQF_CLASS_URGENT
  if bit (getF s F.MQF_BANKMODE_GUARDED) b then
    let e := if getF s F.MQF_CFG_EMERG = 0 then 10 else 11
    if bit urgent e ∧ e ≠ req then 2 ^ e else 0
  else if bit urgent req then 0 else urgent

/-- The holder's last word moves it to rank 11, and those below it up (R409). -/
def rankDrop (ranks : List Nat) (r : Nat) : List Nat :=
  let k := nth 0 ranks r
  ranks.mapIdx (fun i x => if i = r then 11 else if k < x then x - 1 else x)

/-- Hints of the requesters that lose a decision (R413): `order` is the winning order without the winner. -/
def giveHints (a : Arb) (rest : Nat) : List Nat → Nat → Arb
  | [], _ => a
  | r :: l, pos =>
    let a : Arb := { a with hintPos := a.hintPos.set r (min pos 15), hintWait := a.hintWait.set r (min rest 255) }
    giveHints a (rest + nth 0 a.pend r) l (pos + 1)

/-- One fabric cycle of bank `b`: the holder transfers a word, the next cycle is decided, waits are counted (R409–R414). -/
def arbCycle (s : State) (b : Nat) (a : Arb) : Arb :=
  let urgent := getF s F.MQF_CLASS_URGENT
  let hold := a.holder
  let waiting := (List.range 12).filter (fun r => 0 < nth 0 a.pend r && (hold.map (·.req)) != some r)
  let last := match hold with | some h => decide (h.left ≤ 1) | none => false
  let jump := match hold with
    | some h => waiting.filter (fun r => bit h.mayPreempt r)
    | none => []
  -- decision, by ranks and classes as they stand at the start of the cycle
  let free := hold.isNone || last
  let order := winOrder urgent a.ranks waiting
  let winner := if free then order.head? else (winOrder urgent a.ranks jump).head?
  -- waits
  let a : Arb := { a with
                   waited := a.waited.mapIdx (fun r w => if waiting.contains r then w + 1 else w)
                   waits := a.waits.mapIdx (fun r w => if waiting.contains r then satAdd 32 w 1 else w) }
  -- a preempted holder stays pending, and so loses the decision too (R411, R413)
  let losers := if free then order else winOrder urgent a.ranks (waiting ++ (hold.map (·.req)).toList)
  let a := match winner with
    | some w => giveHints a (nth 0 a.pend w) (losers.filter (· != w)) 0
    | none => a
  -- the end of the holder's burst
  let a : Arb := match hold with
    | some h =>
      if last then
        { a with ranks := rankDrop a.ranks h.req, pend := a.pend.set h.req 0
                 grants := a.grants.set h.req (satAdd 32 (nth 0 a.grants h.req) 1)
                 longest := a.longest.set h.req (max (nth 0 a.longest h.req) (min 65535 (nth 0 a.waited h.req)))
                 waited := a.waited.set h.req 0, holder := none }
      else if winner.isSome then { a with holder := none }
      else { a with holder := some { h with left := h.left - 1 } }
    | none => a
  let a : Arb := match winner with
    | some w => { a with holder := some { req := w, left := nth 0 a.pend w, mayPreempt := preempters s b w } }
    | none => a
  -- requests raised in this cycle are pending from the next
  { a with pend := a.pend.mapIdx (fun r w => if 0 < nth 0 a.raised r then nth 0 a.raised r else w), raised := List.replicate 12 0 }

/-- `n` fabric cycles. -/
def arbRun (s : State) (b : Nat) (a : Arb) : Nat → Arb
  | 0 => a
  | n + 1 => arbRun s b (arbCycle s b a) n

/-- Cycles until a burst completes; none are taken on an idle bank. -/
def arbToEnd (s : State) (b : Nat) (a : Arb) : Nat → Arb
  | 0 => a
  | n + 1 =>
    let ends := match a.holder with | some h => decide (h.left ≤ 1) | none => false
    let idle := a.holder.isNone && a.pend.all (· == 0) && a.raised.all (· == 0)
    if idle then a else if ends then arbCycle s b a else arbToEnd s b (arbCycle s b a) n

/-- BANK_REQUEST (R409): `dt` cycles after the bank's last command, a requester raises a burst of `words` + 1 words. -/
def execBankRequest (bank : Fin 16) (req : Fin 12) (words : Fin 8) (dt : Nat) (s : State) : Host.Outcome State Fault Refusal :=
  let a := arbRun s bank.val (arb s bank.val) dt
  let lastWord := match a.holder with | some h => h.req == req.val && decide (h.left ≤ 1) | none => false
  .next (setArb s bank.val
    (if (nth 0 a.pend req.val = 0 ∨ lastWord = true) ∧ nth 0 a.raised req.val = 0 then { a with raised := a.raised.set req.val (words.val + 1) } else a))

/-- BANK_WITHDRAW (R410): before its first word; a granted cycle stays unused. -/
def execBankWithdraw (bank : Fin 16) (req : Fin 12) (dt : Nat) (s : State) : Host.Outcome State Fault Refusal :=
  let a := arbRun s bank.val (arb s bank.val) dt
  let r := req.val
  .next (setArb s bank.val (
    if nth 0 a.raised r ≠ 0 then { a with raised := a.raised.set r 0 }
    else
      match a.holder with
      | some h =>
        if h.req = r then
          if h.left = nth 0 a.pend r then { a with holder := none, pend := a.pend.set r 0, waited := a.waited.set r 0 } else a
        else { a with pend := a.pend.set r 0, waited := a.waited.set r 0 }
      | none => { a with pend := a.pend.set r 0, waited := a.waited.set r 0 }))

/-- BURST_COMPLETE (R409): the bank runs to the last word of a burst. -/
def execBurstComplete (bank : Fin 16) (s : State) : Host.Outcome State Fault Refusal :=
  .next (setArb s bank.val (arbToEnd s bank.val (arb s bank.val) 256))

/-! ### Write-backs (R393) -/

/-- Cycles until SCRUB's request on a bank is done. -/
def arbUntilScrub (s : State) (b : Nat) (a : Arb) : Nat → Arb
  | 0 => a
  | n + 1 => if nth 0 a.pend 10 = 0 ∧ nth 0 a.raised 10 = 0 then a else arbUntilScrub s b (arbCycle s b a) n

/-- A word of the Puluac buffers is stored corrected. -/
def fixMark (s : State) (w : Nat) : State :=
  let bad := bufMark (hport s (bufPort w)) w
  match markCode bad with
  | some l => setMark s w (turnBits bad l)
  | none => s

/-- The oldest corrected word is written back corrected; for a word of main SRAM when its bank has granted
SCRUB's request, which a further word due on the bank raises again. -/
def writeBack (s : State) : State :=
  match s.mqf.writebacks with
  | [] => s
  | key :: rest =>
    let b := key / 16384
    let s := if key < 262144 then setArb s b (arbUntilScrub s b (arb s b) 256) else s
    let s := if isBufWord key then fixMark s key else s
    let s := dropFlips s key
    if key < 262144 ∧ rest.any (fun k => k / 16384 == b) then raiseScrub s b else s

/-- ECC_WRITEBACK (R393): the oldest corrected word is written back; it is no read and counts nothing. -/
def execEccWriteback (s : State) : Host.Outcome State Fault Refusal := .next (writeBack s)

end Sys2Proof.Machine
end

