-- ==== Sys2Proof/Machine/Secure.lean ====
section
/-! DEFINITION. SEC: keys, certificates and rekeys (R357–R377), fuses (R358–R363), sessions (R381, R382), attestation (R383,
R384), the random source (R386), and the configuration record (R37, R436). -/

namespace Sys2Proof.Machine

/-- A public key of zeros removes a key (R436). -/
def keyOf (b : Bytes) : Option Bytes := if b.all (· == 0) then none else some b

/-- CERT_INSTALL (R436): the certificate of R366, for the node's own key and extended address. -/
def certInstall (s : State) (c : Bytes) : State × Nat :=
  if certGood s c ∧ s.sec.nodeKey.map ed25519Pub = some (slice c 12 32) ∧ u c 4 8 = nodeExt s then
    ({ s with sec := { s.sec with cert := some c } }, St.ok)
  else (inc s F.SEC_CNT_CERTFAIL, St.badParam)

/-- NODEKEY_GEN (R364, R436): a new node key; the certificate goes. -/
def nodekeyGen (s : State) : State × Bytes :=
  let (v, s) := draw s
  let seed := leBytes v 32
  ({ s with sec := { s.sec with nodeKey := some seed, cert := none } }, ed25519Pub seed)

/-- KEY_INSTALL (R436). A new operator key starts with no OPSEQ accepted. -/
def keyInstall (s : State) (kind index domain : Nat) (pub : Bytes) : State × Nat :=
  match kind with
  | 0 => ({ s with sec := { s.sec with authKey := some (domain, pub) } }, St.ok)
  | 1 =>
    if 4 ≤ index then (s, St.badParam)
    else if nth none s.sec.opKeys index = keyOf pub then (s, St.ok)
    else
      (setOpSeq { s with sec := { s.sec with opKeys := s.sec.opKeys.set index (keyOf pub) } } (s.sec.opSeq.set index 0), St.ok)
  | 2 =>
    if 4 ≤ index then (s, St.badParam)
    else ({ s with sec := { s.sec with hostKeys := s.sec.hostKeys.set index (keyOf pub) } }, St.ok)
  | 3 => ({ s with sec := { s.sec with peerKey := some pub } }, St.ok)
  | _ => (s, St.badParam)

/-- GKEY_SET at the root (R377, R436). -/
def gkeySet (s : State) (id effect : Nat) (key : Bytes) : State × Nat :=
  if !isRoot s then (s, St.badParam)
  else if effect = 0 then
    if s.sec.gkey.isSome then (s, St.badParam) else (gkeyInstall s id key, St.ok)
  else
    let ahead := (effect + 2 ^ 32 - sfn s) % 2 ^ 32
    if ahead < 64 ∨ 2 ^ 31 ≤ ahead then (s, St.badParam)
    else (gkeyChildren { s with sec := { s.sec with gpend := some (id, effect, key) } }, St.ok)

/-! ### Fuses (R358, R359, R363) -/

/-- What a request to burn asks for: FIELD of OTP_BURN, or 3 for the rollback fuses, and its DATA. -/
def burnCheck (s : State) (field : Nat) (data : Bytes) : Nat :=
  match field with
  | 0 => need (s.chip.rootHash.isNone && data.length == 64)
  | 1 => need (data.length == 1 && u data 0 1 < 8)
  | 2 => need data.isEmpty
  | _ => St.badParam

/-- Bytes each of whose bits is burnt or not: a free value (a burn that fails verification leaves the fuses undefined). -/
def someBits (data : Bytes) (v : Nat) : Bytes := data.zipWith (· &&& ·) (leBytes v data.length)

/-- ROOTHASH in its fuses: all zero means unprogrammed. -/
def hashFuses (b : Bytes) : Option Bytes := if b.all (· == 0) then none else some b

/-- ROOTHASH with the fuses of `data` burnt beside those that are burnt already. -/
def burnHash (old : Option Bytes) (data : Bytes) : Option Bytes :=
  let b := old.getD []
  hashFuses (leBytes (leNat b ||| leNat data) (max b.length data.length))

/-- The fuses with more of them burnt, from the lowest on, until `level` are (R363; DESIGN CHOICE, log entry 229). -/
def burnUpTo (level : Nat) : (n : Nat) → (fuses : Nat) → Nat
  | 0, fuses => fuses
  | n + 1, fuses =>
    let k := 63 - n
    burnUpTo level n (if popCount fuses 64 < level then fuses ||| 2 ^ k else fuses)

/-- Burn fuses; `ok` is the verdict of the verification. No burnt fuse is ever cleared (R359). -/
def burnFuses (s : State) (field : Nat) (data : Bytes) (level : Nat) (ok : Bool) : State :=
  let (v, s) := if ok then (0, s) else draw s
  let data := if ok then data else someBits data v
  let c := s.chip
  let c := match field with
    | 0 => { c with rootHash := burnHash c.rootHash data, rootLock := c.rootLock || ok || bit v 600 }
    | 1 => { c with trust := c.trust ||| u data 0 1 }
    | 2 => { c with dbgClosed := c.dbgClosed || ok || bit v 0 }
    | _ =>
      let all := burnUpTo level 64 c.fuses
      { c with fuses := if ok then all else c.fuses ||| (all &&& v) }
  let s : State := { s with chip := c }
  if ok then s else keyEvent (setFlag s F.SEC_STAT_OTPFAIL) 1 0xFFFF

/-- The burn of the request in hand, once its leave is granted, and its reply. -/
def burnNow (s : State) : State :=
  match s.hcp.current with
  | some c =>
    if c.op = 0x2807 then
      let s := releaseLeave (burnFuses s (u c.params 0 1) (c.params.drop 4) 0 c.v.hwOk) 10
      finishCurrent s (if c.v.hwOk then St.ok else St.badParam) []
    else if c.op = 0x2808 then
      let s := releaseLeave (burnFuses s 3 [] (getF s F.SEC_BOOTSTAT_IMGRB) c.v.hwOk) 10
      finishCurrent s (if c.v.hwOk then St.ok else St.badParam) (if c.v.hwOk then leBytes (rollbackLevel s) 1 else [])
    else s
  | none => releaseLeave s 10

/-- The governor fails the request of a burn (R52). -/
def burnRefused (s : State) : State :=
  match s.hcp.current with
  | some c => if c.op = 0x2807 ∨ c.op = 0x2808 then finishCurrent s St.noLeave [] else s
  | none => s

/-- A burn asks for leave as requester 10; at no cost it burns at once (R47, R359). -/
def burnAsk (s : State) : State := if leaveCost s 10 0 = 0 then burnNow s else askLeave s 10 0xFFFF 0 false

/-! ### Sessions (R381, R382) -/

/-- SESSION_OPEN: the challenge and the device's public half. -/
def sessionOpening (s : State) (n : Nat) (epk : Bytes) : State × Bytes :=
  let (v, s) := draw s
  let ch := leBytes v 32
  let (priv, s) := freshKey s
  let e := x25519Pub priv
  let p := hport s n
  (setHport s n { p with sess := { Session.none with state := 1, challenge := ch, keys := epk ++ e, priv } }, ch ++ e)

/-- What a host key signs in SESSION_PROVE (R381): the challenge, EPK_h, EPK_d, the port byte and the device's EXT. -/
def sessionText (s : State) (n : Nat) : Bytes :=
  let x := (hport s n).sess
  x.challenge ++ x.keys ++ leBytes n 1 ++ ext8 s

/-- The session key (R368, R381). -/
def sessionKey (s : State) (n : Nat) : Option Bytes :=
  let x := (hport s n).sess
  deriveKey x.priv (x.keys.take 32) x.challenge (leBytes n 1 ++ ext8 s)

/-- The key of a valid proof. -/
def sessionProof (s : State) (n idx : Nat) (sig : Bytes) : Option Bytes :=
  if (hport s n).sess.state = 1 ∧ (nth none s.sec.hostKeys idx).any (fun k => ed25519Verify k (sessionText s n) sig) then sessionKey s n
  else none

/-- SESSION_PROVE. A proof that fails leaves the opening as it stands; one whose shared secret is all zero bytes fails. -/
def sessionProving (s : State) (n idx : Nat) (sig : Bytes) : State × Nat :=
  match sessionProof s n idx sig with
  | some key =>
    (setHport s n { hport s n with sess := { Session.none with state := 2, keys := key, host := idx, used := now s } }, St.ok)
  | none => (inc s F.SEC_CNT_AUTHFAIL, St.authRequired)

def sessionEnd (s : State) (n : Nat) : State := setHport s n { hport s n with sess := Session.none }

/-! ### The configuration record (R37, R384, R436) -/

/-- The fields of HCP that the record holds: port settings and network settings (R436, R464). -/
def hcpSaved : List Nat :=
  [F.HCP_CFG_DELIVER, F.HCP_CFG_FLOW, F.HCP_UART_BAUD, F.HCP_IP0_ADDR, F.HCP_IP1_ADDR, F.HCP_IP2_ADDR, F.HCP_IP3_ADDR, F.HCP_UDP_LPORT,
   F.HCP_UDP_EVPORT, F.HCP_MAC_LO_MAC_LO, F.HCP_MAC_HI_MAC_HI].map fieldKey

/-- A field that the record holds: RW and RWL of every unit (R390), what the root alone writes at the root, and HCP's settings. -/
def isSaved (s : State) (k : Nat) : Bool :=
  isMirrored s k || hcpSaved.contains k

/-- The allocation banks with the active one as bank 0, which is active after a reset (R158). -/
def banksSaved (s : State) : List (Nat × Nat) :=
  s.sfm.slots.foldl (fun m e => assocSet m (if getF s F.SFM_SLOTCTL_ACTIVE = 1 then (e.1 + 320) % 640 else e.1) e.2) []

/-! ### Wrapped keys (R357) -/

/-- The storage key: HKDF-SHA-512 from STORESEED. -/
def storageKey (s : State) : Bytes := hkdf32 s.chip.storeSeed Config.storeSalt Config.storeInfo

/-- The configuration as it stands; `n1` and `n2` are the nonces of the two wrapped keys. -/
def cfgNow (s : State) (n1 n2 : Nat) : CfgRec :=
  { regs := s.regs.filter (fun e => isSaved s e.1), slots := banksSaved s, scan := s.mfe.entries
    cells := s.sram.filter (fun c => Base.coef ≤ c.1 && c.1 < Base.sequences + 18432)
    nodeKey := s.sec.nodeKey.map (wrapKey (storageKey s) n1), cert := s.sec.cert
    authKey := s.sec.authKey, peerKey := s.sec.peerKey, pairKey := s.sec.pairKey.map (wrapKey (storageKey s) n2), opKeys := s.sec.opKeys
    hostKeys := s.sec.hostKeys, paired := flag s F.ERF_CFG_PAIR_EN && hasFull s, pairExt := s.erf.pairExt }

/-! ### The record as bytes (R384, R390; its order and form are the model's, log entry 23) -/

/-- A register of calibration: DCH_PTRIM, LPHY_ZCAL, TBU_LAT (R384). -/
def isCalib (k : Nat) : Bool :=
  (List.range 4).any (fun n =>
    [F.DCH_PTRIM0_HGAIN.addr + 4 * n, (F.LPHY_ZCAL_ZSCALE n).addr, (F.txLat n).addr].contains (k / 32))

def optBytes : Option Bytes → Bytes
  | some b => leBytes 1 1 ++ b
  | none => leBytes 0 1

def pairBytes (k : Nat) (l : List (Nat × Nat)) : Bytes := leBytes l.length 4 ++ l.flatMap (fun e => leBytes e.1 4 ++ leBytes e.2 k)

/-- The sections of the record apart from calibration and wrapped keys, as the hash of R384 takes them: fields, allocation banks, scan list, LCE
tables, certificate, authority key with DOMAIN, peer key, operator and host keys, and the pair. -/
def cfgBytes (c : CfgRec) : Bytes :=
  pairBytes 8 (c.regs.filter (fun e => !isCalib e.1)) ++ pairBytes 4 c.slots ++ c.scan.flatMap (fun e => leBytes e 8)
  ++ (c.cells.filter (fun x => Base.actuators ≤ x.1)).flatMap (fun x => leBytes x.1 4 ++ [x.2])
  ++ optBytes c.cert ++ optBytes (c.authKey.map (fun a => leBytes a.1 2 ++ a.2)) ++ optBytes c.peerKey
  ++ (c.opKeys ++ c.hostKeys).flatMap optBytes ++ leBytes (b2n c.paired) 1 ++ optBytes (c.pairExt.map (fun e => leBytes e 8))

/-- Calibration and wrapped keys of the record. -/
def cfgRest (c : CfgRec) : Bytes :=
  pairBytes 8 (c.regs.filter (fun e => isCalib e.1))
  ++ (c.cells.filter (fun x => x.1 < Base.actuators)).flatMap (fun x => leBytes x.1 4 ++ [x.2])
  ++ optBytes c.nodeKey ++ optBytes c.pairKey

/-- The record's bytes in flash, with what survives every reset beside it (R340, R380, R383, R464). -/
def recordBytes (s : State) : Bytes :=
  leBytes s.nvm.epoch 4 ++ s.nvm.opSeq.flatMap (fun x => leBytes x 4) ++ leBytes s.nvm.boots 4 ++ leBytes s.nvm.safes 4
  ++ (match s.nvm.cfg with | some c => cfgBytes c ++ cfgRest c | none => [])

/-- The configuration image of main SRAM behind the operator sequence numbers (R390): fields, allocation banks, scan list and wrapped keys. -/
def cfgImage (c : CfgRec) : Bytes :=
  (pairBytes 8 c.regs ++ pairBytes 4 c.slots ++ c.scan.flatMap (fun e => leBytes e 8) ++ optBytes c.nodeKey ++ optBytes c.pairKey).take
    (Base.parking - Base.image - 16)

def putImage (s : State) (c : CfgRec) : State := memWrite s (Base.image + 16) (cfgImage c)

/-! ### The hashes of R384 -/

/-- CALHASH's contents: coefficient sets, then DCH_PTRIM, LPHY_ZCAL and TBU_LAT; a set counts as replaced from the reply to its commit on. -/
def calBytes (s : State) : Bytes :=
  let trim (n : Nat) : Bytes :=
    leBytes (getF s { F.DCH_PTRIM0_HGAIN with addr := F.DCH_PTRIM0_HGAIN.addr + 4 * n }
      + 65536 * getF s { F.DCH_PTRIM0_HOFS with addr := F.DCH_PTRIM0_HOFS.addr + 4 * n }) 4
  (List.range 128).flatMap (setImg s) ++ (List.range 4).flatMap trim
    ++ (List.range 4).flatMap (fun n => leBytes (getF s (F.LPHY_ZCAL_ZSCALE n) + 2 ^ (F.LPHY_ZCAL_ZROT n).lo * getF s (F.LPHY_ZCAL_ZROT n)) 4)
    ++ (List.range 4).flatMap (fun n => leBytes (getF s (F.txLat n) + 65536 * getF s (F.rxLat n)) 4)

/-- The hashes are computed anew, at each commit that changes their contents. -/
def calCommit (s : State) : State := { s with sec := { s.sec with calHash := sha512 (calBytes s) } }
def cfgCommit (s : State) : State := { s with sec := { s.sec with cfgHash := sha512 ((s.nvm.cfg.map cfgBytes).getD []) } }

/-- An accepted write of a register changes the calibration: a COMMIT, or one of the registers itself (R297, R384). -/
def calTouched (a v : Nat) : Bool := (a == F.DCH_LINSET_COMMIT.addr && fld F.DCH_LINSET_COMMIT v == 1) || isCalib (32 * a)

/-- The configuration is committed (R37, R384, R390), and with it the pair that it declares (R46). -/
def commitCfg (s : State) (c : CfgRec) : State :=
  cfgCommit (putImage { s with nvm := { s.nvm with cfg := some c }, pmu := { s.pmu with validCfg := true, paired := c.paired } } c)

/-- CONFIG_SAVE's record: the configuration as it stands. -/
def saveCfg (s : State) : State :=
  let (a, s) := draw s
  let (b, s) := draw s
  commitCfg s (cfgNow s a b)

/-! ### Attestation (R383) -/

/-- PMU_IDREV (R4). -/
def idRev (s : State) : Nat :=
  2 ^ 16 * s.chip.part + 2 ^ 12 * getF s F.PMU_IDREV_MAJOR + 2 ^ 8 * getF s F.PMU_IDREV_MINOR + getF s F.PMU_IDREV_ROMREV

/-- The device identity public key (R357, R388). -/
def devPub (s : State) : Bytes := ed25519Pub s.chip.devSeed

/-- SEC_BOOTSTAT.UNPROV: ROOTHASH is unprogrammed (R362). -/
def unprov (s : State) : Bool := s.chip.rootHash.isNone

/-- The attestation report of R383; REPORTS counts the reports signed before it. -/
def attest (s : State) (challenge : Bytes) : State × Bytes :=
  let body := leBytes 0x0101 2 ++ leBytes 368 2 ++ leBytes (idRev s) 4 ++ leBytes (nodeExt s) 8
    ++ devPub s ++ padTo 32 challenge ++ memRead s Base.hash 64 ++ padTo 64 s.sec.cfgHash ++ padTo 64 s.sec.calHash
    ++ leBytes (now s) 8 ++ leBytes (getF s F.ERF_EPOCH_EPOCH) 4 ++ leBytes (Mode.code s.pmu.mode) 1 ++ leBytes (rollbackLevel s) 1
    ++ leBytes (getF s F.SEC_BOOTSTAT_SLOT + 2 * b2n (unprov s) + 4 * b2n (role s == 1)) 1 ++ leBytes 0 1
    ++ leBytes s.nvm.boots 4 ++ leBytes s.nvm.safes 4 ++ leBytes s.sec.reports 4 ++ leBytes 0 4
  let s := signOp (readMem { s with sec := { s.sec with reports := s.sec.reports + 1 } } Base.hash 64)
  (s, body ++ ed25519Sign s.chip.devSeed body)

/-! ### Signatures that waited (R47, R51, R52) -/

/-- The ATTEST in hand is signed and answered. -/
def attestNow (s : State) : State :=
  match s.hcp.current with
  | some c => if c.op = 0x2801 then let r := attest s c.params; finishCurrent r.1 St.ok r.2 else s
  | none => s

/-- The first `n` signatures that waited go to SEC. -/
def runSigs (s : State) (n : Nat) : State :=
  let w := s.sec.sigWait
  { s with sec := { s.sec with sigWait := w.drop n, queue := s.sec.queue ++ w.take n } }

/-- Leave for a burst is granted: every waiting signature is made (R47). -/
def burstGranted (s : State) : State := runSigs s s.sec.sigWait.length

/-- A paced burst goes on: two signatures in the phase slot, until none waits (R51). -/
def pacedSlot (s : State) : State :=
  if s.sec.paced then
    let s := runSigs s (2 - s.sec.sigs)
    { s with sec := { s.sec with paced := !s.sec.sigWait.isEmpty } }
  else s

/-- The burst is refused under DEGRADE: paced from here on. -/
def burstDegraded (s : State) : State := pacedSlot { s with sec := { s.sec with paced := true } }

/-- The burst fails: an ATTEST answers NO_LEAVE, a signature of firmware raises a LEAVE event and is not made (R52). -/
def burstFailed (s : State) : State :=
  let w := s.sec.sigWait
  let s : State := { s with sec := { s.sec with sigWait := [] } }
  let s := if w.any (· == .attest) && s.hcp.current.any (fun c => c.op == 0x2801) then finishCurrent s St.noLeave [] else s
  if w.any (· != .attest) then leaveEvent s 7 1 0xFFFF else s

/-! ### Commands of SEC -/

/-- REKEY_REQ_RX (R376). -/
def execRekeyReqRx (ctx : BitVec 12) (body : Bytes) (s : State) : Host.Outcome State Fault Refusal :=
  .next (collect (if mrtHears s ctx.toNat then renewalRx s ctx.toNat 9 body else s))

/-- REKEY_RESP_RX (R376). -/
def execRekeyRespRx (ctx : BitVec 12) (body : Bytes) (s : State) : Host.Outcome State Fault Refusal :=
  .next (collect (if mrtHears s ctx.toNat then renewalRx s ctx.toNat 10 body else s))

/-- REKEY_RETRY (R376): sixteen superframes without a REKEY_RESP, and a new request goes. -/
def execRekeyRetry (ctx : BitVec 12) (s : State) : Host.Outcome State Fault Refusal :=
  .next (collect (
    if s.sec.rekeys.any (fun r => r.ctx == ctx.toNat && decide (16 ≤ (sfn s + 2 ^ 32 - r.at_) % 2 ^ 32)) ∧ trngOk s then
      rekeyStart s ctx.toNat
    else s))

/-- GKEY_RX (R377). -/
def execGkeyRx (ctx : BitVec 12) (body : Bytes) (s : State) : Host.Outcome State Fault Refusal :=
  .next (collect (if mrtHears s ctx.toNat then renewalRx s ctx.toNat 11 body else s))

/-- The random source runs: not in BOOT, nor while the chip is held in reset (R459). -/
def trngRuns (s : State) : Bool := !s.pmu.inReset && !s.pmu.shutdown

/-- TRNG_HEALTH_FAIL (R386): the sample goes; the third failure within one second fails the source. -/
def execTrngHealthFail (_ : Unit) (s : State) : Host.Outcome State Fault Refusal :=
  .next (
    if !trngRuns s then s
    else
      let fails := now s :: s.sec.trngFails.filter (fun t => decide (now s < t + Config.ticksPerSec))
      let s := inc { s with sec := { s.sec with trngFails := fails } } F.SEC_CNT_TRNGFAIL
      if 3 ≤ fails.length then keyEvent (setF s F.SEC_STAT_TRNG 2) 2 0xFFFF else s)

/-- The random source is ready: a join, a search and the REKEY_REQs that waited for it go on (R386, R387). -/
def trngStarts (s : State) : State :=
  let s := rekeyHeldRun (joinerGoOn (setF s F.SEC_STAT_TRNG 1))
  if isOrphan s ∧ s.sfm.search.isNone ∧ s.mrt.joiner.isNone ∧ mode s = .operate then nextCandidate s else s

/-- SESSION_IDLE_EXPIRY (R382): SESSIDLE seconds without an authenticated packet. -/
def execSessionIdleExpiry (port : HostPort) (s : State) : Host.Outcome State Fault Refusal :=
  let n := HostPort.idx port
  let p := hport s n
  .next (
    if p.sess.state = 2 ∧ p.sess.used + getF s F.SEC_CFG_SESSIDLE * Config.ticksPerSec ≤ now s then sessionEnd s n else s)

end Sys2Proof.Machine
end

