-- ==== Sys2Proof/Machine/Store.lean ====
section
/-! DEFINITION. External flash: ranges, programming under leave, completion (R360, R428, R436, R443), and the record's bytes. -/

namespace Sys2Proof.Machine

/-- Byte 0 of the configuration record (R360). -/
def recordBase : Nat := 0x800000

/-- Two ranges of bytes meet. -/
def rangesMeet (a n b m : Nat) : Bool := a < b + m && b < a + n

/-- A range that FLASH_ERASE and FLASH_WRITE may touch (R431, R436): in BOOT recovery the image slots alone; elsewhere neither the
running image's slot nor the record. -/
def flashAllowed (s : State) (off len : Nat) : Bool :=
  match s.pmu.mode with
  | .boot => off + len ≤ recordBase
  | _ => off + len ≤ Config.flashSize
      && !rangesMeet off len (if getF s F.SEC_BOOTSTAT_SLOT = 0 then 0 else 0x400000) 0x400000
      && !rangesMeet off len recordBase Config.recordSize

/-- A range that FLASH_READ may read. -/
def readAllowed (s : State) (off len : Nat) : Bool :=
  match s.pmu.mode with
  | .boot => off + len ≤ recordBase
  | _ => off + len ≤ Config.flashSize

/-- A byte of the flash: inside the record, its content in a form that the spec does not lay down (log entry 23). -/
def flashByte (s : State) (a : Nat) : Byte :=
  if recordBase ≤ a ∧ a < recordBase + Config.recordSize then ((recordBytes s)[a - recordBase]?).getD 0xFF
  else (assocFind? s.flash a).getD (flashErased a)

/-- FLASH_READ's data. -/
def flashData (s : State) (off len : Nat) : Bytes := (List.range len).map (fun k => flashByte s (off + k))

/-- Erase sectors. -/
def flashErase (s : State) (off len : Nat) : State :=
  { s with flash := s.flash.filter (fun c => c.1 < off || off + len ≤ c.1) }

/-- A programming operation answered ACCEPTED begins: it asks for leave as requester 9 (R436). -/
def flashBegin (s : State) (f : FlashOp) : State :=
  let s : State := { s with hcp := { s.hcp with flash := some f } }
  if leaveCost s 9 0 = 0 then { s with hcp := { s.hcp with flash := some { f with granted := true } } }
  else askLeave s 9 0xFFFF 0 false

/-- Its completion, to the port or the node that sent it (R428, R432, R442). -/
def flashFinish (s : State) (f : FlashOp) (status : Nat) : State :=
  let s := releaseLeave (withdrawLeave { s with hcp := { s.hcp with flash := none } } 9) 9
  match f.orig with
  | some o => sendRemote s o 0x13 f.seq f.op (leBytes status 2)
  | none => if f.dead then s else complete s (HostPort.idx f.port) f.seq f.op f.auth status []

/-- What the operation leaves in the flash; a read-back that differs leaves bytes that the spec does not state. -/
def flashEffect (s : State) (f : FlashOp) : State :=
  if f.op = 0x3004 then (if f.v.hwOk then saveCfg s else s)
  else if f.v.hwOk then
    if f.op = 0x3001 then flashErase s f.offset f.len else flashPut s f.offset f.data
  else
    let (v, s) := draw s
    let n := if f.op = 0x3001 then f.len else f.data.length
    flashPut s f.offset (leBytes v n)

/-- The operation ends: done, or its leave has been withdrawn (R443). -/
def flashComplete (s : State) : State :=
  match s.hcp.flash with
  | none => s
  | some f =>
    if f.granted then flashFinish (flashEffect s f) f (if f.v.hwOk then St.ok else St.badParam)
    else if s.pmu.pending.any (fun r => r.req == 9) then s
    else flashFinish s f St.noLeave

/-- The governor grants requester 9 (R49): a programming operation runs. -/
def flashGranted (s : State) : State :=
  { s with hcp := { s.hcp with flash := s.hcp.flash.map (fun f => { f with granted := true }) } }

/-- The governor fails requester 9 (R52): the operation ends with NO_LEAVE; a record of the epoch that is still due asks again
(R340). -/
def flashRefused (s : State) : State :=
  let s := match s.hcp.flash with
    | some f => flashFinish s f St.noLeave
    | none => s
  if s.erf.recordDue ∧ mode s ≠ .safehold then recordEpoch s else s

end Sys2Proof.Machine
end

