-- ==== Sys2Proof/Machine/Governor.lean ====
section
/-! DEFINITION. The power-leave governor's decisions (R48–R54). -/

namespace Sys2Proof.Machine

/-- The budget in force (R54). -/
def leaveBudget (s : State) : Nat :=
  match mode s with
  | .roost => getF s F.PMU_LEAVE_BUDGET_ROOST_BUDGET
  | _ => getF s F.PMU_LEAVE_BUDGET_BUDGET

/-- The policy of a requester (R51): 0 WAIT, 1 DEGRADE, 2 FAIL. -/
def policyOf (s : State) (req : Nat) : Nat := getF s (F.policy req)

/-- Leave may be granted to this requester in this mode (R54). -/
def mayGrant (s : State) (req : Nat) : Bool :=
  match mode s with
  | .safehold => req == 4
  | .boot => req == 9
  | _ => true

/-- A cost fits the budget beside the leave held (R49). -/
def leaveFits (s : State) (cost : Nat) : Bool := leaveUsed s + cost ≤ leaveBudget s

/-- The operation that a request is for, its leave to be accounted. -/
def holdLeave (s : State) (r : LeaveReq) (cost : Nat) : State :=
  if cost = 0 then s else { s with pmu := { s.pmu with held := s.pmu.held ++ [{ req := r.req, for_ := r.for_, cost }] } }

/-- The request is decided, and no longer pending. -/
def decided (s : State) (r : LeaveReq) : State :=
  { s with pmu := { s.pmu with pending := s.pmu.pending.filter (fun x => !(x.req == r.req && x.for_ == r.for_)) } }

/-- What a grant starts. -/
def onGrant (s : State) (r : LeaveReq) : State :=
  match r.req with
  | 5 => excGranted s
  | 6 => galGranted s
  | 7 => burstGranted s
  | 8 => sweepAnswer s true
  | 9 => flashGranted s
  | 10 => burnNow s
  | _ => s

/-- Grant a request (R49). -/
def grant (s : State) (r : LeaveReq) : State :=
  onGrant (setAnswer (holdLeave (decided s r) r (leaveCost s r.req r.level)) r.req r.for_ .granted r.level) r

/-- The highest line step below `lvl` whose cost fits, or 8 (R51). -/
def stepFits (s : State) (lvl : Nat) : Nat :=
  (((List.range 7).map (fun k => 15 - k)).find? (fun l => l < lvl && leaveFits s (leaveCost s 0 l))).getD 8

/-- A line port's frame goes at a lower step (R51, R53). -/
def degradeLine (s : State) (r : LeaveReq) (step : Nat) : State :=
  setAnswer (holdLeave (decided s r) r (leaveCost s r.req step)) r.req r.for_ .degraded step

/-- DEGRADE for the other requesters (R51, R229). -/
def degrade (s : State) (r : LeaveReq) : State :=
  let s := setAnswer (decided s r) r.req r.for_ .degraded 0
  match r.req with
  | 5 => excDegraded s
  | 6 => galRefused s
  | 7 => burstDegraded s
  | _ => s

/-- FAIL (R52): the operation is not performed. -/
def failReq (s : State) (r : LeaveReq) : State :=
  let s := setAnswer (inc (decided s r) F.PMU_LEAVE_DENY_FAILS) r.req r.for_ .failed 0
  match r.req with
  | 4 => leaveEvent s 4 1 4
  | 5 => excFailed s
  | 6 => galFailed s
  | 7 => burstFailed s
  | 8 => sweepAnswer s false
  | 9 => flashRefused s
  | 10 => burnRefused s
  | _ => s

/-- The end of a WAIT: a line port's frame goes at step 8, reported as degraded; any other request fails (R52, R53). -/
def waitEnd (s : State) (r : LeaveReq) : State :=
  if r.req < 4 then leaveEvent (degradeLine s r 8) r.req 0 r.req else failReq s r

/-- A request stays pending under WAIT, or ends at once where WAITMAX is zero (R52). -/
def waitOrFail (s : State) (r : LeaveReq) : State :=
  if getF s F.PMU_LEAVE_WAITMAX_WAITMAX = 0 then waitEnd s r
  else
    { s with pmu := { s.pmu with pending := s.pmu.pending.map (fun x =>
        if x.req = r.req ∧ x.for_ = r.for_ then { x with age := x.age + 1, refused := true } else x) } }

/-- A refused request meets its policy (R51–R54). -/
def refuse (s : State) (r : LeaveReq) : State :=
  let s := if r.refused then s else inc s F.PMU_LEAVE_DENY_REFUSALS
  if r.req < 4 then
    if mode s = .safehold then degradeLine s r 8
    else if r.beacon ∨ policyOf s r.req = 1 then degradeLine s r (stepFits s r.level)
    else waitOrFail s r
  else if r.req = 4 ∧ r.beacon then degrade s r
  else if mode s = .safehold then failReq s r
  else
    match policyOf s r.req with
    | 0 => waitOrFail s r
    | 1 => degrade s r
    | _ => failReq s r

/-- The decision on one request. A cost of zero needs no leave (R47). -/
def decideReq (s : State) (r : LeaveReq) : State :=
  let cost := leaveCost s r.req r.level
  if cost = 0 ∨ (mayGrant s r.req ∧ leaveFits s cost) then grant s r else refuse s r

/-- The decisions on requester `req`: its pending requests that were raised strictly before the boundary, in the order in which they were
raised (R48, log entry 179). -/
def decide1 (s : State) (req : Nat) : State :=
  (s.pmu.pending.filter (fun r => r.req == req && decide (r.at_ < ticks16 s.tbu.slotAt))).foldl decideReq s

/-- What a port asked leave for is still to come or under way. -/
def leaveWanted (s : State) (req : Nat) (f : LeaveFor) : Bool :=
  match f with
  | .link c => (link s c).st != .ready || (linkItem s req c).isSome
  | .access id => s.sfm.access.any (·.id == id)
  | _ => true

/-- A port's leave for an operation that is no more is released, and its request withdrawn (R50). -/
def tidyLeave (s : State) : State :=
  let ok (req : Nat) (f : LeaveFor) : Bool := decide (5 ≤ req) || leaveWanted s req f
  { s with pmu := { s.pmu with held := s.pmu.held.filter (fun h => ok h.req h.for_),
                               pending := s.pmu.pending.filter (fun r => ok r.req r.for_),
                               answers := s.pmu.answers.filter (fun a => ok a.req a.for_) } }

/-- The governor at a phase-slot boundary: every pending request in ascending requester index (R48, R49). A signature burst holds
its leave to the end of its phase slot, and a paced one goes on with two. -/
def governor (s : State) : State :=
  let s := tidyLeave (releaseLeave s 7)
  let s := pacedSlot { s with sec := { s.sec with sigs := 0 } }
  (List.range 11).foldl decide1 s

/-- WAITMAX phase slots have passed from a request that was refused at each of them (R52, R53). -/
def waitExpired (s : State) (req : Nat) : State :=
  let max := getF s F.PMU_LEAVE_WAITMAX_WAITMAX
  (s.pmu.pending.filter (fun r => r.req == req && r.refused && decide (max ≤ r.age))).foldl (fun s r => waitEnd s r) s

end Sys2Proof.Machine
end

