-- ==== Sys2Proof/Machine/Modes.lean ====
section
/-! DEFINITION. The PMU's rows: resets and their release (R456–R466), boot (R361, R362), the end of a mode transition (R35–R45),
ROOST (R43, R391), MODE_SET (R37, R39), the watchdog (R463) and the junction sensor (R44, R90, R467). -/

namespace Sys2Proof.Machine

/-! ### Resets -/

/-- SUPPLY_UNDERVOLTAGE (R458): the rail by its place in PMU_SUPPLY; with VDDAO the AON state goes too, and the cause names every
rail (R464). -/
def railFell (s : State) (rail : Nat) : State :=
  let s := if rail = 3 then powerOnReset { s with pmu := { s.pmu with shutdown := false, cause := 0 } } true (1 + 0xF00)
           else powerOnReset s false (1 + 2 ^ (8 + rail))
  setF s F.PMU_SUPPLY_GOOD (withBit 0xF rail false)

/-- The causes latched at the end of a reset: bits 0–6 and RAIL of PMU_RSTCAUSE (R466, R468). -/
def latchCauses (s : State) : State :=
  let c := s.pmu.cause
  let s := [(0, F.PMU_RSTCAUSE_SUPPLY), (1, F.PMU_RSTCAUSE_CLKFAIL), (2, F.PMU_RSTCAUSE_THERMEND), (3, F.PMU_RSTCAUSE_RESETN),
    (4, F.PMU_RSTCAUSE_DEVRESET), (5, F.PMU_RSTCAUSE_WDOG2), (6, F.PMU_RSTCAUSE_JTAG)].foldl
      (fun s e => if bit c e.1 then setFlag s e.2 else s) s
  setF s F.PMU_RSTCAUSE_RAIL (getF s F.PMU_RSTCAUSE_RAIL ||| bits c 8 4)

/-- RESET_RELEASE (R466): the cause shows, the straps and the OTP fields are taken, and the ROM starts. -/
def releaseReset (s : State) (pairId cmsnN : Bool) : State :=
  let s := latchCauses s
  let s : State := { s with pmu := { s.pmu with inReset := false, stretch := false, cause := 0, pairId, cmsnN }
                            sec := { s.sec with opSeq := s.nvm.opSeq } }
  let s := setFlag s F.PMU_PLLSTAT_XO_OK
  setF s F.ERF_EPOCH_EPOCH s.nvm.epoch

/-! ### Boot -/

/-- A node that was never joined and holds a context marked PARENT, restored or mirrored, is joined to it (R155, R349, R436;
DEDUCED, log entry 27). -/
def holdParent (s : State) : State :=
  match parentCtx s with
  | some c =>
    if getF s F.SFM_STAT_STATE ≠ 0 then s
    else
      setF (setF (setF (setF s F.SFM_PARENT_ADDR (cGet s c C.pshort)) F.SFM_PARENT_CTX c) F.SFM_STAT_PPORT (cPort s c))
        F.SFM_STAT_STATE 1
  | none => s

/-- Restore the committed configuration (R37, R436); a wrapped key whose MIC fails is absent (R357). -/
def loadCfg (s : State) (c : CfgRec) : State :=
  let s : State := { s with regs := c.regs.foldl (fun m e => assocSet m e.1 e.2) s.regs
                            sram := c.cells.foldl (fun m e => cellSet (sramReset e.1) m e.1 e.2) s.sram
                            mfe := { s.mfe with entries := table 48 0 c.scan }
                            pmu := { s.pmu with validCfg := true, paired := c.paired }
                            erf := { s.erf with pairExt := c.pairExt }
                            sec := { s.sec with nodeKey := c.nodeKey.bind (unwrapKey (storageKey s)), cert := c.cert, authKey := c.authKey,
                                                peerKey := c.peerKey, pairKey := c.pairKey.bind (unwrapKey (storageKey s)), opKeys := c.opKeys, hostKeys := c.hostKeys } }
  let s := sfmShadows { s with sfm := { s.sfm with slots := c.slots, roostNow := getF s F.SFM_ROOST_ROOST_PERIOD } }
  holdParent { s with rfx := { s.rfx with cfg := cfgWritten s }, tbu := { s.tbu with syncSel := getF s F.TBU_CFG_SYNCOUT_SEL } }

/-- The mode that a verified image enters first (R37, R362). -/
def firstMode (s : State) : Mode :=
  if s.chip.rootHash.isNone ∨ !s.pmu.cmsnN ∨ !s.pmu.validCfg then .commission
  else if s.pmu.paired then .spare
  else .operate

/-- The committed configuration is read, and its image stands in main SRAM (R37, R380, R390). -/
def readCfg (s : State) : State :=
  let s := memWrite s Base.image (s.nvm.opSeq.flatMap (fun x => leBytes x 4))
  match s.nvm.cfg with
  | some c => putImage (loadCfg { s with nvm := { s.nvm with boots := satAdd 32 s.nvm.boots 1 } } c) c
  | none => s

/-- A verified image starts (R361): its hash is retained, the firmware writes FWDATA (R41), the configuration record is read, and the firmware
goes to the first mode. -/
def startImage (s : State) (slot took : Nat) : State :=
  let s := setF (setF (setF s F.SEC_BOOTSTAT_SLOT slot) F.SEC_BOOTSTAT_IMGRB (hdrNat s slot 8 1)) F.SEC_VERSION_VERSION (hdrNat s slot 4 4)
  let s := setF (setFlag s F.PMU_PLLSTAT_XO_OK) F.PMU_PLLSTAT_LOCK (getF s F.PMU_PLLSTAT_LOCK ||| 7)
  let s := setF s F.PMU_BOOTTIME_TOFW (min took 65535)
  let s := readCfg (clearMem (memWrite s Base.hash (hdrBytes s slot 48 64)) 0x600000 0x80000)
  beginTrans (calCommit (cfgCommit s)) (firstMode s) .boot

/-- The verdicts that the headers alone give are recorded (R361). -/
def recordHeaders (s : State) : State :=
  [0, 1].foldl (fun s k => if slotCause s k = 0 ∧ headerCause s k ≠ 0 then recordSlot s k (headerCause s k) else s) s

/-- No candidate is left: BOOT recovery (R37, R361). -/
def romIdle (s : State) : State := if (romSlot s).isNone then { s with pmu := { s.pmu with recovery := true } } else s

/-- The ROM tries the candidate whose turn it is: the body goes into main SRAM while it is hashed (R361). -/
def tryImage (s : State) (slot took : Nat) : State :=
  let cause := bodyCause s slot
  let s := recordSlot (loadBody s slot) slot cause
  if cause = 1 then startImage s slot took else romIdle s

/-- IMAGE_CHECK_DONE (R361): the image runs, the other candidate is tried, or the device enters BOOT recovery. A candidate whose turn has not come is
not checked yet. -/
def imageChecked (s : State) (slot : Nat) (r : ImageResult) : State :=
  if s.pmu.mode ≠ .boot ∨ inHold s ∨ s.pmu.trans.isSome ∨ s.pmu.recovery ∨ slotCause s slot ≠ 0 then s
  else
    let s := recordHeaders (if r.readOk then s else recordSlot s slot 7)
    if romSlot s = some slot then tryImage s slot r.took else romIdle s

/-! ### ROOST (R43, R391) -/

/-- What the parking area takes (R390): the parent's link record, then the pool entries that its CURIX and ALTIX name, where they name one;
DESIGN CHOICE: each at a fixed place, zeros where there is none (log entry 31). -/
def parked (s : State) : Bytes :=
  match parentCtx s with
  | some c =>
    if cPort s c < 4 then
      let entry (i : Nat) : Bytes := if i < 4096 then memRead s (poolBase i) 256 else List.replicate 256 0
      let r := memRead s (recBase c) 64
      r ++ entry (u r 36 2) ++ entry (u r 38 2)
    else List.replicate 576 0
  | none => List.replicate 576 0

/-- The blocks that the firmware reads to park them. -/
def parkedReads (s : State) : List (Nat × Nat) :=
  match parentCtx s with
  | some c =>
    if cPort s c < 4 then
      (recBase c, 64) :: ([memNat s (recBase c + 36) 2, memNat s (recBase c + 38) 2].filter (· < 4096)).map (fun i => (poolBase i, 256))
    else []
  | none => []

/-- A field that an unit which is off in ROOST keeps: configuration, the ownership handshake and the epoch (R35, R36, R43). -/
def roostKeeps (s : State) (k : Nat) : Bool :=
  !([7, 8, 12, 13].contains (k / 32 / 0x10000 % 16)) || isSaved s k
    || [F.ERF_STAT_OWN_IN, F.ERF_STAT_OWN_OUT, F.ERF_STAT_GATE, F.ERF_EPOCH_EPOCH].any (fun f => fieldKey f == k)

/-- A stored word, by its key, is one of banks 14 and 15. -/
def retained (key : Nat) : Bool := 14 * 16384 ≤ key && key < 262144

/-- Entry to ROOST (R43, R391): the link to the parent is parked, the other banks and queue SRAM are lost, and MFE, DCH, HCP and
ERF lose all but their configuration. -/
def roostEnter (s : State) : State :=
  let s := (parkedReads s).foldl (fun s b => readMem s b.1 b.2) (clearCells s)
  let s := memWrite s Base.parking (parked s)
  let s := [5, 6, 8, 9, 10].foldl (fun s r => withdrawLeave (releaseLeave s r) r) s
  { s with
    sram := s.sram.filter (fun c => Base.contexts ≤ c.1)
    regs := s.regs.filter (fun e => roostKeeps s e.1)
    mqf := { s.mqf with queues := List.replicate 16 Queue.empty, staged := [],
                        flips := s.mqf.flips.filter (fun x => retained x.1), writebacks := s.mqf.writebacks.filter retained }
    mfe := { State.reset.mfe with entries := s.mfe.entries, lattice := s.mfe.lattice }
    dch := State.reset.dch
    hcp := State.reset.hcp
    erf := { State.reset.erf with pairExt := s.erf.pairExt, begun := s.erf.begun, recordDue := s.erf.recordDue }
    lce := { s.lce with work := [], results := [], raised := [], visible := [], triggers := [], writes := [], replies := [] }
    sfm := { s.sfm with awake := isOrphan s, wakeLeft := 0, roostNow := getF s F.SFM_ROOST_ROOST_PERIOD } }

/-- The scrubber's pass of R391 over banks 14 and 15: each word is decoded. -/
def exitPass (s : State) : State := readMem s Base.contexts 0x100000

/-- The retained hash is unreadable (R391). -/
def hashPoisoned (s : State) : Bool := poisoned s Base.hash 64

/-- The parked link goes back to where it was parked from (R391): record `r` of context `c`, and its two pool entries. -/
def unpark (s : State) (c : Nat) : State :=
  let b := memRead s Base.parking 576
  let put (s : State) (i at_ : Nat) : State := if i < 4096 then memWrite s (poolBase i) (slice b at_ 256) else s
  put (put (memWrite s (recBase c) (b.take 64)) (u b 36 2) 64) (u b 38 2) 320

/-- Every queue is empty, its four pointers at its first word (R405). -/
def queuesEmpty (s : State) : State := { s with mqf := { s.mqf with queues := List.replicate 16 Queue.empty, staged := [] } }

/-- Exit from ROOST: the parked link is copied back; every other line link starts on the open map; the queues are empty (R43, R391, R405).
DESIGN CHOICE: the pool entry of VIEWIX is not parked, so VIEWIX names none and the next element is FORM 0 (R150, log entry 218). -/
def roostLeave (s : State) : State :=
  let s := queuesEmpty (readMem s Base.parking 576)
  let s := (lineLinks s).foldl (fun s c =>
    if parentCtx s = some c then
      modLink (rSet (unpark s c) c R.viewix 0xFFFF) c (fun l => { l with full := true })
    else initRecord s c) (clearCells s)
  { s with sfm := { s.sfm with awake := false, wakeLeft := 0 } }

/-- ROOST_WAKE (R37, R43): HWAKE_N (no DI), or an edge of a DI, true for falling. The image is loaded again and checked against the retained
hash. -/
def roostWoken (s : State) (di : Option (Nat × Bool)) (readOk : Bool) : State :=
  let enabled := match di with
    | none => flag s F.PMU_ROOSTCTL_HWAKE_EN
    | some (i, falling) =>
      flag s F.PMU_ROOSTCTL_DIWAKE_EN && getF s F.PMU_ROOSTCTL_DIWAKE_SEL == i && flag s F.PMU_ROOSTCTL_DIWAKE_EDGE == falling
  if s.pmu.mode ≠ .roost ∨ s.pmu.trans.isSome ∨ !enabled then s
  else
    let bad := hashPoisoned s || !(readOk && reloadOk s)
    let s := exitPass s
    if bad then safeCause s F.PMU_SAFECAUSE_MEMPOISON
    else beginTrans (clearMem (loadBody s (getF s F.SEC_BOOTSTAT_SLOT)) 0x600000 0x80000) .operate .wake

/-! ### The end of a transition (R35–R45) -/

/-- Line drivers off, but for one that still sends its frame or the symbol in flight; TXGATE follows at the next phase slot (R36, R84,
R85, R95). -/
def driversOff (s : State) : State :=
  (List.range 4).foldl (fun s n => if driving s n then s else setF s (F.LPA_STAT_DRV n) 0) s

/-- A mode in which MFE and DCH run (R35). -/
def measures : Mode → Bool
  | .boot | .roost => false
  | _ => true

/-- A running sweep ends in SAFEHOLD, SPARE and ROOST (R35, R148). -/
def endSweeps (s : State) : State :=
  (List.range 4).foldl (fun s n =>
    if getF s (F.LPHY_SWSTAT_STATE n) = 1 ∨ getF s (F.LPHY_SWSTAT_STATE n) = 2 then withdrawLeave (sweepEnd s n 0 1) 8 else s) s

/-- The units' share of an entry to `new` from `old`: forced paths and test values stand in COMMISSION alone (R299, R310).  A line frame in
flight at an entry to SPARE is sent to its end, since none is truncated but by R83, a demotion, a reset and thermal shutdown (R104). -/
def enterMode (s : State) (old new : Mode) : State :=
  let s := if old = .roost then roostLeave s else s
  let s := if new = .commission then s else dropForce (dropTest s)
  let s := measMode (measures old || new == .safehold) (lceMode old new s)
  match new with
  | .safehold => endSweeps { s with nvm := { s.nvm with safes := satAdd 32 s.nvm.safes 1 } }
  | .roost => roostEnter (driversOff (endSweeps s))
  | .operate => holdParent s
  | .spare => driversOff (releaseOwn (cutRadio (endSweeps (mirrorOff { s with erf := { s.erf with spareAt := now s } }))))
  | _ => s

/-- The first mode after a boot: TOMODE (R468). -/
def noteBoot (s : State) (old : Mode) : State :=
  if old = .boot then setF s F.PMU_BOOTTIME_TOMODE (min 65535 (now s * 10 / 12288)) else s

/-- The end of a promotion: LASTDUR, from the decision that the peer is dead (R351). -/
def notePromotion (s : State) (kind : TransKind) : State :=
  match kind, s.erf.deadAt with
  | .promotion, some d =>
    setF { s with erf := { s.erf with deadAt := none } } F.ERF_TAKEOVER_LASTDUR (min 65535 ((now s - d) * 10 / 12288))
  | _, _ => s

/-- The new primary sends DELAY_REQ to its time parent in its first send allocation to it (R351, step 8). -/
def delayAfter (s : State) (kind : TransKind) : State :=
  match kind, parentCtx s with
  | .promotion, some c => if isRoot s then s else delayStart s c
  | _, _ => s

/-- Times and counts that a transition leaves: TOMODE (R468), LASTDUR (R351), boots and entries to SAFEHOLD since commissioning
(R383). -/
def noteTransition (s : State) (t : Trans) (old : Mode) : State :=
  let s := notePromotion (noteBoot s old) t.kind
  let s : State := if old = .safehold then { s with erf := { s.erf with silenced := false } } else s
  if old = .commission ∧ (t.target = .operate ∨ t.target = .spare) then { s with nvm := { s.nvm with boots := 0, safes := 0 } } else s

/-- MODE_TRANSITION_END (R45): PMU_MODE shows the new mode, and every unit acts by it. -/
def transitionEnd (s : State) : State :=
  match s.pmu.trans with
  | none => s
  | some t =>
    let old := s.pmu.mode
    let s : State := { s with pmu := { s.pmu with mode := t.target, prev := old, trans := none, race := none } }
    takeHostOut (modeEvent (noteTransition (delayAfter (enterMode s old t.target) t.kind) t old))

/-! ### MODE_SET (R37, R39) -/

/-- Some PMU_SAFECAUSE bit is set. -/
def anyCause (s : State) : Bool :=
  [F.PMU_SAFECAUSE_MEMPOISON, F.PMU_SAFECAUSE_WDOG, F.PMU_SAFECAUSE_THERM140, F.PMU_SAFECAUSE_OWNLOST, F.PMU_SAFECAUSE_HOSTCMD,
   F.PMU_SAFECAUSE_THERM150].any (flag s)

/-- The conditions of OPERATE to ROOST (R37, R173): sleepy end-node role by the certificate, unpaired, no children, no sequence
running, and a wake period that fits the port towards the parent. -/
def mayRoost (s : State) : Bool :=
  bit (u (s.sec.cert.getD []) 1 1) 1 && !s.pmu.paired && !(ctxTouched s).any (fun i => cEstablished s i && cChild s i)
    && !sequenceRuns s
    && (match parentCtx s with
        | some c => getF s F.SFM_ROOST_ROOST_PERIOD % gOf s (cPort s c) == 0
        | none => true)

/-- The request names the current mode; on a paired chip code 2 stands for OPERATE and SPARE alike (R39). -/
def namesMode (s : State) (c : Nat) : Bool :=
  c == Mode.code s.pmu.mode || (s.pmu.paired && c == 2 && s.pmu.mode == .spare)

/-- A MODE_SET out of SAFEHOLD waits for its causes to be cleared and the junction to cool (R39). -/
def leaveSafehold (s : State) (target : Mode) (ok : Bool) : State × Nat :=
  if anyCause s ∨ s.pmu.above130 then (s, St.busy)
  else if ok then (beginTrans s target .host, St.ok)
  else (s, St.badParam)

/-- MODE_SET, or the write of PMU_MODECTL.REQ that it stands for (R37, R39, R46). -/
def modeSet (s : State) (c : Nat) : State × Nat :=
  let run : Mode := if s.pmu.paired then .spare else .operate
  if c = 0 ∨ 4 < c then (s, St.badParam)
  else if s.pmu.trans.isSome then (s, St.busy)
  else if namesMode s c then (s, St.ok)
  else if c = 4 then (if s.pmu.mode = .boot then (s, St.badMode) else (safeCause s F.PMU_SAFECAUSE_HOSTCMD, St.ok))
  else
    match s.pmu.mode, c with
    | .commission, 2 => if s.pmu.validCfg then (beginTrans s run .host, St.ok) else (s, St.badParam)
    | .operate, 3 => if mayRoost s then (beginTrans s .roost .host, St.ok) else (s, St.badParam)
    | .safehold, 1 => leaveSafehold s .commission true
    | .safehold, 2 => leaveSafehold s run s.pmu.validCfg
    | _, _ => (s, St.badMode)

/-! ### Watchdog and junction -/

/-- SAFEHOLD was selected in this very cycle, so that a cause of the cycle arises beside its own and not in SAFEHOLD (R38). -/
def holdJustSelected (s : State) : Bool :=
  s.pmu.mode != .safehold && s.pmu.trans.isSome && s.pmu.race.any (fun r => r.at_ == now s)

/-- The cores restart the firmware from the FIRMWARE region once its hash is the retained one; its poisoned words are reported as they are read and
lead to a reload (R41, R396). -/
def coreRestart (s : State) : State :=
  let n := imageLen s (getF s F.SEC_BOOTSTAT_SLOT)
  let bad := poisoned s 0 n
  let ok := firmwareOk s
  let s := readMem (readMem s 0 n) Base.hash 64
  if bad then criticalPoison s true else if ok then coreReset s else systemReset s 32

/-- WATCHDOG_EXPIRY (R38, R41, R463). The watchdog is stopped in BOOT and ROOST. -/
def watchdog (s : State) : State :=
  if inHold s ∨ s.pmu.mode = .boot ∨ mode s = .roost then s
  else if mode s = .safehold ∧ !holdJustSelected s then systemReset (setFlag s F.PMU_SAFECAUSE_WDOG) 32
  else
    coreRestart (safeCause s F.PMU_SAFECAUSE_WDOG)

/-- The reading of the millisecond is known. -/
def noteTj (s : State) (tj : Nat) : State := setF { s with pmu := { s.pmu with tjMs := msNow s } } F.PMU_THERM_TJ tj

/-- The junction sensor's reading, 0.25 °C (R467, R468). -/
def readJunction (s : State) (tj : BitVec 12) : State :=
  let v := signed tj.toNat 12
  let s := noteTj s tj.toNat
  let top := if signed (tjMax s) 12 < v then tj.toNat else tjMax s
  let s : State := { s with pmu := { s.pmu with maxMs := msNow s + 1, above130 := decide (520 ≤ v) } }
  setF (setF s F.PMU_THERM_TJMAX top) F.DCH_DIETEMP_TJ (fOfInt v 2)

/-- The line-driver cap sets (R90): frames in flight fall at their next symbol, and each port that the integrated driver serves
reports it. -/
def capSet (s : State) : State :=
  if flag s F.PMU_THERM_FOLD then s
  else
    let s := inc (setFlag (setFlag s F.PMU_THERM_FOLD) F.LPA_THERM_ACTIVE) F.LPA_THERM_EPISODES
    let s := (List.range 4).foldl (fun s n =>
      if (line s n).tx.isSome ∧ !flag s (F.LPA_CTL_XMODE n) then modLine s n (fun l => { l with capDue := true }) else s) s
    (List.range (nLine s)).foldl (fun s n =>
      if flag s (F.LPA_CTL_EN n) ∧ !flag s (F.LPA_CTL_XMODE n) then lineEvent s n 2 else s) s

/-- The cap and the SAFEHOLD comparator clear (R90, R467). -/
def capClear (s : State) : State := setF (setF (setF s F.PMU_THERM_FOLD 0) F.PMU_THERM_HOT 0) F.LPA_THERM_ACTIVE 0

/-- Thermal shutdown (R44): every domain but AON loses power. -/
def thermalOff (s : State) : State :=
  let s := assertReset (setFlag s F.PMU_SAFECAUSE_THERM150) true false 0
  { s with pmu := { s.pmu with shutdown := true } }

/-! ### The phase-slot boundary -/

/-- A remote DEVICE_RESET acts once its reply has left the node (R436). -/
def resetWhenSent (s : State) : State :=
  let empty (q : Nat) : Bool := (queue s q).entries.isEmpty
  if s.hcp.resetDue ∧ s.mqf.staged.isEmpty ∧ empty 10 ∧ [0, 1, 2, 3, 8].all empty ∧ !(List.range 4).any (fun n => (line s n).tx.isSome)
      ∧ s.rfx.tx.isNone then systemReset s 16
  else s

/-- PHASE_SLOT_BOUNDARY (R48, R53, R61): the timebase, the governor, the line ports. -/
def phaseSlot (s : State) : State :=
  if inHold s then s else resetWhenSent (linePhaseSlot (tailsOver (governor (tbuPhaseSlot (mirSlot s)))))

/-! ### Meanings -/

/-- SUPPLY_UNDERVOLTAGE (R458). -/
def execSupplyUndervoltage (rail : Fin 4) (s : State) : Host.Outcome State Fault Refusal := .next (railFell s rail.val)

/-- SUPPLY_OVERVOLTAGE (R458): a sticky flag, and no reset. -/
def execSupplyOvervoltage (rail : Fin 4) (s : State) : Host.Outcome State Fault Refusal :=
  .next (if inHold s then s else setF s F.PMU_SUPPLY_OV (withBit (getF s F.PMU_SUPPLY_OV) rail.val true))

/-- RESET_N_LOW (R462). -/
def execResetNLow (s : State) : Host.Outcome State Fault Refusal := .next (systemReset s 8)

/-- CLOCK_LOSS (R461): PLL A, B, C, or XO. -/
def execClockLoss (_pll : Fin 4) (s : State) : Host.Outcome State Fault Refusal :=
  .next (if s.pmu.shutdown then s else powerOnReset s false 2)

/-- RTCK_LOSS (R461). -/
def execRtckLoss (s : State) : Host.Outcome State Fault Refusal := .next (if inHold s then s else setFlag s F.PMU_PLLSTAT_RTCKLOST)

/-- RESET_STRETCH_START (R466): RESET_N high, every rail good, XO running. -/
def execResetStretchStart (s : State) : Host.Outcome State Fault Refusal :=
  .next (
    if s.pmu.inReset ∧ !s.pmu.shutdown then
      setFlag (clearF { s with pmu := { s.pmu with stretch := true } } F.PMU_SUPPLY_GOOD) F.PMU_PLLSTAT_XO_OK
    else s)

/-- RESET_RELEASE (R466). -/
def execResetRelease (pairId cmsnN : Bool) (s : State) : Host.Outcome State Fault Refusal :=
  .next (if s.pmu.inReset ∧ s.pmu.stretch ∧ !s.pmu.shutdown then releaseReset s pairId cmsnN else s)

/-- IMAGE_CHECK_DONE (R361). -/
def execImageCheckDone (slot : Fin 2) (r : ImageResult) (s : State) : Host.Outcome State Fault Refusal :=
  .next (imageChecked s slot.val r)

/-- MODE_TRANSITION_END (R45). -/
def execModeTransitionEnd (s : State) : Host.Outcome State Fault Refusal := .next (transitionEnd s)

/-- WATCHDOG_EXPIRY (R463). -/
def execWatchdogExpiry (_ : Unit) (s : State) : Host.Outcome State Fault Refusal := .next (watchdog s)

/-- THERM_SAFEHOLD (R467): above 140 °C. -/
def execThermSafehold (tj : BitVec 12) (s : State) : Host.Outcome State Fault Refusal :=
  .next (
    if inHold s then s
    else
      let s := readJunction s tj
      if 560 < signed tj.toNat 12 then safeCause (setFlag s F.PMU_THERM_HOT) F.PMU_SAFECAUSE_THERM140 else s)

/-- THERMAL_SHUTDOWN (R44): 150 °C or more. -/
def execThermalShutdown (tj : BitVec 12) (s : State) : Host.Outcome State Fault Refusal :=
  .next (
    if s.pmu.shutdown then s
    else
      let s := readJunction s tj
      if 600 ≤ signed tj.toNat 12 then thermalOff s else s)

/-- THERMAL_SHUTDOWN_END (R44): below 125 °C. -/
def execThermalShutdownEnd (tj : BitVec 12) (s : State) : Host.Outcome State Fault Refusal :=
  .next (
    if s.pmu.shutdown ∧ signed tj.toNat 12 < 500 then
      powerOnReset { s with pmu := { s.pmu with shutdown := false, above130 := false } } false 4
    else s)

/-- THERMAL_CAP_SET (R90): 135 °C or more. -/
def execThermalCapSet (tj : BitVec 12) (s : State) : Host.Outcome State Fault Refusal :=
  .next (
    if inHold s then s
    else
      let s := readJunction s tj
      if 540 ≤ signed tj.toNat 12 then capSet s else s)

/-- THERMAL_CAP_CLEAR (R90): below 130 °C. -/
def execThermalCapClear (tj : BitVec 12) (s : State) : Host.Outcome State Fault Refusal :=
  .next (
    if inHold s then s
    else
      let s := readJunction s tj
      if signed tj.toNat 12 < 520 then capClear s else s)

/-- ROOST_WAKE (R37). -/
def execRoostWake (di : Option (Fin 16 × Bool)) (readOk : Bool) (s : State) : Host.Outcome State Fault Refusal :=
  .next (roostWoken s (di.map (fun d => (d.1.val, d.2))) readOk)

/-- JTAG_SYSTEM_RESET (R462): while DBGCLOSED is unburnt. -/
def execJtagSystemReset (s : State) : Host.Outcome State Fault Refusal :=
  .next (if s.chip.dbgClosed ∨ s.pmu.shutdown then s else systemReset s 64)

end Sys2Proof.Machine
end

