-- ==== Sys2Proof/Machine/RegRead.lean ====
section
/-! DEFINITION. REG_READ: the register space (R5–R7, R445–R455), the registers whose value is computed, the window registers,
latching reads (R451) and fields cleared by a read (R12). -/

namespace Sys2Proof.Machine

/-! ### Sources (R451) -/

def Src.idx : Src → Nat
  | .port p => HostPort.idx p
  | .remote => 3
  | .firmware => 4

def srcOf (s : State) (x : Src) : SrcState := nth SrcState.fresh s.hcp.srcs (Src.idx x)
def setSrc (s : State) (x : Src) (v : SrcState) : State :=
  { s with hcp := { s.hcp with srcs := s.hcp.srcs.set (Src.idx x) v } }

/-! ### Registers and variants -/

/-- The register at an address and the port it belongs to. -/
def regAt (a : Nat) : Option (RegDef × Nat) :=
  (regsOfUnit (a / 0x10000)).findSome? (fun r => ((List.range r.ports).find? (fun n => r.addr + 0x100 * n == a)).map (fun n => (r, n)))

/-- The register space (R445). -/
def spaceEnd : Nat := 0xE0000

/-- A register of an absent unit, port or resource (R5, R454). -/
def regAbsent (s : State) (r : RegDef) (n : Nat) : Bool :=
  match r.addr / 0x10000 with
  | 6 => !hasRadio s
  | 13 => !hasFull s
  | 2 | 3 | 4 | 5 => decide (1 < r.ports) && !portPresent s n
  | _ => [0x1003C, 0x10048, 0x1004C, 0x70044].contains r.addr && !hasFull s

/-- A field that governs an absent port or resource alone (R454). -/
def fieldAbsent (s : State) (f : Field) : Bool :=
  ([F.PMU_LEAVE_POLICY_POL4, F.PMU_LEAVE_COST0_RFX, F.MRT_COSTCFG_RFBASE, F.MRT_COSTCFG_RFRSSI, F.MRT_COSTCFG_RFBIAS,
    F.SFM_ROOST_DRIFT_RF].contains f && !hasRadio s)
  || ([F.PMU_LEAVE_POLICY_POL2, F.PMU_LEAVE_POLICY_POL3, F.MFE_TIACNT_SW1].contains f && !hasFull s)

/-- Where a field's value is kept: a window register's by the index that its selector names (R452). -/
def cellOf (s : State) (f : Field) : Field :=
  match f.addr with
  | 0x80004 | 0x80008 => win f (chSel s)
  | 0x80014 => win f (64 * getF s F.DCH_FIRWIN_BANK + getF s F.DCH_FIRWIN_TAP)
  | 0x80024 | 0x80028 | 0x8002C | 0x80030 | 0x80034 | 0x80038 => win f (detSel s)
  | 0x800A8 => win f (getF s F.DCH_LINIDX_WORD)
  | 0x9000C => win f (getF s F.LCE_TBLWIN_WORD)
  | _ => f

/-! ### Computed values -/

/-- The clock domain `d` of R459 runs (PMU_CLKSTAT); `ext` says so for the clocks that come from outside. -/
def clockRuns (s : State) (d : Nat) (ext : Bool) : Bool :=
  let m := mode s
  let on := m != .boot && m != .roost
  if d ≤ 3 then true
  else if [29, 33, 34, 36].contains d then
    ext && (if d = 36 then !s.chip.dbgClosed else if d = 29 then m != .roost else hasFull s && on)
  else if d = 37 then !s.chip.dbgClosed && m != .roost
  else if 10 ≤ d ∧ d ≤ 13 then on && m != .spare && portPresent s (d - 10)
  else if 14 ≤ d ∧ d ≤ 17 then on && portPresent s (d - 14)
  else if d = 20 ∨ d = 21 then on && hasRadio s
  else if [4, 7, 9].contains d ∨ (22 ≤ d ∧ d ≤ 28) then on
  else m != .roost

/-- A lag in whole degrees (TBU_PORTANG). -/
def lagDegrees (s : State) (ofs : Int) : Nat := (roundDiv (-ofs * 16 * 360) (per s) % 360).toNat

/-- ANGLE and VALID of a port (TBU_PORTANG). -/
def portAngle (s : State) (n : Nat) : Nat × Bool :=
  if !portPresent s n then (0, false)
  else if n = 0 then (0, (det s 0).st == .locked)
  else (lagDegrees s ((det s n).ofs.getD 0), (det s 0).st == .locked && (det s n).st == .locked)

/-- RFX_STAT.STATE: 0 off, 1 idle, 2 receive, 3 transmit. -/
def radioState (s : State) : Nat :=
  match mode s with
  | .boot => 0
  | m => if s.rfx.tx.any (fun t => !t.sent) ∨ acking s then 3 else if m = .roost ∧ !s.sfm.awake ∧ s.rfx.reacq.isNone then 0
         else if radioListens s then 2 else 1

def liveClocks (s : State) (lo n ext : Nat) : Nat :=
  sumN ((List.range n).map (fun k => if clockRuns s (lo + k) (bit ext (lo + k)) then 2 ^ k else 0))

/-- PMU's computed fields, by register address and lowest bit; `ext` is a free value for the clocks from outside. -/
def livePmu (s : State) (a lo ext : Nat) : Option Nat :=
  match a with
  | 0x0 => if lo = 16 then some s.chip.part else none
  | 0x100 =>
    match lo with
    | 0 => some (Mode.code s.pmu.mode)
    | 4 => some (Mode.code s.pmu.prev)
    | 7 => some (b2n s.pmu.trans.isSome)
    | 8 => some (b2n s.pmu.paired)
    | _ => some (b2n s.pmu.recovery)
  | 0x204 => some (if lo = 0 then leaveUsed s else sumN ((List.range 11).map (fun n => if holdsLeave s n then 2 ^ n else 0)))
  | 0x30C => (match lo with | 0 => some (tjNow s) | 16 => some (tjMax s) | _ => none)
  | 0x310 => some (liveClocks s 1 32 ext)
  | 0x314 => some (liveClocks s 33 8 ext)
  | _ => none

/-- LPA_VLD.MV, read every 1 ms (R96). -/
def liveLpa (s : State) (a lo : Nat) : Option Nat := if a = 0x20800 ∧ lo = 0 then some (vldNow s) else none

def liveTbu (s : State) (x : SrcState) (a lo : Nat) : Option Nat :=
  match a with
  | 0x10004 => if lo = 8 ∧ isRoot s then some 1 else none
  | 0x1000C => some (freqMilli s)
  | 0x10010 => if lo = 4 then some (aslotNow s) else if lo = 11 then some (aslotNow s / 2) else none
  | 0x10018 => some (now s % 2 ^ 32)
  | 0x1001C => some x.timeHi
  | 0x10038 | 0x1003C =>
    let p := portAngle s ((if a = 0x10038 then 0 else 2) + (if 16 ≤ lo then 1 else 0))
    some (if lo % 16 = 0 then p.1 else b2n p.2)
  | _ => none

/-- A cell of the phase-impedance map or of the sweep table, as the window selects it. -/
def mapData (s : State) (n : Nat) : Nat :=
  let i := getF s (F.LPHY_MAPWIN_INDEX n)
  if flag s (F.LPHY_MAPWIN_SEL n) then
    let e := sweepEntry (line s n) i
    e.1 + 2 ^ 16 * e.2.1 + 2 ^ 32 * e.2.2
  else cellWord (cellGet (line s n) i)

def liveLphy (s : State) (x : SrcState) (a n lo : Nat) : Option Nat :=
  match a with
  | 0x30000 => if lo = 8 then some (lanesOf (portMask s n)) else if lo = 16 then some (hsymOf (lanesOf (portMask s n))) else none
  | 0x30060 => some (mapData s n % 2 ^ 32)
  | 0x30064 => some (nth 0 x.mapHi n)
  | 0x30808 => if lo = 0 then some (4096 - (poolUsed s).eraseDups.length) else none
  | _ => none

def liveSfm (s : State) (a n lo : Nat) : Option Nat :=
  match a with
  | 0x40004 =>
    let l := layout s n
    match lo with
    | 0 => some l.wb
    | 7 => some l.gexp
    | 10 => some l.jstart
    | 17 => some l.dstart
    | _ => some l.uspan
  | 0x4080C => some (slotWord s (getF s F.SFM_SLOTWIN_BANK) (getF s F.SFM_SLOTWIN_PORT) (getF s F.SFM_SLOTWIN_ENTRY))
  | _ => none

def liveMrt (s : State) (x : SrcState) (a n lo : Nat) : Option Nat :=
  match a with
  | 0x50000 => if lo = 16 then some (jlenOf s n) else none
  | 0x50810 => some (if lo = 0 then ownAddr s else b2n (ownValid s))
  | 0x50814 => some (nodeExt s % 2 ^ 32)
  | 0x50818 => some (nodeExt s / 2 ^ 32 % 2 ^ 32)
  | 0x50828 => some (ftWord s (getF s F.MRT_FTWIN_DEST) % 2 ^ 32)
  | 0x5082C => some x.ftHi
  | _ => none

def liveRfx (s : State) (a lo : Nat) : Option Nat :=
  match a with
  | 0x60014 => if lo = 16 then some (dutyUsed s) else none
  | 0x60018 => if lo = 0 then some (radioState s) else none
  | _ => none

def liveMfe (s : State) (a lo : Nat) : Option Nat :=
  match a with
  | 0x70004 => if lo = 16 then some (b2n (pllM s)) else none
  | 0x70024 => if lo = 0 then some (scanState s) else none
  | 0x70028 => some (settleUs s % 2 ^ 24)
  | 0x70030 => some (scanEntry s (getF s F.MFE_SCANWIN_ENTRY) % 2 ^ 32)
  | 0x70034 => some (scanEntry s (getF s F.MFE_SCANWIN_ENTRY) / 2 ^ 32)
  | _ => none

def liveDch (s : State) (x : SrcState) (a lo : Nat) : Option Nat :=
  let c := chan s (chSel s)
  match a with
  | 0x80008 => if lo = 0 then some ((c.hist.head?.map (·.tag)).getD 0) else if lo = 4 then some ((quot 12 ((settleOf s (chSel s) - now s) * 100 : Nat) 12288).toNat) else none
  | 0x80034 => some x.det1
  | 0x80038 => match lo with | 0 => some x.detTag | 2 => some (b2n (detBeyond s (detSel s))) | _ => none
  | 0x800C4 => some (fOfInt (signed (tjNow s) 12) 2)
  | _ => none

def liveLce (s : State) (x : SrcState) (a lo : Nat) : Option Nat :=
  match a with
  | 0x90000 => if lo = 0 then some (lceState s) else none
  | 0x90014 => some (objStat0 s)
  | 0x90018 => some x.obj1
  | _ => none

def liveSec (s : State) (a lo : Nat) : Option Nat :=
  let mask (l : List (Option Bytes)) : Nat := leNat [BitVec.ofNat 8 (sumN (l.mapIdx (fun k e => if e.isSome then 2 ^ k else 0)))]
  match a with
  | 0xA0000 =>
    match lo with
    | 2 => some (b2n s.sec.nodeKey.isSome)
    | 3 => some (b2n s.sec.cert.isSome)
    | 4 => some (b2n s.sec.authKey.isSome)
    | 5 => some (b2n s.sec.pairKey.isSome)
    | 8 => some (mask s.sec.opKeys)
    | 12 => some (mask s.sec.hostKeys)
    | 16 => some ((s.sec.gkey.map (·.1)).getD 0)
    | 24 => some (b2n s.sec.gpend.isSome)
    | _ => none
  | 0xA0004 => match lo with | 7 => some (b2n (unprov s)) | 8 => some (rollbackLevel s) | _ => none
  | 0xA000C => some (match lo with | 0 => b2n s.chip.rootLock | 1 => b2n s.chip.dbgClosed | _ => s.chip.trust)
  | 0xA0030 => some (hport s (lo / 2)).sess.state
  | _ => if 0xA0010 ≤ a ∧ a ≤ 0xA002C then some (u (devPub s) (a - 0xA0010) 4) else none

def liveMqf (s : State) (a lo : Nat) : Option Nat :=
  let ecc := assocGet (0, 0, 0) s.mqf.ecc (getF s F.MQF_ECCWIN_TARGET)
  let q := getF s F.MQF_QWIN_QUEUE
  let qc := qcnt s q
  let b := arb s (getF s F.MQF_ARBWIN_BANK)
  let r := getF s F.MQF_ARBWIN_REQ
  match a with
  | 0xB0014 => some ecc.1
  | 0xB0018 => some ecc.2.1
  | 0xB001C => some ecc.2.2
  | 0xB0034 =>
    let k := queue s q
    match lo with
    | 0 => some (qUsed k + k.opened.getD 0)
    | 12 => some (k.entries.filter (fun e => !e.released)).length
    | 23 => some (b2n (match k.entries.getLast? with | some e => (match e.item with | .gap _ => !e.released | _ => false) | none => false))
    | _ => some (b2n k.opened.isSome)
  | 0xB0038 => some (match lo with | 0 => qc.1 | 16 => qc.2.1 | _ => qc.2.2.1)
  | 0xB003C => some (if lo = 0 then qc.2.2.2.1 else qc.2.2.2.2)
  | 0xB0044 => some (nth 0 b.grants r)
  | 0xB0048 => some (nth 0 b.waits r)
  | 0xB004C => some (match lo with | 0 => nth 0 b.longest r | 16 => nth 0 b.ranks r | 20 => nth 0 b.hintPos r | _ => nth 0 b.hintWait r)
  | _ => none

def liveErf (s : State) (a lo : Nat) : Option Nat :=
  match a with
  | 0xD0008 => match lo with | 0 => some (role s) | 5 => some (b2n s.pmu.pairId) | _ => none
  | 0xD0014 => if lo = 0 then some (mirLag s) else none
  | _ => none

/-- The computed value of a field, none where the stored one is read. -/
def live (s : State) (x : SrcState) (base n lo ext : Nat) : Option Nat :=
  match base / 0x10000 with
  | 0 => livePmu s base lo ext
  | 1 => liveTbu s x base lo
  | 2 => liveLpa s base lo
  | 3 => liveLphy s x base n lo
  | 4 => liveSfm s base n lo
  | 5 => liveMrt s x base n lo
  | 6 => liveRfx s base lo
  | 7 => liveMfe s base lo
  | 8 => liveDch s x base lo
  | 9 => liveLce s x base lo
  | 10 => liveSec s base lo
  | 11 => liveMqf s base lo
  | 13 => liveErf s base lo
  | _ => none

/-- In BOOT the blocks of units that are Off read as after reset (R35); the values fixed for the chip, the strap and the
provisional allocation length stand. -/
def offReset (s : State) (base lo : Nat) : Bool :=
  s.pmu.mode == .boot &&
    (match base / 0x10000 with
     | 2 | 3 | 4 | 6 | 7 | 8 | 9 => true
     | 5 => !([0x50000, 0x50814, 0x50818].contains base)
     | 13 => !(base == 0xD0008 && lo == 5)
     | _ => false)

/-- The value of a field as a source reads it: WO fields and fields of absent resources read 0. -/
def fieldRead (s : State) (x : SrcState) (base n ext : Nat) (f : Field) : Nat :=
  if f.acc = .wo ∨ fieldAbsent s f then 0
  else if offReset s base f.lo then f.reset
  else ((live s x base n f.lo ext).getD (getF s (cellOf s f))) % 2 ^ f.width

/-- The word of a register. -/
def regWord (s : State) (src : Src) (r : RegDef) (n ext : Nat) : Nat :=
  sumN ((r.fields n).map (fun f => fieldRead s (srcOf s src) r.addr n ext f * 2 ^ f.lo))

/-! ### What a read brings about -/

/-- The partner that a latching read latches (R451). -/
def latch (s : State) (src : Src) (base n : Nat) : State :=
  let x := srcOf s src
  match base with
  | 0x30C => { s with pmu := { s.pmu with maxMs := msNow s + 1 } }
  | 0x10018 => setSrc s src { x with timeHi := now s / 2 ^ 32 }
  | 0x30060 => setSrc s src { x with mapHi := x.mapHi.set n (mapData s n / 2 ^ 32) }
  | 0x50828 => setSrc s src { x with ftHi := ftWord s (getF s F.MRT_FTWIN_DEST) / 2 ^ 32 }
  | 0x80030 => setSrc s src { x with det1 := (detSlot s (detSel s)).val1, detTag := detF s F.DCH_DETSTAT_TAG (detSel s) }
  | 0x90014 => setSrc s src { x with obj1 := objStat1 s }
  | _ => s

/-- The counters of MQF's windows that a read clears. -/
def clearMqf (s : State) (base : Nat) : State :=
  let t := getF s F.MQF_ECCWIN_TARGET
  let ecc := assocGet (0, 0, 0) s.mqf.ecc t
  let put (e : Nat × Nat × Nat) : State := { s with mqf := { s.mqf with ecc := assocSet s.mqf.ecc t e } }
  let q := getF s F.MQF_QWIN_QUEUE
  let qc := qcnt s q
  let b := getF s F.MQF_ARBWIN_BANK
  let r := getF s F.MQF_ARBWIN_REQ
  let a := arb s b
  match base with
  | 0xB0014 => put (0, ecc.2)
  | 0xB0018 => put (ecc.1, 0, ecc.2.2)
  | 0xB001C => put (ecc.1, ecc.2.1, 0)
  | 0xB0038 => setQcnt s q (0, 0, 0, qc.2.2.2)
  | 0xB003C => setQcnt s q (qc.1, qc.2.1, qc.2.2.1, 0, 0)
  | 0xB0044 => setArb s b { a with grants := a.grants.set r 0 }
  | 0xB0048 => setArb s b { a with waits := a.waits.set r 0 }
  | 0xB004C => setArb s b { a with longest := a.longest.set r 0 }
  | _ => s

/-- RC fields clear (R12). -/
def clearRc (s : State) (r : RegDef) (n : Nat) : State :=
  if r.addr / 0x10000 = 11 ∧ r.addr ≠ 0xB0024 then clearMqf s r.addr
  else (r.fields n).foldl (fun s f => if f.acc = .rc then setF s (cellOf s f) 0 else s) s

/-- Read one register (R7, R12, R451): its value, and whether the read met poison in main SRAM. -/
def readReg (s : State) (src : Src) (a : Nat) : State × Nat × Bool :=
  match regAt a with
  | none => (s, 0, false)
  | some (r, n) =>
    if regAbsent s r n then (s, 0, false)
    else
      let e := if a = 0x310 ∨ a = 0x314 then draw s else (0, s)
      let s := measDue e.2 r.addr
      let v := regWord s src r n e.1
      let at_ := ftAddr (getF s F.MRT_FTWIN_DEST)
      let bad := r.addr == 0x50828 && poisoned s at_ 8
      let s := if r.addr = 0x50828 then readMem s at_ 8 else s
      (clearRc (latch s src r.addr n) r n, v, bad)

/-- Read `k` registers from `a` upwards (R447). -/
def readRegs (s : State) (src : Src) (a : Nat) : Nat → State × Bytes × Bool
  | 0 => (s, [], false)
  | k + 1 =>
    let r := readReg s src a
    let t := readRegs r.1 src (a + 4) k
    (t.1, leBytes r.2.1 4 ++ t.2.1, r.2.2 || t.2.2)

end Sys2Proof.Machine
end

