-- ==== Sys2Proof/Machine/RegWrite.lean ====
section
/-! DEFINITION. REG_WRITE: which writes are rejected and with which status (R11, R450–R453 and the Meaning columns of the
register tables), what is stored, and what a write brings about. -/

namespace Sys2Proof.Machine

/-! ### Checks

Each check takes the register's base address, its port, the value written and the state, and answers the status. -/

/-- Policies a requester permits, by code (R51). -/
def policyOk (req p : Nat) : Bool :=
  if req < 4 ∨ req = 7 then p ≤ 1
  else if req = 5 ∨ req = 6 then p = 1 || p = 2
  else p = 0 || p = 2

/-- Line-step costs 9–15 as a write of either cost register leaves them. -/
def stepCosts (s : State) (a v : Nat) : List Nat :=
  let lo := [F.PMU_LEAVE_LPCOST0_STEP9, F.PMU_LEAVE_LPCOST0_STEP10, F.PMU_LEAVE_LPCOST0_STEP11, F.PMU_LEAVE_LPCOST0_STEP12]
  let hi := [F.PMU_LEAVE_LPCOST1_STEP13, F.PMU_LEAVE_LPCOST1_STEP14, F.PMU_LEAVE_LPCOST1_STEP15]
  (lo ++ hi).map (fun f => if f.addr = a then fld f v else getF s f)

def noFall : List Nat → Bool
  | a :: b :: t => a ≤ b && noFall (b :: t)
  | _ => true

def pmuCheck (s : State) (a v : Nat) : Nat :=
  match a with
  | 0x104 => (modeSet s (fld F.PMU_MODECTL_REQ v)).2
  | 0x200 => need (fld F.PMU_LEAVE_BUDGET_BUDGET v ≤ 440 && fld F.PMU_LEAVE_BUDGET_ROOST_BUDGET v ≤ 440)
  | 0x208 => need ((List.range 11).all (fun n => fieldAbsent s (F.policy n) || policyOk n (bits v (2 * n) 2)))
  | 0x210 | 0x214 => need (noFall (stepCosts s a v))
  | 0x308 => need (10 ≤ fld F.PMU_RSTCTL_WDT_MS v)
  | _ => 0

/-- TBU (R81).  DESIGN CHOICE: R76 answers BUSY to any write of TBU_REEPOCH while a shift or re-epoch is pending, and OK to a
write of SHIFT 0; where both hold the answer is BUSY. -/
def tbuCheck (s : State) (a v : Nat) : Nat :=
  match a with
  | 0x10000 =>
    need (fld F.TBU_CFG_NOMF v != 3 && fld F.TBU_CFG_TRACK_SHIFT v != 0 && 1 ≤ fld F.TBU_CFG_PHTOL v && fld F.TBU_CFG_PHTOL v ≤ 29
      && fld F.TBU_CFG_SYNC_WINDOW v != 0)
  | 0x10024 => if isRoot s then St.ok else St.badMode
  | 0x10028 => need (!isRoot s || (-200000 ≤ signed v 32 && signed v 32 ≤ 200000))
  | 0x10030 =>
    let x := signed (fld F.TBU_REEPOCH_SHIFT v) 24
    if !isRoot s then St.badMode
    else if ¬(-2097152 < x ∧ x < 2097152) then St.badParam
    else if s.tbu.countdown ≠ 0 ∨ s.tbu.nextShift ≠ 0 then St.busy
    else St.ok
  | _ => 0

/-- The writes of LPA that are turned away (R91, R96).  DESIGN CHOICE: with the driver not OFF a write of LPA_CTL that leaves XMODE as it is acts
on the other fields (log entry 214). -/
def lpaCheck (s : State) (a n v : Nat) : Nat :=
  match a with
  | 0x20000 =>
    firstBad [need (5 ≤ fld (F.LPA_CTL_ILIM n) v && fld (F.LPA_CTL_ILIM n) v ≤ 25 && fld (F.LPA_CTL_XISCALE n) v != 0),
              if fld (F.LPA_CTL_XMODE n) v ≠ getF s (F.LPA_CTL_XMODE n) ∧ getF s (F.LPA_STAT_DRV n) ≠ 0 then St.busy else St.ok]
  | 0x20004 => need (fld (F.LPA_LEVEL_ACK_LEVEL n) v ≤ 8)
  | 0x20008 => need (fld (F.LPA_RX_GAIN n) v ≤ 16)
  | _ => 0

/-- Lanes of a CUSTOM mask once word `w` holds `v` (R102). -/
def maskWith (s : State) (n w v : Nat) : Nat :=
  popCount v 32 + sumN ((List.range 4).map (fun k => if k = w then 0 else popCount (getF s (F.laneMask n k)) 32))

def sweepCheck (s : State) (n v : Nat) : Nat :=
  let start := fld (F.LPHY_SWEEP_FSTART n) v
  let stop := fld (F.LPHY_SWEEP_FSTOP n) v
  firstBad [
    if fld (F.LPHY_SWEEP_FREE n) v = 1 ∧ mode s ≠ .commission then St.badMode else St.ok,
    if fld (F.LPHY_SWEEP_GO n) v = 1 ∧ ¬((mode s = .commission ∨ mode s = .operate) ∧ hasSense s n) then St.badMode else St.ok,
    need (12 ≤ start && start ≤ 523 && start ≤ stop && stop ≤ 523 && fld (F.LPHY_SWEEP_FSTEP n) v != 0),
    if fld (F.LPHY_SWEEP_GO n) v = 1 ∧ (getF s (F.LPHY_SWSTAT_STATE n) = 1 ∨ getF s (F.LPHY_SWSTAT_STATE n) = 2) then St.busy
      else St.ok]

def lphyCheck (s : State) (a n v : Nat) : Nat :=
  match a with
  | 0x30000 => need (bits v 0 3 ≤ 3 || (bits v 0 3 = 4 && 8 ≤ lanesOf (customMask s n)))
  | 0x30004 => need (fld (F.LPHY_MODESEL_THR_N n) v < fld (F.LPHY_MODESEL_THR_P n) v
      && fld (F.LPHY_MODESEL_THR_4 n) v < fld (F.LPHY_MODESEL_THR_N n) v)
  | 0x30008 => need (fld (F.LPHY_RXCTL_PRE_WIN n) v ≤ 200 && fld (F.LPHY_RXCTL_IMP_WIDE n) v != 0 && 5 ≤ fld (F.LPHY_RXCTL_ACK_FRAC n) v
      && 16 ≤ fld (F.LPHY_RXCTL_PRE_THR n) v)
  | 0x30010 | 0x30014 | 0x30018 | 0x3001C =>
    need (getF s (F.LPHY_BAND_PRESET n) != 4 || 8 ≤ maskWith s n ((a - 0x30010) / 4) v)
  | 0x30040 => need (fld (F.LPHY_ECHOCFG_LIVE_OFF n) v < fld (F.LPHY_ECHOCFG_LIVE_ON n) v && fld (F.LPHY_ECHOCFG_ZSTEP n) v != 0)
  | 0x30044 => need (fld (F.LPHY_ECHOAGE_CHG_MIN n) v != 0)
  | 0x30048 => need (bits v 0 16 != 0 && -1800 ≤ signed (bits v 16 12) 12 && signed (bits v 16 12) 12 ≤ 1800)
  | 0x3004C => sweepCheck s n v
  | 0x30050 => need (bits v 0 16 != 0)
  | 0x3005C => need (fld (F.LPHY_MAPWIN_SEL n) v = 0 || (12 ≤ bits v 0 11 && bits v 0 11 ≤ 523))
  | 0x30804 => need (bits v 0 12 ≤ 2048 && bits v 20 4 != 0)
  | _ => 0

/-- The G that ROOST_PERIOD must be a multiple of (R175). -/
def roostG (s : State) : Nat :=
  match parentCtx s with
  | some c => gOf s (cPort s c)
  | none => (ports s).foldl (fun g n => max g (gOf s n)) 1

def sfmCheck (s : State) (a n v : Nat) : Nat :=
  match a with
  | 0x40000 => need (fld (F.SFM_PORTCFG_AUTOLEN n) v ≤ 16)
  | 0x40800 => need (1 ≤ fld F.SFM_CFG_BEMAX v && fld F.SFM_CFG_BEMAX v ≤ 6)
  | 0x40804 => need (fld F.SFM_SLOTCTL_SWAP v = 0 || swapOk s)
  | 0x40808 => if 5 ≤ bits v 0 3 then St.badParam else if portPresent s (bits v 0 3) then St.ok else St.unitAbsent
  | 0x4080C => need (getF s F.SFM_SLOTWIN_BANK != activeBank s)
  | 0x40810 => need (1 ≤ bits v 0 13 && bits v 0 13 ≤ 4096 && bits v 0 13 % roostG s = 0)
  | _ => 0

def mrtCheck (s : State) (a n v : Nat) (held : Nat) : Nat :=
  match a with
  | 0x50000 => need (32 ≤ fld (F.MRT_JOIN_JSEG n) v && fld (F.MRT_JOIN_JSEG n) v ≤ 1024)
  | 0x50800 =>
    let ok (f : Field) : Bool := 1 ≤ fld f v && fld f v ≤ 32
    need (ok F.MRT_CFG_MAXDEPTH && ok F.MRT_CFG_RREQ_SCOPE && fld F.MRT_CFG_DROP_MAX v != 0)
  | 0x50804 => need (fld F.MRT_LIFE_ROUTE_LIFE v != 0 && 4 ≤ fld F.MRT_LIFE_JOIN_LIFE v)
  | 0x50808 => need (!hasRadio s || fld F.MRT_COSTCFG_RFBASE v != 0)
  | 0x5082C =>
    let w := held + 2 ^ 32 * v
    let d := getF s F.MRT_FTWIN_DEST
    let old := ftWord s d
    -- parent choice alone writes the UP entry's place (R192)
    need (((ftKind w = 3 && ftValid w) || (!ftValid w && !(ftValid old && ftKind old = 0))) && (d != 0 || isRoot s))
  | 0x50830 => if fld F.MRT_RREQ_GO v = 1 ∧ !rreqAllowed s (fld F.MRT_RREQ_TARGET v) then St.busy else St.ok
  | _ => 0

/-- Transmit power code (R234): −10 to +14 dBm. -/
def powerOk (x : Nat) : Bool := -10 ≤ signed x 6 && signed x 6 ≤ 14

/-- A write of RFX_CFG or RFX_CHAN that leaves the channel outside the band is rejected (R217; log entry 59). -/
def rfxCheck (s : State) (a v : Nat) : Nat :=
  match a with
  | 0x60000 =>
    need (4 ≤ fld F.RFX_CFG_PRE v && chanOk (fld F.RFX_CFG_BAND v) (fld F.RFX_CFG_RATE v) (getF s F.RFX_CHAN_CENTRE))
  | 0x60004 => need (chanOk (getF s F.RFX_CFG_BAND) (getF s F.RFX_CFG_RATE) (fld F.RFX_CHAN_CENTRE v))
  | 0x60008 =>
    let lead := fld F.RFX_PWR_PA_LEAD v
    need (powerOk (fld F.RFX_PWR_TXPWR v) && powerOk (fld F.RFX_PWR_ACK_PWR v) && 1 ≤ lead && lead ≤ 100)
  | 0x60010 => need (10 ≤ fld F.RFX_RXCTL_RX_WIN v && fld F.RFX_RXCTL_RX_WIN v ≤ 250)
  | 0x60014 => need (1 ≤ fld F.RFX_DUTY_DUTYMAX v && fld F.RFX_DUTY_DUTYMAX v ≤ 1000)
  | _ => 0

/-- A target of MQF_ECCWIN that this variant has (R394): 0–15 the banks, 16–31 the queues. -/
def eccTarget (s : State) (t : Nat) : Bool := t < 16 || queuePresent s (t - 16)

def mqfCheck (s : State) (a v : Nat) : Nat :=
  match a with
  | 0xB0000 => need (fld F.MQF_CFG_SCRUB_PERIOD v ≤ 3600)
  | 0xB0010 => if eccTarget s (bits v 0 5) then St.ok else St.unitAbsent
  | 0xB0030 => if queuePresent s (bits v 0 4) then St.ok else St.unitAbsent
  | 0xB0040 => need (bits v 4 4 ≤ 11)
  | _ => 0

/-- The status of a write by its Meaning columns. -/
def writeCheck (s : State) (x : SrcState) (base n v : Nat) (vd : Verdicts) : Nat :=
  match base / 0x10000 with
  | 0 => pmuCheck s base v
  | 1 => tbuCheck s base v
  | 2 => lpaCheck s base n v
  | 3 => lphyCheck s base n v
  | 4 => sfmCheck s base n v
  | 5 => mrtCheck s base n v x.heldFt
  | 6 => rfxCheck s base v
  | 7 => mfeCheck s base v x.heldScan
  | 8 => dchCheck s base v
  | 9 => lceCheck s base v
  | 10 => if base = 0xA0034 then need (fld F.SEC_CFG_SESSIDLE v != 0) else St.ok
  | 11 => mqfCheck s base v
  | 13 => erfCheck s base v vd
  | _ => St.ok

/-- What a rejected write leaves behind. -/
def writeRejected (s : State) (base v : Nat) : State :=
  match base / 0x10000 with
  | 8 => if base = 0x800A0 then linsetRejected s v else s
  | 9 => lceRejected s base v
  | 13 => erfRejected s base v
  | _ => s

/-! ### Stores -/

/-- Fields whose write acts on something else than a stored value. -/
def unstored (f : Field) : Bool :=
  [F.SFM_SLOTDATA_ENTRY, F.MRT_FTDATALO_DATALO, F.MRT_FTDATAHI_DATAHI, F.MFE_SCANDATA0_DATA0, F.MFE_SCANDATA1_DATA1].contains f

/-- Store one field of an accepted write (R12, R454). The THERM140 bit stays while the junction is above 130 °C. -/
def storeField (s : State) (v : Nat) (f : Field) : State :=
  if fieldAbsent s f ∨ unstored f then s
  else
    match f.acc with
    | .rw | .rwl => setF s (cellOf s f) (fld f v)
    | .rwRoot => if isRoot s then setF s f (fld f v) else s
    | .w1c =>
      if f = F.PMU_SAFECAUSE_THERM140 ∧ 520 < signed (getF s F.PMU_THERM_TJ) 12 then s
      else setF s (cellOf s f) (getF s (cellOf s f) &&& (2 ^ f.width - 1 - fld f v))
    | _ => s

/-! ### Effects -/

/-- The node becomes the domain root: DOFS and AGGOFS are 0, and D, the slots, the cycles and the intervals follow (R61, R281). -/
def takeRoot (s : State) : State :=
  let s := setF (setF s F.TBU_DBO_DOFS 0) F.DCH_AGG_AGGOFS 0
  relocate { s with tbu := { s.tbu with cyc := boundCyc s s.tbu.boundAt } }

def tbuAct (old s : State) (src : Src) (a v : Nat) : State :=
  match a with
  | 0x10000 =>
    if isRoot s && !isRoot old then takeRoot s else s
  | 0x10020 => setSrc s src { srcOf s src with heldTime := v }
  | 0x10024 =>
    { s with tbu := { s.tbu with armed := some (BitVec.ofNat 64 ((srcOf s src).heldTime + 2 ^ 32 * v)), slew := 0, slewAcc := 0 } }
  | 0x10030 =>
    let x := signed (fld F.TBU_REEPOCH_SHIFT v) 24
    if x = 0 then s
    else setF { s with tbu := { s.tbu with shift := x, countdown := 5, reepoch := true } } F.TBU_REEPOCH_COUNT 5
  | _ => s

def lphyAct (s : State) (a n v : Nat) : State :=
  if a = 0x3004C then
    let st := getF s (F.LPHY_SWSTAT_STATE n)
    let s := if fld (F.LPHY_SWEEP_GO n) v = 1 then sweepStart s n else s
    if fld (F.LPHY_SWEEP_ABORT n) v = 1 ∧ (st = 1 ∨ st = 2) then modLine s n (fun l => { l with sweepAbort := true }) else s
  else s

def sfmAct (s : State) (a v : Nat) : State :=
  match a with
  | 0x40804 => if fld F.SFM_SLOTCTL_SWAP v = 1 then setFlag s F.SFM_SLOTCTL_PENDING else s
  | 0x4080C => putSlot s (getF s F.SFM_SLOTWIN_BANK) (getF s F.SFM_SLOTWIN_PORT) (getF s F.SFM_SLOTWIN_ENTRY) (v % 2 ^ 31)
  | _ => s

/-- A forwarding entry written by the host (R193): a DOWN entry that goes is withdrawn (R200). -/
def ftCommit (s : State) (w : Nat) : State :=
  let d := getF s F.MRT_FTWIN_DEST
  let old := ftWord s d
  let s := memPut s (ftAddr d) 8 w
  if ftValid old ∧ ftKind old = 1 then noteChange s d (ftDseq old) (ftCost old) (ftHops old) true false else s

def mrtAct (s : State) (src : Src) (a v : Nat) : State :=
  match a with
  | 0x50828 => setSrc s src { srcOf s src with heldFt := v }
  | 0x5082C => ftCommit s ((srcOf s src).heldFt + 2 ^ 32 * v)
  | 0x50830 => if fld F.MRT_RREQ_GO v = 1 then rreqStart s (fld F.MRT_RREQ_TARGET v) true else s
  | _ => s

def mfeWrite (old s : State) (src : Src) (a v : Nat) : State :=
  if a = 0x70030 then setSrc s src { srcOf s src with heldScan := v } else mfeAct old s a v (srcOf s src).heldScan

/-- A write of EN 0 turns the driver OFF, once what it sends has ended (R96, R104). -/
def lpaAct (s : State) (base n : Nat) : State :=
  if base ≠ 0x20000 ∨ flag s (F.LPA_CTL_EN n) ∨ (line s n).tx.any (fun t => !t.sent) then s
  else setF (sweepOff s n) (F.LPA_STAT_DRV n) 0

/-- What an accepted write brings about once its fields are stored. -/
def writeAct' (old s : State) (src : Src) (base n v : Nat) (vd : Verdicts) : State :=
  match base / 0x10000 with
  | 0 => if base = 0x104 then (modeSet s (fld F.PMU_MODECTL_REQ v)).1 else s
  | 1 => tbuAct old s src base v
  | 2 => lpaAct s base n
  | 3 => lphyAct s base n v
  | 4 => sfmAct s base v
  | 5 => mrtAct s src base v
  | 7 => mfeWrite old s src base v
  | 8 => dchAct old s base v
  | 9 => lceAct s base v
  | 13 => erfAct old s base v vd
  | _ => s

/-! ### Writes -/

/-- The register holds a field of one of these access types as this node sees them (R453). -/
def touches (s : State) (r : RegDef) (n : Nat) (rw : Bool) : Bool :=
  (r.fields n).any (fun f => f.acc == .rwl || (rw && (f.acc == .rw || (f.acc == .rwRoot && isRoot s))))

/-- Write one register (R7, R450, R453): the state after it and its status. -/
def writeReg (s : State) (src : Src) (a v : Nat) (vd : Verdicts) : State × Nat :=
  match regAt a with
  | none => (s, St.ok)
  | some (r, n) =>
    if regAbsent s r n then (s, St.ok)
    else if mode s ≠ .commission ∧ touches s r n (mode s == .spare) then (s, St.badMode)
    else
      let s := measDue s r.addr
      let st := writeCheck s (srcOf s src) r.addr n v vd
      if st ≠ St.ok then (writeRejected s r.addr v, st)
      else
        let s := writeAct' s ((r.fields n).foldl (fun s f => storeField s v f) (keepMeas s r.addr)) src r.addr n v vd
        (if calTouched a v then calCommit s else s, St.ok)

/-- Write registers from `a` upwards, up to the first rejection (R436, R447): the state, the number written, the status. -/
def writeRegs (s : State) (src : Src) (a : Nat) (vd : Verdicts) : List Nat → Nat → State × Nat × Nat
  | [], count => (s, count, St.ok)
  | v :: t, count =>
    let r := writeReg s src a v vd
    if r.2 ≠ St.ok then (r.1, count, r.2) else writeRegs r.1 src (a + 4) vd t (count + 1)

/-- Every address of a multi-register access lies in the space (R446). -/
def inSpace (a count : Nat) : Bool := a + 4 * (count - 1) < spaceEnd

end Sys2Proof.Machine
end

