-- ==== Sys2Proof/Machine/ErfMirror.lean ====
section
/-! DEFINITION. The receiving side of the mirror: frames of the Erfa link, and how a spare applies records and copy chunks
(R344, R345, R348–R350, log entry 21). -/

namespace Sys2Proof.Machine

/-! ### Contexts -/

/-- The higher of two receive counters; 0xFFFFFFFF means none yet. -/
def laterFc (a b : Nat) : Nat :=
  if a = 0xFFFFFFFF then b else if b = 0xFFFFFFFF then a else max a b

/-- A CONTEXT record (R349): receive counters and peer epoch stay at the higher value, as far as they belong to the same peer and
key (log entry 24). -/
def mirContext (s : State) (a : Nat) (d : Bytes) : State :=
  let own (f : CF) : Nat := memNat s (a + f.off) f.n
  let rec_ (f : CF) : Nat := u d f.off f.n
  let same := own C.pext == rec_ C.pext
  let key := same && memRead s (a + 12) 32 == slice d 12 32
  let key2 := same && memRead s (a + 44) 32 == slice d 44 32
  let keep (s : State) (f : CF) (ok : Bool) (v : Nat) : State := if ok then memPut s (a + f.off) f.n v else s
  let s' := memWrite s a d
  let s' := keep s' C.rxfc key (laterFc (own C.rxfc) (rec_ C.rxfc))
  let s' := keep s' C.rxfc2 key2 (laterFc (own C.rxfc2) (rec_ C.rxfc2))
  let s' := keep s' C.rxgfc same (laterFc (own C.rxgfc) (rec_ C.rxgfc))
  keep s' C.pepoch same (max (own C.pepoch) (rec_ C.pepoch))

/-- A piece of mirrored main SRAM, context by context where it holds contexts. -/
def mirMem (s : State) (a : Nat) (d : Bytes) : State :=
  if Base.contexts ≤ a ∧ a < Base.coef then
    (List.range (d.length / 128)).foldl (fun s k => mirContext s (a + 128 * k) (slice d (128 * k) 128)) s
  else if (blockOf a).isSome then memWrite (keepSets s a d.length) a d
  else s

/-! ### Configuration -/

/-- What the stored configuration fields of a register spell. -/
def storedWord (s : State) (a : Nat) : Nat :=
  match regAt a with
  | some (r, n) =>
    sumN ((r.fields n).map (fun f => if f.acc = .rw ∨ f.acc = .rwl then getF s f * 2 ^ f.lo else 0))
  | none => 0

/-- What a mirrored field brings about at the spare, where MFE, DCH and TBU run. -/
def mirEffect (old s : State) (k : Nat) : State :=
  let a := k / 32 % 0x100000
  let w := k / 32 / 0x100000
  if assocFind? old.regs k = assocFind? s.regs k then s
  else if a / 0x10000 = 7 ∧ a ≠ 0x70020 then mfeAct old s a (storedWord s a) 0
  else if a = 0x80004 then chanChanged old s (w - 1)
  else if a = 0x80014 then firChanged s ((w - 1) / 64)
  else if a = 0x80024 ∨ a = 0x80028 then detChanged old s (w - 1)
  else if a = 0x80040 then phasorStart s
  else if a = 0x10000 then tbuAct old s .firmware a 0
  else s

/-- One configuration field. -/
def mirField (s : State) (k : Nat) (v : Option Nat) : State :=
  let s := keepMeas s (k / 32 % 0x100000)
  let s' : State := { s with regs := match v with | some x => assocSet s.regs k x | none => assocErase s.regs k }
  mirEffect s s' k

/-- A key lies from `lo` up to `hi`. -/
def inKeys (lo : Nat) (hi : Option Nat) (k : Nat) : Bool := decide (lo ≤ k) && (match hi with | some h => decide (k < h) | none => true)

/-- The configuration fields with keys from `lo` up to `hi`. -/
def mirFields (s : State) (lo : Nat) (hi : Option Nat) (l : List (Nat × Nat)) : State :=
  let here := (s.regs.filter (fun e => isMirrored s e.1 && inKeys lo hi e.1)).map Prod.fst
  let gone := here.filter (fun k => (assocFind? l k).isNone)
  let s := gone.foldl (fun s k => mirField s k none) s
  (l.filter (fun e => assocFind? s.regs e.1 != some e.2)).foldl (fun s e => mirField s e.1 (some e.2)) s

/-! ### Records -/

/-- The mirrored keys: the node key opens under the pair key, and the spare keeps it as its own (R385); OPSEQ is kept in the configuration record
too (R380). -/
def mirKeys (s : State) (k : KeyMirror) : State :=
  { s with
    sec := { s.sec with
      nodeKey := k.nodeKey.bind (fun n => s.sec.pairKey.bind (fun p => unwrapKey p n)), cert := k.cert, authKey := k.authKey, opKeys := k.opKeys
      hostKeys := k.hostKeys, opSeq := k.opSeq, gkey := k.gkey, gpend := k.gpend }
    nvm := { s.nvm with opSeq := k.opSeq } }

/-- A record of LCE holds its instants against the primary's tick: the spare's own ticks count on from there (R335, R348, log entry 167). -/
def mirTick (s : State) (t : Nat) : State := { s with lce := { s.lce with tick := t } }

/-- One object of LCE. -/
def mirAct (s : State) (i : Nat) (a : Act) : State := { s with lce := { s.lce with acts := s.lce.acts.set i a } }
def mirLock (s : State) (i : Nat) (l : Lock) : State := { s with lce := { s.lce with locks := s.lce.locks.set i l } }
def mirRule (s : State) (i : Nat) (r : Option Rule) : State :=
  { s with lce := { s.lce with rules := match r with | some x => assocSet s.lce.rules i x | none => assocErase s.lce.rules i } }
def mirSeq (s : State) (i : Nat) (q : Option Seq) : State :=
  { s with lce := { s.lce with seqs := match q with | some x => assocSet s.lce.seqs i x | none => assocErase s.lce.seqs i } }

/-- Allocations with keys from `lo` up to `hi`, and the active bank. -/
def mirSlots (s : State) (active lo : Nat) (hi : Option Nat) (l : List (Nat × Nat)) : State :=
  let m := s.sfm.slots.filter (fun e => !inKeys lo hi e.1)
  setF { s with sfm := { s.sfm with slots := l.foldl (fun m e => cellSet 0 m e.1 e.2) m } } F.SFM_SLOTCTL_ACTIVE active

/-- MRT's mirrored state; a node whose primary holds a short address is joined like it (R213, R349; DEDUCED, log entry 147). -/
def mirMrt (s : State) (m : MrtMirror) : State :=
  let s := setF (setF (setF s F.SFM_PARENT_ADDR m.parent) F.SFM_PARENT_CTX m.ctx) F.SFM_STAT_PPORT m.port
  let s := setF (putFlag s F.MRT_ADDR_VALID m.short.isSome) F.MRT_ADDR_SHORT (m.short.getD (getF s F.MRT_ADDR_SHORT))
  let s := setF (setF (setF s F.MRT_NSEQ_NSEQ m.nseq) F.MRT_PATH_COST m.cost) F.MRT_PATH_HOPS m.hops
  let s := setF s F.SFM_STAT_STATE (b2n m.short.isSome)
  { s with mrt := { s.mrt with rreqs := m.rreqs.map (fun r => { target := r.1, at_ := r.2.1, limit := r.2.2 }) } }

/-- The mirrored packets but the one of queue `q` at a place. -/
def otherTx (s : State) (q p : Nat) : List (Nat × Nat × QPkt) := s.erf.mirTx.filter (fun e => !(e.1 == q && e.2.1 == p))

/-- Apply one record (R349). -/
def applyRec (s : State) (r : MirRec) : State :=
  match r with
  | .mem a d => mirMem s a d
  | .regs lo hi l => mirFields s lo hi l
  | .slots b lo hi l => mirSlots s b lo hi l
  | .scan l => (List.range 48).foldl (fun s e => if nth 0 l e = scanEntry s e then s else entryCommit s e (nth 0 l e)) s
  | .keys k => mirKeys s k
  | .act t i a => mirAct (mirTick s t) i a
  | .rule t i x => mirRule (mirTick s t) i x
  | .seq t i q => mirSeq (mirTick s t) i q
  | .lock t i l => mirLock (mirTick s t) i l
  | .gen t g => setF (mirTick s t) F.LCE_STAT_GEN g
  | .mrt m => mirMrt s m
  | .fc n => { s with sfm := { s.sfm with groupFc := n } }
  | .txPkt q p k => { s with erf := { s.erf with mirTx := otherTx s q p ++ [(q, p, k)] } }
  | .txEnd q p => { s with erf := { s.erf with mirTx := otherTx s q p } }

/-- A record that changes the calibration (R384). -/
def isCalibRec : MirRec → Bool
  | .mem a _ => decide (Base.coef ≤ a) && decide (a < Base.actuators)
  | .regs lo _ l => isCalib lo || l.any (fun e => isCalib e.1)
  | _ => false

/-- The records of one packet, and the progress that a chunk tells: with its last chunk the mirror is complete (R350). -/
def applyMsg (s : State) (b : Bytes) : State :=
  let m := msgOf b
  let s := m.2.foldl applyRec s
  let s := if m.2.any isCalibRec then calCommit s else s
  match m.1 with
  | none => s
  | some p =>
    let s := setF s F.ERF_MIRSTAT_COPY (min 100 p)
    if p = 100 ∧ !s.erf.nak then setFlag s F.ERF_STAT_SYNCED else s

/-! ### Frames (R344, R345, R350) -/

/-- A frame that is not the one expected is discarded, and NAK, with the LSEQ expected, goes into the next heartbeat (R344). -/
def nakFrame (s : State) : State := { s with erf := { s.erf with nak := true } }

/-- A GAP marker in ERF-RX starts a RESYNC (R344): the spare clears SYNCED, and its NAK names an LSEQ half the numbers ahead, which no frame in
the retry buffer carries, so that the primary starts a full copy (log entry 128). -/
def mirrorLost (s : State) : State :=
  { setF s F.ERF_STAT_SYNCED 0 with erf := { s.erf with rxSeq := (s.erf.rxSeq + 32768) % 65536, nak := true } }

/-- The applier takes what stands in ERF-RX (R23, R349). -/
def applyQueued (s : State) : Nat → State
  | 0 => s
  | fuel + 1 =>
    match frontOf (queue s 13) with
    | none => s
    | some _ =>
      let (s, it) := takeQ s 13
      applyQueued (match it with
        | some (.pkt p) => applyMsg s p.payload
        | some (.gap _) => mirrorLost s
        | none => s) fuel

/-- A frame in order: its packet is committed to ERF-RX, and the applier takes it (R23, R344). -/
def applyFrame (s : State) (lseq : Nat) (body : Bytes) : State :=
  let s : State := { s with erf := { s.erf with rxAck := lseq, rxSeq := (lseq + 1) % 65536, rxAny := false, nak := false } }
  let s := (commitQ s 13 (QPkt.own (bodyPayload body))).1
  applyQueued s (queue s 13).entries.length

/-- A mirror record arrives. -/
def recordRx (s : State) (lseq : Nat) (body : Bytes) : State :=
  if !isSpare s then s
  else if s.erf.rxAny ∨ lseq ≠ s.erf.rxSeq then nakFrame s
  else applyFrame s lseq body

/-- A copy chunk arrives: the first one after COPYSTART is taken whatever its LSEQ, and the packets mirrored before go (R345, R350). -/
def chunkRx (s : State) (lseq : Nat) (body : Bytes) : State :=
  if !isSpare s then s
  else if s.erf.rxAny then applyFrame { s with erf := { s.erf with mirTx := [] } } lseq body
  else if lseq ≠ s.erf.rxSeq then nakFrame s
  else applyFrame s lseq body

/-- A frame whose CRC is good, by its TYPE; a heartbeat has 32 bytes, and what no TYPE names is discarded (log entry 232). -/
def goodFrame (s : State) (type lseq : Nat) (body : Bytes) : State :=
  match type with
  | 1 => if body.length = 32 then heartbeatRx s (hbOf body) else s
  | 2 => recordRx s lseq body
  | 3 => chunkRx s lseq body
  | _ => s

/-- A frame that is spoilt counts in CRCERR; unless its TYPE reads as that of a heartbeat, a spare answers with NAK (R343, R344; DESIGN CHOICE,
log entry 232). -/
def spoiltFrame (s : State) (b : Option Bytes) : State :=
  let s := inc s F.ERF_LINKCNT_CRCERR
  if isSpare s && !(b.any (fun b => u b 0 1 == 1)) then nakFrame s else s

/-- What the lanes carried when a frame came (R342, R343). -/
def frameRx (s : State) (rx : ErfRx) : State :=
  let a := hearLane s 0 rx.lane0
  let b := hearLane a.1 1 rx.lane1
  match linkFrame a.2 b.2 with
  | none => b.1
  | some f =>
    match f.bind erfParse with
    | some (type, lseq, body) => goodFrame b.1 type lseq body
    | none => spoiltFrame b.1 f

/-! ### Meanings -/

/-- HEARTBEAT_RX (R347). -/
def execHeartbeatRx (rx : ErfRx) (_ : Unit) (s : State) : Host.Outcome State Fault Refusal :=
  .next (if erfOn s then frameRx s rx else s)

/-- MIRROR_RECORD_RX (R344, R349). -/
def execMirrorRecordRx (rx : ErfRx) (_ _ : Unit) (s : State) : Host.Outcome State Fault Refusal :=
  .next (if erfOn s then frameRx s rx else s)

/-- COPY_CHUNK_RX (R345, R350). -/
def execCopyChunkRx (rx : ErfRx) (_ _ _ : Unit) (s : State) : Host.Outcome State Fault Refusal :=
  .next (if erfOn s then frameRx s rx else s)

end Sys2Proof.Machine
end

