-- ==== Sys2Proof/Machine/HcpWire.lean ====
section
/-! DEFINITION. Puluac on its carriers: packet layout and CRC (R416–R418), opcodes and where they may run (R431, R433–R435). -/

namespace Sys2Proof.Machine

/-! ### Packets (R416, R417) -/

/-- The bytes of a packet that the device sends. -/
def packetBytes (k : OutPkt) : Bytes :=
  let b := puluacHead k.vf k.seq k.op k.params ++ (match k.ctr with | some c => leBytes c 8 ++ k.mic | none => [])
  b ++ leBytes (crc32c b) 4

/-- Largest PLEN of a carrier (R418); port 3 stands for PULUAC-REMOTE. -/
def plenMax (port : Nat) (auth : Bool) : Nat :=
  match port with
  | 2 => if auth then 1444 else 1460
  | 3 => 1250
  | _ => 4096

/-- Bytes of the largest reply of a carrier (R428). -/
def replyMax (port : Nat) : Nat := if port = 2 then 1472 else 4124

/-- What step 1 of R427 finds in the bytes of one packet. -/
inductive Framing where
  | good (seq op : Nat) (auth : Bool) (ctr : Nat) (mic params : Bytes)
  | badCrc (seq op : Nat)
  | bad
  deriving DecidableEq, Repr

/-- Bytes of a packet by its header. -/
def packetLen (b : Bytes) : Nat := 12 + u b 6 2 + (if bit (u b 1 1) 3 then 16 else 0)

/-- Step 1 of R427 for the bytes of one whole packet. -/
def framing (port : Nat) (b : Bytes) : Framing :=
  let vf := u b 1 1
  let auth := bit vf 3
  let n := u b 6 2
  if b.length < 12 ∨ u b 0 1 ≠ 0xC7 ∨ vf / 16 ≠ 1 ∨ plenMax port auth < n ∨ b.length ≠ packetLen b then .bad
  else if crc32c (b.take (b.length - 4)) ≠ u b (b.length - 4) 4 then .badCrc (u b 2 2) (u b 4 2)
  else if vf % 8 ≠ 0 then .bad
  else .good (u b 2 2) (u b 4 2) auth (if auth then u b (8 + n) 8 else 0) (if auth then slice b (16 + n) 8 else []) (slice b 8 n)

/-! ### Opcodes (R433–R435) -/

/-- How a PULUAC-REMOTE packet may carry an opcode. -/
inductive Remote where
  | no | yes | priv
  deriving DecidableEq, Repr

/-- Whether an opcode is privileged, and its Remote column; none where no unit defines it. -/
def opInfo (op : Nat) : Option (Bool × Remote) :=
  match op with
  | 0xFC01 => some (false, .yes)
  | 0xFC02 => some (false, .yes)
  | 0xFC03 => some (true, .priv)
  | 0xFC04 => some (false, .no)
  | 0xFC05 => some (false, .no)
  | 0xFC06 => some (true, .no)
  | 0xFC07 => some (true, .no)
  | 0xFC08 => some (false, .no)
  | 0xFC09 => some (false, .no)
  | 0xFC0A => some (false, .no)
  | 0xFC0B => some (true, .no)
  | 0xFC0C => some (true, .priv)
  | 0x0001 => some (true, .priv)
  | 0x0C01 => some (false, .yes)
  | 0x0C02 => some (false, .yes)
  | 0x1401 => some (false, .yes)
  | 0x1402 => some (true, .no)
  | 0x1403 => some (true, .no)
  | 0x1404 => some (true, .no)
  | 0x2001 => some (true, .priv)
  | 0x2002 => some (false, .yes)
  | 0x2401 => some (true, .no)
  | 0x2801 => some (false, .yes)
  | 0x2802 => some (true, .no)
  | 0x2803 => some (true, .no)
  | 0x2804 => some (true, .no)
  | 0x2805 => some (true, .no)
  | 0x2806 => some (true, .priv)
  | 0x2807 => some (true, .no)
  | 0x2808 => some (true, .priv)
  | 0x3001 => some (true, .priv)
  | 0x3002 => some (true, .priv)
  | 0x3003 => some (true, .priv)
  | 0x3004 => some (true, .priv)
  | _ => none

/-- The unit of an opcode exists on this variant (R5). -/
def unitHere (s : State) (unit : Nat) : Bool := !(unit == 6 && !hasRadio s) && !(unit == 13 && !hasFull s)

/-- Opcodes that are executed again when repeated (R429). -/
def repeats_ (op : Nat) : Bool := op == 0x2002 || op == 0x3003

/-- The read-only opcodes (R435). -/
def readOnlyOp (op : Nat) : Bool :=
  [0xFC01, 0xFC02, 0xFC04, 0xFC05, 0xFC06, 0xFC07, 0xFC08, 0xFC09, 0xFC0A, 0x0C01, 0x0C02, 0x1401, 0x2002, 0x2801, 0x3003].contains op

/-- Opcodes of BOOT recovery (R431). -/
def recoveryOp (op : Nat) : Bool := [0xFC02, 0x3001, 0x3002, 0x3003].contains op

/-- The mode permits the opcode (R431). -/
def modePermits (s : State) (op : Nat) (params : Bytes) : Bool :=
  let m := mode s
  match m with
  | .boot => recoveryOp op
  | .spare => readOnlyOp op || op == 0x0001 || op == 0xFC03
  | _ =>
    if op = 0x2802 ∨ op = 0x2803 ∨ op = 0x2807 ∨ (op = 0x2804 ∧ (u params 0 1 = 0 ∨ u params 0 1 = 3)) then m == .commission
    else if [0x2401, 0x1404, 0x1402, 0x1403, 0x2805, 0x2806].contains op then m == .operate
    else if op = 0xFC0B then m == .operate || m == .safehold
    else if op = 0x2808 ∨ op = 0x3004 then m == .commission || m == .operate
    else true

/-- PLEN that an opcode's parameters ask for (R434, R435). -/
def plenOk (op : Nat) (p : Bytes) : Bool :=
  let n := p.length
  match op with
  | 0xFC02 => n == 6
  | 0xFC03 => n == 8 + 4 * u p 4 2 && 8 ≤ n
  | 0xFC04 => n == 2
  | 0xFC06 => n == 8
  | 0xFC07 => n == 28
  | 0xFC08 => n == 32
  | 0xFC09 => n == 68
  | 0xFC0B => 6 ≤ n && n ≤ 1264
  | 0x0001 => n == 1
  | 0x0C01 => n == 6
  | 0x0C02 => n == 6
  | 0x1401 => n == 2
  | 0x1402 => n == 10
  | 0x1403 => n == 2
  | 0x1404 => n == 4
  | 0x2001 => n == 8 + 16 * u p 3 1 && 8 ≤ n
  | 0x2002 => n == 8
  | 0x2401 => n == 4 + 8 * u p 1 1 && 4 ≤ n
  | 0x2801 => n == 32
  | 0x2803 => n == 160
  | 0x2804 => n == 36
  | 0x2805 => n == 40
  | 0x2806 => n == 2
  | 0x2807 => 4 ≤ n && (match u p 0 1 with | 0 => n == 68 | 1 => n == 5 | 2 => n == 4 | _ => true)
  | 0x3001 => n == 8
  | 0x3002 => 4 ≤ n
  | 0x3003 => n == 6
  | _ => n == 0

/-- Bytes of data that a reply carries after STATUS, where the parameters decide it (R446). -/
def replyData (op : Nat) (p : Bytes) : Nat :=
  match op with
  | 0xFC02 => 4 * u p 4 2
  | 0x0C01 => 8 * u p 4 2
  | 0x0C02 => 8 * u p 4 2
  | 0x3003 => u p 4 2
  | _ => 0

end Sys2Proof.Machine
end

