-- ==== Sys2Proof/Machine/HcpExec.lean ====
section
/-! DEFINITION. What each opcode does once a request is accepted: the parameter checks of step 9 of R427, and the effect (R434–R437).
Every meaning answers STATUS and data, or nothing where the reply waits for a later event. -/

namespace Sys2Proof.Machine

/-- The answer of an opcode. -/
abbrev Answer := Option (Nat × Bytes)

/-- An answer of STATUS alone. -/
def just (st : Nat) : Answer := some (st, [])

/-- The source of register accesses that a request is (R451). -/
def Current.src (c : Current) : Src := if c.orig.isSome then .remote else .port c.port

/-- The port of a request, 3 for a remote one. -/
def Current.portNo (c : Current) : Nat := if c.orig.isSome then 3 else HostPort.idx c.port

/-! ### General opcodes (R434, R436) -/

/-- PING. -/
def doPing (s : State) (c : Current) : State × Answer :=
  let a := readReg s c.src 0
  let b := readReg a.1 c.src 0x100
  (b.1, some (St.ok, leBytes a.2.1 4 ++ leBytes b.2.1 4))

/-- A range of registers: aligned, inside the space (R7, R446), one or more. -/
def rangeOk (a count : Nat) : Bool := 1 ≤ count && a % 4 == 0 && inSpace a count

/-- REG_READ. -/
def doRegRead (s : State) (c : Current) : State × Answer :=
  let a := u c.params 0 4
  let n := u c.params 4 2
  if rangeOk a n then
    let r := readRegs s c.src a n
    (r.1, some (if r.2.2 then St.poisoned else St.ok, r.2.1))
  else (s, just St.badParam)

/-- The values of a REG_WRITE. -/
def writeVals (p : Bytes) (n : Nat) : List Nat := (List.range n).map (fun k => u p (8 + 4 * k) 4)

/-- REG_WRITE. -/
def doRegWrite (s : State) (c : Current) : State × Answer :=
  let a := u c.params 0 4
  let n := u c.params 4 2
  if rangeOk a n then
    let r := writeRegs s c.src a c.v (writeVals c.params n) 0
    (r.1, some (r.2.2, leBytes r.2.1 2))
  else (s, just St.badParam)

/-- EVENT_SUBSCRIBE (R438). On the Ethernet port it also says where events go (R424). -/
def doSubscribe (s : State) (c : Current) : State × Answer :=
  let n := HostPort.idx c.port
  let s := setF s (F.evMask n) (u c.params 0 2)
  let p := hport s n
  (if n = 2 then setHport s n { p with evIp := p.peerIp, evPort := p.peerPort } else s, just St.ok)

/-- PORT_CONFIG's check; its settings take effect after the reply. -/
def doPortConfig (s : State) (c : Current) : State × Answer :=
  let baud := u c.params 4 4
  (s, just (need (u c.params 0 1 ≤ 3 && u c.params 1 1 ≤ 1 && 9600 ≤ baud && baud ≤ 3000000)))

/-- SESSION_OPEN (R381); it needs a challenge (R386). -/
def doSessionOpen (s : State) (c : Current) : State × Answer :=
  if trngOk s then
    let r := sessionOpening s (HostPort.idx c.port) c.params
    (r.1, some (St.ok, r.2))
  else (s, just St.busy)

/-- SESSION_PROVE (R381). -/
def doSessionProve (s : State) (c : Current) : State × Answer :=
  let i := u c.params 0 1
  if 4 ≤ i then (s, just St.badParam)
  else
    let r := sessionProving s (HostPort.idx c.port) i (slice c.params 4 64)
    (r.1, just r.2)

/-- MESH_SEND (R437): the reply follows once MRT has taken the packet, or MQF has dropped it. -/
def doMeshSend (s : State) (c : Current) : State × Answer :=
  let cls := u c.params 2 1
  let fl := u c.params 3 1
  let limit := u c.params 4 1
  if cls < 4 ∨ 6 < cls ∨ limit < 1 ∨ 32 < limit ∨ (bit fl 0 ∧ !isRoot s) then (s, just St.badParam)
  else
    (stageHcp s (QPkt.hostIn (u c.params 0 2) cls (bit fl 0) (bit fl 1) limit (c.params.drop 6)) (some (HostPort.idx c.port, c.seq)), none)

/-! ### Tables and memory (R132, R148, R379, R397, R436) -/

/-- The check of a line port that a parameter names. -/
def portCheck (s : State) (n : Nat) : Nat := if 4 ≤ n then St.badParam else if portPresent s n then St.ok else St.unitAbsent

/-- MAP_READ. -/
def doMapRead (s : State) (c : Current) : State × Answer :=
  let n := u c.params 0 1
  let first := u c.params 2 2
  let k := u c.params 4 2
  match portCheck s n with
  | 0 =>
    if 2047 < first ∨ k = 0 ∨ 2048 < first + k then (s, just St.badParam)
    else (s, some (St.ok, (List.range k).flatMap (fun i => leBytes (cellWord (cellGet (line s n) (first + i))) 8)))
  | st => (s, just st)

/-- SWEEP_READ. -/
def doSweepRead (s : State) (c : Current) : State × Answer :=
  let n := u c.params 0 1
  let first := u c.params 2 2
  let k := u c.params 4 2
  match portCheck s n with
  | 0 =>
    if first < 12 ∨ 523 < first ∨ k = 0 ∨ 524 < first + k then (s, just St.badParam)
    else
      (s, some (St.ok, (List.range k).flatMap (fun i =>
        let e := sweepEntry (line s n) (first + i)
        leBytes e.1 2 ++ leBytes e.2.1 2 ++ leBytes e.2.2 2 ++ leBytes 0 2)))
  | st => (s, just st)

/-- CONTEXT_READ: the keys read as zero (R379). -/
def doContextRead (s : State) (c : Current) : State × Answer :=
  let i := u c.params 0 2
  if 4096 ≤ i then (s, just St.badParam)
  else if nCtx s ≤ i then (s, just St.unitAbsent)
  else
    let b := memRead s (ctxBase i) 128
    (readMem s (ctxBase i) 128,
     some (if ctxPoisoned s i then St.poisoned else St.ok, b.take 12 ++ List.replicate 64 0 ++ b.drop 76))

/-- GALLERY as the host reads it: a poisoned word reads as eight records of value 0 tagged BLANKED (R397). -/
def galleryByte (s : State) (a : Nat) : Byte :=
  if badWord s (a / 32) then (if a % 4 = 3 then 3 else 0) else (memRead s a 1).headD 0

/-- Data bytes of a GALLERY_READ fragment on its carrier (R436, R442). -/
def fragmentMax (c : Current) : Nat := (plenMax c.portNo c.auth - 6) / 4 * 4

/-- The parameters of the next fragment: STATUS, OFFSET, data. -/
def fragment (s : State) (c : Current) : Bytes :=
  let n := min (fragmentMax c) (c.to_ - c.from_)
  let a := Base.gallery + c.from_
  leBytes (if (poisonIn s a n).isEmpty then St.ok else St.poisoned) 2 ++ leBytes c.from_ 4
    ++ (List.range n).map (fun k => galleryByte s (a + k))

/-- Send the fragments of the GALLERY_READ in hand while the outbound buffer has room for them (R426, R428). -/
def sendFragments (s : State) : Nat → State
  | 0 => s
  | fuel + 1 =>
    match s.hcp.current with
    | none => s
    | some c =>
      let n := HostPort.idx c.port
      let p := hport s n
      let size := min (fragmentMax c) (c.to_ - c.from_)
      if c.op ≠ 0x2002 ∨ (c.orig.isNone ∧ !c.dead ∧ outSize < outUsed p + pktSize (6 + size) (c.auth && sessionOpen p)) then s
      else if c.dead then { s with hcp := { s.hcp with current := none } }
      else
        let f := fragment s c
        let last := decide (c.to_ ≤ c.from_ + size)
        let vf := if last then 0x11 else 0x15
        let s := readMem s (Base.gallery + c.from_) size
        let s := match c.orig with
          | some o => sendRemote s o vf c.seq c.op f
          | none => emit s n vf c.seq c.op f (c.auth && sessionOpen p) p.peerIp p.peerPort
        if last then { s with hcp := { s.hcp with current := none } }
        else sendFragments { s with hcp := { s.hcp with current := some { c with from_ := c.from_ + size } } } fuel

/-- Fragments of the largest GALLERY_READ. -/
def fragmentFuel : Nat := 2048

/-- GALLERY_READ: the reply goes in fragments. -/
def doGalleryRead (s : State) (c : Current) : State × Answer :=
  let o := u c.params 0 4
  let n := u c.params 4 4
  if n = 0 ∨ 2097152 < o + n ∨ o % 4 ≠ 0 ∨ n % 4 ≠ 0 then (s, just St.badParam)
  else ({ s with hcp := { s.hcp with current := some { c with from_ := o, to_ := o + n } } }, none)

/-! ### MRT (R184, R212, R436) -/

/-- ADDR_RESERVE. -/
def doAddrReserve (s : State) (c : Current) : State × Answer :=
  let a := u c.params 0 2
  if !isRoot s then (s, just St.badParam)
  else if (mappedExt s a).isSome ∨ (assocFind? s.mrt.reserved a).isSome then (s, just St.busy)
  else ({ s with mrt := { s.mrt with reserved := assocSet s.mrt.reserved a (u c.params 2 8) } }, just St.ok)

/-- ADDR_RELEASE: of a mapping or a reservation. -/
def doAddrRelease (s : State) (c : Current) : State × Answer :=
  let a := u c.params 0 2
  if !isRoot s then (s, just St.badParam)
  else
    ({ s with mrt := { s.mrt with reserved := assocErase s.mrt.reserved a, addrMap := assocErase s.mrt.addrMap a } }, just St.ok)

/-- The neighbour that LATERAL_OPEN names, as its beacons show it. -/
def lateralPeer (s : State) (c : Current) : Option Neighbour :=
  s.sfm.neighbours.find? (fun b => b.port == u c.params 0 1 && b.addr == u c.params 2 2)

/-- LATERAL_OPEN's checks; one opening or join at a time (R428, log entry 25). -/
def doLateralOpen (s : State) (c : Current) : State × Answer :=
  let n := u c.params 0 1
  if 5 ≤ n then (s, just St.badParam)
  else if !portPresent s n then (s, just St.unitAbsent)
  else if s.mrt.joiner.isSome ∨ !trngOk s ∨ (freeCtx s).isNone then (s, just St.busy)
  else if !joined s ∨ !mayJoin s then (s, just St.badParam)
  else (s, just St.accepted)

/-- The exchange of R212 begins; a peer that no beacon has shown ends it with TIMEOUT (log entry 25). -/
def lateralBegin (s : State) (c : Current) : State :=
  let n := HostPort.idx c.port
  match lateralPeer s c with
  | some b => joinBegin s b false true (some (n, c.seq))
  | none => complete s n c.seq c.op c.auth St.busy (leBytes 7 1)

/-! ### DCH and LCE -/

/-- FIT (R300). -/
def doFit (s : State) (c : Current) : State × Answer :=
  let p := c.params
  let pts := (List.range (u p 3 1)).map (fun k =>
    ({ x := u p (8 + 16 * k) 4, t := u p (12 + 16 * k) 4, y := u p (16 + 16 * k) 4, w := u p (20 + 16 * k) 4 } : FitPoint))
  let r := fitSet s (u p 0 1) (u p 1 1) (u p 2 1) (u p 4 4) pts
  (r.1, some r.2)

/-- LCE_OPS (R331–R333): the operations wait for the next tick. -/
def doLceOps (s : State) (c : Current) : State × Answer :=
  let n := u c.params 1 1
  let b := c.params.drop 4
  let k := HostPort.idx c.port
  if !opsOk n b then (s, just St.badParam)
  else
    ({ s with lce := { s.lce with work := s.lce.work ++
                                  [.ops { cls := 1, id := k, gen := nth 0 s.lce.hostGen k } (u c.params 0 1 + 256 * c.seq) true (parseOps b n) [] false] } }, none)

/-! ### SEC -/

/-- ATTEST (R383). A third signature of a phase slot asks for leave, and its reply waits for the answer (R47, R51, R52). -/
def doAttest (s : State) (c : Current) : State × Answer :=
  if maySign s then
    let r := attest s c.params
    (r.1, some (St.ok, r.2))
  else (queueSig s .attest, none)

/-- NODEKEY_GEN. -/
def doNodekeyGen (s : State) : State × Answer :=
  if trngOk s then
    let r := nodekeyGen s
    (r.1, some (St.ok, r.2))
  else (s, just St.busy)

/-- CERT_INSTALL. -/
def doCertInstall (s : State) (c : Current) : State × Answer :=
  let r := certInstall s c.params
  (r.1, just r.2)

/-- KEY_INSTALL. -/
def doKeyInstall (s : State) (c : Current) : State × Answer :=
  let r := keyInstall s (u c.params 0 1) (u c.params 1 1) (u c.params 2 2) (c.params.drop 4)
  (r.1, just r.2)

/-- GKEY_SET. -/
def doGkeySet (s : State) (c : Current) : State × Answer :=
  let r := gkeySet s (u c.params 0 1) (u c.params 4 4) (c.params.drop 8)
  (r.1, just r.2)

/-- REKEY (R376). -/
def doRekey (s : State) (c : Current) : State × Answer :=
  let i := u c.params 0 2
  if 4096 ≤ i then (s, just St.badParam)
  else if nCtx s ≤ i then (s, just St.unitAbsent)
  else if !cEstablished s i then (s, just St.badParam)
  else if !trngOk s then (s, just St.busy)
  else (rekeyStart s i, just St.ok)

/-- OTP_BURN (R359): burnt under leave. -/
def doOtpBurn (s : State) (c : Current) : State × Answer :=
  match burnCheck s (u c.params 0 1) (c.params.drop 4) with
  | 0 => (burnAsk s, none)
  | st => (s, just st)

/-- ROLLBACK_COMMIT (R363): no effect at the level already burnt. -/
def doRollback (s : State) : State × Answer :=
  let rb := getF s F.SEC_BOOTSTAT_IMGRB
  if rb < rollbackLevel s then (s, just St.badParam)
  else if rb = rollbackLevel s then (s, some (St.ok, leBytes rb 1))
  else (burnAsk s, none)

/-! ### Flash (R428, R436) -/

/-- The programming operation that a request asks for. -/
def flashOf (c : Current) (offset len : Nat) (data : Bytes) : FlashOp :=
  { port := c.port, orig := c.orig, seq := c.seq, op := c.op, auth := c.auth, dead := false, v := c.v, offset, data, len, granted := false }

/-- The operation of FLASH_ERASE, FLASH_WRITE or CONFIG_SAVE. -/
def flashAsked (c : Current) : FlashOp :=
  match c.op with
  | 0x3001 => flashOf c (u c.params 0 4) (u c.params 4 4) []
  | 0x3002 => flashOf c (u c.params 0 4) (c.params.length - 4) (c.params.drop 4)
  | _ => flashOf c 0 0 []

/-- FLASH_ERASE's checks. -/
def doFlashErase (s : State) (c : Current) : State × Answer :=
  let o := u c.params 0 4
  let n := u c.params 4 4
  if s.hcp.flash.isSome then (s, just St.busy)
  else if o % 4096 ≠ 0 ∨ n % 4096 ≠ 0 ∨ n = 0 ∨ !flashAllowed s o n then (s, just St.badParam)
  else (s, just St.accepted)

/-- FLASH_WRITE's checks. -/
def doFlashWrite (s : State) (c : Current) : State × Answer :=
  let o := u c.params 0 4
  let n := c.params.length - 4
  if s.hcp.flash.isSome then (s, just St.busy)
  else if o % 4 ≠ 0 ∨ n % 4 ≠ 0 ∨ n < 4 ∨ 4092 < n ∨ !flashAllowed s o n then (s, just St.badParam)
  else (s, just St.accepted)

/-- CONFIG_SAVE. -/
def doConfigSave (s : State) : State × Answer := (s, just (if s.hcp.flash.isSome then St.busy else St.accepted))

/-- FLASH_READ. -/
def doFlashRead (s : State) (c : Current) : State × Answer :=
  let o := u c.params 0 4
  let n := u c.params 4 2
  if n = 0 ∨ 4094 < n ∨ !readAllowed s o n then (s, just St.badParam)
  else (s, some (St.ok, flashData s o n))

/-! ### All opcodes -/

/-- Execute an accepted request. -/
def doOp (s : State) (c : Current) : State × Answer :=
  match c.op with
  | 0xFC01 => doPing s c
  | 0xFC02 => doRegRead s c
  | 0xFC03 => doRegWrite s c
  | 0xFC04 => doSubscribe s c
  | 0xFC06 => doPortConfig s c
  | 0xFC08 => doSessionOpen s c
  | 0xFC09 => doSessionProve s c
  | 0xFC0B => doMeshSend s c
  | 0x0001 => let r := modeSet s (u c.params 0 1); (r.1, just r.2)
  | 0x0C01 => doMapRead s c
  | 0x0C02 => doSweepRead s c
  | 0x1401 => doContextRead s c
  | 0x1402 => doAddrReserve s c
  | 0x1403 => doAddrRelease s c
  | 0x1404 => doLateralOpen s c
  | 0x2001 => doFit s c
  | 0x2002 => doGalleryRead s c
  | 0x2401 => doLceOps s c
  | 0x2801 => doAttest s c
  | 0x2802 => doNodekeyGen s
  | 0x2803 => doCertInstall s c
  | 0x2804 => doKeyInstall s c
  | 0x2805 => doGkeySet s c
  | 0x2806 => doRekey s c
  | 0x2807 => doOtpBurn s c
  | 0x2808 => doRollback s
  | 0x3001 => doFlashErase s c
  | 0x3002 => doFlashWrite s c
  | 0x3003 => doFlashRead s c
  | 0x3004 => doConfigSave s
  | _ => (s, just St.ok)

/-! ### What follows a reply (R432, R436) -/

/-- The packet put last into a port's outbound buffer is marked with what follows its sending. -/
def markLast (s : State) (n then_ : Nat) : State :=
  let p := hport s n
  match p.out.getLast? with
  | some k => setHport s n { p with out := p.out.dropLast ++ [{ k with then_ }] }
  | none => s

/-- NET_CONFIG: all fields at once, and an announcement (R425, R436). -/
def netConfig (s : State) (p : Bytes) : State :=
  let s := setF (setF s F.HCP_MAC_LO_MAC_LO (u p 0 4)) F.HCP_MAC_HI_MAC_HI (u p 4 2)
  let s := setF (setF s F.HCP_UDP_LPORT (u p 6 2)) F.HCP_UDP_EVPORT (u p 24 2)
  let s := setF (setF s F.HCP_IP0_ADDR (u p 8 4)) F.HCP_IP1_ADDR (u p 12 4)
  let s := setF (setF s F.HCP_IP2_ADDR (u p 16 4)) F.HCP_IP3_ADDR (u p 20 4)
  if ethOn s then { s with hcp := { s.hcp with arpSent := s.hcp.arpSent ++ [(3, u p 8 4)] } } else s

/-- PORT_CONFIG's settings. -/
def portConfig (s : State) (p : Bytes) : State :=
  setF (setF (setF s F.HCP_CFG_DELIVER (u p 0 1)) F.HCP_CFG_FLOW (u p 1 1)) F.HCP_UART_BAUD (u p 4 4)

/-- What an opcode leaves for after its reply. -/
def afterReply (s : State) (c : Current) (st : Nat) : State :=
  let n := HostPort.idx c.port
  if st = St.accepted then
    match c.op with
    | 0x1404 => lateralBegin s c
    | 0x3001 => flashBegin s (flashAsked c)
    | 0x3002 => flashBegin s (flashAsked c)
    | 0x3004 => flashBegin s (flashAsked c)
    | _ => s
  else if st ≠ St.ok then s
  else
    match c.op with
    | 0xFC05 => markLast s n 1
    | 0xFC06 => portConfig s c.params
    | 0xFC07 => netConfig s c.params
    | 0xFC0A => sessionEnd s n
    | 0xFC0C => if c.orig.isSome then { s with hcp := { s.hcp with resetDue := true } } else markLast s n 2
    | _ => s

/-- Run the request in hand up to its reply, or as far as it goes now. -/
def answerOp (s : State) (c : Current) : State :=
  let r := doOp s c
  match r.2 with
  | some (st, data) => afterReply (finishCurrent r.1 st data) c st
  | none => sendFragments r.1 fragmentFuel

/-- A REG_WRITE sets PAIR_EN, so that SEC must check the peer's signature. -/
def writesPair (s : State) (p : Bytes) : Bool :=
  let a := u p 0 4
  let at_ := F.ERF_CFG_PAIR_EN.addr
  a % 4 == 0 && decide (a ≤ at_) && decide (at_ < a + 4 * u p 4 2) && setsPair s (u p (8 + (at_ - a)) 4)

/-- The request needs an Ed25519 operation (R374): a signature, or a check of a certificate, a proof or the peer at pairing. -/
def needsSec (s : State) (c : Current) : Bool :=
  c.op == 0x2801 || c.op == 0x2803 || c.op == 0xFC09 || (c.op == 0xFC03 && writesPair s c.params)

/-- Run an accepted request. One that needs SEC waits behind the operations asked for before (R374). -/
def runReq (s : State) (c : Current) : State :=
  let s : State := { s with hcp := { s.hcp with current := some c } }
  if needsSec s c && !s.sec.queue.isEmpty then secAsk s .host else answerOp s c

/-! ### SEC's queue (R374) -/

/-- The operation whose turn it is. -/
def secStep (s : State) : SecJob → State
  | .attest => attestNow s
  | .parentSign ctx m => parentProofSend s ctx m
  | .joinerSign => joinProofSend s
  | .joinCheck ctx m => joinChecked s ctx m
  | .parentCheck ctx m => parentChecked s ctx m
  | .host => match s.hcp.current with | some c => if needsSec s c then answerOp s c else s | none => s
  | .operator _ => s

/-- SEC performs its operations in order, up to the check of a held packet, whose end is a command of its own. -/
def secDrain (s : State) : (n : Nat) → State
  | 0 => s
  | n + 1 =>
    match s.sec.queue with
    | [] => s
    | .operator _ :: _ => s
    | j :: t => secDrain (secStep { s with sec := { s.sec with queue := t } } j) n

/-- Everything that SEC can do now: an operation asks for one more at most. -/
def secRun (s : State) : State := secDrain s (3 * s.sec.queue.length + 3)

end Sys2Proof.Machine
end

