-- ==== Sys2Proof/Machine/Hcp.lean ====
section
/-! DEFINITION. HCP: acceptance of requests (R427–R431, R441), the order in which they are served (R428), the carriers SPI, UART and
Ethernet (R419–R425), and what leaves the outbound buffers (R432, R439). -/

namespace Sys2Proof.Machine

/-! ### Acceptance (R427, R429, R441) -/

/-- Where a request stands with its port's or originator's duplicate memory. -/
inductive DupState where
  | fresh
  | again (stored : Option Bytes)
  | clash
  deriving DecidableEq, Repr

/-- Step 3 of R427 (R429). -/
def dupState (l : List Dup) (seq op : Nat) : DupState :=
  match l.find? (fun d => d.seq == seq) with
  | some d => if seq = 0 then .fresh else if d.op ≠ op then .clash else if repeats_ op then .fresh else .again d.reply
  | none => .fresh

/-- Remember a request: the last 16 (R429). -/
def dupAdd (l : List Dup) (seq op : Nat) : List Dup :=
  let l := l.filter (fun d => !(d.seq == seq && d.op == op)) ++ [{ seq, op, reply := none }]
  l.drop (l.length - 16)

/-- A well-formed MODE_SET whose code PMU_MODECTL rejects: BAD_PARAM before any other check of R39, BUSY included. -/
def badModeCode (op : Nat) (params : Bytes) : Bool :=
  op == 1 && plenOk op params && (u params 0 1 == 0 || decide (4 < u params 0 1))

/-- Steps 4 to 8 of R427: the status of the first failure, or OK. `trusted` says that step 6 passes. -/
def checkOp (s : State) (op : Nat) (params : Bytes) (remote trusted : Bool) (port : Nat) (auth : Bool) : Nat :=
  let unit := op / 1024
  if s.pmu.mode = .boot ∧ !s.pmu.recovery then St.busy
  else if 13 < unit ∧ unit ≠ 63 then St.badOpcode
  else if !unitHere s unit then St.unitAbsent
  else
    match opInfo op with
    | none => St.badOpcode
    | some (priv, rem) =>
      if remote ∧ rem = .no then St.badOpcode
      else if (priv ∨ (remote ∧ rem = .priv)) ∧ !trusted ∧ s.pmu.mode ≠ .boot then St.authRequired
      else if s.pmu.trans.isSome ∧ !badModeCode op params then St.busy
      else if !modePermits s op params then St.badMode
      else if !plenOk op params ∨ plenMax port auth < 2 + replyData op params then St.badLength
      else St.ok

/-- The request stands for MODE_SET SAFEHOLD: MODE_SET itself, or a REG_WRITE over PMU_MODECTL (R46). -/
def asksSafehold (op : Nat) (params : Bytes) : Bool :=
  plenOk op params &&
    ((op == 1 && u params 0 1 == 4)
      || (op == 0xFC03 && u params 0 4 % 4 == 0 && decide (u params 0 4 ≤ 0x104) && decide (0x104 < u params 0 4 + 4 * u params 4 2)
          && fld F.PMU_MODECTL_REQ (u params (8 + (0x104 - u params 0 4)) 4) == 4))

/-- A MODE_SET SAFEHOLD that arises in the cycle of a higher cause is discarded with BUSY, but latched with the other causes of the cycle
(R38, R523). -/
def lateHostCause (s : State) (st op : Nat) (params : Bytes) : State :=
  if st = St.busy && asksSafehold op params && outranked s 6 && s.pmu.mode != .boot then setFlag s F.PMU_SAFECAUSE_HOSTCMD else s

/-- A request that a check of R427 turns away is answered. -/
def turnAway (s : State) (c : Current) (st : Nat) : State :=
  let s := lateHostCause s st c.op c.params
  finishCurrent { s with hcp := { s.hcp with current := some c } } st []

/-- A reply of STATUS alone to a host request. -/
def replyStatus (s : State) (q : Req) (auth : Bool) (params : Bytes) : State :=
  let n := HostPort.idx q.port
  let p := hport s n
  emit s n 0x11 q.seq q.op params (auth && sessionOpen p) p.peerIp p.peerPort

/-- The MIC of an authenticated packet verifies under the session key of its port (R382). -/
def micGood (s : State) (q : Req) : Bool :=
  packetMic (hport s (HostPort.idx q.port)).sess.keys 0 q.ctr (puluacHead 0x18 q.seq q.op q.params) == q.mic

/-- Step 2 of R427: the session accepts the packet (R382). -/
def sessionTakes (s : State) (q : Req) : Bool :=
  let p := hport s (HostPort.idx q.port)
  sessionOpen p && p.sess.rx ≤ q.ctr && micGood s q

/-- A host request, from step 2 of R427 on. -/
def handleReq (s : State) (q : Req) : State :=
  let n := HostPort.idx q.port
  let s := setHport s n { hport s n with peerIp := q.ip, peerPort := q.udp }
  let p := hport s n
  if q.auth ∧ !sessionTakes s q then
    let s := if sessionOpen p ∧ !micGood s q then inc s F.SEC_CNT_AUTHFAIL else s
    replyStatus s q false (leBytes St.authRequired 2)
  else
    let s := if q.auth then setHport s n { p with sess := { p.sess with rx := q.ctr + 1, used := now s } } else s
    let p := hport s n
    match dupState p.dups q.seq q.op with
    | .clash => replyStatus s q q.auth (leBytes St.seqDuplicate 2)
    | .again (some r) => replyStatus (inc s (F.dups n)) q q.auth r
    | .again none => s
    | .fresh =>
      let s := setHport s n { p with dups := dupAdd p.dups q.seq q.op }
      let c : Current := { port := q.port, orig := none, seq := q.seq, op := q.op, auth := q.auth, params := q.params, v := q.v,
                           from_ := 0, to_ := 0, dead := false }
      let trusted := q.auth || !bit s.chip.trust n
      match checkOp s q.op q.params false trusted n q.auth with
      | 0 => runReq s c
      | st => turnAway s c st

/-- HCP receives packets: not in ROOST, nor while the chip is held in reset (R431). -/
def hcpHears (s : State) : Bool := mode s != .roost && !inHold s

/-- A port's outbound buffer has room for the largest reply of its carrier (R428). -/
def replyRoom (s : State) (n : Nat) : Bool := outUsed (hport s n) + replyMax n ≤ outSize

/-- The first request whose port has room for its reply, and the others. -/
def takeReq (s : State) : List Req → Option (Req × List Req)
  | [] => none
  | q :: t =>
    if replyRoom s (HostPort.idx q.port) then some (q, t)
    else (takeReq s t).map (fun r => (r.1, q :: r.2))

/-- A request whose buffer holds a poisoned word is discarded as a failed CRC is (R397). -/
def spoiltReq (s : State) (q : Req) : State :=
  let n := HostPort.idx q.port
  let s := inc s (F.crcErr n)
  if n = 1 then s else emit s n 0x11 q.seq q.op (leBytes St.crcError 2) false q.ip q.udp

/-- HCP reads a request in its buffer, and handles it. -/
def readReq (s : State) (q : Req) : State :=
  let n := HostPort.idx q.port
  let bad := bufBad (hport s n) q.place
  let s := bufRead s n q.place
  if bad then spoiltReq s q else handleReq s q

/-- HCP serves the requests that wait, one at a time (R428). -/
def serveLoop (s : State) : Nat → State
  | 0 => s
  | fuel + 1 =>
    if s.hcp.current.isSome ∨ !hcpHears s then s
    else
      match takeReq s s.hcp.waiting with
      | none => s
      | some (q, rest) => serveLoop (readReq { s with hcp := { s.hcp with waiting := rest } } q) fuel

/-- SEC's queue is served, then the requests that wait; the mirror learns what they have changed (R348, R374, R428). -/
def serve (s : State) : State :=
  let s := secRun s
  collect (secRun (serveLoop s (s.hcp.waiting.length + 1)))

/-- The words of a port's inbound buffer that waiting requests hold. -/
def inUsed (s : State) (n : Nat) : List Nat := (s.hcp.waiting.filter (fun q => HostPort.idx q.port == n)).flatMap (·.place)

/-- A port's inbound buffer takes a packet of 4,124 bytes (log entries 26, 234). -/
def inRoom (s : State) (n : Nat) : Bool := decide ((inUsed s n).length + bufWords 4124 ≤ 1024)

/-- A request that passed step 1 takes its place in its port's inbound buffer (R428). DESIGN CHOICE: one that finds no room is lost (log entry
234). -/
def addReq (s : State) (q : Req) : State :=
  let n := HostPort.idx q.port
  let need := bufWords (pktSize q.params.length q.auth)
  let place := freeWords (inUsed s n) 1024 need (inBase n)
  if place.length < need then s
  else
    let s := setHport s n (writeWords (hport s n) place)
    serve { s with hcp := { s.hcp with waiting := s.hcp.waiting ++ [{ q with place }] } }

/-- The request that a command of the opcode table names, as it arrives at its port; its framing and CRC passed (log entry 1). -/
def hostRequest (s : State) (op : Nat) (r : HostReq) : State :=
  let n := HostPort.idx r.port
  let p := hport s n
  if !hcpHears s ∨ (n = 2 ∧ !ethOn s) then s
  else if plenMax n r.auth < r.params.length then inc s (F.crcErr n)
  else addReq s { port := r.port, seq := r.seq.toNat, op, auth := r.auth, ctr := r.ctr.toNat, mic := r.mic, params := r.params, v := r.v,
                  ip := p.peerIp, udp := p.peerPort, place := [] }

/-! ### Packets from the carriers (R419–R424) -/

/-- One whole packet from SPI or Ethernet: step 1 of R427. -/
def packetRx (s : State) (port : HostPort) (b : Bytes) (ip udp : Nat) (v : Verdicts) : State :=
  let n := HostPort.idx port
  match framing n b with
  | .good seq op auth ctr mic params => addReq s { port, seq, op, auth, ctr, mic, params, v, ip, udp, place := [] }
  | .badCrc seq op => emit (inc s (F.crcErr n)) n 0x11 seq op (leBytes St.crcError 2) false ip udp
  | .bad => inc s (F.crcErr n)

/-- What the UART receiver makes of the bytes it holds: a packet and the rest, a discard, or a wait for more (R423). -/
inductive UartScan where
  | packet (seq op : Nat) (auth : Bool) (ctr : Nat) (mic params rest : Bytes)
  | discard (rest : Bytes)
  | more (b : Bytes)
  deriving DecidableEq, Repr

/-- Bytes before the next SYNC go. -/
def hunt (b : Bytes) : Bytes := b.dropWhile (fun x => x.toNat != 0xC7)

/-- Examine the bytes from the next SYNC. -/
def uartScan (b : Bytes) : UartScan :=
  let b := hunt b
  if b.length < 2 then .more b
  else if u b 1 1 / 16 ≠ 1 then .discard (b.drop 1)
  else if b.length < 8 then .more b
  else if 4096 < u b 6 2 then .discard (b.drop 1)
  else
    let n := packetLen b
    if b.length < n then .more b
    else
      match framing 1 (b.take n) with
      | .good seq op auth ctr mic params => .packet seq op auth ctr mic params (b.drop n)
      | _ => .discard (b.drop 1)

/-- Run the UART receiver over its bytes. -/
def uartLoop (s : State) (v : Verdicts) (b : Bytes) : Nat → State
  | 0 => s
  | fuel + 1 =>
    match uartScan b with
    | .more b => setHport s 1 { hport s 1 with rxBuf := b }
    | .discard rest => uartLoop (inc s (F.crcErr 1)) v rest fuel
    | .packet seq op auth ctr mic params rest =>
      uartLoop (addReq s { port := .uart, seq, op, auth, ctr, mic, params, v, ip := 0, udp := 0, place := [] }) v rest fuel

/-- Bytes arrive on the UART. -/
def uartRx (s : State) (b : Bytes) (v : Verdicts) : State :=
  let b := (hport s 1).rxBuf ++ b
  uartLoop (setHport s 1 { hport s 1 with rxBuf := [] }) v b (b.length + 1)

/-- What the outside decides about a request found behind a discarded one, which no command brings: free values (R423, log entry 230). -/
def freeVerdicts (s : State) : Verdicts × State :=
  let (v, s) := draw s
  ({ hwOk := bit v 0, peerExt := BitVec.ofNat 64 (v / 2), peerEpk := leBytes (v / 2 ^ 65) 32, peerSig := leBytes (v / 2 ^ 321) 64 }, s)

/-- A gap of more than 10 ms: every packet in progress is discarded, and what the hunt finds behind it is a packet like any other (R423). -/
def gapLoop (s : State) (b : Bytes) : Nat → State
  | 0 => s
  | fuel + 1 =>
    match uartScan b with
    | .more [] => s
    | .more b => gapLoop (inc s (F.crcErr 1)) (b.drop 1) fuel
    | .discard rest => gapLoop (inc s (F.crcErr 1)) rest fuel
    | .packet seq op auth ctr mic params rest =>
      let (v, s) := freeVerdicts s
      gapLoop (addReq s { port := .uart, seq, op, auth, ctr, mic, params, v, ip := 0, udp := 0, place := [] }) rest fuel

def uartGap (s : State) : State :=
  let b := (hport s 1).rxBuf
  gapLoop (setHport s 1 { hport s 1 with rxBuf := [] }) b (b.length + 1)

/-! ### What has been sent (R432, R436, R439) -/

/-- The GAP event of dropped events goes out once it has room (R439). -/
def gapOut (s : State) (n : Nat) : State :=
  let p := hport s n
  let auth := sessionOpen p
  if p.gapPkts = 0 ∨ outSize < outUsed p + pktSize 17 auth ∨ !eventPort s n then s
  else
    let d := eventDest s n
    let s := emit s n 0x12 p.evSeq 0x3200 (leBytes (now s) 8 ++ leBytes 0xFF 1 ++ leBytes p.gapPkts 4 ++ leBytes p.gapBytes 4) auth d.1 d.2
    setHport s n { hport s n with evSeq := (p.evSeq + 1) % 65536, gapPkts := 0, gapBytes := 0 }

/-- The front packet of a port has been sent: it leaves the buffer, and what was to follow it happens. -/
def sentFront (s : State) (n : Nat) : State :=
  let p := hport s n
  match p.out with
  | [] => s
  | k :: t =>
    let s := setHport s n { p with out := t }
    if k.then_ = 1 then portReset s n else if k.then_ = 2 then systemReset s 16 else s

/-- The port may send its front packet: CTS on the UART with FLOW, a resolved next hop on Ethernet (R422, R425). -/
def maySendOut (s : State) (n : Nat) (k : OutPkt) : Bool :=
  match n with
  | 1 => !(flag s F.HCP_CFG_FLOW && s.hcp.ctsHigh)
  | 2 => s.hcp.arpCache.any (fun e => e.ip == nextHop s k.dstIp)
  | _ => true

/-- The front packet of a port leaves its buffer, read word by word; one with a poisoned word is discarded and counted as a failed CRC is (R397). What
was to follow its sending follows all the same (log entry 234). -/
def leaveFront (s : State) (n : Nat) (k : OutPkt) : State :=
  let bad := bufBad (hport s n) k.place
  let s := bufRead s n k.place
  sentFront (if bad then inc s (F.crcErr n) else s) n

/-- Up to `m` packets leave a port. -/
def sendOut (s : State) (n : Nat) : Nat → State
  | 0 => s
  | m + 1 =>
    match (hport s n).out with
    | [] => s
    | k :: _ => if maySendOut s n k then sendOut (leaveFront s n k) n m else (if n = 2 then arpNeed s k.dstIp else s)

/-- Packets with a poisoned word at the front of a port are discarded: HCP reads them to offer them. -/
def dropSpoilt (s : State) (n : Nat) : Nat → State
  | 0 => s
  | m + 1 =>
    match (hport s n).out with
    | [] => s
    | k :: _ => if bufBad (hport s n) k.place then dropSpoilt (leaveFront s n k) n m else s

/-- Room has come back: the GAP event, the next fragments, the next requests. -/
def afterRoom (s : State) (n : Nat) : State := serve (sendFragments (gapOut s n) fragmentFuel)

/-! ### SPI (R419–R421) -/

/-- The device can take one more packet (log entry 26). -/
def spiRoom (s : State) : Bool := inRoom s 0

/-- The device's bytes of a transaction of `len` bytes. -/
def spiMiso (s : State) (len : Nat) : Bytes :=
  let p := hport s 0
  let offer := (p.out.head?.map (fun k => bufBytes p k.place (packetBytes k))).getD []
  let fl := b2n (spiRoom s) + 2 * b2n (decide (1 < p.out.length)) + 4 * b2n (s.pmu.mode == .boot)
  padTo len ((leBytes 0x5A 1 ++ leBytes fl 1 ++ leBytes offer.length 2 ++ offer).take len)

/-- The host's packet of a transaction (R420): none, a discard, or its bytes. -/
inductive SpiIn where
  | none_ | overflow | packet (b : Bytes)
  deriving DecidableEq, Repr

def spiIn (room : Bool) (mosi : Bytes) : SpiIn :=
  let n := u mosi 2 2
  if mosi.length < 4 ∨ u mosi 0 1 ≠ 0xA5 ∨ n = 0 then .none_
  else if n < 12 ∨ 4124 < n ∨ !room ∨ mosi.length < 4 + n then .overflow
  else .packet (slice mosi 4 n)

/-- SPI_TRANSACTION. The offered packet is released once all its bytes have been clocked. -/
def spiTransaction (s : State) (mosi : Bytes) (v : Verdicts) : State :=
  if !hcpHears s then { s with hcp := { s.hcp with miso := [] } }
  else
    let s := dropSpoilt s 0 (hport s 0).out.length
    let p := hport s 0
    let room := spiRoom s
    let whole := match p.out.head? with
      | some k => decide (4 + (packetBytes k).length ≤ mosi.length)
      | none => false
    let s : State := { s with hcp := { s.hcp with miso := spiMiso s mosi.length } }
    let s := setHport s 0 { p with room := room && decide (2 ≤ mosi.length) }
    let s := match p.out.head? with
      | some k => if whole then leaveFront s 0 k else bufRead s 0 k.place
      | none => s
    let s := afterRoom s 0
    match spiIn p.room mosi with
    | .none_ => s
    | .overflow => inc s F.HCP_CNT0_OVERFLOW
    | .packet b => packetRx s .spi b 0 0 v

/-! ### ARP (R425) -/

/-- Cache entries at most. -/
def arpKeep (l : List ArpEntry) (e : ArpEntry) : List ArpEntry :=
  let l := l.filter (fun x => x.ip != e.ip) ++ [e]
  l.drop (l.length - 8)

/-- A reply to one of the device's requests. -/
def arpReply (s : State) (ip mac : Nat) : State :=
  if s.hcp.arpWait.any (fun w => w.ip == ip) then
    { s with hcp := { s.hcp with arpWait := s.hcp.arpWait.filter (fun w => w.ip != ip)
                                 arpCache := arpKeep s.hcp.arpCache { ip, mac, expiry := now s + 300 * Config.ticksPerSec } } }
  else s

/-- A packet that reports an event: EVENT set and REPLY clear. -/
def isEvent (k : OutPkt) : Bool := k.vf % 4 == 2

/-- After three requests without an answer, events towards that hop are dropped and counted; replies wait, and the resolution
starts anew for them. -/
def arpFailed (s : State) (ip : Nat) : State :=
  let p := hport s 2
  let hit (k : OutPkt) : Bool := nextHop s k.dstIp == ip
  let gone := (p.out.filter (fun k => hit k && isEvent k)).length
  let s := incBy s (F.evDrop 2) gone
  let s := setHport s 2 { p with out := p.out.filter (fun k => !(hit k && isEvent k)) }
  let s : State := { s with hcp := { s.hcp with arpWait := s.hcp.arpWait.filter (fun w => w.ip != ip) } }
  if p.out.any (fun k => hit k && !isEvent k) then
    { s with hcp := { s.hcp with arpWait := s.hcp.arpWait ++ [{ ip, tries := 1 }], arpSent := s.hcp.arpSent ++ [(1, ip)] } }
  else s

/-- 200 ms have passed without an answer. -/
def arpAgain (s : State) (ip : Nat) : State :=
  match s.hcp.arpWait.find? (fun w => w.ip == ip) with
  | none => s
  | some w =>
    if w.tries < 3 then
      { s with hcp := { s.hcp with arpWait := s.hcp.arpWait.map (fun x => if x.ip = ip then { x with tries := x.tries + 1 } else x)
                                   arpSent := s.hcp.arpSent ++ [(1, ip)] } }
    else afterRoom (arpFailed s ip) 2

/-! ### PULUAC-REMOTE (R441, R442) -/

/-- The duplicate memory of an originator. -/
def remoteDupsOf (s : State) (o : Nat) : List Dup := assocGet [] s.hcp.remoteDups o

/-- A remote request, from step 3 of R427 on. -/
def remoteReq (s : State) (o seq op : Nat) (params : Bytes) (priv : Bool) (v : Verdicts) : State :=
  match dupState (remoteDupsOf s o) seq op with
  | .clash => sendRemote s o 0x11 seq op (leBytes St.seqDuplicate 2)
  | .again (some r) => sendRemote s o 0x11 seq op r
  | .again none => s
  | .fresh =>
    let s : State := { s with hcp := { s.hcp with remoteDups := assocSet s.hcp.remoteDups o (dupAdd (remoteDupsOf s o) seq op) } }
    let c : Current := { port := .spi, orig := some o, seq, op, auth := false, params, v, from_ := 0, to_ := 0, dead := false }
    match checkOp s op params true priv 3 false with
    | 0 => runReq s c
    | st => turnAway s c st

/-- A reply to this node's own remote request: REMOTE_RX to the DELIVER port (R438, R440). -/
def remoteReply (s : State) (o : Nat) (b : Bytes) : State :=
  let n := getF s F.HCP_CFG_DELIVER
  if 3 ≤ n then inc s F.HCP_CFG_NODELIV
  else emitEvent s n 0x3201 (leBytes (now s) 8 ++ leBytes o 2 ++ b)

/-- The content of a PULUAC-REMOTE packet. -/
def remotePacket (s : State) (p : QPkt) (v : Verdicts) : State :=
  let b := p.body.drop 8
  let o := mhOrig p.body
  let vf := u b 1 1
  if b.length < 8 ∨ u b 0 1 ≠ 0xC7 ∨ vf / 16 ≠ 1 ∨ b.length ≠ 8 + u b 6 2 then s
  else if bit vf 0 then remoteReply s o b
  else if vf % 16 ≠ 0 then s
  else remoteReq s o (u b 2 2) (u b 4 2) (b.drop 8) p.priv v

/-- PULUAC_REMOTE_RX: HCP takes the packet at the front of HOST-OUT, between requests (R441). -/
def remoteRx (s : State) (v : Verdicts) : State :=
  if !hcpOn s ∨ s.hcp.current.isSome then s
  else
    match frontOf (queue s 11) with
    | some (_, e) =>
      match e.item with
      | .pkt p =>
        if p.cls ≠ 6 ∨ frontBad s 11 then takeHostOut s
        else serve (takeHostOut (remotePacket (takeQ s 11).1 p v))
      | _ => takeHostOut s
    | none => s

/-! ### Meanings: carriers -/

/-- SPI_TRANSACTION (R419–R421). -/
def execSpiTransaction (mosi : Bytes) (v : Verdicts) (s : State) : Host.Outcome State Fault Refusal := .next (spiTransaction s mosi v)

/-- UART_BREAK (R423, R432). -/
def execUartBreak (s : State) : Host.Outcome State Fault Refusal := .next (if hcpHears s then serve (sendFragments (portReset s 1) fragmentFuel) else s)

/-- UART_BYTE_GAP (R423). -/
def execUartByteGap (s : State) : Host.Outcome State Fault Refusal := .next (if hcpHears s then uartGap s else s)

/-- UART_CTS_CHANGE (R422). -/
def execUartCtsChange (high : Bool) (s : State) : Host.Outcome State Fault Refusal :=
  .next { s with hcp := { s.hcp with ctsHigh := high } }

/-- PORT_BUFFER_ROOM (R428, R439): up to `sent` packets have left the UART or the Ethernet port; SPI packets leave by transactions. -/
def execPortBufferRoom (port : HostPort) (sent : Nat) (s : State) : Host.Outcome State Fault Refusal :=
  let n := HostPort.idx port
  .next (if hcpHears s then afterRoom (if n = 0 then s else sendOut s n sent) n else s)

/-- ARP_REQUEST_RX (R425): a request for the device's own address is answered. -/
def execArpRequestRx (ip : BitVec 32) (s : State) : Host.Outcome State Fault Refusal :=
  .next (
    if hcpHears s ∧ ethOn s ∧ ip.toNat = getF s F.HCP_IP0_ADDR then
      { s with hcp := { s.hcp with arpSent := s.hcp.arpSent ++ [(2, ip.toNat)] } }
    else s)

/-- ARP_REPLY_RX (R425). -/
def execArpReplyRx (ip : BitVec 32) (mac : BitVec 48) (s : State) : Host.Outcome State Fault Refusal :=
  .next (if hcpHears s ∧ ethOn s then arpReply s ip.toNat mac.toNat else s)

/-- ARP_RETRY (R425). -/
def execArpRetry (ip : BitVec 32) (s : State) : Host.Outcome State Fault Refusal :=
  .next (if hcpHears s ∧ ethOn s then arpAgain s ip.toNat else s)

/-- ARP_CACHE_EXPIRY (R425). -/
def execArpCacheExpiry (s : State) : Host.Outcome State Fault Refusal :=
  .next { s with hcp := { s.hcp with arpCache := s.hcp.arpCache.filter (fun e => now s < e.expiry) } }

/-- A datagram that the Ethernet port takes: what its frame passes otherwise, and the port's own address and LPORT (R424). -/
def ethTakes (s : State) (e : EthMeta) : Bool :=
  ethOn s && e.accepted && e.dstIp.toNat == getF s F.HCP_IP0_ADDR && e.dstPort.toNat == getF s F.HCP_UDP_LPORT

/-- HOST_PACKET_RX: bytes on the UART, one packet on SPI, a frame on Ethernet (R416–R424). -/
def execHostPacketRx (port : HostPort) (bytes : Bytes) (eth : EthMeta) (v : Verdicts) (s : State) : Host.Outcome State Fault Refusal :=
  .next (
    if !hcpHears s then s
    else
      match port with
      | .uart => uartRx s bytes v
      | .spi => packetRx s .spi bytes 0 0 v
      | .eth => if ethTakes s eth then packetRx s .eth bytes eth.srcIp.toNat eth.srcPort.toNat v else s)

/-- PULUAC_REMOTE_RX (R441). -/
def execPuluacRemoteRx (v : Verdicts) (s : State) : Host.Outcome State Fault Refusal := .next (remoteRx s v)

end Sys2Proof.Machine
end

