-- ==== Sys2Proof/Machine/ControlRows.lean ====
section
/-! DEFINITION. The commands of LCE: ticks, expiries, operations (R305–R333). -/

namespace Sys2Proof.Machine

/-- `n` ticks in a row; the mirror learns of each at its end (R348). -/
def runTicks (s : State) : Nat → State
  | 0 => s
  | n + 1 => runTicks (collect (controlTick s)) n

/-- CONTROL_TICK: every tick whose start has come (R304). -/
def execControlTick (s : State) : Host.Outcome State Fault Refusal := .next (if hcpOn s then serve (runTicks s (ticksDue s)) else s)

/-- Ticks up to the one numbered `t`, at least one; HCP then takes the requests that waited for LCE_OPS. -/
def ticksTo (s : State) (t : Nat) : State := if lceRuns s then serve (runTicks s (max (ticksDue s) (t - s.lce.tick))) else s

/-- LEASE_EXPIRY (R329): mesh time reaches the expiry; LCE acts on the loss in phase 1 of the next tick. -/
def execLeaseExpiry (l : Fin 32) (s : State) : Host.Outcome State Fault Refusal :=
  let k := lock s l
  .next (
    if k.st = .held ∧ k.lost.isNone ∧ !(k.owner.cls = 0 && ruleOn s k.owner.id) then
      inc (setLock (advanceTo s k.expiry) l { k with lost := some 2 }) F.LCE_CNT1_EXPIRED
    else s)

/-- RULE_HOLD_EXPIRY (R318): the ticks that the hold still lacks. -/
def execRuleHoldExpiry (i : Fin 256) (s : State) : Host.Outcome State Fault Refusal :=
  let r := rule s i
  let lim := (if r.cond then u (ruleRec s i) 6 2 else u (ruleRec s i) 4 2) + 1
  .next (if ruleOn s i then ticksTo s (s.lce.tick + (lim - r.count)) else s)

/-- QTIME_EXPIRY (R319): the ticks that QTIME still lacks. -/
def execQtimeExpiry (i : Fin 256) (s : State) : Host.Outcome State Fault Refusal :=
  let qt := u (ruleRec s i) 10 2
  .next (if ruleOn s i && qt != 0 then ticksTo s (s.lce.tick + (qt - (rule s i).quiet)) else s)

/-- SEQUENCE_WAIT_EXPIRY (R323). -/
def execSequenceWaitExpiry (k : Fin 64) (s : State) : Host.Outcome State Fault Refusal :=
  .next (match (sequ s k).waitTo with
    | some t => if seqActive s k then ticksTo s t else s
    | none => s)

/-- WAITCOND_TIMEOUT (R323). -/
def execWaitcondTimeout (k : Fin 64) (s : State) : Host.Outcome State Fault Refusal :=
  .next (match (sequ s k).condAt with
    | some t =>
      let lim := bits (seqStep s k (sequ s k).step) 32 24
      if seqActive s k && lim != 0 then ticksTo s (t + 4 * lim) else s
    | none => s)

/-- SEQUENCE_MAXTIME (R325). -/
def execSequenceMaxtime (k : Fin 64) (s : State) : Host.Outcome State Fault Refusal :=
  let lim := u (sequ s k).hdr 6 4
  .next (if (sequ s k).st = 1 ∧ lim ≠ 0 then ticksTo s ((sequ s k).start + 4 * lim) else s)

/-- WAITER_TIMEOUT (R327): the earliest wait of the lock ends. -/
def execWaiterTimeout (l : Fin 32) (s : State) : Host.Outcome State Fault Refusal :=
  .next (match (lock s l).waiters with
    | [] => s
    | w :: rest => ticksTo s (rest.foldl (fun m x => min m x.until_) w.until_))

/-- PULSE_END (R312). -/
def execPulseEnd (i : Fin 32) (s : State) : Host.Outcome State Fault Refusal :=
  .next (match (act s i).pulseEnd with
    | some t => ticksTo s t
    | none => s)

/-- BISTABLE_PULSE_END (R312). -/
def execBistablePulseEnd (i : Fin 32) (s : State) : Host.Outcome State Fault Refusal :=
  .next (match (act s i).coil with
    | some (_, t) => ticksTo s t
    | none => s)

/-- INTERLOCK_DEAD_EXPIRY (R315): the dead times that defer the pending value of actuator `i` have passed. -/
def execInterlockDeadExpiry (i : Fin 32) (s : State) : Host.Outcome State Fault Refusal :=
  let due := (List.range 16).foldl (fun m k =>
    let b := ilkRec s k
    let j := if u b 1 1 = i.val then u b 2 1 else u b 1 1
    if u b 0 1 = 1 ∧ (u b 1 1 = i.val ∨ u b 2 1 = i.val) then
      max m (((act s j).offTick.getD 0) + 4 * u b 4 2)
    else m) 0
  .next (if (act s i).pending.isSome then ticksTo s due else s)

/-- DI_LEVEL_ACCEPT (R309): the level has been stable for DEB µs. -/
def execDiLevelAccept (di : Fin 16) (level : Bool) (s : State) : Host.Outcome State Fault Refusal :=
  .next (if hcpOn s then setF s F.LCE_DI_LEVEL (withBit (getF s F.LCE_DI_LEVEL) di level) else s)

/-- LCE_COMMAND_RX (R333): a packet delivered to LCE. -/
def execLceCommandRx (orig : BitVec 16) (priv : Bool) (body : Bytes) (s : State) : Host.Outcome State Fault Refusal :=
  .next (if hcpOn s then commandRx s orig.toNat priv (body.take 2048) else s)

/-- One operation of R332 as phase 2 executes it, for a host port or a remote node; a reply to a remote node follows in
the next phase 7, one to a host port only through LCE_OPS. -/
def oneOp (s : State) (by_ : LceBy) (p : LceOp) : State :=
  match by_ with
  | .host q tag =>
    (runRequest s { cls := 1, id := HostPort.idx q, gen := nth 0 s.lce.hostGen (HostPort.idx q) } tag.toNat true [p]).1
  | .remote a g priv tag =>
    let o : Owner := { cls := 2, id := a.toNat, gen := g.toNat }
    let (s, rs) := runRequest s o tag.toNat priv [p]
    reply s o tag.toNat rs false

/-- LCE_ACQUIRE (R327). -/
def execLceAcquire (by_ : LceBy) (l : BitVec 8) (lease : BitVec 16) (wait : BitVec 16) (s : State) :
    Host.Outcome State Fault Refusal := .next (oneOp s by_ ⟨1, l.toNat, lease.toNat, wait.toNat⟩)

/-- LCE_RELEASE (R327). -/
def execLceRelease (by_ : LceBy) (l : BitVec 8) (s : State) : Host.Outcome State Fault Refusal :=
  .next (oneOp s by_ ⟨2, l.toNat, 0, 0⟩)

/-- LCE_SET (R332). -/
def execLceSet (by_ : LceBy) (i : BitVec 8) (v : BitVec 16) (s : State) : Host.Outcome State Fault Refusal :=
  .next (oneOp s by_ ⟨3, i.toNat, v.toNat, 0⟩)

/-- LCE_START (R324). -/
def execLceStart (by_ : LceBy) (k : BitVec 8) (s : State) : Host.Outcome State Fault Refusal :=
  .next (oneOp s by_ ⟨4, k.toNat, 0, 0⟩)

/-- LCE_ABORT (R325). -/
def execLceAbort (by_ : LceBy) (k : BitVec 8) (s : State) : Host.Outcome State Fault Refusal :=
  .next (oneOp s by_ ⟨5, k.toNat, 0, 0⟩)

/-- LCE_TRIGGER (R317). -/
def execLceTrigger (by_ : LceBy) (code : BitVec 8) (s : State) : Host.Outcome State Fault Refusal :=
  .next (oneOp s by_ ⟨6, code.toNat, 0, 0⟩)

end Sys2Proof.Machine
end

