-- ==== Sys2Proof/Machine/HostRows.lean ====
section
/-! DEFINITION. The opcodes of Puluac as commands: a request for each, received from a host port (R434–R436, log entry 1), and the
commands after which HCP can take the next request. -/

namespace Sys2Proof.Machine

/-- PING (R434, R436). -/
def execPing (r : HostReq) (s : State) : Host.Outcome State Fault Refusal := .next (hostRequest s 0xFC01 r)

/-- REG_READ (R434, R436). -/
def execRegRead (r : HostReq) (s : State) : Host.Outcome State Fault Refusal := .next (hostRequest s 0xFC02 r)

/-- REG_WRITE (R434, R436). -/
def execRegWrite (r : HostReq) (s : State) : Host.Outcome State Fault Refusal := .next (hostRequest s 0xFC03 r)

/-- EVENT_SUBSCRIBE (R434, R436). -/
def execEventSubscribe (r : HostReq) (s : State) : Host.Outcome State Fault Refusal := .next (hostRequest s 0xFC04 r)

/-- PORT_RESET (R434, R436). -/
def execPortReset (r : HostReq) (s : State) : Host.Outcome State Fault Refusal := .next (hostRequest s 0xFC05 r)

/-- PORT_CONFIG (R434, R436). -/
def execPortConfig (r : HostReq) (s : State) : Host.Outcome State Fault Refusal := .next (hostRequest s 0xFC06 r)

/-- NET_CONFIG (R434, R436). -/
def execNetConfig (r : HostReq) (s : State) : Host.Outcome State Fault Refusal := .next (hostRequest s 0xFC07 r)

/-- SESSION_OPEN (R434, R436). -/
def execSessionOpen (r : HostReq) (s : State) : Host.Outcome State Fault Refusal := .next (hostRequest s 0xFC08 r)

/-- SESSION_PROVE (R434, R436). -/
def execSessionProve (r : HostReq) (s : State) : Host.Outcome State Fault Refusal := .next (hostRequest s 0xFC09 r)

/-- SESSION_CLOSE (R434, R436). -/
def execSessionClose (r : HostReq) (s : State) : Host.Outcome State Fault Refusal := .next (hostRequest s 0xFC0A r)

/-- MESH_SEND (R434, R436). -/
def execMeshSend (r : HostReq) (s : State) : Host.Outcome State Fault Refusal := .next (hostRequest s 0xFC0B r)

/-- DEVICE_RESET (R434, R436). -/
def execDeviceReset (r : HostReq) (s : State) : Host.Outcome State Fault Refusal := .next (hostRequest s 0xFC0C r)

/-- MODE_SET (R435, R436). -/
def execModeSet (r : HostReq) (s : State) : Host.Outcome State Fault Refusal := .next (hostRequest s 0x0001 r)

/-- MAP_READ (R435, R436). -/
def execMapRead (r : HostReq) (s : State) : Host.Outcome State Fault Refusal := .next (hostRequest s 0x0C01 r)

/-- SWEEP_READ (R435, R436). -/
def execSweepRead (r : HostReq) (s : State) : Host.Outcome State Fault Refusal := .next (hostRequest s 0x0C02 r)

/-- CONTEXT_READ (R435, R436). -/
def execContextRead (r : HostReq) (s : State) : Host.Outcome State Fault Refusal := .next (hostRequest s 0x1401 r)

/-- ADDR_RESERVE (R435, R436). -/
def execAddrReserve (r : HostReq) (s : State) : Host.Outcome State Fault Refusal := .next (hostRequest s 0x1402 r)

/-- ADDR_RELEASE (R435, R436). -/
def execAddrRelease (r : HostReq) (s : State) : Host.Outcome State Fault Refusal := .next (hostRequest s 0x1403 r)

/-- LATERAL_OPEN (R435, R436). -/
def execLateralOpen (r : HostReq) (s : State) : Host.Outcome State Fault Refusal := .next (hostRequest s 0x1404 r)

/-- FIT (R435, R436). -/
def execFit (r : HostReq) (s : State) : Host.Outcome State Fault Refusal := .next (hostRequest s 0x2001 r)

/-- GALLERY_READ (R435, R436). -/
def execGalleryRead (r : HostReq) (s : State) : Host.Outcome State Fault Refusal := .next (hostRequest s 0x2002 r)

/-- LCE_OPS (R435, R436). -/
def execLceOps (r : HostReq) (s : State) : Host.Outcome State Fault Refusal := .next (hostRequest s 0x2401 r)

/-- ATTEST (R435, R436). -/
def execAttest (r : HostReq) (s : State) : Host.Outcome State Fault Refusal := .next (hostRequest s 0x2801 r)

/-- NODEKEY_GEN (R435, R436). -/
def execNodekeyGen (r : HostReq) (s : State) : Host.Outcome State Fault Refusal := .next (hostRequest s 0x2802 r)

/-- CERT_INSTALL (R435, R436). -/
def execCertInstall (r : HostReq) (s : State) : Host.Outcome State Fault Refusal := .next (hostRequest s 0x2803 r)

/-- KEY_INSTALL (R435, R436). -/
def execKeyInstall (r : HostReq) (s : State) : Host.Outcome State Fault Refusal := .next (hostRequest s 0x2804 r)

/-- GKEY_SET (R435, R436). -/
def execGkeySet (r : HostReq) (s : State) : Host.Outcome State Fault Refusal := .next (hostRequest s 0x2805 r)

/-- REKEY (R435, R436). -/
def execRekey (r : HostReq) (s : State) : Host.Outcome State Fault Refusal := .next (hostRequest s 0x2806 r)

/-- OTP_BURN (R435, R436). -/
def execOtpBurn (r : HostReq) (s : State) : Host.Outcome State Fault Refusal := .next (hostRequest s 0x2807 r)

/-- ROLLBACK_COMMIT (R435, R436). -/
def execRollbackCommit (r : HostReq) (s : State) : Host.Outcome State Fault Refusal := .next (hostRequest s 0x2808 r)

/-- FLASH_ERASE (R435, R436). -/
def execFlashErase (r : HostReq) (s : State) : Host.Outcome State Fault Refusal := .next (hostRequest s 0x3001 r)

/-- FLASH_WRITE (R435, R436). -/
def execFlashWrite (r : HostReq) (s : State) : Host.Outcome State Fault Refusal := .next (hostRequest s 0x3002 r)

/-- FLASH_READ (R435, R436). -/
def execFlashRead (r : HostReq) (s : State) : Host.Outcome State Fault Refusal := .next (hostRequest s 0x3003 r)

/-- CONFIG_SAVE (R435, R436). -/
def execConfigSave (r : HostReq) (s : State) : Host.Outcome State Fault Refusal := .next (hostRequest s 0x3004 r)

/-- FLASH_OP_COMPLETE (R436). -/
def execFlashOpComplete (s : State) : Host.Outcome State Fault Refusal := .next (serve (flashComplete s))

/-- MRT_PACKET_HANDLE (R197). -/
def execMrtPacketHandle (q : Fin 16) (_ _ : Unit) (s : State) : Host.Outcome State Fault Refusal :=
  .next (serve (mrtHandle s q))

/-- OPERATOR_SIG_VERIFIED (R26, R380). -/
def execOperatorSigVerified (remote : Bool) (_ : Unit) (s : State) : Host.Outcome State Fault Refusal :=
  .next (serve (operatorVerified s remote))

/-- JOIN_OFFER_RX (R208). -/
def execJoinOfferRx (port : Fin 5) (src : BitVec 16) (body : Bytes) (s : State) : Host.Outcome State Fault Refusal :=
  .next (if mrtOn s && joinsHere s then serve (joinOffer s port.val src.toNat body) else s)

/-- JOIN_PROOF_RX (R208). -/
def execJoinProofRx (ctx : BitVec 12) (body : Bytes) (_ _ : Unit) (s : State) : Host.Outcome State Fault Refusal :=
  .next (if mrtOn s && joinsHere s then serve (joinProof s ctx.toNat body) else s)

/-- PARENT_PROOF_RX (R208). -/
def execParentProofRx (ctx : BitVec 12) (body : Bytes) (_ _ : Unit) (s : State) : Host.Outcome State Fault Refusal :=
  .next (if mrtOn s && joinsHere s then serve (parentProof s ctx.toNat body) else s)

/-- TRNG_READY (R386): 1,024 consecutive samples have passed, and what waited for the random source goes on. -/
def execTrngReady (s : State) : Host.Outcome State Fault Refusal :=
  .next (if trngRuns s then serve (trngStarts s) else s)

/-- LIN_COMMIT_COMPLETE (R297): the set is a mirrored one (R348). -/
def execLinCommitComplete (s : State) : Host.Outcome State Fault Refusal := .next (collect (linComplete s))

/-- HOST_IN_COPY (R404). -/
def execHostInCopy (lce : Bool) (s : State) : Host.Outcome State Fault Refusal := .next (serve (hostInCopy s lce))

/-- PHASE_SLOT_BOUNDARY (R48, R61). -/
def execPhaseSlotBoundary (streams : Streams) (s : State) : Host.Outcome State Fault Refusal :=
  .next (serve (phaseSlot (if mfeOn s then takeStreams s streams else s)))

/-- LEAVE_WAIT_EXPIRY (R52). -/
def execLeaveWaitExpiry (req : Fin 11) (s : State) : Host.Outcome State Fault Refusal := .next (serve (waitExpired s req))

/-- SYNC_IN_EDGE (R73, R74): taken after 1 µs of low level while SYNCIN_EN is 1. -/
def execSyncInEdge (ts : MeshTime) (lowOk : Bool) (s : State) : Host.Outcome State Fault Refusal :=
  .next (
    if !lowOk ∨ !hcpOn s ∨ inHold s ∨ !flag s F.TBU_CFG_SYNCIN_EN then s
    else
      let s := advanceTo s ts.toNat
      if isRoot s then syncInRoot s ts.toNat else if mfeOn s then aggMove s ts.toNat else s)

end Sys2Proof.Machine
end

