-- ==== Sys2Proof/Machine/Operands.lean ====
section
/-! DEFINITION. How a command's operands become what the shared operations take: the value and the request of a register
access, and the time that passes while no command waits. -/

namespace Sys2Proof.Machine
/-- The value that a request's parameters carry. -/
def reqValue (r : HostReq) : Nat := u (padTo 4 r.params) 0 4

/-- A REG_WRITE of one register. -/
def writeOne (s : State) (r : HostReq) (a v : Nat) : State :=
  hostRequest s 0xFC03 { r with params := leBytes a 4 ++ leBytes 1 2 ++ leBytes 0 2 ++ leBytes v 4 }

/-- A REG_READ of one register. -/
def readOne (s : State) (r : HostReq) (a : Nat) : State :=
  hostRequest s 0xFC02 { r with params := leBytes a 4 ++ leBytes 1 2 }

/-- The block idles: one TIME cycle passes, or in ROOST, where the RTCK crystal keeps mesh time, one RTCK cycle of 3,750 ticks; none while a
reset or thermal shutdown holds the device (R37, R66, R466, log entry 8). -/
def idle (s : State) : State :=
  if inHold s then s else if timeStopped s then runTime s 3750 else runTime s 1

end Sys2Proof.Machine
end

