-- ==== Sys2Proof/Machine/RegRows.lean ====
section
/-! DEFINITION. The commands that are accesses of one register: REG_WRITE or REG_READ of it, received from a host port, with the value
in the request's parameters (log entry 1). -/

namespace Sys2Proof.Machine

/-- TIMESET_ARM (R67). -/
def execTimesetArm (r : HostReq) (s : State) : Host.Outcome State Fault Refusal :=
  .next (writeOne s r F.TBU_TIMESET_HI_SET_HI.addr (reqValue r))

/-- HELD_HALF_WRITE (R451): TBU_TIMESET_LO, MRT_FTDATALO, MFE_SCANDATA0. -/
def execHeldHalfWrite (which : Fin 3) (r : HostReq) (s : State) : Host.Outcome State Fault Refusal :=
  .next (writeOne s r (nth 0 [F.TBU_TIMESET_LO_SET_LO.addr, F.MRT_FTDATALO_DATALO.addr, F.MFE_SCANDATA0_DATA0.addr] which) (reqValue r))

/-- LATCHING_READ (R451): TBU_TIME_LO, LPHY_MAPDATALO0–3, MRT_FTDATALO, DCH_DETVAL0, LCE_OBJSTAT0. -/
def execLatchingRead (which : Fin 8) (r : HostReq) (s : State) : Host.Outcome State Fault Refusal :=
  .next (readOne s r (nth 0 [0x10018, 0x30060, 0x30160, 0x30260, 0x30360, 0x50828, 0x80030, 0x90014] which))

/-- REEPOCH_WRITE (R76). -/
def execReepochWrite (r : HostReq) (s : State) : Host.Outcome State Fault Refusal :=
  .next (writeOne s r F.TBU_REEPOCH_SHIFT.addr (reqValue r))

/-- SWEEP_GO (R148). -/
def execSweepGo (port : Fin 4) (r : HostReq) (s : State) : Host.Outcome State Fault Refusal :=
  .next (writeOne s r (F.LPHY_SWEEP_GO port).addr (reqValue r ||| 2 ^ (F.LPHY_SWEEP_GO port).lo))

/-- SWEEP_ABORT (R148). -/
def execSweepAbort (port : Fin 4) (r : HostReq) (s : State) : Host.Outcome State Fault Refusal :=
  .next (writeOne s r (F.LPHY_SWEEP_ABORT port).addr (reqValue r ||| 2 ^ (F.LPHY_SWEEP_ABORT port).lo))

/-- SLOT_SWAP_REQUEST (R158). -/
def execSlotSwapRequest (r : HostReq) (s : State) : Host.Outcome State Fault Refusal :=
  .next (writeOne s r F.SFM_SLOTCTL_SWAP.addr (reqValue r ||| 2 ^ F.SFM_SLOTCTL_SWAP.lo))

/-- RREQ_GO (R202). -/
def execRreqGo (r : HostReq) (s : State) : Host.Outcome State Fault Refusal :=
  .next (writeOne s r F.MRT_RREQ_GO.addr (reqValue r ||| 2 ^ F.MRT_RREQ_GO.lo))

/-- FWD_ENTRY_COMMIT (R192). -/
def execFwdEntryCommit (r : HostReq) (s : State) : Host.Outcome State Fault Refusal :=
  .next (writeOne s r F.MRT_FTDATAHI_DATAHI.addr (reqValue r))

/-- SCAN_GO (R244). -/
def execScanGo (r : HostReq) (s : State) : Host.Outcome State Fault Refusal :=
  .next (writeOne s r F.MFE_SCANCTL_GO.addr (reqValue r ||| 2 ^ F.MFE_SCANCTL_GO.lo))

/-- SCAN_STOP (R244). -/
def execScanStop (r : HostReq) (s : State) : Host.Outcome State Fault Refusal :=
  .next (writeOne s r F.MFE_SCANCTL_STOP.addr (reqValue r ||| 2 ^ F.MFE_SCANCTL_STOP.lo))

/-- SCAN_ENTRY_COMMIT (R248). -/
def execScanEntryCommit (r : HostReq) (s : State) : Host.Outcome State Fault Refusal :=
  .next (writeOne s r F.MFE_SCANDATA1_DATA1.addr (reqValue r))

/-- EXCITATION_WRITE (R252): MFE_EXC, MFE_EXCFREQ, MFE_IDAC. -/
def execExcitationWrite (which : Fin 3) (r : HostReq) (s : State) : Host.Outcome State Fault Refusal :=
  .next (writeOne s r (nth 0 [F.MFE_EXC_AMP.addr, F.MFE_EXCFREQ_FREQ.addr, F.MFE_IDAC_IA.addr] which) (reqValue r))

/-- XPCFG_WRITE (R243). -/
def execXpcfgWrite (r : HostReq) (s : State) : Host.Outcome State Fault Refusal :=
  .next (writeOne s r F.MFE_XPCFG_ROLE0.addr (reqValue r))

/-- GALLERY_ARM (R285). -/
def execGalleryArm (r : HostReq) (s : State) : Host.Outcome State Fault Refusal :=
  .next (writeOne s r F.DCH_GALCTL_ARM.addr (reqValue r ||| 2 ^ F.DCH_GALCTL_ARM.lo))

/-- GALLERY_TRIGGER_WRITE (R285). -/
def execGalleryTriggerWrite (r : HostReq) (s : State) : Host.Outcome State Fault Refusal :=
  .next (writeOne s r F.DCH_GALCTL_TRIG.addr (reqValue r ||| 2 ^ F.DCH_GALCTL_TRIG.lo))

/-- GALLERY_ABORT (R285). -/
def execGalleryAbort (r : HostReq) (s : State) : Host.Outcome State Fault Refusal :=
  .next (writeOne s r F.DCH_GALCTL_ABORT.addr (reqValue r ||| 2 ^ F.DCH_GALCTL_ABORT.lo))

/-- LIN_LOAD (R296). -/
def execLinLoad (r : HostReq) (s : State) : Host.Outcome State Fault Refusal :=
  .next (writeOne s r F.DCH_LINSET_LOAD.addr (reqValue r ||| 2 ^ F.DCH_LINSET_LOAD.lo))

/-- LIN_COMMIT (R297). -/
def execLinCommit (r : HostReq) (s : State) : Host.Outcome State Fault Refusal :=
  .next (writeOne s r F.DCH_LINSET_COMMIT.addr (reqValue r ||| 2 ^ F.DCH_LINSET_COMMIT.lo))

/-- LCE_TABLE_LOAD (R306). -/
def execLceTableLoad (r : HostReq) (s : State) : Host.Outcome State Fault Refusal :=
  .next (writeOne s r F.LCE_TBLWIN_LOAD.addr (reqValue r ||| 2 ^ F.LCE_TBLWIN_LOAD.lo))

/-- LCE_TABLE_COMMIT (R306). -/
def execLceTableCommit (r : HostReq) (s : State) : Host.Outcome State Fault Refusal :=
  .next (writeOne s r F.LCE_TBLWIN_COMMIT.addr (reqValue r ||| 2 ^ F.LCE_TBLWIN_COMMIT.lo))

/-- TEST_OUTPUT_WRITE (R310): LCE_TESTDO, LCE_TESTAO0, LCE_TESTAO1. -/
def execTestOutputWrite (which : Fin 3) (r : HostReq) (s : State) : Host.Outcome State Fault Refusal :=
  .next (writeOne s r (nth 0 [F.LCE_TESTDO_VAL.addr, F.LCE_TESTAO0_CODE.addr, F.LCE_TESTAO1_CODE.addr] which) (reqValue r))

/-- RESYNC_WRITE (R344). -/
def execResyncWrite (r : HostReq) (s : State) : Host.Outcome State Fault Refusal :=
  .next (writeOne s r F.ERF_CTL_RESYNC.addr (reqValue r ||| 2 ^ F.ERF_CTL_RESYNC.lo))

/-- PROMOTE_WRITE (R351). -/
def execPromoteWrite (r : HostReq) (s : State) : Host.Outcome State Fault Refusal :=
  .next (writeOne s r F.ERF_CTL_PROMOTE.addr (reqValue r ||| 2 ^ F.ERF_CTL_PROMOTE.lo))

/-- PAIR_EN_WRITE (R339). -/
def execPairEnWrite (r : HostReq) (s : State) : Host.Outcome State Fault Refusal :=
  .next (writeOne s r F.ERF_CFG_PAIR_EN.addr (reqValue r))

end Sys2Proof.Machine
end

