-- ==== Sys2Proof/Machine/Dispatch.lean ====
section
/-! DEFINITION. One arm per command: its meaning, or its refusal by name. -/

namespace Sys2Proof.Machine

def exec (i : Instr) (s : State) : Host.Outcome State Fault Refusal :=
  match i with
  | .supplyUndervoltage rail => Sys2Proof.Machine.execSupplyUndervoltage rail s
  | .supplyOvervoltage rail => Sys2Proof.Machine.execSupplyOvervoltage rail s
  | .resetNLow => Sys2Proof.Machine.execResetNLow s
  | .clockLoss pll => Sys2Proof.Machine.execClockLoss pll s
  | .rtckLoss => Sys2Proof.Machine.execRtckLoss s
  | .resetRelease pairId cmsnN => Sys2Proof.Machine.execResetRelease pairId cmsnN s
  | .imageCheckDone slot r => Sys2Proof.Machine.execImageCheckDone slot r s
  | .modeTransitionEnd => Sys2Proof.Machine.execModeTransitionEnd s
  | .watchdogExpiry x => Sys2Proof.Machine.execWatchdogExpiry x s
  | .thermSafehold tj => Sys2Proof.Machine.execThermSafehold tj s
  | .thermalShutdown tj => Sys2Proof.Machine.execThermalShutdown tj s
  | .thermalShutdownEnd tj => Sys2Proof.Machine.execThermalShutdownEnd tj s
  | .thermalCapSet tj => Sys2Proof.Machine.execThermalCapSet tj s
  | .thermalCapClear tj => Sys2Proof.Machine.execThermalCapClear tj s
  | .roostWake di readOk => Sys2Proof.Machine.execRoostWake di readOk s
  | .ownInChange level dt => Sys2Proof.Machine.execOwnInChange level dt s
  | .ownClaim => Sys2Proof.Machine.execOwnClaim s
  | .gateOpen => Sys2Proof.Machine.execGateOpen s
  | .lceStallRelease => Sys2Proof.Machine.execLceStallRelease s
  | .phaseSlotBoundary streams => Sys2Proof.Machine.execPhaseSlotBoundary streams s
  | .leaveWaitExpiry req => Sys2Proof.Machine.execLeaveWaitExpiry req s
  | .crossingCandidate port ts => Sys2Proof.Machine.execCrossingCandidate port ts s
  | .crossingMiss port => Sys2Proof.Machine.execCrossingMiss port s
  | .superframeBoundary => Sys2Proof.Machine.execSuperframeBoundary s
  | .meshSecondCrossing => Sys2Proof.Machine.execMeshSecondCrossing s
  | .timesetArm r => Sys2Proof.Machine.execTimesetArm r s
  | .heldHalfWrite which r => Sys2Proof.Machine.execHeldHalfWrite which r s
  | .latchingRead which r => Sys2Proof.Machine.execLatchingRead which r s
  | .reepochWrite r => Sys2Proof.Machine.execReepochWrite r s
  | .syncInEdge ts lowOk => Sys2Proof.Machine.execSyncInEdge ts lowOk s
  | .vldFault mv => Sys2Proof.Machine.execVldFault mv s
  | .vldFaultClear mv => Sys2Proof.Machine.execVldFaultClear mv s
  | .currentLimit port => Sys2Proof.Machine.execCurrentLimit port s
  | .preambleDetect port run => Sys2Proof.Machine.execPreambleDetect port run s
  | .frameTxStart port slot vld => Sys2Proof.Machine.execFrameTxStart port slot vld s
  | .frameTxEnd port own => Sys2Proof.Machine.execFrameTxEnd port own s
  | .ackTailTx port vld => Sys2Proof.Machine.execAckTailTx port vld s
  | .ackTailRx port a b => Sys2Proof.Machine.execAckTailRx port a b s
  | .beaconTx port vld => Sys2Proof.Machine.execBeaconTx port vld s
  | .randomAccessTx port vld => Sys2Proof.Machine.execRandomAccessTx port vld s
  | .randomAccessBackoffEnd port => Sys2Proof.Machine.execRandomAccessBackoffEnd port s
  | .lineFrameRx port rx => Sys2Proof.Machine.execLineFrameRx port rx s
  | .radioFrameRx rx => Sys2Proof.Machine.execRadioFrameRx rx s
  | .radioFrameTxStart slot => Sys2Proof.Machine.execRadioFrameTxStart slot s
  | .radioAckTx => Sys2Proof.Machine.execRadioAckTx s
  | .radioAckRx air => Sys2Proof.Machine.execRadioAckRx air s
  | .reportRx ctx elem => Sys2Proof.Machine.execReportRx ctx elem s
  | .proposeRx ctx elem => Sys2Proof.Machine.execProposeRx ctx elem s
  | .sweepGo port r => Sys2Proof.Machine.execSweepGo port r s
  | .sweepAbort port r => Sys2Proof.Machine.execSweepAbort port r s
  | .sweepPointDone port p start v cur => Sys2Proof.Machine.execSweepPointDone port p start v cur s
  | .slotSwapRequest r => Sys2Proof.Machine.execSlotSwapRequest r s
  | .allocRx ctx body => Sys2Proof.Machine.execAllocRx ctx body s
  | .pollRx ctx body => Sys2Proof.Machine.execPollRx ctx body s
  | .carrierRx ctx elem => Sys2Proof.Machine.execCarrierRx ctx elem s
  | .delayExchangeDue ctx => Sys2Proof.Machine.execDelayExchangeDue ctx s
  | .delayReqRx ctx t2 => Sys2Proof.Machine.execDelayReqRx ctx t2 s
  | .delayRespRx ctx body t4 => Sys2Proof.Machine.execDelayRespRx ctx body t4 s
  | .delayRespTimeout ctx => Sys2Proof.Machine.execDelayRespTimeout ctx s
  | .beaconMiss => Sys2Proof.Machine.execBeaconMiss s
  | .rfReacqEnd => Sys2Proof.Machine.execRfReacqEnd s
  | .orphanSearchEnd => Sys2Proof.Machine.execOrphanSearchEnd s
  | .upstreamLostEnd => Sys2Proof.Machine.execUpstreamLostEnd s
  | .roostWakeWindow => Sys2Proof.Machine.execRoostWakeWindow s
  | .roostSleep => Sys2Proof.Machine.execRoostSleep s
  | .mrtPacketHandle q x y => Sys2Proof.Machine.execMrtPacketHandle q x y s
  | .operatorSigVerified remote x => Sys2Proof.Machine.execOperatorSigVerified remote x s
  | .advertRx ctx body => Sys2Proof.Machine.execAdvertRx ctx body s
  | .rreqRx ctx body => Sys2Proof.Machine.execRreqRx ctx body s
  | .rrepRx ctx body => Sys2Proof.Machine.execRrepRx ctx body s
  | .rerrRx ctx body => Sys2Proof.Machine.execRerrRx ctx body s
  | .advertPeriodic => Sys2Proof.Machine.execAdvertPeriodic s
  | .routeAgerVisit dest => Sys2Proof.Machine.execRouteAgerVisit dest s
  | .contextAgerVisit ctx => Sys2Proof.Machine.execContextAgerVisit ctx s
  | .rreqGo r => Sys2Proof.Machine.execRreqGo r s
  | .rreqTimeout target => Sys2Proof.Machine.execRreqTimeout target s
  | .fwdEntryCommit r => Sys2Proof.Machine.execFwdEntryCommit r s
  | .joinSearchEnd => Sys2Proof.Machine.execJoinSearchEnd s
  | .joinReqRx port src body => Sys2Proof.Machine.execJoinReqRx port src body s
  | .joinOfferRx port src body => Sys2Proof.Machine.execJoinOfferRx port src body s
  | .joinProofRx ctx body x y => Sys2Proof.Machine.execJoinProofRx ctx body x y s
  | .parentProofRx ctx body x y => Sys2Proof.Machine.execParentProofRx ctx body x y s
  | .addrReqRx body => Sys2Proof.Machine.execAddrReqRx body s
  | .addrGrantRx body => Sys2Proof.Machine.execAddrGrantRx body s
  | .joinAcceptRx ctx body => Sys2Proof.Machine.execJoinAcceptRx ctx body s
  | .joinDenyRx port src body => Sys2Proof.Machine.execJoinDenyRx port src body s
  | .joinOfferTimeout => Sys2Proof.Machine.execJoinOfferTimeout s
  | .joinLifeExpiry ctx => Sys2Proof.Machine.execJoinLifeExpiry ctx s
  | .joinAcceptTimeout => Sys2Proof.Machine.execJoinAcceptTimeout s
  | .modulatorOverload m => Sys2Proof.Machine.execModulatorOverload m s
  | .modulatorResetEnd m => Sys2Proof.Machine.execModulatorResetEnd m s
  | .pllMUnlock => Sys2Proof.Machine.execPllMUnlock s
  | .pllMRelock => Sys2Proof.Machine.execPllMRelock s
  | .scanGo r => Sys2Proof.Machine.execScanGo r s
  | .scanStop r => Sys2Proof.Machine.execScanStop r s
  | .scanVisitEnd => Sys2Proof.Machine.execScanVisitEnd s
  | .scanEntryCommit r => Sys2Proof.Machine.execScanEntryCommit r s
  | .settleCountEnd ch => Sys2Proof.Machine.execSettleCountEnd ch s
  | .excitationWrite which r => Sys2Proof.Machine.execExcitationWrite which r s
  | .xpcfgWrite r => Sys2Proof.Machine.execXpcfgWrite r s
  | .tiaRangeChange stage from_ words ovl sat satNow till => Sys2Proof.Machine.execTiaRangeChange stage from_ words ovl sat satNow till s
  | .gainPathSwitch n streams => Sys2Proof.Machine.execGainPathSwitch n streams s
  | .detectorResult det from_ words aux till => Sys2Proof.Machine.execDetectorResult det from_ words aux till s
  | .phasorReport volts currents => Sys2Proof.Machine.execPhasorReport volts currents s
  | .baseIntervalEnd streams => Sys2Proof.Machine.execBaseIntervalEnd streams s
  | .tenMinuteTick => Sys2Proof.Machine.execTenMinuteTick s
  | .pqDipSwellEdge ch from_ words aux => Sys2Proof.Machine.execPqDipSwellEdge ch from_ words aux s
  | .supraWindowEnd ch from_ words => Sys2Proof.Machine.execSupraWindowEnd ch from_ words s
  | .galleryArm r => Sys2Proof.Machine.execGalleryArm r s
  | .galleryTriggerWrite r => Sys2Proof.Machine.execGalleryTriggerWrite r s
  | .galleryAbort r => Sys2Proof.Machine.execGalleryAbort r s
  | .galleryDone streams => Sys2Proof.Machine.execGalleryDone streams s
  | .linLoad r => Sys2Proof.Machine.execLinLoad r s
  | .linCommit r => Sys2Proof.Machine.execLinCommit r s
  | .linCommitComplete => Sys2Proof.Machine.execLinCommitComplete s
  | .controlTick => Sys2Proof.Machine.execControlTick s
  | .leaseExpiry l => Sys2Proof.Machine.execLeaseExpiry l s
  | .ruleHoldExpiry ix => Sys2Proof.Machine.execRuleHoldExpiry ix s
  | .qtimeExpiry ix => Sys2Proof.Machine.execQtimeExpiry ix s
  | .sequenceWaitExpiry k => Sys2Proof.Machine.execSequenceWaitExpiry k s
  | .waitcondTimeout k => Sys2Proof.Machine.execWaitcondTimeout k s
  | .sequenceMaxtime k => Sys2Proof.Machine.execSequenceMaxtime k s
  | .waiterTimeout l => Sys2Proof.Machine.execWaiterTimeout l s
  | .pulseEnd ix => Sys2Proof.Machine.execPulseEnd ix s
  | .bistablePulseEnd ix => Sys2Proof.Machine.execBistablePulseEnd ix s
  | .interlockDeadExpiry ix => Sys2Proof.Machine.execInterlockDeadExpiry ix s
  | .diLevelAccept di level => Sys2Proof.Machine.execDiLevelAccept di level s
  | .lceCommandRx orig priv body => Sys2Proof.Machine.execLceCommandRx orig priv body s
  | .lceAcquire by_ l lease wait => Sys2Proof.Machine.execLceAcquire by_ l lease wait s
  | .lceRelease by_ l => Sys2Proof.Machine.execLceRelease by_ l s
  | .lceSet by_ ix v => Sys2Proof.Machine.execLceSet by_ ix v s
  | .lceStart by_ k => Sys2Proof.Machine.execLceStart by_ k s
  | .lceAbort by_ k => Sys2Proof.Machine.execLceAbort by_ k s
  | .lceTrigger by_ code => Sys2Proof.Machine.execLceTrigger by_ code s
  | .lceTableLoad r => Sys2Proof.Machine.execLceTableLoad r s
  | .lceTableCommit r => Sys2Proof.Machine.execLceTableCommit r s
  | .testOutputWrite which r => Sys2Proof.Machine.execTestOutputWrite which r s
  | .heartbeatTx => Sys2Proof.Machine.execHeartbeatTx s
  | .heartbeatRx rx unused => Sys2Proof.Machine.execHeartbeatRx rx unused s
  | .peerDead => Sys2Proof.Machine.execPeerDead s
  | .erfFrameTx => Sys2Proof.Machine.execErfFrameTx s
  | .mirrorRecordRx rx unused1 unused2 => Sys2Proof.Machine.execMirrorRecordRx rx unused1 unused2 s
  | .copyChunkRx rx unused1 unused2 unused3 => Sys2Proof.Machine.execCopyChunkRx rx unused1 unused2 unused3 s
  | .ackseqStall => Sys2Proof.Machine.execAckseqStall s
  | .resyncWrite r => Sys2Proof.Machine.execResyncWrite r s
  | .promoteWrite r => Sys2Proof.Machine.execPromoteWrite r s
  | .pairEnWrite r => Sys2Proof.Machine.execPairEnWrite r s
  | .laneSyncChange lane groups => Sys2Proof.Machine.execLaneSyncChange lane groups s
  | .epochRecord => Sys2Proof.Machine.execEpochRecord s
  | .rekeyReqRx ctx body => Sys2Proof.Machine.execRekeyReqRx ctx body s
  | .rekeyRespRx ctx body => Sys2Proof.Machine.execRekeyRespRx ctx body s
  | .rekeyRetry ctx => Sys2Proof.Machine.execRekeyRetry ctx s
  | .gkeyRx ctx body => Sys2Proof.Machine.execGkeyRx ctx body s
  | .trngHealthFail x => Sys2Proof.Machine.execTrngHealthFail x s
  | .trngReady => Sys2Proof.Machine.execTrngReady s
  | .sessionIdleExpiry port => Sys2Proof.Machine.execSessionIdleExpiry port s
  | .scrubRead errs readOk => Sys2Proof.Machine.execScrubRead errs readOk s
  | .eccWriteback => Sys2Proof.Machine.execEccWriteback s
  | .hostInCopy lce => Sys2Proof.Machine.execHostInCopy lce s
  | .bankRequest bank req words dt => Sys2Proof.Machine.execBankRequest bank req words dt s
  | .bankWithdraw bank req dt => Sys2Proof.Machine.execBankWithdraw bank req dt s
  | .burstComplete bank => Sys2Proof.Machine.execBurstComplete bank s
  | .spiTransaction mosi v => Sys2Proof.Machine.execSpiTransaction mosi v s
  | .uartBreak => Sys2Proof.Machine.execUartBreak s
  | .uartByteGap => Sys2Proof.Machine.execUartByteGap s
  | .arpRequestRx ip => Sys2Proof.Machine.execArpRequestRx ip s
  | .arpRetry ip => Sys2Proof.Machine.execArpRetry ip s
  | .arpCacheExpiry => Sys2Proof.Machine.execArpCacheExpiry s
  | .portBufferRoom port sent => Sys2Proof.Machine.execPortBufferRoom port sent s
  | .ping r => Sys2Proof.Machine.execPing r s
  | .regRead r => Sys2Proof.Machine.execRegRead r s
  | .regWrite r => Sys2Proof.Machine.execRegWrite r s
  | .eventSubscribe r => Sys2Proof.Machine.execEventSubscribe r s
  | .portReset r => Sys2Proof.Machine.execPortReset r s
  | .portConfig r => Sys2Proof.Machine.execPortConfig r s
  | .netConfig r => Sys2Proof.Machine.execNetConfig r s
  | .sessionOpen r => Sys2Proof.Machine.execSessionOpen r s
  | .sessionProve r => Sys2Proof.Machine.execSessionProve r s
  | .sessionClose r => Sys2Proof.Machine.execSessionClose r s
  | .meshSend r => Sys2Proof.Machine.execMeshSend r s
  | .deviceReset r => Sys2Proof.Machine.execDeviceReset r s
  | .modeSet r => Sys2Proof.Machine.execModeSet r s
  | .mapRead r => Sys2Proof.Machine.execMapRead r s
  | .sweepRead r => Sys2Proof.Machine.execSweepRead r s
  | .contextRead r => Sys2Proof.Machine.execContextRead r s
  | .addrReserve r => Sys2Proof.Machine.execAddrReserve r s
  | .addrRelease r => Sys2Proof.Machine.execAddrRelease r s
  | .lateralOpen r => Sys2Proof.Machine.execLateralOpen r s
  | .fit r => Sys2Proof.Machine.execFit r s
  | .galleryRead r => Sys2Proof.Machine.execGalleryRead r s
  | .lceOps r => Sys2Proof.Machine.execLceOps r s
  | .attest r => Sys2Proof.Machine.execAttest r s
  | .nodekeyGen r => Sys2Proof.Machine.execNodekeyGen r s
  | .certInstall r => Sys2Proof.Machine.execCertInstall r s
  | .keyInstall r => Sys2Proof.Machine.execKeyInstall r s
  | .gkeySet r => Sys2Proof.Machine.execGkeySet r s
  | .rekey r => Sys2Proof.Machine.execRekey r s
  | .otpBurn r => Sys2Proof.Machine.execOtpBurn r s
  | .rollbackCommit r => Sys2Proof.Machine.execRollbackCommit r s
  | .flashErase r => Sys2Proof.Machine.execFlashErase r s
  | .flashWrite r => Sys2Proof.Machine.execFlashWrite r s
  | .flashRead r => Sys2Proof.Machine.execFlashRead r s
  | .configSave r => Sys2Proof.Machine.execConfigSave r s
  | .flashOpComplete => Sys2Proof.Machine.execFlashOpComplete s
  | .puluacRemoteRx v => Sys2Proof.Machine.execPuluacRemoteRx v s
  | .resetStretchStart => Sys2Proof.Machine.execResetStretchStart s
  | .jtagSystemReset => Sys2Proof.Machine.execJtagSystemReset s
  | .noPrimaryTimeout => Sys2Proof.Machine.execNoPrimaryTimeout s
  | .hostPacketRx port bytes eth v => Sys2Proof.Machine.execHostPacketRx port bytes eth v s
  | .arpReplyRx ip mac => Sys2Proof.Machine.execArpReplyRx ip mac s
  | .uartCtsChange high => Sys2Proof.Machine.execUartCtsChange high s
  | .symbolBoundary port at_ peak samples own => Sys2Proof.Machine.execSymbolBoundary port at_ peak samples own s
  | .radioFrameTxEnd => Sys2Proof.Machine.execRadioFrameTxEnd s

end Sys2Proof.Machine
end

