-- ==== Sys2Proof/Safety.lean ====
section
/-! DEFINITION. What statements are phrased in: the invariants that every step keeps, and what a command may leave changed. -/

namespace Sys2Proof.Machine

/-- The sizes of the tables that the selection of a transition would give back (R38): actuators and locks, scan entries, queues;
with nothing to give back, the sizes that the state's own tables have. -/
def undoSizes (r : Option Race) : List Nat :=
  match r.bind (·.undo) with
  | some x => [x.lce.acts.length, x.lce.locks.length, x.mfe.entries.length, x.queues.length]
  | none => [32, 32, 48, 16]

/-- The sizes of the fixed tables: line ports, detectors, actuators and locks, scan entries, queues and bank arbiters, host ports,
access sources; and those that a displaced selection would give back. -/
def tableSizes (s : State) : List Nat :=
  s.lines.length :: s.tbu.dets.length :: s.lce.acts.length :: s.lce.locks.length :: s.mfe.entries.length :: s.mqf.queues.length ::
    s.mqf.arbs.length :: s.hcp.ports.length :: s.hcp.srcs.length :: undoSizes s.pmu.race

/-- The fixed tables have their sizes. -/
def Shape (s : State) : Prop := tableSizes s = [4, 4, 32, 32, 48, 16, 16, 3, 5, 32, 32, 48, 16]

/-- The register table lists each field once, in rising order of its key. -/
def RegsWf (s : State) : Prop := keysRise s.regs = true

/-- What every state of the device satisfies: canonical memories, a canonical register table, tables of their sizes. -/
def Inv (s : State) : Prop := Memory.wf s = true ∧ RegsWf s ∧ Shape s

/-- The burnt fuses of ROOTHASH. -/
def hashBits (c : Chip) : Nat := leNat (c.rootHash.getD [])

/-- What may happen to a chip's fixed values and its one-time-programmable memory (R4, R359): the identity and both
seeds stay, and no burnt bit of ROOTHASH, ROLLBACK, TRUST, DBGCLOSED or ROOTLOCK is ever cleared. -/
def FusesKept (c d : Chip) : Prop :=
  d.part = c.part ∧ d.ext = c.ext ∧ d.devSeed = c.devSeed ∧ d.storeSeed = c.storeSeed ∧ hashBits c &&& hashBits d = hashBits c ∧
    c.fuses &&& d.fuses = c.fuses ∧ c.trust &&& d.trust = c.trust ∧ (c.dbgClosed = true → d.dbgClosed = true) ∧ (c.rootLock = true → d.rootLock = true)

/-- From `s` to `t` nothing but the listed register fields may differ: no unit, no byte of either memory, no other field. -/
def OnlyRegs (fs : List Field) (s t : State) : Prop :=
  t = { s with regs := t.regs } ∧ ∀ f : Field, (∀ g ∈ fs, fieldKey f ≠ fieldKey g) → getF t f = getF s f

/-- From `s` to `t` nothing but the listed register fields, the host ports and their event-drop counters may differ: a change
that raises events (R438, R439). -/
def OnlyEvents (fs : List Field) (s t : State) : Prop :=
  t = { s with regs := t.regs, hcp := t.hcp } ∧
    ∀ f : Field, (∀ g ∈ fs, fieldKey f ≠ fieldKey g) → (∀ n, fieldKey f ≠ fieldKey (F.evDrop n)) → getF t f = getF s f

/-- Every byte of main SRAM and of the flash reads as before. -/
def SameMemory (s t : State) : Prop :=
  (∀ a n, memRead t a n = memRead s a n) ∧ ∀ a n, flashBytes t a n = flashBytes s a n

/-- What the assertion of a reset leaves beside the registers (R464, R465): the device held in BOOT, every unit as after reset, main
SRAM cleared; the flash, what the configuration record keeps and the one-time-programmable memory stay. -/
def HeldInReset (s t : State) : Prop :=
  t.pmu.inReset = true ∧ t.pmu.mode = .boot ∧ t.pmu.trans = none ∧ t.pmu.held = [] ∧ t.pmu.pending = [] ∧
    (∀ a n, memRead t a n = memRead State.reset a n) ∧ (∀ a n, flashBytes t a n = flashBytes s a n) ∧ t.nvm = s.nvm ∧
    t.chip = s.chip ∧ t.tbu = State.reset.tbu ∧ t.lines = State.reset.lines ∧ t.sfm = State.reset.sfm ∧ t.mrt = State.reset.mrt ∧
    t.rfx = State.reset.rfx ∧ t.mfe = State.reset.mfe ∧ t.dch = State.reset.dch ∧ t.lce = State.reset.lce ∧
    t.erf = State.reset.erf ∧ t.sec = State.reset.sec ∧ t.mqf = State.reset.mqf ∧ t.hcp = State.reset.hcp

/-- The causes that the end of the reset in progress will latch, none while no reset is in progress (R466). -/
def causesSoFar (s : State) : Nat := if s.pmu.inReset then s.pmu.cause else 0

/-- The register fields after a system reset (R464): the causes of SAFEHOLD and of resets stay, every other field has its reset value. -/
def RegsAfterSystemReset (s t : State) : Prop :=
  ∀ f : Field, getF t f = if (keptKeys false).contains (fieldKey f) then getF s f else f.reset

/-- The register fields after a power-on reset (R464): the causes of resets, CORERST and THERM150 stay. -/
def RegsAfterPowerOn (s t : State) : Prop :=
  ∀ f : Field, getF t f = if (keptKeys true).contains (fieldKey f) then getF s f else f.reset

end Sys2Proof.Machine
end

