-- ==== Sys2Proof/Frame.lean ====
section
/-! DEFINITION. The frame of every command: the parts that the state is divided into, and which of them a command may touch. -/

namespace Sys2Proof.Machine

/-- The parts that the state is divided into: the chip and its one-time-programmable memory, main SRAM, the external flash, the PMU's
sequencer, its leave books, the dates of its sensors' readings, mesh time with the cycles of its domain, TBU beside it, the line ports, each
unit's state beyond its registers, what the mirror has told the spare, the flash configuration record, the packets in queue SRAM, the arbiters with their counters, the marks on
words, the host ports, HCP beside them, the count of free values drawn, and the register block of unit `b` (R6, R20); 16 stands for the
copies of fields that a selecting register numbers. -/
inductive Part where
  | chip | sram | flash | sequencer | leave | readings | clock | grid | lines | sfm | mrt | rfx | mfe | dch | lce | erf | sec | nvm
  | packets | arbiters | marks | ports | hostCore | draws | mirror
  | regs (b : Nat)
  deriving DecidableEq, Repr

/-- The register block that a stored field lies in. -/
def blockOfKey (k : Nat) : Nat := min 16 (k / 0x200000)

/-- From `s` to `t` a part is unchanged. -/
def Part.same (p : Part) (s t : State) : Prop :=
  match p with
  | .chip => t.chip = s.chip
  | .sram => ∀ a n, memRead t a n = memRead s a n
  | .flash => ∀ a n, flashBytes t a n = flashBytes s a n
  | .sequencer =>
    t.pmu = { s.pmu with
      pending := t.pmu.pending, held := t.pmu.held, answers := t.pmu.answers
      vldMs := t.pmu.vldMs, tjMs := t.pmu.tjMs, maxMs := t.pmu.maxMs }
  | .leave => t.pmu.pending = s.pmu.pending ∧ t.pmu.held = s.pmu.held ∧ t.pmu.answers = s.pmu.answers
  | .readings => t.pmu.vldMs = s.pmu.vldMs ∧ t.pmu.tjMs = s.pmu.tjMs ∧ t.pmu.maxMs = s.pmu.maxMs
  | .clock => t.tbu.time = s.tbu.time ∧ t.tbu.cycles = s.tbu.cycles ∧ t.tbu.slew = s.tbu.slew ∧ t.tbu.slewAcc = s.tbu.slewAcc
  | .grid => t.tbu = { s.tbu with time := t.tbu.time, cycles := t.tbu.cycles, slew := t.tbu.slew, slewAcc := t.tbu.slewAcc }
  | .lines => t.lines = s.lines
  | .sfm => t.sfm = s.sfm
  | .mrt => t.mrt = s.mrt
  | .rfx => t.rfx = s.rfx
  | .mfe => t.mfe = s.mfe
  | .dch => t.dch = s.dch
  | .lce => t.lce = s.lce
  | .erf => t.erf = s.erf
  | .sec => t.sec = s.sec
  | .nvm => t.nvm = s.nvm
  | .packets =>
    t.mqf.queues = s.mqf.queues ∧ t.mqf.staged = s.mqf.staged ∧ t.mqf.qcnt = s.mqf.qcnt
  | .arbiters => t.mqf.arbs = s.mqf.arbs ∧ t.mqf.ecc = s.mqf.ecc
  | .marks => t.mqf.flips = s.mqf.flips ∧ t.mqf.writebacks = s.mqf.writebacks
  | .ports => t.hcp.ports = s.hcp.ports
  | .hostCore => t.hcp = { s.hcp with ports := t.hcp.ports }
  | .draws => t.drawn = s.drawn
  | .mirror => t.mir = s.mir
  | .regs b => ∀ f : Field, blockOfKey (fieldKey f) = b → getF t f = getF s f

/-- Every part but the register blocks, in the order of the units. -/
def unitParts : List Part :=
  [.chip, .sram, .flash, .sequencer, .leave, .readings, .clock, .grid, .lines, .sfm, .mrt, .rfx, .mfe, .dch, .lce, .erf, .sec, .nvm,
    .packets, .arbiters, .marks, .ports, .hostCore, .draws, .mirror]

/-- The register blocks from unit `b` on. -/
def regsFrom (b : Nat) : List Part := ((List.range 17).filter (fun k => b ≤ k)).map .regs

/-- All parts but those listed. -/
def allBut (l : List Part) : List Part := (unitParts ++ regsFrom 0).filter (fun p => !l.contains p)

/-- The parts that a command may touch. -/
def mayTouch : Instr → List Part
  | .supplyUndervoltage _ | .resetNLow | .clockLoss _ | .watchdogExpiry _ | .thermalShutdown _ | .thermalShutdownEnd _
  | .scrubRead _ _ | .jtagSystemReset => allBut [.chip, .flash, .nvm, .draws]
  | .supplyOvervoltage _ | .rtckLoss => [.regs 0]
  | .resetRelease _ _ => [.sequencer, .sec, .regs 0, .regs 13]
  | .imageCheckDone _ _ => allBut [.chip, .flash, .leave, .readings, .clock, .lines, .mrt, .dch, .lce, .packets, .draws, .mirror]
  | .modeTransitionEnd => allBut [.chip, .flash, .readings, .clock, .grid, .mrt, .sec]
  | .thermSafehold _ =>
    [.sram, .sequencer, .leave, .readings, .sfm, .mfe, .dch, .lce, .erf, .packets, .arbiters, .marks, .ports, .hostCore, .regs 0,
      .regs 7, .regs 8, .regs 9, .regs 11, .regs 12, .regs 13, .regs 16]
  | .ownInChange _ _ | .roostWake _ _ =>
    [.sram, .sequencer, .leave, .sfm, .mfe, .dch, .lce, .erf, .packets, .arbiters, .marks, .ports, .hostCore, .regs 0, .regs 7, .regs 8,
      .regs 9, .regs 11, .regs 12, .regs 13, .regs 16]
  | .thermalCapSet _ => [.sequencer, .readings, .lines, .ports, .hostCore, .regs 0, .regs 2, .regs 8, .regs 12]
  | .thermalCapClear _ => [.sequencer, .readings, .regs 0, .regs 2, .regs 8]
  | .ownClaim | .heartbeatTx | .laneSyncChange _ _ => [.erf, .regs 13]
  | .gateOpen | .lceStallRelease => [.leave, .mfe, .dch, .erf, .ports, .hostCore, .regs 7, .regs 12, .regs 13]
  | .phaseSlotBoundary _ | .spiTransaction _ _ | .portBufferRoom _ _ => allBut [.flash]
  | .leaveWaitExpiry _ | .timesetArm _ | .heldHalfWrite _ _ | .latchingRead _ _ | .reepochWrite _ | .sweepGo _ _ | .sweepAbort _ _
  | .slotSwapRequest _ | .mrtPacketHandle _ _ _ | .rreqGo _ | .fwdEntryCommit _ | .scanGo _ | .scanStop _ | .scanEntryCommit _
  | .excitationWrite _ _ | .xpcfgWrite _ | .galleryArm _ | .galleryTriggerWrite _ | .galleryAbort _ | .linLoad _ | .linCommit _
  | .controlTick | .ruleHoldExpiry _ | .qtimeExpiry _ | .sequenceWaitExpiry _ | .waitcondTimeout _ | .sequenceMaxtime _
  | .waiterTimeout _ | .pulseEnd _ | .bistablePulseEnd _ | .interlockDeadExpiry _ | .lceTableLoad _ | .lceTableCommit _
  | .testOutputWrite _ _ | .resyncWrite _ | .promoteWrite _ | .pairEnWrite _ | .hostInCopy _ | .uartBreak | .uartByteGap
  | .arpRetry _ | .ping _ | .regRead _ | .regWrite _ | .eventSubscribe _ | .portReset _ | .portConfig _ | .netConfig _
  | .sessionOpen _ | .sessionProve _ | .sessionClose _ | .meshSend _ | .deviceReset _ | .modeSet _ | .mapRead _ | .sweepRead _
  | .contextRead _ | .addrReserve _ | .addrRelease _ | .lateralOpen _ | .fit _ | .galleryRead _ | .lceOps _ | .attest _
  | .nodekeyGen _ | .certInstall _ | .keyInstall _ | .gkeySet _ | .rekey _ | .otpBurn _ | .rollbackCommit _ | .flashErase _
  | .flashWrite _ | .flashRead _ | .configSave _ | .puluacRemoteRx _ | .hostPacketRx _ _ _ _ | .operatorSigVerified _ _
  | .joinOfferRx _ _ _ | .joinProofRx _ _ _ _ | .parentProofRx _ _ _ _ | .trngReady => allBut [.flash, .rfx]
  | .crossingCandidate _ _ => [.clock, .grid, .ports, .hostCore, .regs 1, .regs 12]
  | .crossingMiss _ => [.grid, .ports, .hostCore, .regs 1, .regs 12]
  | .superframeBoundary =>
    [.sram, .leave, .clock, .grid, .lines, .sfm, .mrt, .rfx, .mfe, .dch, .lce, .erf, .sec, .packets, .arbiters, .marks, .ports,
      .hostCore, .draws, .mirror, .regs 1, .regs 3, .regs 4, .regs 5, .regs 10, .regs 11, .regs 12]
  | .meshSecondCrossing => [.clock, .grid]
  | .syncInEdge _ _ => [.clock, .grid, .dch, .ports, .hostCore, .regs 1, .regs 8, .regs 12]
  | .vldFault _ => [.readings, .lines, .packets, .arbiters, .marks, .ports, .hostCore, .mirror, .regs 2, .regs 11, .regs 12]
  | .vldFaultClear _ => [.readings, .regs 2]
  | .currentLimit _ => [.lines] ++ regsFrom 3
  | .preambleDetect _ _ => [.clock, .grid, .lines, .draws] ++ regsFrom 3
  | .frameTxStart _ _ _ => allBut [.chip, .flash, .sequencer, .rfx, .mfe, .dch, .lce, .erf, .nvm, .regs 0, .regs 1]
  | .frameTxEnd _ _ => allBut [.chip, .flash, .sequencer, .readings, .rfx, .mfe, .dch, .lce, .erf, .sec, .nvm, .regs 0, .regs 1]
  | .ackTailTx _ _ => [.readings, .clock, .grid, .lines, .packets, .arbiters, .marks, .ports, .hostCore, .draws, .mirror] ++ regsFrom 2
  | .ackTailRx _ _ _ => allBut [.chip, .flash, .sequencer, .leave, .readings, .rfx, .mfe, .dch, .lce, .erf, .nvm, .regs 0, .regs 2]
  | .beaconTx _ _ | .randomAccessTx _ _ => allBut [.chip, .flash, .sequencer, .mfe, .dch, .lce, .erf, .sec, .nvm, .regs 0, .regs 1]
  | .randomAccessBackoffEnd _ => [.sfm, .draws]
  | .lineFrameRx _ _ | .radioFrameRx _ => allBut [.chip, .flash, .readings, .mrt, .sec, .nvm, .regs 0, .regs 2]
  | .radioFrameTxStart _ =>
    [.sram, .leave, .clock, .grid, .sfm, .rfx, .sec, .packets, .arbiters, .marks, .ports, .hostCore, .draws, .mirror] ++ regsFrom 4
  | .radioAckTx => [.clock, .grid, .rfx, .packets, .arbiters, .marks, .ports, .hostCore, .mirror, .regs 11, .regs 12]
  | .radioAckRx _ => allBut [.chip, .flash, .sequencer, .leave, .readings, .lines, .mfe, .dch, .lce, .erf, .nvm, .regs 0, .regs 2]
  | .reportRx _ _ | .carrierRx _ _ =>
    [.sram, .sfm, .packets, .arbiters, .marks, .ports, .hostCore, .draws, .mirror, .regs 3, .regs 11, .regs 12]
  | .proposeRx _ _ => [.sram, .sfm, .packets, .arbiters, .marks, .ports, .hostCore, .mirror, .regs 3, .regs 11, .regs 12]
  | .sweepPointDone _ _ _ _ _ => [.leave, .lines, .ports, .hostCore, .draws] ++ regsFrom 2
  | .allocRx _ _ | .pollRx _ _ => [.sfm, .packets, .arbiters, .marks, .ports, .hostCore, .mirror, .regs 11, .regs 12]
  | .delayExchangeDue _ | .delayRespTimeout _ => [.sram, .sfm, .arbiters, .marks, .ports, .hostCore, .regs 11, .regs 12]
  | .delayReqRx _ _ | .delayRespRx _ _ _ => [.sram, .sfm, .packets, .arbiters, .marks, .ports, .hostCore, .mirror, .regs 11, .regs 12]
  | .upstreamLostEnd | .roostWakeWindow => [.sfm]
  | .beaconMiss =>
    [.leave, .clock, .grid, .sfm, .mrt, .rfx, .packets, .arbiters, .marks, .ports, .hostCore, .mirror, .regs 4, .regs 11, .regs 12]
  | .rfReacqEnd => [.leave, .rfx, .packets, .arbiters, .marks, .ports, .hostCore, .mirror, .regs 4, .regs 11, .regs 12]
  | .orphanSearchEnd => [.sram, .leave, .sfm, .mrt, .packets, .arbiters, .marks, .ports, .hostCore, .draws, .mirror, .regs 11, .regs 12]
  | .roostSleep => [.clock, .grid, .lines, .sfm] ++ regsFrom 2
  | .advertRx _ _ => [.sram, .mrt, .packets, .arbiters, .marks, .ports, .hostCore, .mirror, .regs 5, .regs 11, .regs 12]
  | .rreqRx _ _ | .rrepRx _ _ | .rerrRx _ _ =>
    [.sram, .sfm, .mrt, .packets, .arbiters, .marks, .ports, .hostCore, .mirror, .regs 5, .regs 11, .regs 12]
  | .advertPeriodic => [.mrt, .packets, .arbiters, .marks, .ports, .hostCore, .mirror, .regs 11, .regs 12]
  | .routeAgerVisit _ => [.sram, .mrt, .packets, .arbiters, .marks, .ports, .hostCore, .mirror, .regs 11, .regs 12]
  | .contextAgerVisit _ => [.sram, .sfm, .mrt, .sec, .packets, .arbiters, .marks, .ports, .hostCore, .mirror, .regs 4, .regs 11, .regs 12]
  | .rreqTimeout _ => [.mrt, .packets, .arbiters, .marks, .ports, .hostCore, .mirror, .regs 5, .regs 11, .regs 12]
  | .joinSearchEnd =>
    [.sram, .leave, .grid, .sfm, .mrt, .packets, .arbiters, .marks, .ports, .hostCore, .draws, .mirror, .regs 1, .regs 4, .regs 5,
      .regs 11, .regs 12]
  | .joinReqRx _ _ _ => [.sram, .sfm, .mrt, .packets, .arbiters, .marks, .ports, .hostCore, .draws, .mirror, .regs 5, .regs 11, .regs 12]
  | .addrReqRx _ => [.sfm, .mrt, .packets, .arbiters, .marks, .ports, .hostCore, .draws, .mirror, .regs 5, .regs 11, .regs 12]
  | .addrGrantRx _ => [.sfm, .mrt, .packets, .arbiters, .marks, .ports, .hostCore, .mirror, .regs 5, .regs 11, .regs 12]
  | .joinAcceptRx _ _ =>
    [.sram, .grid, .sfm, .mrt, .sec, .packets, .arbiters, .marks, .ports, .hostCore, .draws, .mirror, .regs 1, .regs 4, .regs 5,
      .regs 6, .regs 7, .regs 8, .regs 9, .regs 10, .regs 11, .regs 12, .regs 13, .regs 14, .regs 15, .regs 16]
  | .joinDenyRx _ _ _ | .joinAcceptTimeout =>
    [.sram, .leave, .grid, .sfm, .mrt, .sec, .packets, .arbiters, .marks, .ports, .hostCore, .draws, .mirror, .regs 1, .regs 4, .regs 5,
      .regs 11, .regs 12]
  | .joinOfferTimeout => [.sfm, .mrt, .packets, .arbiters, .marks, .ports, .hostCore, .mirror, .regs 11, .regs 12]
  | .joinLifeExpiry _ =>
    [.sram, .sfm, .mrt, .sec, .packets, .arbiters, .marks, .ports, .hostCore, .mirror, .regs 4, .regs 5, .regs 11, .regs 12]
  | .modulatorOverload _ => [.mfe, .dch, .regs 7]
  | .modulatorResetEnd _ => [.clock, .grid, .mfe, .dch]
  | .pllMUnlock => [.dch, .packets, .arbiters, .marks, .ports, .hostCore, .regs 0, .regs 7, .regs 11, .regs 12]
  | .pllMRelock => [.dch, .packets, .arbiters, .marks, .ports, .hostCore, .regs 0, .regs 11, .regs 12]
  | .scanVisitEnd | .settleCountEnd _ =>
    [.clock, .grid, .mfe, .dch, .packets, .arbiters, .marks, .ports, .hostCore, .regs 7, .regs 11, .regs 12]
  | .tiaRangeChange _ _ _ _ _ _ _ | .gainPathSwitch _ _ | .phasorReport _ _ | .baseIntervalEnd _ | .pqDipSwellEdge _ _ _ _
  | .supraWindowEnd _ _ _ =>
    [.sram, .clock, .grid, .mfe, .dch, .packets, .arbiters, .marks, .ports, .hostCore, .regs 7, .regs 8, .regs 11, .regs 12, .regs 16]
  | .detectorResult _ _ _ _ _ =>
    [.sram, .leave, .clock, .grid, .mfe, .dch, .lce, .packets, .arbiters, .marks, .ports, .hostCore, .regs 7, .regs 8, .regs 11,
      .regs 12, .regs 16]
  | .tenMinuteTick => [.clock, .grid, .dch]
  | .galleryDone _ =>
    [.sram, .leave, .clock, .grid, .mfe, .dch, .packets, .arbiters, .marks, .ports, .hostCore, .regs 7, .regs 8, .regs 11, .regs 12,
      .regs 16]
  | .linCommitComplete => [.sram, .dch, .packets, .arbiters, .marks, .ports, .hostCore, .mirror, .regs 8, .regs 11, .regs 12]
  | .leaseExpiry _ => [.clock, .grid, .lce, .regs 9]
  | .diLevelAccept _ _ => [.regs 9]
  | .lceCommandRx _ _ _ => [.sram, .lce, .packets, .arbiters, .marks, .ports, .hostCore, .regs 9, .regs 11, .regs 12]
  | .lceAcquire _ _ _ _ | .lceRelease _ _ | .lceSet _ _ _ | .lceStart _ _ | .lceAbort _ _ | .lceTrigger _ _ =>
    [.lce, .packets, .arbiters, .marks, .ports, .hostCore, .regs 9, .regs 11, .regs 12]
  | .heartbeatRx _ _ | .mirrorRecordRx _ _ _ | .copyChunkRx _ _ _ _ => allBut [.chip, .flash, .readings, .draws]
  | .peerDead =>
    [.sram, .sequencer, .leave, .clock, .grid, .sfm, .mfe, .dch, .lce, .erf, .packets, .arbiters, .marks, .ports, .hostCore, .mirror,
      .regs 7, .regs 8, .regs 9, .regs 11, .regs 12, .regs 13, .regs 16]
  | .noPrimaryTimeout =>
    [.sram, .sequencer, .leave, .clock, .grid, .sfm, .mfe, .dch, .lce, .erf, .packets, .arbiters, .marks, .ports, .hostCore, .regs 7,
      .regs 8, .regs 9, .regs 11, .regs 12, .regs 13, .regs 16]
  | .erfFrameTx => [.sram, .erf, .packets, .arbiters, .marks, .ports, .hostCore, .mirror, .regs 11, .regs 12, .regs 13]
  | .ackseqStall => [.erf, .packets, .mirror, .regs 13]
  | .epochRecord => [.leave, .erf, .nvm]
  | .rekeyReqRx _ _ | .rekeyRespRx _ _ | .gkeyRx _ _ =>
    [.sram, .sfm, .sec, .packets, .arbiters, .marks, .ports, .hostCore, .draws, .mirror, .regs 11, .regs 12]
  | .rekeyRetry _ => [.sec, .packets, .arbiters, .marks, .ports, .hostCore, .draws, .mirror, .regs 11, .regs 12]
  | .trngHealthFail _ => [.sec, .ports, .hostCore, .regs 10, .regs 12]
  | .sessionIdleExpiry _ => [.ports]
  | .eccWriteback => [.arbiters, .marks, .ports]
  | .bankRequest _ _ _ _ | .bankWithdraw _ _ _ | .burstComplete _ => [.arbiters]
  | .arpRequestRx _ | .arpCacheExpiry | .arpReplyRx _ _ | .uartCtsChange _ => [.hostCore]
  | .flashOpComplete => allBut [.rfx]
  | .resetStretchStart => [.sequencer, .regs 0]
  | .symbolBoundary _ _ _ _ _ => allBut [.chip, .flash, .sequencer, .readings, .rfx, .mfe, .dch, .lce, .erf, .nvm, .regs 0]
  | .radioFrameTxEnd =>
    [.sram, .leave, .clock, .grid, .sfm, .mrt, .rfx, .packets, .arbiters, .marks, .ports, .hostCore, .draws, .mirror] ++ regsFrom 4

end Sys2Proof.Machine
end

