-- ==== Sys2Proof/Claims.lean ====
section
/-! DEFINITION. Words that single statements are phrased in. -/

namespace Sys2Proof.Machine

/-- The transitions of R37 that MODE_SET causes: from, code, to, and the condition of its row. On a paired chip code 2 asks for SPARE
(R39). Any mode but BOOT goes to SAFEHOLD. -/
def listedTransition (s : State) (code : Nat) : Option (Mode × Bool) :=
  let run : Mode := if s.pmu.paired then .spare else .operate
  match s.pmu.mode, code with
  | .commission, 2 => some (run, s.pmu.validCfg)
  | .operate, 3 => some (.roost, mayRoost s)
  | .safehold, 1 => some (.commission, true)
  | .safehold, 2 => some (run, s.pmu.validCfg)
  | _, _ => none

/-- The symbol nearest to a deviation: 0 to 3 from the lowest of 4-FSK to the highest, 1 and 2 in 2-FSK (R218). -/
def symbolOf (c : RfxCfg) (d : Int) : Fin 4 :=
  if d < -deviation c then 0 else if d < 0 then 1 else if d ≤ deviation c then 2 else 3

end Sys2Proof.Machine
end

