-- ==== Sys2Proof/Certificates/Slice0/Obligations.lean ====
section
/-! DEFINITION. The statements for the provers. -/

section
open Sys2Proof Sys2Proof.Machine

/-- One step takes the command at the front of the queue and runs it on the state with the queue's rest. -/
def Obligations.StepRunsFrontCommand : Prop :=
  ∀ (c : Instr) (rest : List Instr) (s : State), step { s with pending := c :: rest } = exec c { s with pending := rest }

/-- With no command waiting the block idles (log entry 8): while a reset or a thermal shutdown holds it, nothing changes; otherwise the time
base alone moves: with no trim and no slew by one tick, or in ROOST between its wakes by 3,750. -/
def Obligations.EmptyQueueIdles : Prop :=
  (∀ s : State, s.pending = [] → inHold s = true → step s = .next s) ∧
  (∀ s : State, s.pending = [] → inHold s = false → getF s F.TBU_TRIM_TRIM = 0 → s.tbu.slew = 0 → s.tbu.trimAcc = 0 →
    ∃ t, step s = .next t ∧ t = { s with tbu := t.tbu } ∧
      t.tbu.time = s.tbu.time + (if timeStopped s then 3750 else 1))

/-- The state right after reset meets the invariant: both memories canonical, the register table canonical, the tables of their sizes. -/
def Obligations.ResetMeetsInv : Prop := Inv State.reset

/-- What reset leaves (R14, R34, R465): BOOT with no transition, nothing pending, main SRAM at zero but for YMIN and YMAX of the coefficient
sets (R295), every register field at its table's reset value, every queue empty, every lock FREE, no sequence, no session, mesh time 0. -/
def Obligations.ResetLeavesTheStatedValues : Prop :=
  State.reset.pmu.mode = .boot ∧ State.reset.pmu.trans = none ∧ State.reset.pmu.recovery = false ∧ State.reset.pending = [] ∧
  (∀ f : Field, getF State.reset f = f.reset) ∧
  (∀ a n, (∀ x, a ≤ x → x < a + n → x < Base.coef ∨ Base.coef + 0x4000 ≤ x) → memRead State.reset a n = List.replicate n 0) ∧
  (∀ k, k < 128 → memNat State.reset (Base.coef + 128 * k + 104) 4 = 0xFF61B1E6 ∧ memNat State.reset (Base.coef + 128 * k + 108) 4 = 0x7F61B1E6) ∧
  (∀ q ∈ State.reset.mqf.queues, q.entries = []) ∧ (∀ l ∈ State.reset.lce.locks, l.st = .free) ∧ State.reset.lce.seqs = [] ∧
  (∀ p ∈ State.reset.hcp.ports, p.sess.state = 0 ∧ p.out = []) ∧ State.reset.tbu.time = 0

/-- Every step keeps the invariant, from every state that meets it: canonical memories, a canonical register table, tables of their
sizes. -/
def Obligations.EveryStepKeepsInv : Prop := ∀ s t : State, Inv s → step s = .next t → Inv t

/-- No step touches what the chip is, changes a secret seed or clears a burnt fuse (R4, R358, R359). -/
def Obligations.EveryStepKeepsTheFuses : Prop := ∀ s t : State, Inv s → step s = .next t → FusesKept s.chip t.chip

/-- No command puts a command into the queue or takes one out: a step leaves the queue's rest. -/
def Obligations.StepLeavesTheRestWaiting : Prop := ∀ s t : State, Inv s → step s = .next t → t.pending = s.pending.tail

/-- Every command completes in every state: the spec gives each an effect, a refusal by status or no effect, and stops the machine on
none. -/
def Obligations.EveryCommandCompletes : Prop := ∀ (c : Instr) (s : State), ∃ t, exec c s = .next t

/-- A reset row holds the device in reset, with the cause noted for PMU_RSTCAUSE (R458, R461, R462, R464–R466): RESET_N_LOW and
JTAG_SYSTEM_RESET as system resets, CLOCK_LOSS and SUPPLY_UNDERVOLTAGE as power-on resets; the loss of VDDAO takes the AON state too. While
DBGCLOSED is burnt, JTAG changes nothing. -/
def Obligations.ResetRowsHoldTheDevice : Prop :=
  (∀ s : State, ∃ t, exec .resetNLow s = .next t ∧ HeldInReset s t ∧ RegsAfterSystemReset s t ∧
    t.pmu.cause = causesSoFar s ||| 8) ∧
  (∀ s : State, s.chip.dbgClosed = false → s.pmu.shutdown = false →
    ∃ t, exec .jtagSystemReset s = .next t ∧ HeldInReset s t ∧ RegsAfterSystemReset s t ∧ t.pmu.cause = causesSoFar s ||| 64) ∧
  (∀ s : State, s.chip.dbgClosed = true → exec .jtagSystemReset s = .next s) ∧
  (∀ (pll : Fin 4) (s : State), s.pmu.shutdown = false →
    ∃ t, exec (.clockLoss pll) s = .next t ∧ HeldInReset s t ∧ RegsAfterPowerOn s t ∧ t.pmu.cause = causesSoFar s ||| 2) ∧
  (∀ (rail : Fin 4) (s : State), rail.val < 3 →
    ∃ t, exec (.supplyUndervoltage rail) s = .next t ∧ HeldInReset s t ∧ getF t F.PMU_SUPPLY_GOOD = 15 - 2 ^ rail.val ∧
      (∀ f : Field, fieldKey f ≠ fieldKey F.PMU_SUPPLY_GOOD →
        getF t f = if (keptKeys true).contains (fieldKey f) then getF s f else f.reset) ∧
      t.pmu.cause = causesSoFar s ||| (1 + 2 ^ (8 + rail.val))) ∧
  (∀ s : State, ∃ t, exec (.supplyUndervoltage 3) s = .next t ∧ HeldInReset s t ∧ getF t F.PMU_SUPPLY_GOOD = 7 ∧
      (∀ f : Field, fieldKey f ≠ fieldKey F.PMU_SUPPLY_GOOD → getF t f = f.reset) ∧ t.pmu.cause = 0xF01)

/-- Rows of the supplies, clocks and the end of a reset (R458, R461, R466, R468): an overvoltage sets its rail's sticky bit and nothing
else; a lost RTCK sets RTCKLOST and nothing else; the stretch begins with every rail shown good and the crystal running; the release latches
the causes, takes the straps and starts the ROM. -/
def Obligations.ResetEndsWithItsCauses : Prop :=
  (∀ (rail : Fin 4) (s : State), inHold s = false →
    ∃ t, exec (.supplyOvervoltage rail) s = .next t ∧ OnlyRegs [F.PMU_SUPPLY_OV] s t ∧
      ∀ r : Fin 4, bit (getF t F.PMU_SUPPLY_OV) r.val = (bit (getF s F.PMU_SUPPLY_OV) r.val || r == rail)) ∧
  (∀ s : State, inHold s = false →
    ∃ t, exec .rtckLoss s = .next t ∧ OnlyRegs [F.PMU_PLLSTAT_RTCKLOST] s t ∧ getF t F.PMU_PLLSTAT_RTCKLOST = 1) ∧
  (∀ s : State, s.pmu.inReset = true → s.pmu.shutdown = false →
    ∃ t, exec .resetStretchStart s = .next t ∧ t.pmu = { s.pmu with stretch := true } ∧ getF t F.PMU_SUPPLY_GOOD = 15 ∧
      getF t F.PMU_PLLSTAT_XO_OK = 1 ∧ SameMemory s t) ∧
  (∀ (pairId cmsnN : Bool) (s : State), s.pmu.inReset = true → s.pmu.stretch = true → s.pmu.shutdown = false →
    ∃ t, exec (.resetRelease pairId cmsnN) s = .next t ∧
      t.pmu = { s.pmu with inReset := false, stretch := false, cause := 0, pairId := pairId, cmsnN := cmsnN } ∧
      (bit s.pmu.cause 0 = true → getF t F.PMU_RSTCAUSE_SUPPLY = 1) ∧ (bit s.pmu.cause 1 = true → getF t F.PMU_RSTCAUSE_CLKFAIL = 1) ∧
      (bit s.pmu.cause 2 = true → getF t F.PMU_RSTCAUSE_THERMEND = 1) ∧ (bit s.pmu.cause 3 = true → getF t F.PMU_RSTCAUSE_RESETN = 1) ∧
      (bit s.pmu.cause 4 = true → getF t F.PMU_RSTCAUSE_DEVRESET = 1) ∧ (bit s.pmu.cause 5 = true → getF t F.PMU_RSTCAUSE_WDOG2 = 1) ∧
      (bit s.pmu.cause 6 = true → getF t F.PMU_RSTCAUSE_JTAG = 1) ∧
      (∀ (x : SrcState) (n ext : Nat), fieldRead t x 0xA0004 n ext F.SEC_BOOTSTAT_UNPROV = b2n s.chip.rootHash.isNone) ∧ getF t F.ERF_EPOCH_EPOCH = s.nvm.epoch % 2 ^ 32 ∧
      t.sec.opSeq = s.nvm.opSeq ∧ SameMemory s t)

/-- The junction sensor's rows (R44, R90, R467): each reading is shown; 140 °C latches THERM140 and HOT; 150 °C takes power from every domain
but AON; below 125 °C a power-on reset ends the shutdown; 135 °C sets the line cap and counts an episode; below 130 °C it clears. -/
def Obligations.JunctionRowsActAtTheirLimits : Prop :=
  (∀ (tj : BitVec 12) (s : State), inHold s = false → 560 < signed tj.toNat 12 →
    ∃ t, exec (.thermSafehold tj) s = .next t ∧ getF t F.PMU_SAFECAUSE_THERM140 = 1 ∧ getF t F.PMU_THERM_HOT = 1 ∧
      getF t F.PMU_THERM_TJ = tj.toNat ∧
      (s.pmu.mode = .operate → s.pmu.trans = none → t.pmu.trans = some { target := .safehold, kind := .safehold })) ∧
  (∀ (tj : BitVec 12) (s : State), s.pmu.shutdown = false → 600 ≤ signed tj.toNat 12 →
    ∃ t, exec (.thermalShutdown tj) s = .next t ∧ HeldInReset s t ∧ t.pmu.shutdown = true ∧ getF t F.PMU_SAFECAUSE_THERM150 = 1) ∧
  (∀ (tj : BitVec 12) (s : State), s.pmu.shutdown = true → signed tj.toNat 12 < 500 →
    ∃ t, exec (.thermalShutdownEnd tj) s = .next t ∧ HeldInReset s t ∧ RegsAfterPowerOn s t ∧ t.pmu.shutdown = false ∧
      t.pmu.cause = causesSoFar s ||| 4) ∧
  (∀ (tj : BitVec 12) (s : State), inHold s = false → 540 ≤ signed tj.toNat 12 → flag s F.PMU_THERM_FOLD = false →
    ∃ t, exec (.thermalCapSet tj) s = .next t ∧ getF t F.PMU_THERM_FOLD = 1 ∧ getF t F.LPA_THERM_ACTIVE = 1 ∧
      getF t F.LPA_THERM_EPISODES = min (getF s F.LPA_THERM_EPISODES + 1) 65535 ∧ SameMemory s t) ∧
  (∀ (tj : BitVec 12) (s : State), inHold s = false → signed tj.toNat 12 < 520 →
    ∃ t, exec (.thermalCapClear tj) s = .next t ∧ getF t F.PMU_THERM_FOLD = 0 ∧ getF t F.PMU_THERM_HOT = 0 ∧
      getF t F.LPA_THERM_ACTIVE = 0 ∧ getF t F.PMU_THERM_TJ = tj.toNat ∧ t.pmu = { s.pmu with above130 := false, tjMs := t.pmu.tjMs, maxMs := t.pmu.maxMs } ∧ SameMemory s t)

/-- The CRC of a Puluac packet (R417) is CRC-32C, appended least significant byte first: reflected input and output with polynomial
0x1EDC_6F41, initial value and final XOR 0xFFFF_FFFF; its check value over the ASCII bytes 123456789 is 0xE306_9283. The register after
each byte is told by division: eight times the lowest bit leaves, and where it was 1 the reflected polynomial is added. -/
def Obligations.PuluacCrcIsCrc32c : Prop :=
  (∀ k : OutPkt, ∃ b : Bytes, packetBytes k = b ++ leBytes (crc32c b) 4) ∧
  (∀ i, i < 32 → Nat.testBit 0x82F63B78 i = Nat.testBit 0x1EDC6F41 (31 - i)) ∧
  (∃ reg : Bytes → Nat, reg [] = 0xFFFFFFFF ∧ (∀ b, crc32c b = reg b ^^^ 0xFFFFFFFF) ∧
    ∀ (b : Bytes) (x : Byte), reg (b ++ [x]) =
      (List.range 8).foldl (fun c _ => c / 2 ^^^ (if c.testBit 0 then 0x82F63B78 else 0)) (reg b ^^^ x.toNat)) ∧
  crc32c [0x31, 0x32, 0x33, 0x34, 0x35, 0x36, 0x37, 0x38, 0x39] = 0xE3069283

/-- The statuses of a MODE_SET (R39), at the operation that MODE_SET and a write of PMU_MODECTL share: BAD_PARAM for a code that
PMU_MODECTL rejects, before any other check; BUSY and no effect during a transition; OK without effect for the current mode; BAD_PARAM for a listed
transition whose condition is unmet, but BUSY out of SAFEHOLD while a PMU_SAFECAUSE bit is set or the junction is at 130 °C or more;
BAD_MODE for a transition that R37 does not list; otherwise OK, and the transition begins. SAFEHOLD may be asked for from every mode but
BOOT. A request for SAFEHOLD that HCP turns away with BUSY is latched in HOSTCMD if a higher cause selected the transition in the same cycle
(R38, R523, log entry 170), and otherwise has no effect. -/
def Obligations.ModeSetAnswersItsStatuses : Prop :=
  (∀ (s : State) (op : Nat) (params : Bytes),
    (asksSafehold op params = true → outranked s 6 = true → s.pmu.mode ≠ .boot →
      lateHostCause s St.busy op params = setFlag s F.PMU_SAFECAUSE_HOSTCMD) ∧
    (outranked s 6 = false → lateHostCause s St.busy op params = s)) ∧
  ∀ (s : State) (code : Nat),
    (code = 0 ∨ 4 < code → modeSet s code = (s, St.badParam)) ∧
    (1 ≤ code → code ≤ 4 → s.pmu.trans.isSome = true → modeSet s code = (s, St.busy)) ∧
    (1 ≤ code → code ≤ 4 → s.pmu.trans = none →
      (code = Mode.code s.pmu.mode ∨ (s.pmu.paired = true ∧ code = 2 ∧ s.pmu.mode = .spare) → modeSet s code = (s, St.ok)) ∧
      (¬(code = Mode.code s.pmu.mode ∨ (s.pmu.paired = true ∧ code = 2 ∧ s.pmu.mode = .spare)) →
        (code = 4 → s.pmu.mode ≠ .boot → (modeSet s code).2 = St.ok ∧ getF (modeSet s code).1 F.PMU_SAFECAUSE_HOSTCMD = 1 ∧
          (inHold s = false → (modeSet s code).1.pmu.trans = some { target := .safehold, kind := .safehold })) ∧
        (code = 4 → s.pmu.mode = .boot → modeSet s code = (s, St.badMode)) ∧
        (code ≠ 4 → listedTransition s code = none → modeSet s code = (s, St.badMode)) ∧
        (∀ m ok, code ≠ 4 → listedTransition s code = some (m, ok) →
          (s.pmu.mode = .safehold → (anyCause s = true ∨ s.pmu.above130 = true) → modeSet s code = (s, St.busy)) ∧
          (¬(s.pmu.mode = .safehold ∧ (anyCause s = true ∨ s.pmu.above130 = true)) → ok = false →
            modeSet s code = (s, St.badParam)) ∧
          (¬(s.pmu.mode = .safehold ∧ (anyCause s = true ∨ s.pmu.above130 = true)) → ok = true →
            (modeSet s code).2 = St.ok ∧ (modeSet s code).1 =
              { s with pmu := { s.pmu with trans := some { target := m, kind := .host }, race := (modeSet s code).1.pmu.race } }))))

/-- Ownership is lost when the chip asserts OWN_OUT, has begun to own, and then sees OWN_IN asserted with no higher epoch seen (R40), in a
heartbeat or in a beacon: the output gate closes and the loss counts; while no sequence runs, nor ran before another cause of the same
cycle, the mode and the transition stay as they are. With a higher epoch seen no loss counts. On a VH7430, where OWN_IN is not connected
(R5), nothing changes. -/
def Obligations.OwnershipIsLost : Prop :=
  (∀ (s : State) (level : Bool) (dt : Nat), hasFull s = false → exec (.ownInChange level dt) s = .next s) ∧
  ∀ (s : State) (dt : Nat), inHold s = false → hasFull s = true → flag s F.ERF_STAT_OWN_OUT = true → s.erf.begun = true →
    (getF s F.ERF_PEEREPOCH_EPOCH ≤ getF s F.ERF_EPOCH_EPOCH → s.erf.seenEpoch ≤ getF s F.ERF_EPOCH_EPOCH →
      ∃ t, exec (.ownInChange true dt) s = .next t ∧ getF t F.ERF_STAT_OWN_IN = 1 ∧ getF t F.ERF_STAT_GATE = 0 ∧
        getF t F.ERF_OWNCNT_LOSSES = min (getF s F.ERF_OWNCNT_LOSSES + 1) 65535 ∧
        (sequenceRuns s = false → cycleRan s = false → t.pmu.mode = s.pmu.mode ∧ t.pmu.trans = s.pmu.trans)) ∧
    (getF s F.ERF_EPOCH_EPOCH < getF s F.ERF_PEEREPOCH_EPOCH ∨ getF s F.ERF_EPOCH_EPOCH < s.erf.seenEpoch →
      ∃ t, exec (.ownInChange true dt) s = .next t ∧ getF t F.ERF_STAT_GATE = 0 ∧
        getF t F.ERF_OWNCNT_LOSSES = getF s F.ERF_OWNCNT_LOSSES ∧ t.pmu.mode = s.pmu.mode ∧ t.pmu.trans = s.pmu.trans)

/-- Every command leaves each part of the state unchanged that its row of mayTouch does not list (Sys2Proof/Frame.lean): the units' states,
main SRAM and the flash byte by byte, the queues, the host ports, and every register field of each other unit's block. -/
def Obligations.EveryCommandKeepsItsFrame : Prop :=
  ∀ (c : Instr) (s t : State), exec c s = .next t → ∀ p : Part, p ∉ mayTouch c → p.same s t

/-- The body of a heartbeat (R346): 32 bytes, the reserved ones 0, from which every field reads back. -/
def Obligations.HeartbeatBodyReadsBack : Prop :=
  ∀ h : Heartbeat, (hbBytes h).length = 32 ∧ u (hbBytes h) 3 1 = 0 ∧ u (hbBytes h) 30 2 = 0 ∧ hbOf (hbBytes h) = h

/-- An Erfa frame (R343): TYPE, LSEQ, LEN, BODY and CRC-32C; every body of at most 2,048 bytes reads back with its TYPE and LSEQ, and a frame
whose four CRC bytes are others is none. -/
def Obligations.ErfaFrameReadsBack : Prop :=
  ∀ (type lseq : Nat) (body : Bytes), type < 256 → lseq < 65536 → body.length ≤ 2048 →
    erfParse (erfFrame type lseq body) = some (type, lseq, body) ∧
    (erfFrame type lseq body).length = body.length + 9 ∧
    ∀ c : Bytes, c.length = 4 → c ≠ (erfFrame type lseq body).drop (body.length + 5) →
      erfParse ((erfFrame type lseq body).take (body.length + 5) ++ c) = none

/-- Sealed frames and wrapped keys open (R357, R370): what CCM* seals opens to the plaintext with a MIC that verifies, under every key, nonce
and additional data; the MIC has 8 bytes, and with any other MIC it does not verify, so that a wrapped key is then absent. -/
def Obligations.SealedTextOpens : Prop :=
  (∀ key nonce aad m : Bytes, ccmOpen key nonce aad (ccmSeal key nonce aad m) = (m, true) ∧
    (ccmSeal key nonce aad m).length = m.length + 8 ∧
    ∀ mic : Bytes, mic.length = 8 → mic ≠ (ccmSeal key nonce aad m).drop m.length →
      (ccmOpen key nonce aad ((ccmSeal key nonce aad m).take m.length ++ mic)).2 = false) ∧
  ∀ (under k : Bytes) (nonce : Nat), unwrapKey under (wrapKey under nonce k) = some k ∧
    ∀ mic : Bytes, mic.length = 8 → mic ≠ (wrapKey under nonce k).drop (k.length + 13) →
      unwrapKey under ((wrapKey under nonce k).take (k.length + 13) ++ mic) = none

/-- The word code (R392, R393): a stored word has 275 bits of even weight, with the data in bits 18–273; as stored it decodes without an error;
with one of its bits turned, or one and the parity bit, just these are named, and turning them gives the stored word. -/
def Obligations.WordCodeCorrects : Prop :=
  ∀ d : Nat, d < 2 ^ 256 →
    encodeWord d < 2 ^ 275 ∧ wordData (encodeWord d) = d ∧ oddBits (encodeWord d) 275 = false ∧ decodeWord (encodeWord d) = some [] ∧
    (∀ i, i < 275 → decodeWord (encodeWord d ^^^ 2 ^ i) = some [i] ∧ turnBits (encodeWord d ^^^ 2 ^ i) [i] = encodeWord d) ∧
    (∀ i, i < 274 → decodeWord (encodeWord d ^^^ 2 ^ i ^^^ 2 ^ 274) = some [i, 274])

/-- VLD outside its limits (R83): at 7.6 V or less the row shows an undervoltage, at 18.5 V or more an overvoltage, and every port that sends
is to end its frame at the symbol in flight; a row at 7.9–18.2 V clears both and touches nothing but the reading and these bits. -/
def Obligations.LineSupplyRowsActAtTheirLimits : Prop :=
  (∀ (mv : BitVec 15) (s : State), mode s ≠ .boot → (mv.toNat ≤ 7600 ∨ 18500 ≤ mv.toNat) →
    ∃ t, exec (.vldFault mv) s = .next t ∧
      (mv.toNat ≤ 7600 → getF t F.LPA_VLD_UV = 1) ∧ (18500 ≤ mv.toNat → getF t F.LPA_VLD_OV = 1) ∧ getF t F.LPA_VLD_MV = mv.toNat ∧
      t.lines.length = s.lines.length ∧
      (∀ n x, n < 4 → n < s.lines.length → (line s n).tx = some x → x.sent = false → x.sym + 1 < x.size → (line t n).cut = true)) ∧
  (∀ (mv : BitVec 15) (s : State), mode s ≠ .boot →
    ∃ t, exec (.vldFaultClear mv) s = .next t ∧ t = { s with regs := t.regs, pmu := { s.pmu with vldMs := t.pmu.vldMs } } ∧
      getF t F.LPA_VLD_MV = mv.toNat ∧
      (7900 ≤ mv.toNat → mv.toNat ≤ 18200 → getF t F.LPA_VLD_UV = 0 ∧ getF t F.LPA_VLD_OV = 0) ∧
      (∀ f : Field, fieldKey f ≠ fieldKey F.LPA_VLD_MV →
        (7900 ≤ mv.toNat → mv.toNat ≤ 18200 → fieldKey f ≠ fieldKey F.LPA_VLD_UV ∧ fieldKey f ≠ fieldKey F.LPA_VLD_OV) → getF t f = getF s f))

/-- PLL M (R239, R461): its loss clears its lock bit and no other, causes no reset, and sets UNLOCKED while MFE is powered; its return sets the
bit again. A row that changes nothing leaves the state as it is. -/
def Obligations.ModulatorPllRowsShowTheLock : Prop :=
  (∀ s : State, bit (getF s F.PMU_PLLSTAT_LOCK) 3 = true →
    ∃ t, exec .pllMUnlock s = .next t ∧ (∀ k, k < 4 → bit (getF t F.PMU_PLLSTAT_LOCK) k = (bit (getF s F.PMU_PLLSTAT_LOCK) k && k != 3)) ∧
      (mfeOn s = true → getF t F.MFE_GRIDSTAT_UNLOCKED = 1) ∧ t.pmu = s.pmu ∧ SameMemory s t) ∧
  (∀ s : State, bit (getF s F.PMU_PLLSTAT_LOCK) 3 = false →
    exec .pllMUnlock s = .next s ∧
    ∃ t, exec .pllMRelock s = .next t ∧ (∀ k, k < 4 → bit (getF t F.PMU_PLLSTAT_LOCK) k = (bit (getF s F.PMU_PLLSTAT_LOCK) k || k == 3)) ∧
      t.pmu = s.pmu ∧ SameMemory s t) ∧
  (∀ s : State, bit (getF s F.PMU_PLLSTAT_LOCK) 3 = true → exec .pllMRelock s = .next s)

/-- Rows of LCE's inputs and locks (R309, R329): an accepted level shows in its bit of LCE_DI and changes nothing else; a lease that expires
marks the held lock lost and counts, and every other lock stays as it is. A lock that a rule in use holds does not expire. -/
def Obligations.ControlRowsAcceptLevelsAndLoseLeases : Prop :=
  (∀ (di : Fin 16) (level : Bool) (s : State), hcpOn s = true →
    ∃ t, exec (.diLevelAccept di level) s = .next t ∧ OnlyRegs [F.LCE_DI_LEVEL] s t ∧
      ∀ k : Fin 16, bit (getF t F.LCE_DI_LEVEL) k.val = if k = di then level else bit (getF s F.LCE_DI_LEVEL) k.val) ∧
  (∀ (l : Fin 32) (s : State), l.val < s.lce.locks.length → (lock s l).st = .held → (lock s l).lost = none →
    ((lock s l).owner.cls ≠ 0 ∨ ruleOn s (lock s l).owner.id = false) →
    ∃ t, exec (.leaseExpiry l) s = .next t ∧ lock t l = { lock s l with lost := some 2 } ∧
      (∀ k, k ≠ l.val → lock t k = lock s k) ∧ getF t F.LCE_CNT1_EXPIRED = min (getF s F.LCE_CNT1_EXPIRED + 1) (2 ^ F.LCE_CNT1_EXPIRED.width - 1) ∧
      SameMemory s t) ∧
  (∀ (l : Fin 32) (s : State), (lock s l).owner.cls = 0 → ruleOn s (lock s l).owner.id = true → exec (.leaseExpiry l) s = .next s)

/-- The random source (R386): each failed health test counts, and the third within a second sets its state to failed; an earlier one leaves
the state as it was. -/
def Obligations.TrngFailsAtTheThirdTest : Prop :=
  ∀ s : State, trngRuns s = true →
    ∃ t, exec (.trngHealthFail ()) s = .next t ∧ t.sec.trngFails.head? = some (now s) ∧
      getF t F.SEC_CNT_TRNGFAIL = min (getF s F.SEC_CNT_TRNGFAIL + 1) (2 ^ F.SEC_CNT_TRNGFAIL.width - 1) ∧
      (2 ≤ (s.sec.trngFails.filter (fun x => decide (now s < x + Config.ticksPerSec))).length → getF t F.SEC_STAT_TRNG = 2) ∧
      ((s.sec.trngFails.filter (fun x => decide (now s < x + Config.ticksPerSec))).length < 2 → getF t F.SEC_STAT_TRNG = getF s F.SEC_STAT_TRNG ∧ t.hcp = s.hcp) ∧
      SameMemory s t

/-- Rows of the output ownership and of the epoch's record (R340, R354): a chip in COMMISSION or OPERATE that sees OWN_IN deasserted claims by
OWN_OUT, and nothing else changes; its gate opens only while it asserts OWN_OUT and OWN_IN is deasserted, and with it ownership begins; the
epoch is recorded once leave is held, and the register stays. -/
def Obligations.OwnershipRowsClaimAndOpen : Prop :=
  (∀ s : State, inHold s = false → (mode s = .commission ∨ mode s = .operate) → flag s F.ERF_STAT_OWN_IN = false →
    flag s F.ERF_STAT_OWN_OUT = false →
    ∃ t, exec .ownClaim s = .next t ∧ getF t F.ERF_STAT_OWN_OUT = 1 ∧ t = { s with regs := t.regs, erf := { s.erf with begun := false } } ∧
      ∀ f : Field, fieldKey f ≠ fieldKey F.ERF_STAT_OWN_OUT → getF t f = getF s f) ∧
  (∀ s : State, inHold s = false → flag s F.ERF_STAT_OWN_IN = false → flag s F.ERF_STAT_OWN_OUT = true →
    ∃ t, exec .gateOpen s = .next t ∧ getF t F.ERF_STAT_GATE = 1 ∧ t.erf.begun = true ∧ SameMemory s t) ∧
  (∀ s : State, (flag s F.ERF_STAT_OWN_IN = true ∨ flag s F.ERF_STAT_OWN_OUT = false) → exec .gateOpen s = .next s) ∧
  (∀ s : State, s.erf.recordDue = true → holdsLeave s 9 = true →
    ∃ t, exec .epochRecord s = .next t ∧ t.nvm = { s.nvm with epoch := getF s F.ERF_EPOCH_EPOCH } ∧ t.erf.recordDue = false ∧
      t.regs = s.regs ∧ SameMemory s t)

/-- Rows of a bank's arbiter in one cycle (R409, R410): a requester with no burst pending raises one, which stands beside the others; withdrawn
in that cycle it leaves the banks as they were. Neither touches another bank or any other state. -/
def Obligations.BankRowsRaiseAndWithdraw : Prop :=
  ∀ (bank : Fin 16) (req : Fin 12) (words : Fin 8) (s : State), bank.val < s.mqf.arbs.length → (arb s bank).raised.length = 12 →
    nth 0 (arb s bank).pend req = 0 → nth 0 (arb s bank).raised req = 0 →
    ∃ t, exec (.bankRequest bank req words 0) s = .next t ∧ t = { s with mqf := { s.mqf with arbs := t.mqf.arbs } } ∧
      arb t bank = { arb s bank with raised := (arb s bank).raised.set req (words.val + 1) } ∧
      (∀ b, b ≠ bank.val → arb t b = arb s b) ∧
      ∃ r, exec (.bankWithdraw bank req 0) t = .next r ∧ r = s

/-- A commit of a coefficient set (R296) replaces the whole set at once: its 128 bytes read as the committed image, every byte of main SRAM
outside it as before, PENDING reads 0, and no commit is pending. -/
def Obligations.LinCommitReplacesTheSet : Prop :=
  ∀ (k : Nat) (b : Bytes) (s : State), s.dch.linPending = some (k, b) → b.length = 128 →
    ∃ t, exec .linCommitComplete s = .next t ∧ memRead t (Base.coef + 128 * k) 128 = b ∧
      (∀ a n, a + n ≤ Base.coef + 128 * k ∨ Base.coef + 128 * k + 128 ≤ a → memRead t a n = memRead s a n) ∧
      getF t F.DCH_LINSET_PENDING = 0 ∧ t.dch.linPending = none

/-- A radio frame (R219): whitening a PSDU twice restores it; the FCS that a PSDU is given matches; the PHR of 11 to 1,291 octets passes and
gives the length; the symbols of a frame are as many as its air time counts; and a receiver that decides each of them right has the PSDU. -/
def Obligations.RadioFrameReadsBack : Prop :=
  (∀ p : Bytes, whiten (whiten p) = p) ∧
  (∀ head payload : Bytes, fcsOk (radioPsdu head payload) = true) ∧
  (∀ n, 11 ≤ n → n ≤ 1291 → phrOk (radioPhr n) = true ∧ phrLength (radioPhr n) = n) ∧
  (∀ (c : RfxCfg) (p : Bytes), (airSymbols c p).length = airBits c p.length ∧
    radioDecode c p.length (((airSymbols c p).drop (airHead c p.length).length).map (symbolOf c)) = some p)

/-- The parts into which a list of an ADVERT is cut (R200): together they hold every entry in order, none holds more than 156, and only the
last holds fewer. -/
def Obligations.AdvertPartsHoldEveryEntry : Prop :=
  ∀ es : List Change, (partsOf 156 (es.length + 1) es).flatten = es ∧ (∀ p ∈ partsOf 156 (es.length + 1) es, p.length ≤ 156) ∧
    ∀ p ∈ (partsOf 156 (es.length + 1) es).dropLast, p.length = 156

end
end

