-- ==== Sys2Proof/Laws/Bytes.lean ====
section
/-! SUPPORT. Numbers as bytes, least significant first, and the bits that an inclusive or keeps. -/

namespace Sys2Proof.Machine

@[simp] theorem leBytes_length (v n : Nat) : (leBytes v n).length = n := by
  induction n generalizing v with
  | zero => rfl
  | succ n ih => simp [leBytes, ih]

theorem leNat_leBytes (v n : Nat) : leNat (leBytes v n) = v % 256 ^ n := by
  induction n generalizing v with
  | zero => simp [leNat, leBytes, Nat.mod_one]
  | succ n ih =>
    have h : (256 : Nat) ^ (n + 1) = 256 * 256 ^ n := by rw [Nat.pow_add, Nat.pow_one, Nat.mul_comm]
    rw [leBytes, leNat, ih, BitVec.toNat_ofNat, h, Nat.mod_mul]

/-- The number in `n` bytes is below 2 to the power of their bits. -/
theorem leNat_lt (b : Bytes) : leNat b < 2 ^ (8 * b.length) := by
  induction b with
  | nil => simp [leNat]
  | cons x t ih =>
    have hx := x.isLt
    have h : 2 ^ (8 * (t.length + 1)) = 256 * 2 ^ (8 * t.length) := by rw [Nat.mul_succ, Nat.pow_add, Nat.mul_comm]
    rw [leNat, List.length_cons, h]
    omega

/-- Bytes of zeros spell 0. -/
theorem leNat_zeros (b : Bytes) (h : b.all (· == 0) = true) : leNat b = 0 := by
  induction b with
  | nil => rfl
  | cons x t ih =>
    simp only [List.all_cons, Bool.and_eq_true, beq_iff_eq] at h
    simp [leNat, ih h.2, h.1]

/-- What an inclusive or sets beside `x` clears no bit of it. -/
theorem and_or_keeps {x y : Nat} (z : Nat) (h : x &&& y = x) : x &&& (y ||| z) = x := by
  apply Nat.eq_of_testBit_eq
  intro i
  have hi := congrArg (·.testBit i) h
  simp only [Nat.testBit_and, Nat.testBit_or] at hi ⊢
  revert hi
  cases x.testBit i <;> cases y.testBit i <;> simp

end Sys2Proof.Machine
end

