-- ==== Sys2Proof/Laws/Kept.lean ====
section
/-! SUPPORT. The canonical form of finite maps is kept by every operation on them; and `Kept`, the one fact that every operation of
the model keeps: both memories and the register table canonical, the tables of their sizes, the queue of commands untouched, and the
chip's fuses only ever burnt further. One lemma per operation, in the files Kept*.lean beside this one. -/

namespace Sys2Proof.Machine

def headOver {α : Type} (k : Nat) : List (Nat × α) → Prop
  | [] => True
  | (j, _) :: _ => k < j

theorem keysRise_cons {α : Type} (j : Nat) (v : α) (t : List (Nat × α)) :
    keysRise ((j, v) :: t) = true ↔ (headOver j t ∧ keysRise t = true) := by
  cases t with
  | nil => simp [keysRise, headOver]
  | cons a t => obtain ⟨k, w⟩ := a; simp [keysRise, headOver]

theorem headOver_set {α : Type} (m : List (Nat × α)) (i k : Nat) (v : α) (h : headOver i m) (hk : i < k) :
    headOver i (assocSet m k v) := by
  cases m with
  | nil => simpa [assocSet, headOver] using hk
  | cons a t =>
    obtain ⟨j, w⟩ := a
    simp only [assocSet]
    split
    · simpa [headOver] using h
    · split
      · subst_vars; simpa [headOver] using hk
      · simpa [headOver] using hk

theorem keysRise_set {α : Type} (m : List (Nat × α)) (k : Nat) (v : α) (h : keysRise m = true) :
    keysRise (assocSet m k v) = true := by
  induction m with
  | nil => rfl
  | cons a t ih =>
    obtain ⟨j, w⟩ := a
    rw [keysRise_cons] at h
    simp only [assocSet]
    split
    · rename_i hj
      rw [keysRise_cons]
      exact ⟨headOver_set t j k v h.1 hj, ih h.2⟩
    · split
      · subst_vars
        rw [keysRise_cons]; exact h
      · rw [keysRise_cons, keysRise_cons]
        refine ⟨?_, h⟩
        simp only [headOver]; omega

theorem headOver_sub {α : Type} (i : Nat) (m : List (Nat × α)) (h : headOver i m) (hr : keysRise m = true) (x : Nat × α) (hx : x ∈ m) : i < x.1 := by
  induction m generalizing i with
  | nil => simp at hx
  | cons a t ih =>
    obtain ⟨j, w⟩ := a
    rw [keysRise_cons] at hr
    simp only [headOver] at h
    rcases List.mem_cons.mp hx with rfl | hx
    · exact h
    · exact Nat.lt_trans h (ih j hr.1 hr.2 hx)

theorem headOver_of {α : Type} (i : Nat) (m : List (Nat × α)) (h : ∀ x ∈ m, i < x.1) : headOver i m := by
  cases m with
  | nil => trivial
  | cons a t => exact h a (by simp)

theorem keysRise_filter {α : Type} (m : List (Nat × α)) (f : Nat × α → Bool) (h : keysRise m = true) :
    keysRise (m.filter f) = true := by
  induction m with
  | nil => rfl
  | cons a t ih =>
    obtain ⟨j, w⟩ := a
    rw [keysRise_cons] at h
    by_cases hf : f (j, w)
    · rw [List.filter_cons_of_pos hf, keysRise_cons]
      refine ⟨headOver_of _ _ fun x hx => ?_, ih h.2⟩
      exact headOver_sub j t h.1 h.2 x (List.mem_filter.mp hx).1
    · rw [List.filter_cons_of_neg hf]; exact ih h.2

theorem erase_sub {α : Type} (m : List (Nat × α)) (k : Nat) (x : Nat × α) (hx : x ∈ assocErase m k) : x ∈ m := by
  induction m with
  | nil => simp [assocErase] at hx
  | cons a t ih =>
    obtain ⟨j, w⟩ := a
    simp only [assocErase] at hx
    split at hx
    · exact List.mem_cons_of_mem _ (ih hx)
    · rcases List.mem_cons.mp hx with rfl | hx
      · simp
      · exact List.mem_cons_of_mem _ (ih hx)

theorem keysRise_erase {α : Type} (m : List (Nat × α)) (k : Nat) (h : keysRise m = true) : keysRise (assocErase m k) = true := by
  induction m with
  | nil => rfl
  | cons a t ih =>
    obtain ⟨j, w⟩ := a
    rw [keysRise_cons] at h
    simp only [assocErase]
    split
    · exact ih h.2
    · rw [keysRise_cons]
      refine ⟨headOver_of _ _ fun x hx => headOver_sub j t h.1 h.2 x (erase_sub t k x hx), ih h.2⟩

theorem set_sub {α : Type} (m : List (Nat × α)) (k : Nat) (v : α) (x : Nat × α) (hx : x ∈ assocSet m k v) : x = (k, v) ∨ x ∈ m := by
  induction m with
  | nil => simp [assocSet] at hx; exact .inl hx
  | cons a t ih =>
    obtain ⟨j, w⟩ := a
    simp only [assocSet] at hx
    split at hx
    · rcases List.mem_cons.mp hx with rfl | hx
      · simp
      · rcases ih hx with h | h
        · exact .inl h
        · exact .inr (List.mem_cons_of_mem _ h)
    · split at hx
      · rcases List.mem_cons.mp hx with rfl | hx
        · simp
        · exact .inr (List.mem_cons_of_mem _ hx)
      · rcases List.mem_cons.mp hx with rfl | hx
        · simp
        · exact .inr hx

theorem cellsWf_iff (d : Nat → Byte) (m : List Host.Cell) :
    cellsWf d m = true ↔ keysRise m = true ∧ ∀ x ∈ m, x.2 ≠ d x.1 := by
  simp [cellsWf, List.all_eq_true]

theorem cellsWf_set (d : Nat → Byte) (m : List Host.Cell) (k : Nat) (v : Byte) (h : cellsWf d m = true) :
    cellsWf d (cellSet (d k) m k v) = true := by
  rw [cellsWf_iff] at h ⊢
  unfold cellSet
  split
  · exact ⟨keysRise_erase _ _ h.1, fun x hx => h.2 x (erase_sub _ _ _ hx)⟩
  · rename_i hv
    refine ⟨keysRise_set _ _ _ h.1, fun x hx => ?_⟩
    rcases set_sub _ _ _ _ hx with rfl | hx
    · exact hv
    · exact h.2 x hx

theorem cellsWf_write (d : Nat → Byte) (m : List Host.Cell) (a : Nat) (b : Bytes) (h : cellsWf d m = true) :
    cellsWf d (cellsWrite d m a b) = true := by
  induction b generalizing m a with
  | nil => exact h
  | cons x b ih => exact ih _ _ (cellsWf_set d m a x h)

theorem cellsWf_filter (d : Nat → Byte) (m : List Host.Cell) (f : Host.Cell → Bool) (h : cellsWf d m = true) :
    cellsWf d (m.filter f) = true := by
  rw [cellsWf_iff] at h ⊢
  exact ⟨keysRise_filter _ _ h.1, fun x hx => h.2 x (List.mem_filter.mp hx).1⟩

theorem cellsWf_foldl (d : Nat → Byte) (l : List Host.Cell) (m : List Host.Cell) (h : cellsWf d m = true) :
    cellsWf d (l.foldl (fun m e => cellSet (d e.1) m e.1 e.2) m) = true := by
  induction l generalizing m with
  | nil => exact h
  | cons a l ih => exact ih _ (cellsWf_set d m a.1 a.2 h)

theorem keysRise_foldl {α : Type} (l m : List (Nat × α)) (h : keysRise m = true) :
    keysRise (l.foldl (fun m e => assocSet m e.1 e.2) m) = true := by
  induction l generalizing m with
  | nil => exact h
  | cons a l ih => exact ih _ (keysRise_set m a.1 a.2 h)

/-- `Kept` over the parts of the state that it speaks of. -/
def KeptOf (q : List Instr) (c : Chip) (sram flash : List Host.Cell) (regs : List (Nat × Nat)) (pend : List Instr) (d : Chip)
    (sizes : List Nat) : Prop :=
  cellsWf sramReset sram = true ∧ cellsWf flashErased flash = true ∧ keysRise regs = true ∧ pend = q ∧ FusesKept c d ∧
    sizes = [4, 4, 32, 32, 48, 16, 16, 3, 5, 32, 32, 48, 16]

/-- The state satisfies the invariant, its queue is `q`, and its chip descends from `c`. -/
def Kept (q : List Instr) (c : Chip) (s : State) : Prop :=
  KeptOf q c s.sram s.flash s.regs s.pending s.chip (tableSizes s)

/-- What an outcome leaves is kept. -/
def KeptBy (q : List Instr) (c : Chip) (o : Host.Outcome State Fault Refusal) : Prop :=
  match o with
  | .next t => Kept q c t
  | _ => True

variable {q : List Instr} {c : Chip}

theorem FusesKept.refl (c : Chip) : FusesKept c c := by simp [FusesKept]

@[simp] theorem keptBy_next (s : State) : KeptBy q c (.next s) = Kept q c s := propext Iff.rfl

@[simp] theorem keptOf_fold (s : State) :
    KeptOf q c s.sram s.flash s.regs s.pending s.chip
      (s.lines.length :: s.tbu.dets.length :: s.lce.acts.length :: s.lce.locks.length :: s.mfe.entries.length ::
       s.mqf.queues.length :: s.mqf.arbs.length :: s.hcp.ports.length :: s.hcp.srcs.length ::
       undoSizes s.pmu.race) = Kept q c s := propext Iff.rfl

@[simp] theorem kept_mk (d : Chip) (regs : List (Nat × Nat)) (sram flash : List Host.Cell) (pmu : Pmu) (tbu : Tbu)
    (lines : List LinePort) (sfm : Sfm) (mrt : Mrt) (rfx : Rfx) (mfe : Mfe) (dch : Dch) (lce : Lce) (erf : Erf) (mir : Mirror) (sec : Sec)
    (nvm : Nvm) (mqf : Mqf) (hcp : Hcp) (drawn : Nat) (pend : List Instr) :
    Kept q c ⟨d, regs, sram, flash, pmu, tbu, lines, sfm, mrt, rfx, mfe, dch, lce, erf, mir, sec, nvm, mqf, hcp, drawn, pend⟩ =
      KeptOf q c sram flash regs pend d
        (lines.length :: tbu.dets.length :: lce.acts.length :: lce.locks.length :: mfe.entries.length :: mqf.queues.length ::
         mqf.arbs.length :: hcp.ports.length :: hcp.srcs.length :: undoSizes pmu.race) := propext Iff.rfl

@[simp] theorem kept_ite (p : Prop) [Decidable p] (s t : State) (h : Kept q c s) (h' : Kept q c t) :
    Kept q c (if p then s else t) := by split <;> assumption

@[simp] theorem kept_foldl {α : Type} (g : State → α → State) (l : List α) (s : State) (h : Kept q c s)
    (hg : ∀ s x, Kept q c s → Kept q c (g s x)) : Kept q c (l.foldl g s) := by
  induction l generalizing s with
  | nil => exact h
  | cons a l ih => exact ih _ (hg _ _ h)

@[simp] theorem kept_foldr {α : Type} (g : α → State → State) (l : List α) (s : State) (h : Kept q c s)
    (hg : ∀ s x, Kept q c s → Kept q c (g x s)) : Kept q c (l.foldr g s) := by
  induction l with
  | nil => exact h
  | cons a l ih => exact hg _ _ ih

theorem Kept.sram {s : State} (h : Kept q c s) : cellsWf sramReset s.sram = true := h.1
theorem Kept.flash {s : State} (h : Kept q c s) : cellsWf flashErased s.flash = true := h.2.1
theorem Kept.regs {s : State} (h : Kept q c s) : keysRise s.regs = true := h.2.2.1
theorem Kept.pending {s : State} (h : Kept q c s) : s.pending = q := h.2.2.2.1
theorem Kept.fuses {s : State} (h : Kept q c s) : FusesKept c s.chip := h.2.2.2.2.1
theorem Kept.sizes {s : State} (h : Kept q c s) : tableSizes s = [4, 4, 32, 32, 48, 16, 16, 3, 5, 32, 32, 48, 16] := h.2.2.2.2.2

/-- A state that satisfies the invariant is kept, with its own queue and chip. -/
theorem Inv.kept {s : State} (h : Inv s) : Kept s.pending s.chip s := by
  simp only [Inv, Memory.wf, RegsWf, Shape, Bool.and_eq_true] at h
  exact ⟨h.1.1, h.1.2, h.2.1, rfl, FusesKept.refl _, h.2.2⟩

/-- What is kept satisfies the invariant. -/
theorem Kept.inv {s : State} (h : Kept q c s) : Inv s := by
  simp only [Inv, Memory.wf, RegsWf, Shape, Bool.and_eq_true]
  exact ⟨⟨h.sram, h.flash⟩, h.regs, h.sizes⟩

/-- The transition in progress may change while what a displaced selection would give back keeps its sizes. -/
theorem kept_race (s : State) (p : Pmu) (hr : undoSizes p.race = [32, 32, 48, 16]) (hs : Kept q c s) :
    Kept q c { s with pmu := p } := by
  refine ⟨hs.1, hs.2.1, hs.regs, hs.pending, hs.fuses, ?_⟩
  have h := hs.sizes
  simp only [tableSizes, List.cons.injEq] at h ⊢
  rw [hr]
  simp only [h, and_self]

/-- What the state would give back has its sizes. -/
theorem Kept.undo {s : State} (hs : Kept q c s) : undoSizes s.pmu.race = [32, 32, 48, 16] := by
  have h := hs.sizes
  simp only [tableSizes, List.cons.injEq] at h
  simp only [h]

@[simp] theorem kept_setF (s : State) (f : Field) (v : Nat) (hs : Kept q c s) : Kept q c (setF s f v) :=
  ⟨hs.1, hs.2.1, keysRise_set _ _ _ hs.regs, hs.2.2.2⟩

@[simp] theorem kept_clearF (s : State) (f : Field) (hs : Kept q c s) : Kept q c (clearF s f) :=
  ⟨hs.1, hs.2.1, keysRise_erase _ _ hs.regs, hs.2.2.2⟩

@[simp] theorem kept_flashPut (s : State) (a : Nat) (b : Bytes) (hs : Kept q c s) : Kept q c (flashPut s a b) :=
  ⟨hs.1, cellsWf_write _ _ _ _ hs.2.1, hs.2.2⟩

end Sys2Proof.Machine
end

