-- ==== Sys2Proof/Laws/KeptTime.lean ====
section
/-! SUPPORT. `Kept` through registers, shared operations, time base, ECHO: one lemma per operation. -/

set_option linter.all false

namespace Sys2Proof.Machine

variable {q : List Instr} {c : Chip}

@[simp] theorem kept_setFlag (s : State) (f : Field) (hs : Kept q c s) : Kept q c (setFlag s f) := by
  simp [setFlag, hs]

@[simp] theorem kept_putFlag (s : State) (f : Field) (b : Bool) (hs : Kept q c s) : Kept q c (putFlag s f b) := by
  simp [putFlag, hs]

@[simp] theorem kept_incBy (s : State) (f : Field) (n : Nat) (hs : Kept q c s) : Kept q c (incBy s f n) := by
  simp [incBy, hs]

@[simp] theorem kept_inc (s : State) (f : Field) (hs : Kept q c s) : Kept q c (inc s f) := by
  simp [inc, hs]

@[simp] theorem kept_draw (s : State) (hs : Kept q c s) : Kept q c (draw s).2 := by
  simp [draw, hs]

@[simp] theorem kept_freshKey (s : State) (hs : Kept q c s) : Kept q c (freshKey s).2 := by
  simp [freshKey, hs]

@[simp] theorem kept_noteVld (s : State) (mv : Nat) (hs : Kept q c s) : Kept q c (noteVld s mv) := by
  simp [noteVld, hs]

@[simp] theorem kept_setLink (s : State) (i : Nat) (l : Link) (hs : Kept q c s) : Kept q c (setLink s i l) := by
  simp [setLink, hs]

@[simp] theorem kept_modLink (s : State) (i : Nat) (f : Link → Link) (hs : Kept q c s) : Kept q c (modLink s i f) := by
  simp [modLink, hs]

@[simp] theorem kept_setLine (s : State) (n : Nat) (l : LinePort) (hs : Kept q c s) : Kept q c (setLine s n l) := by
  simp [setLine, hs]

@[simp] theorem kept_modLine (s : State) (n : Nat) (f : LinePort → LinePort) (hs : Kept q c s) : Kept q c (modLine s n f) := by
  simp [modLine, hs]

@[simp] theorem kept_setHport (s : State) (n : Nat) (p : PortState) (hs : Kept q c s) : Kept q c (setHport s n p) := by
  simp [setHport, hs]

@[simp] theorem kept_arpNeed (s : State) (ip : Nat) (hs : Kept q c s) : Kept q c (arpNeed s ip) := by
  simp [arpNeed, hs]

@[simp] theorem kept_emitThen (s : State) (n : Nat) (vf : Nat) (seq : Nat) (op : Nat) (params : Bytes) (auth : Bool) (dstIp : Nat) (dstPort : Nat) (then_ : Nat) (hs : Kept q c s) :
    Kept q c (emitThen s n vf seq op params auth dstIp dstPort then_) := by
  simp +contextual (maxDischargeDepth := 99) [emitThen, hs]

@[simp] theorem kept_emit (s : State) (n : Nat) (vf : Nat) (seq : Nat) (op : Nat) (params : Bytes) (auth : Bool) (dstIp : Nat) (dstPort : Nat) (hs : Kept q c s) :
    Kept q c (emit s n vf seq op params auth dstIp dstPort) := by
  simp [emit, hs]

@[simp] theorem kept_eventLost (s : State) (n : Nat) (len : Nat) (hs : Kept q c s) : Kept q c (eventLost s n len) := by
  simp [eventLost, hs]

@[simp] theorem kept_emitEvent (s : State) (n : Nat) (op : Nat) (params : Bytes) (hs : Kept q c s) :
    Kept q c (emitEvent s n op params) := by
  simp +contextual (maxDischargeDepth := 99) [emitEvent, hs]

@[simp] theorem kept_raiseAt (s : State) (ts : Nat) (unit : Nat) (fn : Nat) (body : Bytes) (hs : Kept q c s) :
    Kept q c (raiseAt s ts unit fn body) := by
  simp +contextual (maxDischargeDepth := 99) [raiseAt, hs]

@[simp] theorem kept_raise (s : State) (unit : Nat) (fn : Nat) (body : Bytes) (hs : Kept q c s) :
    Kept q c (raise s unit fn body) := by
  simp [raise, hs]

@[simp] theorem kept_modeEventFrom (s : State) (prev : Mode) (hs : Kept q c s) : Kept q c (modeEventFrom s prev) := by
  simp +contextual (maxDischargeDepth := 99) [modeEventFrom, hs]

@[simp] theorem kept_modeEvent (s : State) (hs : Kept q c s) : Kept q c (modeEvent s) := by
  simp [modeEvent, hs]

@[simp] theorem kept_leaveEvent (s : State) (req : Nat) (outcome : Nat) (obj : Nat) (hs : Kept q c s) :
    Kept q c (leaveEvent s req outcome obj) := by
  simp [leaveEvent, hs]

@[simp] theorem kept_timebaseEvent (s : State) (cause : Nat) (value : Int) (hs : Kept q c s) :
    Kept q c (timebaseEvent s cause value) := by
  simp [timebaseEvent, hs]

@[simp] theorem kept_lineEvent (s : State) (port : Nat) (cause : Nat) (hs : Kept q c s) :
    Kept q c (lineEvent s port cause) := by
  simp [lineEvent, hs]

@[simp] theorem kept_memoryEvent (s : State) (word : Nat) (hs : Kept q c s) : Kept q c (memoryEvent s word) := by
  simp [memoryEvent, hs]

@[simp] theorem kept_countCode (s : State) (target : Nat) (kind : Nat) (hs : Kept q c s) :
    Kept q c (countCode s target kind) := by
  simp [countCode, hs]

@[simp] theorem kept_uncorrectable (s : State) (word : Nat) (inQueue : Bool) (hs : Kept q c s) :
    Kept q c (uncorrectable s word inQueue) := by
  simp +contextual (maxDischargeDepth := 99) [uncorrectable, hs]

@[simp] theorem kept_dropFlips (s : State) (key : Nat) (hs : Kept q c s) : Kept q c (dropFlips s key) := by
  simp [dropFlips, hs]

@[simp] theorem kept_setFlips (s : State) (key : Nat) (bad : Nat) (hs : Kept q c s) : Kept q c (setFlips s key bad) := by
  simp [setFlips, hs]

@[simp] theorem kept_clearMem (s : State) (a : Nat) (n : Nat) (hs : Kept q c s) : Kept q c (clearMem s a n) := by
  simp [clearMem, hs]

@[simp] theorem kept_setArb (s : State) (b : Nat) (a : Arb) (hs : Kept q c s) : Kept q c (setArb s b a) := by
  simp [setArb, hs]

@[simp] theorem kept_raiseScrub (s : State) (b : Nat) (hs : Kept q c s) : Kept q c (raiseScrub s b) := by
  simp [raiseScrub, hs]

@[simp] theorem kept_noteFix (s : State) (key : Nat) (hs : Kept q c s) : Kept q c (noteFix s key) := by
  simp +contextual (maxDischargeDepth := 99) [noteFix, hs]

@[simp] theorem kept_noteRead (s : State) (key : Nat) (r : Option (List Nat)) (hs : Kept q c s) : Kept q c (noteRead s key r) := by
  unfold noteRead
  (try dsimp only)
  repeat' (first | with_reducible assumption | (simp +contextual (maxDischargeDepth := 99) [hs]; done) | (simp +contextual (maxDischargeDepth := 99) [hs, hk]; done) | split | refine kept_foldl _ _ _ ?_ (fun _ _ hk => ?_))

@[simp] theorem kept_setMark (s : State) (w : Nat) (bad : Nat) (hs : Kept q c s) : Kept q c (setMark s w bad) := by
  simp [setMark, hs]

@[simp] theorem kept_bufRead (s : State) (n : Nat) (place : List Nat) (hs : Kept q c s) : Kept q c (bufRead s n place) := by
  simp +contextual (maxDischargeDepth := 99) [bufRead, hs]

@[simp] theorem kept_readMem (s : State) (a : Nat) (n : Nat) (hs : Kept q c s) : Kept q c (readMem s a n) := by
  simp +contextual (maxDischargeDepth := 99) [readMem, hs]

@[simp] theorem kept_meetWord (s : State) (a : Nat) (n : Nat) (w : Nat) (hs : Kept q c s) : Kept q c (meetWord s a n w) := by
  unfold meetWord
  (try dsimp only)
  repeat' (first | with_reducible assumption | (simp +contextual (maxDischargeDepth := 99) [hs]; done) | (simp +contextual (maxDischargeDepth := 99) [hs, hk]; done) | split | refine kept_foldl _ _ _ ?_ (fun _ _ hk => ?_))

@[simp] theorem kept_meetFlips (s : State) (a : Nat) (n : Nat) (hs : Kept q c s) : Kept q c (meetFlips s a n) := by
  simp +contextual (maxDischargeDepth := 99) [meetFlips, hs]

@[simp] theorem kept_memWrite (s : State) (a : Nat) (b : Bytes) (hs : Kept q c s) : Kept q c (memWrite s a b) :=
  ⟨cellsWf_write _ _ _ _ hs.1, (kept_meetFlips s a b.length hs).2⟩

@[simp] theorem kept_memPut (s : State) (a : Nat) (n : Nat) (v : Nat) (hs : Kept q c s) : Kept q c (memPut s a n v) := by
  simp [memPut, hs]

@[simp] theorem kept_cSet (s : State) (i : Nat) (f : CF) (v : Nat) (hs : Kept q c s) : Kept q c (cSet s i f v) := by
  simp [cSet, hs]

@[simp] theorem kept_cInc (s : State) (i : Nat) (f : CF) (hs : Kept q c s) : Kept q c (cInc s i f) := by
  simp [cInc, hs]

@[simp] theorem kept_cLinkBit (s : State) (i : Nat) (b : Nat) (v : Bool) (hs : Kept q c s) : Kept q c (cLinkBit s i b v) := by
  simp [cLinkBit, hs]

@[simp] theorem kept_cKBit (s : State) (i : Nat) (b : Nat) (v : Bool) (hs : Kept q c s) : Kept q c (cKBit s i b v) := by
  simp [cKBit, hs]

@[simp] theorem kept_rSet (s : State) (i : Nat) (f : CF) (v : Nat) (hs : Kept q c s) : Kept q c (rSet s i f v) := by
  simp [rSet, hs]

@[simp] theorem kept_keyEvent (s : State) (cause : Nat) (ctx : Nat) (hs : Kept q c s) : Kept q c (keyEvent s cause ctx) := by
  simp [keyEvent, hs]

@[simp] theorem kept_linkEvent (s : State) (ctx : Nat) (cause : Nat) (hs : Kept q c s) : Kept q c (linkEvent s ctx cause) := by
  simp [linkEvent, hs]

@[simp] theorem kept_erfEvent (s : State) (cause : Nat) (hs : Kept q c s) : Kept q c (erfEvent s cause) := by
  simp [erfEvent, hs]

@[simp] theorem kept_complete (s : State) (n : Nat) (seq : Nat) (op : Nat) (auth : Bool) (status : Nat) (data : Bytes) (hs : Kept q c s) :
    Kept q c (complete s n seq op auth status data) := by
  simp [complete, hs]

@[simp] theorem kept_answerReq (s : State) (n : Nat) (seq : Nat) (op : Nat) (auth : Bool) (status : Nat) (data : Bytes) (hs : Kept q c s) :
    Kept q c (answerReq s n seq op auth status data) := by
  simp [answerReq, hs]

@[simp] theorem kept_setQueue (s : State) (i : Nat) (q0 : Queue) (hs : Kept q c s) : Kept q c (setQueue s i q0) := by
  simp [setQueue, hs]

@[simp] theorem kept_setQcnt (s : State) (i : Nat) (c0 : Nat × Nat × Nat × Nat × Nat) (hs : Kept q c s) :
    Kept q c (setQcnt s i c0) := by
  simp [setQcnt, hs]

@[simp] theorem kept_countFull (s : State) (i : Nat) (hs : Kept q c s) : Kept q c (countFull s i) := by
  simp [countFull, hs]

@[simp] theorem kept_countOversize (s : State) (i : Nat) (hs : Kept q c s) : Kept q c (countOversize s i) := by
  simp [countOversize, hs]

@[simp] theorem kept_countZlp (s : State) (i : Nat) (hs : Kept q c s) : Kept q c (countZlp s i) := by
  simp [countZlp, hs]

@[simp] theorem kept_countRewind (s : State) (i : Nat) (hs : Kept q c s) : Kept q c (countRewind s i) := by
  simp [countRewind, hs]

@[simp] theorem kept_countPoison (s : State) (i : Nat) (hs : Kept q c s) : Kept q c (countPoison s i) := by
  simp [countPoison, hs]

@[simp] theorem kept_clearQ (s : State) (i : Nat) (place : Nat) (n : Nat) (hs : Kept q c s) : Kept q c (clearQ s i place n) := by
  simp +contextual (maxDischargeDepth := 99) [clearQ, hs]

@[simp] theorem kept_readQ (s : State) (i : Nat) (place : Nat) (it : QItem) (j : Nat) (hs : Kept q c s) :
    Kept q c (readQ s i place it j) := by
  simp [readQ, hs]

@[simp] theorem kept_readPay (s : State) (i : Nat) (place : Nat) (it : QItem) (n : Nat) (hs : Kept q c s) :
    Kept q c (readPay s i place it n) := by
  simp +contextual (maxDischargeDepth := 99) [readPay, hs]

@[simp] theorem kept_pushQ (s : State) (i : Nat) (e : QEntry) (hs : Kept q c s) : Kept q c (pushQ s i e) := by
  simp [pushQ, hs]

@[simp] theorem kept_gapMark (s : State) (i : Nat) (bytes : Nat) (oversize : Nat) (hs : Kept q c s) :
    Kept q c (gapMark s i bytes oversize) := by
  unfold gapMark
  (try dsimp only)
  repeat' (first | with_reducible assumption | (simp +contextual (maxDischargeDepth := 99) [hs]; done) | (simp +contextual (maxDischargeDepth := 99) [hs, hk]; done) | split | refine kept_foldl _ _ _ ?_ (fun _ _ hk => ?_))

@[simp] theorem kept_commitItem (s : State) (i : Nat) (len : Nat) (item : QItem) (tag : Option (Nat × Nat)) (hs : Kept q c s) :
    Kept q c (commitItem s i len item tag).1 := by
  unfold commitItem
  (try dsimp only)
  repeat' (first | with_reducible assumption | (simp +contextual (maxDischargeDepth := 99) [hs]; done) | (simp +contextual (maxDischargeDepth := 99) [hs, hk]; done) | split | refine kept_foldl _ _ _ ?_ (fun _ _ hk => ?_))

@[simp] theorem kept_commitQ (s : State) (i : Nat) (p : QPkt) (hs : Kept q c s) : Kept q c (commitQ s i p).1 := by
  unfold commitQ
  (try dsimp only)
  repeat' (first | with_reducible assumption | (simp +contextual (maxDischargeDepth := 99) [hs]; done) | (simp +contextual (maxDischargeDepth := 99) [hs, hk]; done) | split | refine kept_foldl _ _ _ ?_ (fun _ _ hk => ?_))

@[simp] theorem kept_rewindQ (s : State) (i : Nat) (len : Nat) (hs : Kept q c s) : Kept q c (rewindQ s i len) := by
  simp +contextual (maxDischargeDepth := 99) [rewindQ, hs]

@[simp] theorem kept_releaseGaps (s : State) (i : Nat) (hs : Kept q c s) : Kept q c (releaseGaps s i) := by
  simp [releaseGaps, hs]

@[simp] theorem kept_flushAt (s : State) (i : Nat) (k : Nat) (hs : Kept q c s) : Kept q c (flushAt s i k) := by
  simp +contextual (maxDischargeDepth := 99) [flushAt, hs]

@[simp] theorem kept_takeAt (s : State) (i : Nat) (k : Nat) (e : QEntry) (hs : Kept q c s) : Kept q c (takeAt s i k e).1 := by
  unfold takeAt
  (try dsimp only)
  repeat' (first | with_reducible assumption | (simp +contextual (maxDischargeDepth := 99) [hs]; done) | (simp +contextual (maxDischargeDepth := 99) [hs, hk]; done) | split | refine kept_foldl _ _ _ ?_ (fun _ _ hk => ?_))

@[simp] theorem kept_takeE (s : State) (i : Nat) (hs : Kept q c s) : Kept q c (takeE s i).1 := by
  unfold takeE
  (try dsimp only)
  repeat' (first | with_reducible assumption | (simp +contextual (maxDischargeDepth := 99) [hs]; done) | (simp +contextual (maxDischargeDepth := 99) [hs, hk]; done) | split | refine kept_foldl _ _ _ ?_ (fun _ _ hk => ?_))

@[simp] theorem kept_takeQ (s : State) (i : Nat) (hs : Kept q c s) : Kept q c (takeQ s i).1 := by
  unfold takeQ
  (try dsimp only)
  repeat' (first | with_reducible assumption | (simp +contextual (maxDischargeDepth := 99) [hs]; done) | (simp +contextual (maxDischargeDepth := 99) [hs, hk]; done) | split | refine kept_foldl _ _ _ ?_ (fun _ _ hk => ?_))

@[simp] theorem kept_gapEvent (s : State) (source : Nat) (g : Gap) (hs : Kept q c s) : Kept q c (gapEvent s source g) := by
  simp [gapEvent, hs]

@[simp] theorem kept_drainEvents (s : State) (i : Nat) (unit : Nat) (fuel : Nat) (hs : Kept q c s) :
    Kept q c (drainEvents s i unit fuel) := by
  induction fuel generalizing s with
  | zero => exact hs
  | succ n ih =>
    unfold drainEvents
    split
    · split
      · exact hs
      · have h2 := kept_takeQ s i hs
        revert h2
        generalize takeQ s i = r
        intro h2
        obtain ⟨s2, it⟩ := r
        apply ih
        dsimp only at h2 ⊢
        split <;> simp (maxDischargeDepth := 99) [h2]
    · exact hs

@[simp] theorem kept_measEvent (s : State) (type : Nat) (body : Bytes) (hs : Kept q c s) :
    Kept q c (measEvent s type body) := by
  simp [measEvent, hs]

@[simp] theorem kept_ctrlEvent (s : State) (type : Nat) (body : Bytes) (hs : Kept q c s) :
    Kept q c (ctrlEvent s type body) := by
  simp [ctrlEvent, hs]

@[simp] theorem kept_finishLocal (s : State) (c0 : Current) (status : Nat) (data : Bytes) (hs : Kept q c s) :
    Kept q c (finishLocal s c0 status data) := by
  simp [finishLocal, hs]

@[simp] theorem kept_answerSend (s : State) (tag : Option (Nat × Nat)) (status : Nat) (hs : Kept q c s) :
    Kept q c (answerSend s tag status) := by
  unfold answerSend
  (try dsimp only)
  repeat' (first | with_reducible assumption | (simp +contextual (maxDischargeDepth := 99) [hs]; done) | (simp +contextual (maxDischargeDepth := 99) [hs, hk]; done) | split | refine kept_foldl _ _ _ ?_ (fun _ _ hk => ?_))

@[simp] theorem kept_hostInDropped (s : State) (x : Staged) (hs : Kept q c s) : Kept q c (hostInDropped s x) := by
  simp +contextual (maxDischargeDepth := 99) [hostInDropped, hs]

@[simp] theorem kept_stageBegin (s : State) (x1 : Nat) (hs : Kept q c s) : Kept q c (stageBegin s x1) := by
  induction x1 generalizing s with
  | zero => exact hs
  | succ n ih =>
    unfold stageBegin
    (try dsimp only)
    repeat' (first | with_reducible assumption | (simp +contextual (maxDischargeDepth := 99) [hs, ih]; done) | split | (refine ih _ ?_) | (refine ih _ _ ?_) | (refine ih _ _ _ ?_) | refine kept_foldl _ _ _ ?_ (fun _ _ hk => ?_))

@[simp] theorem kept_stageEnd (s : State) (hs : Kept q c s) : Kept q c (stageEnd s) := by
  unfold stageEnd
  (try dsimp only)
  repeat' (first | with_reducible assumption | (simp +contextual (maxDischargeDepth := 99) [hs]; done) | (simp +contextual (maxDischargeDepth := 99) [hs, hk]; done) | split | refine kept_foldl _ _ _ ?_ (fun _ _ hk => ?_))

@[simp] theorem kept_stage (s : State) (x : Staged) (hs : Kept q c s) : Kept q c (stage s x) := by
  simp +contextual (maxDischargeDepth := 99) [stage, hs]

@[simp] theorem kept_stageLce (s : State) (dst : Nat) (body : Bytes) (send : Bool) (hs : Kept q c s) :
    Kept q c (stageLce s dst body send) := by
  simp [stageLce, hs]

@[simp] theorem kept_stageHcp (s : State) (p : QPkt) (tag : Option (Nat × Nat)) (hs : Kept q c s) : Kept q c (stageHcp s p tag) := by
  simp [stageHcp, hs]

@[simp] theorem kept_sendRemote (s : State) (orig : Nat) (vf : Nat) (seq : Nat) (op : Nat) (params : Bytes) (hs : Kept q c s) :
    Kept q c (sendRemote s orig vf seq op params) := by
  simp [sendRemote, hs]

@[simp] theorem kept_answerRemote (s : State) (orig : Nat) (seq : Nat) (op : Nat) (status : Nat) (data : Bytes) (hs : Kept q c s) :
    Kept q c (answerRemote s orig seq op status data) := by
  simp [answerRemote, hs]

@[simp] theorem kept_finishCurrent (s : State) (status : Nat) (data : Bytes) (hs : Kept q c s) :
    Kept q c (finishCurrent s status data) := by
  unfold finishCurrent
  repeat' split
  all_goals simp (maxDischargeDepth := 99) [hs]

@[simp] theorem kept_useAnswer (s : State) (req : Nat) (f : LeaveFor) (hs : Kept q c s) : Kept q c (useAnswer s req f) := by
  simp [useAnswer, hs]

@[simp] theorem kept_setAnswer (s : State) (req : Nat) (f : LeaveFor) (a : LeaveAns) (step : Nat) (hs : Kept q c s) :
    Kept q c (setAnswer s req f a step) := by
  simp [setAnswer, hs]

@[simp] theorem kept_askFor (s : State) (req : Nat) (f : LeaveFor) (obj : Nat) (level : Nat) (beacon : Bool) (hs : Kept q c s) :
    Kept q c (askFor s req f obj level beacon) := by
  simp [askFor, hs]

@[simp] theorem kept_askLeave (s : State) (req : Nat) (obj : Nat) (level : Nat) (beacon : Bool) (hs : Kept q c s) :
    Kept q c (askLeave s req obj level beacon) := by
  simp [askLeave, hs]

@[simp] theorem kept_dropLeave (s : State) (req : Nat) (f : LeaveFor) (hs : Kept q c s) : Kept q c (dropLeave s req f) := by
  simp [dropLeave, hs]

@[simp] theorem kept_releaseLeave (s : State) (req : Nat) (hs : Kept q c s) : Kept q c (releaseLeave s req) := by
  simp [releaseLeave, hs]

@[simp] theorem kept_withdrawLeave (s : State) (req : Nat) (hs : Kept q c s) : Kept q c (withdrawLeave s req) := by
  simp [withdrawLeave, hs]

@[simp] theorem kept_runTime (s : State) (n : Nat) (hs : Kept q c s) : Kept q c (runTime s n) := by
  simp [runTime, hs]

@[simp] theorem kept_advanceTo (s : State) (t : Nat) (hs : Kept q c s) : Kept q c (advanceTo s t) := by
  simp +contextual (maxDischargeDepth := 99) [advanceTo, hs]

@[simp] theorem mfeMoved_entries (mv : Nat → Nat) (off : Int) (m : Mfe) : (mfeMoved mv off m).entries = m.entries := rfl

@[simp] theorem kept_stepTime (s : State) (off : Int) (hs : Kept q c s) : Kept q c (stepTime s off) := by
  unfold stepTime
  split <;> simp (maxDischargeDepth := 99) [hs]

@[simp] theorem kept_setDet (s : State) (n : Nat) (d : Detector) (hs : Kept q c s) : Kept q c (setDet s n d) := by
  simp [setDet, hs]

@[simp] theorem kept_measureOffset (s : State) (n : Nat) (hs : Kept q c s) : Kept q c (measureOffset s n) := by
  unfold measureOffset
  split <;> simp (maxDischargeDepth := 99) [hs]

@[simp] theorem kept_setSource (s : State) (src : Option Nat) (hs : Kept q c s) : Kept q c (setSource s src) := by
  simp +contextual (maxDischargeDepth := 99) [setSource, hs]

@[simp] theorem kept_enterHoldover (s : State) (hs : Kept q c s) : Kept q c (enterHoldover s) := by
  simp +contextual (maxDischargeDepth := 99) [enterHoldover, hs]

@[simp] theorem kept_coast (s : State) (hs : Kept q c s) : Kept q c (coast s) := by
  simp [coast, hs]

@[simp] theorem kept_selectNomf (s : State) (p : Nat) (hs : Kept q c s) : Kept q c (selectNomf s p) := by
  simp [selectNomf, hs]

@[simp] theorem kept_trackCrossing (s : State) (zm : Int) (hs : Kept q c s) : Kept q c (trackCrossing s zm) := by
  simp [trackCrossing, hs]

@[simp] theorem kept_relocate (s : State) (hs : Kept q c s) : Kept q c (relocate s) := by
  simp [relocate, hs]

@[simp] theorem kept_lockOn (s : State) (p : Nat) (z : Nat) (hs : Kept q c s) : Kept q c (lockOn s p z) := by
  simp +contextual (maxDischargeDepth := 99) [lockOn, hs]

@[simp] theorem kept_firstBound (s : State) (p : Nat) (hs : Kept q c s) : Kept q c (firstBound s p) := by
  simp [firstBound, hs]

@[simp] theorem kept_firstLock (s : State) (p : Nat) (z : Nat) (hs : Kept q c s) : Kept q c (firstLock s p z) := by
  simp +contextual (maxDischargeDepth := 99) [firstLock, hs]

@[simp] theorem kept_acceptCrossing (s : State) (n : Nat) (ts : Nat) (hs : Kept q c s) : Kept q c (acceptCrossing s n ts) := by
  simp +contextual (maxDischargeDepth := 99) [acceptCrossing, hs]

@[simp] theorem kept_candidate (s : State) (n : Nat) (ts : Nat) (hs : Kept q c s) : Kept q c (candidate s n ts) := by
  unfold candidate
  (try dsimp only)
  repeat' (first | with_reducible assumption | (simp +contextual (maxDischargeDepth := 99) [hs]; done) | (simp +contextual (maxDischargeDepth := 99) [hs, hk]; done) | split | refine kept_foldl _ _ _ ?_ (fun _ _ hk => ?_))

@[simp] theorem kept_detMissed (s : State) (n : Nat) (d : Detector) (hs : Kept q c s) : Kept q c (detMissed s n d) := by
  simp [detMissed, hs]

@[simp] theorem kept_sourceMissed (s : State) (hs : Kept q c s) : Kept q c (sourceMissed s) := by
  simp [sourceMissed, hs]

@[simp] theorem kept_missCrossing (s : State) (n : Nat) (hs : Kept q c s) : Kept q c (missCrossing s n) := by
  simp +contextual (maxDischargeDepth := 99) [missCrossing, hs]

@[simp] theorem kept_syncPulse (s : State) (sel : Nat) (hs : Kept q c s) : Kept q c (syncPulse s sel) := by
  simp [syncPulse, hs]

@[simp] theorem kept_tbuPhaseSlot (s : State) (hs : Kept q c s) : Kept q c (tbuPhaseSlot s) := by
  simp +contextual (maxDischargeDepth := 99) [tbuPhaseSlot, hs]

@[simp] theorem kept_boundaryShift (s : State) (hs : Kept q c s) : Kept q c (boundaryShift s) := by
  simp +contextual (maxDischargeDepth := 99) [boundaryShift, hs]

@[simp] theorem kept_boundaryNomf (s : State) (hs : Kept q c s) : Kept q c (boundaryNomf s) := by
  unfold boundaryNomf
  (try dsimp only)
  repeat' (first | with_reducible assumption | (simp +contextual (maxDischargeDepth := 99) [hs]; done) | (simp +contextual (maxDischargeDepth := 99) [hs, hk]; done) | split | refine kept_foldl _ _ _ ?_ (fun _ _ hk => ?_))

@[simp] theorem kept_boundarySyms (s : State) (hs : Kept q c s) : Kept q c (boundarySyms s) := by
  simp +contextual (maxDischargeDepth := 99) [boundarySyms, hs]

@[simp] theorem kept_boundaryArmed (s : State) (hs : Kept q c s) : Kept q c (boundaryArmed s) := by
  unfold boundaryArmed
  split <;> simp (maxDischargeDepth := 99) [hs]

@[simp] theorem kept_tbuBoundary (s : State) (hs : Kept q c s) : Kept q c (tbuBoundary s) := by
  simp +contextual (maxDischargeDepth := 99) [tbuBoundary, hs]

@[simp] theorem kept_disciplineTime (s : State) (d : Nat) (mtime : Nat) (tr : Nat) (hs : Kept q c s) :
    Kept q c (disciplineTime s d mtime tr).1 := by
  unfold disciplineTime
  (try dsimp only)
  repeat' (first | with_reducible assumption | (simp +contextual (maxDischargeDepth := 99) [hs]; done) | (simp +contextual (maxDischargeDepth := 99) [hs, hk]; done) | split | refine kept_foldl _ _ _ ?_ (fun _ _ hk => ?_))

@[simp] theorem kept_layGrid (s : State) (dbo : Nat) (m0 : Nat) (bound : Nat) (hs : Kept q c s) : Kept q c (layGrid s dbo m0 bound) := by
  simp +contextual (maxDischargeDepth := 99) [layGrid, hs]

@[simp] theorem kept_beaconDomain (s : State) (wasFresh : Bool) (dbo : Nat) (m : Nat) (bound : Nat) (hs : Kept q c s) :
    Kept q c (beaconDomain s wasFresh dbo m bound) := by
  simp +contextual (maxDischargeDepth := 99) [beaconDomain, hs]

@[simp] theorem kept_beaconShift (s : State) (b : BeaconTime) (hs : Kept q c s) : Kept q c (beaconShift s b) := by
  simp [beaconShift, hs]

@[simp] theorem kept_beaconPeriod (s : State) (b : BeaconTime) (bound : Nat) (hs : Kept q c s) :
    Kept q c (beaconPeriod s b bound) := by
  unfold beaconPeriod
  split <;> simp (maxDischargeDepth := 99) [hs]

@[simp] theorem kept_beaconBooks (s : State) (ctx : Nat) (port : Nat) (b : BeaconTime) (tr : Nat) (bound : Nat) (hs : Kept q c s) :
    Kept q c (beaconBooks s ctx port b tr bound) := by
  simp [beaconBooks, hs]

@[simp] theorem kept_beaconNumber (s : State) (n : Nat) (hs : Kept q c s) : Kept q c (beaconNumber s n) := by
  simp +contextual (maxDischargeDepth := 99) [beaconNumber, hs]

@[simp] theorem kept_beaconFields (s : State) (b : BeaconTime) (hs : Kept q c s) : Kept q c (beaconFields s b) := by
  simp +contextual (maxDischargeDepth := 99) [beaconFields, hs]

@[simp] theorem kept_timeParentBeacon (s : State) (ctx : Nat) (port : Nat) (b : BeaconTime) (tr : Nat) (hs : Kept q c s) :
    Kept q c (timeParentBeacon s ctx port b tr) := by
  simp +contextual (maxDischargeDepth := 99) [timeParentBeacon, hs]

@[simp] theorem kept_alignGrid (s : State) (b : BeaconTime) (tr : Nat) (hs : Kept q c s) : Kept q c (alignGrid s b tr) := by
  simp [alignGrid, hs]

@[simp] theorem kept_phaseEvent (s : State) (ctx : Nat) (cls : Nat) (angle : Nat) (hs : Kept q c s) :
    Kept q c (phaseEvent s ctx cls angle) := by
  simp [phaseEvent, hs]

@[simp] theorem kept_identifyPhase (s : State) (n : Nat) (ctx : Nat) (zco : Nat) (tr : Nat) (hs : Kept q c s) :
    Kept q c (identifyPhase s n ctx zco tr) := by
  unfold identifyPhase
  split <;> simp (maxDischargeDepth := 99) [hs]

@[simp] theorem kept_syncInRoot (s : State) (ts : Nat) (hs : Kept q c s) : Kept q c (syncInRoot s ts) := by
  simp +contextual (maxDischargeDepth := 99) [syncInRoot, hs]

@[simp] theorem kept_execCrossingCandidate (port : Fin 4) (ts : MeshTime) (s : State) (hs : Kept q c s) :
    KeptBy q c (execCrossingCandidate port ts s) := by
  simp +contextual (maxDischargeDepth := 99) [execCrossingCandidate, hs]

@[simp] theorem kept_execCrossingMiss (port : Fin 4) (s : State) (hs : Kept q c s) : KeptBy q c (execCrossingMiss port s) := by
  simp +contextual (maxDischargeDepth := 99) [execCrossingMiss, hs]

@[simp] theorem kept_execMeshSecondCrossing (s : State) (hs : Kept q c s) : KeptBy q c (execMeshSecondCrossing s) := by
  simp +contextual (maxDischargeDepth := 99) [execMeshSecondCrossing, hs]

@[simp] theorem kept_readMap (s : State) (ix : Nat) (hs : Kept q c s) : Kept q c (readMap s ix) := by
  simp [readMap, hs]

@[simp] theorem kept_readLink (s : State) (ctx : Nat) (hs : Kept q c s) : Kept q c (readLink s ctx) := by
  simp [readLink, hs]

@[simp] theorem kept_releaseTime (s : State) (t : Nat) (hs : Kept q c s) : Kept q c (releaseTime s t).2 := by
  simp [releaseTime, hs]

@[simp] theorem kept_driveOn (s : State) (n : Nat) (level : Nat) (hs : Kept q c s) : Kept q c (driveOn s n level) := by
  simp +contextual (maxDischargeDepth := 99) [driveOn, hs]

@[simp] theorem kept_driveOff (s : State) (n : Nat) (hs : Kept q c s) : Kept q c (driveOff s n) := by
  simp +contextual (maxDischargeDepth := 99) [driveOff, hs]

@[simp] theorem kept_cellPut (s : State) (n : Nat) (i : Nat) (c0 : MapCell) (hs : Kept q c s) :
    Kept q c (cellPut s n i c0) := by
  simp [cellPut, hs]

@[simp] theorem kept_ageCells (s : State) (n : Nat) (hs : Kept q c s) : Kept q c (ageCells s n) := by
  simp [ageCells, hs]

@[simp] theorem kept_measureZ (s : State) (n : Nat) (i : Nat) (mag : Nat) (ph : Int) (always : Bool) (hs : Kept q c s) :
    Kept q c (measureZ s n i mag ph always) := by
  simp +contextual (maxDischargeDepth := 99) [measureZ, hs]

@[simp] theorem kept_measureNoise (s : State) (n : Nat) (i : Nat) (noise : Nat) (hs : Kept q c s) :
    Kept q c (measureNoise s n i noise) := by
  simp [measureNoise, hs]

@[simp] theorem kept_markErased (s : State) (n : Nat) (i : Nat) (hs : Kept q c s) : Kept q c (markErased s n i) := by
  simp [markErased, hs]

@[simp] theorem kept_setStale (s : State) (n : Nat) (lanes : Nat) (p : Nat) (hs : Kept q c s) : Kept q c (setStale s n lanes p) := by
  simp +contextual (maxDischargeDepth := 99) [setStale, hs]

@[simp] theorem kept_markLimited (s : State) (n : Nat) (lanes : Nat) (p : Nat) (hs : Kept q c s) :
    Kept q c (markLimited s n lanes p) := by
  simp +contextual (maxDischargeDepth := 99) [markLimited, hs]

@[simp] theorem kept_clearCells (s : State) (hs : Kept q c s) : Kept q c (clearCells s) := by
  simp [clearCells, hs]

@[simp] theorem kept_initRecord (s : State) (ctx : Nat) (hs : Kept q c s) : Kept q c (initRecord s ctx) := by
  simp +contextual (maxDischargeDepth := 99) [initRecord, hs]

@[simp] theorem kept_countLevel (s : State) (ctx : Nat) (level : Nat) (hs : Kept q c s) :
    Kept q c (countLevel s ctx level) := by
  simp [countLevel, hs]

@[simp] theorem kept_rollLevels (s : State) (ctx : Nat) (hs : Kept q c s) : Kept q c (rollLevels s ctx) := by
  simp +contextual (maxDischargeDepth := 99) [rollLevels, hs]

@[simp] theorem kept_poolPut (s : State) (ix : Nat) (m : Bytes) (hs : Kept q c s) : Kept q c (poolPut s ix m) := by
  simp [poolPut, hs]

@[simp] theorem kept_keepView (s : State) (ctx : Nat) (m : Bytes) (hs : Kept q c s) : Kept q c (keepView s ctx m) := by
  unfold keepView
  repeat' split
  all_goals simp (maxDischargeDepth := 99) [hs]

@[simp] theorem kept_reportDecide (s : State) (ctx : Nat) (hs : Kept q c s) : Kept q c (reportDecide s ctx) := by
  simp +contextual (maxDischargeDepth := 99) [reportDecide, hs]

@[simp] theorem kept_proposeMap (s : State) (ctx : Nat) (lmid : Nat) (ix : Nat) (m : Bytes) (hs : Kept q c s) :
    Kept q c (proposeMap s ctx lmid ix m) := by
  simp +contextual (maxDischargeDepth := 99) [proposeMap, hs]

@[simp] theorem kept_proposeDecide (s : State) (ctx : Nat) (hs : Kept q c s) : Kept q c (proposeDecide s ctx) := by
  unfold proposeDecide
  repeat' split
  all_goals simp (maxDischargeDepth := 99) [hs]

@[simp] theorem kept_altPoison (s : State) (ctx : Nat) (hs : Kept q c s) : Kept q c (altPoison s ctx) := by
  simp [altPoison, hs]

@[simp] theorem kept_echoRecompute (s : State) (ctx : Nat) (hs : Kept q c s) : Kept q c (echoRecompute s ctx) := by
  simp +contextual (maxDischargeDepth := 99) [echoRecompute, hs]

@[simp] theorem kept_swapMaps (s : State) (ctx : Nat) (st : Nat) (hs : Kept q c s) : Kept q c (swapMaps s ctx st) := by
  simp +contextual (maxDischargeDepth := 99) [swapMaps, hs]

@[simp] theorem kept_freeOld (s : State) (ctx : Nat) (hs : Kept q c s) : Kept q c (freeOld s ctx) := by
  simp +contextual (maxDischargeDepth := 99) [freeOld, hs]

@[simp] theorem kept_altMark (s : State) (ctx : Nat) (b : Nat) (hs : Kept q c s) : Kept q c (altMark s ctx b) := by
  simp [altMark, hs]

@[simp] theorem kept_mapFrameAccepted (s : State) (ctx : Nat) (lmid : Nat) (hs : Kept q c s) :
    Kept q c (mapFrameAccepted s ctx lmid) := by
  simp +contextual (maxDischargeDepth := 99) [mapFrameAccepted, hs]

@[simp] theorem kept_mapFrameAcked (s : State) (ctx : Nat) (lmid : Nat) (mapx : Nat) (hs : Kept q c s) :
    Kept q c (mapFrameAcked s ctx lmid mapx) := by
  simp +contextual (maxDischargeDepth := 99) [mapFrameAcked, hs]

@[simp] theorem kept_carryAgain (s : State) (ctx : Nat) (hs : Kept q c s) : Kept q c (carryAgain s ctx) := by
  simp [carryAgain, hs]

@[simp] theorem kept_mapFrameUnacked (s : State) (ctx : Nat) (lmid : Nat) (hs : Kept q c s) :
    Kept q c (mapFrameUnacked s ctx lmid) := by
  simp +contextual (maxDischargeDepth := 99) [mapFrameUnacked, hs]

@[simp] theorem kept_reportRx (s : State) (ctx : Nat) (b : Bytes) (hs : Kept q c s) : Kept q c (reportRx s ctx b) := by
  simp +contextual (maxDischargeDepth := 99) [reportRx, hs]

@[simp] theorem kept_proposeRx (s : State) (ctx : Nat) (b : Bytes) (hs : Kept q c s) : Kept q c (proposeRx s ctx b) := by
  unfold proposeRx
  (try dsimp only)
  repeat' (first | with_reducible assumption | (simp +contextual (maxDischargeDepth := 99) [hs]; done) | (simp +contextual (maxDischargeDepth := 99) [hs, hk]; done) | split | refine kept_foldl _ _ _ ?_ (fun _ _ hk => ?_))

@[simp] theorem kept_mapxRx (s : State) (ctx : Nat) (b : Bytes) (hs : Kept q c s) : Kept q c (mapxRx s ctx b) := by
  simp +contextual (maxDischargeDepth := 99) [mapxRx, hs]

@[simp] theorem kept_echoBoundary (s : State) (hs : Kept q c s) : Kept q c (echoBoundary s) := by
  simp +contextual (maxDischargeDepth := 99) [echoBoundary, hs]

@[simp] theorem kept_sweepEvent (s : State) (n : Nat) (result : Nat) (hs : Kept q c s) : Kept q c (sweepEvent s n result) := by
  simp [sweepEvent, hs]

@[simp] theorem kept_sweepOff (s : State) (n : Nat) (hs : Kept q c s) : Kept q c (sweepOff s n) := by
  simp +contextual (maxDischargeDepth := 99) [sweepOff, hs]

@[simp] theorem kept_sweepEnd (s : State) (n : Nat) (st : Nat) (result : Nat) (hs : Kept q c s) :
    Kept q c (sweepEnd s n st result) := by
  simp +contextual (maxDischargeDepth := 99) [sweepEnd, hs]

@[simp] theorem kept_sweepStart (s : State) (n : Nat) (hs : Kept q c s) : Kept q c (sweepStart s n) := by
  simp +contextual (maxDischargeDepth := 99) [sweepStart, hs]

@[simp] theorem kept_sweepAnswer (s : State) (granted : Bool) (hs : Kept q c s) : Kept q c (sweepAnswer s granted) := by
  simp +contextual (maxDischargeDepth := 99) [sweepAnswer, hs]

@[simp] theorem kept_sweepSlot (s : State) (hs : Kept q c s) : Kept q c (sweepSlot s) := by
  simp +contextual (maxDischargeDepth := 99) [sweepSlot, hs]

@[simp] theorem kept_sweepTake (s : State) (n : Nat) (slot : Nat) (b : Nat) (mag : Nat) (ph : Int) (z : ZExact) (hs : Kept q c s) :
    Kept q c (sweepTake s n slot b mag ph z) := by
  simp +contextual (maxDischargeDepth := 99) [sweepTake, hs]

@[simp] theorem kept_sweepPoint (s : State) (n : Nat) (slot : Nat) (z : Option (Nat × Int)) (x : ZExact) (hs : Kept q c s) :
    Kept q c (sweepPoint s n slot z x) := by
  unfold sweepPoint
  (try dsimp only)
  repeat' (first | with_reducible assumption | (simp +contextual (maxDischargeDepth := 99) [hs]; done) | (simp +contextual (maxDischargeDepth := 99) [hs, hk]; done) | split | refine kept_foldl _ _ _ ?_ (fun _ _ hk => ?_))

@[simp] theorem kept_dutyAdd (s : State) (t : Nat) (hs : Kept q c s) : Kept q c (dutyAdd s t) := by
  simp [dutyAdd, hs]

@[simp] theorem kept_radioConfigApply (s : State) (hs : Kept q c s) : Kept q c (radioConfigApply s) := by
  simp [radioConfigApply, hs]

@[simp] theorem kept_countClip (s : State) (n : Nat) (t : LineTx) (j : Nat) (hs : Kept q c s) : Kept q c (countClip s n t j) := by
  simp [countClip, hs]

@[simp] theorem kept_countErased (s : State) (n : Nat) (lanes : Nat) (erased : List Nat) (hs : Kept q c s) :
    Kept q c (countErased s n lanes erased) := by
  simp +contextual (maxDischargeDepth := 99) [countErased, hs]

@[simp] theorem kept_symbolNoise (s : State) (n : Nat) (mask : Nat) (p : Nat) (sent : Nat → Option Nat) (e : List Nat) (erased : List Nat) (hs : Kept q c s) :
    Kept q c (symbolNoise s n mask p sent e erased) := by
  simp +contextual (maxDischargeDepth := 99) [symbolNoise, hs]

@[simp] theorem kept_rxNoise (s : State) (n : Nat) (a : Acq) (j : Nat) (y : RxSym) (hs : Kept q c s) : Kept q c (rxNoise s n a j y) := by
  simp [rxNoise, hs]

@[simp] theorem kept_preambleNoise (s : State) (n : Nat) (a : Acq) (hs : Kept q c s) : Kept q c (preambleNoise s n a) := by
  simp +contextual (maxDischargeDepth := 99) [preambleNoise, hs]

@[simp] theorem kept_rxLevels (s : State) (n : Nat) (ctx : Nat) (a : Acq) (hs : Kept q c s) : Kept q c (rxLevels s n ctx a) := by
  simp +contextual (maxDischargeDepth := 99) [rxLevels, hs]

@[simp] theorem kept_measureSymbol (s : State) (n : Nat) (t : LineTx) (w : TxWin) (hs : Kept q c s) : Kept q c (measureSymbol s n t w) := by
  unfold measureSymbol
  (try dsimp only)
  repeat' (first | with_reducible assumption | (simp +contextual (maxDischargeDepth := 99) [hs]; done) | (simp +contextual (maxDischargeDepth := 99) [hs, hk]; done) | split | refine kept_foldl _ _ _ ?_ (fun _ _ hk => ?_))

@[simp] theorem kept_measureTx (s : State) (n : Nat) (t : LineTx) (upto : Nat) (ws : List TxWin) (hs : Kept q c s) :
    Kept q c (measureTx s n t upto ws) := by
  simp +contextual (maxDischargeDepth := 99) [measureTx, hs]

@[simp] theorem kept_quietTake (s : State) (n : Nat) (q0 : Quiet) (hs : Kept q c s) : Kept q c (quietTake s n q0) := by
  simp +contextual (maxDischargeDepth := 99) [quietTake, hs]

@[simp] theorem kept_silentNoise (s : State) (n : Nat) (x : List RxSample) (hs : Kept q c s) : Kept q c (silentNoise s n x) := by
  simp +contextual (maxDischargeDepth := 99) [silentNoise, hs]

@[simp] theorem kept_quietBefore (s : State) (n : Nat) (at_ : Nat) (hs : Kept q c s) : Kept q c (quietBefore s n at_) := by
  simp +contextual (maxDischargeDepth := 99) [quietBefore, hs]

@[simp] theorem kept_headerSilent (s : State) (n : Nat) (a : Acq) (ys : List RxSym) (hs : Kept q c s) : Kept q c (headerSilent s n a ys) := by
  simp +contextual (maxDischargeDepth := 99) [headerSilent, hs]

@[simp] theorem kept_tailErased (s : State) (n : Nat) (mask : Nat) (slot : Nat) (first : Nat) (ws : List (List RxSample)) (hs : Kept q c s) :
    Kept q c (tailErased s n mask slot first ws) := by
  simp +contextual (maxDischargeDepth := 99) [tailErased, hs]

end Sys2Proof.Machine
end

