-- ==== Sys2Proof/Laws/KeptMeas.lean ====
section
/-! SUPPORT. `Kept` through measurement, linearisation, detectors: one lemma per operation. -/

set_option linter.all false

namespace Sys2Proof.Machine

variable {q : List Instr} {c : Chip}

@[simp] theorem kept_setChan (s : State) (c0 : Nat) (x : Chan) (hs : Kept q c s) : Kept q c (setChan s c0 x) := by
  simp [setChan, hs]

@[simp] theorem kept_keepPast (s : State) (hs : Kept q c s) : Kept q c (keepPast s) := by
  simp [keepPast, hs]

@[simp] theorem kept_keepMeas (s : State) (a : Nat) (hs : Kept q c s) : Kept q c (keepMeas s a) := by
  simp [keepMeas, hs]

@[simp] theorem kept_restartAt (s : State) (c0 : Nat) (t : Nat) (hs : Kept q c s) : Kept q c (restartAt s c0 t) := by
  simp [restartAt, hs]

@[simp] theorem kept_restartMod (s : State) (m0 : Nat) (t : Nat) (hs : Kept q c s) : Kept q c (restartMod s m0 t) := by
  simp [restartMod, hs]

@[simp] theorem kept_confChange (s : State) (c0 : Nat) (hs : Kept q c s) : Kept q c (confChange s c0) := by
  simp [confChange, hs]

@[simp] theorem kept_restartConv (s : State) (hs : Kept q c s) : Kept q c (restartConv s) := by
  unfold restartConv
  split <;> simp (maxDischargeDepth := 99) [hs]

@[simp] theorem kept_restartChan (s : State) (c0 : Nat) (hs : Kept q c s) : Kept q c (restartChan s c0) := by
  simp [restartChan, hs]

@[simp] theorem kept_phaseHold (s : State) (hs : Kept q c s) : Kept q c (phaseHold s) := by
  simp [phaseHold, hs]

@[simp] theorem kept_sineChanged (s : State) (hs : Kept q c s) : Kept q c (sineChanged s) := by
  simp [sineChanged, hs]

@[simp] theorem kept_applyForm (s : State) (f : ExcForm) (hs : Kept q c s) : Kept q c (applyForm s f) := by
  unfold applyForm
  split <;> simp (maxDischargeDepth := 99) [hs]

@[simp] theorem kept_excUpdate (s : State) (hs : Kept q c s) : Kept q c (excUpdate s) := by
  unfold excUpdate
  (try dsimp only)
  repeat' (first | with_reducible assumption | (simp +contextual (maxDischargeDepth := 99) [hs]; done) | (simp +contextual (maxDischargeDepth := 99) [hs, hk]; done) | split | refine kept_foldl _ _ _ ?_ (fun _ _ hk => ?_))

@[simp] theorem kept_excGranted (s : State) (hs : Kept q c s) : Kept q c (excGranted s) := by
  simp [excGranted, hs]

@[simp] theorem kept_excDegraded (s : State) (hs : Kept q c s) : Kept q c (excDegraded s) := by
  simp [excDegraded, hs]

@[simp] theorem kept_excFailed (s : State) (hs : Kept q c s) : Kept q c (excFailed s) := by
  simp +contextual (maxDischargeDepth := 99) [excFailed, hs]

@[simp] theorem kept_rangeChange (s : State) (i : Nat) (old : Nat) (new : Nat) (t : Nat) (hs : Kept q c s) :
    Kept q c (rangeChange s i old new t) := by
  simp +contextual (maxDischargeDepth := 99) [rangeChange, hs]

@[simp] theorem kept_applyRange (s : State) (i : Nat) (hs : Kept q c s) : Kept q c (applyRange s i) := by
  unfold applyRange
  (try dsimp only)
  repeat' (first | with_reducible assumption | (simp +contextual (maxDischargeDepth := 99) [hs]; done) | (simp +contextual (maxDischargeDepth := 99) [hs, hk]; done) | split | refine kept_foldl _ _ _ ?_ (fun _ _ hk => ?_))

@[simp] theorem kept_applyRanges (s : State) (hs : Kept q c s) : Kept q c (applyRanges s) := by
  simp [applyRanges, hs]

@[simp] theorem kept_freeRange (s : State) (i : Nat) (hs : Kept q c s) : Kept q c (freeRange s i) := by
  unfold freeRange
  (try dsimp only)
  repeat' (first | with_reducible assumption | (simp +contextual (maxDischargeDepth := 99) [hs]; done) | (simp +contextual (maxDischargeDepth := 99) [hs, hk]; done) | split | refine kept_foldl _ _ _ ?_ (fun _ _ hk => ?_))

@[simp] theorem kept_freeRanges (s : State) (hs : Kept q c s) : Kept q c (freeRanges s) := by
  simp [freeRanges, hs]

@[simp] theorem kept_tiaSample (s : State) (i : Nat) (e : Nat) (o : Nat) (sat : Bool) (tag : Nat) (x : Int) (last : Bool) (hs : Kept q c s) :
    Kept q c (tiaSample s i e o sat tag x last) := by
  simp +contextual (maxDischargeDepth := 99) [tiaSample, hs]

@[simp] theorem kept_measDue (s : State) (a : Nat) (hs : Kept q c s) : Kept q c (measDue s a) := by
  simp [measDue, hs]

@[simp] theorem kept_endVisit (s : State) (hs : Kept q c s) : Kept q c (endVisit s) := by
  unfold endVisit
  (try dsimp only)
  repeat' (first | with_reducible assumption | (simp +contextual (maxDischargeDepth := 99) [hs]; done) | (simp +contextual (maxDischargeDepth := 99) [hs, hk]; done) | split | refine kept_foldl _ _ _ ?_ (fun _ _ hk => ?_))

@[simp] theorem kept_scanIdle (s : State) (hs : Kept q c s) : Kept q c (scanIdle s) := by
  simp [scanIdle, hs]

@[simp] theorem kept_visit (s : State) (e : Nat) (hs : Kept q c s) : Kept q c (visit s e) := by
  unfold visit
  (try dsimp only)
  repeat' (first | with_reducible assumption | (simp +contextual (maxDischargeDepth := 99) [hs]; done) | (simp +contextual (maxDischargeDepth := 99) [hs, hk]; done) | split | refine kept_foldl _ _ _ ?_ (fun _ _ hk => ?_))

@[simp] theorem kept_passCount (s : State) (hs : Kept q c s) : Kept q c (passCount s) := by
  simp +contextual (maxDischargeDepth := 99) [passCount, hs]

@[simp] theorem kept_scanStart (s : State) (hs : Kept q c s) : Kept q c (scanStart s) := by
  unfold scanStart
  split <;> simp (maxDischargeDepth := 99) [hs]

@[simp] theorem kept_scanResume (s : State) (hs : Kept q c s) : Kept q c (scanResume s) := by
  simp [scanResume, hs]

@[simp] theorem kept_passDone (s : State) (hs : Kept q c s) : Kept q c (passDone s) := by
  simp +contextual (maxDischargeDepth := 99) [passDone, hs]

@[simp] theorem kept_rangeBefore (s : State) (e : Nat) (i : Nat) (hs : Kept q c s) : Kept q c (rangeBefore s e i) := by
  unfold rangeBefore
  (try dsimp only)
  repeat' (first | with_reducible assumption | (simp +contextual (maxDischargeDepth := 99) [hs]; done) | (simp +contextual (maxDischargeDepth := 99) [hs, hk]; done) | split | refine kept_foldl _ _ _ ?_ (fun _ _ hk => ?_))

@[simp] theorem kept_visitDone (s : State) (hs : Kept q c s) : Kept q c (visitDone s) := by
  unfold visitDone
  (try dsimp only)
  repeat' (first | with_reducible assumption | (simp +contextual (maxDischargeDepth := 99) [hs]; done) | (simp +contextual (maxDischargeDepth := 99) [hs, hk]; done) | split | refine kept_foldl _ _ _ ?_ (fun _ _ hk => ?_))

@[simp] theorem kept_entryCommit (s : State) (e : Nat) (x : Nat) (hs : Kept q c s) : Kept q c (entryCommit s e x) := by
  unfold entryCommit
  (try dsimp only)
  repeat' (first | with_reducible assumption | (simp +contextual (maxDischargeDepth := 99) [hs]; done) | (simp +contextual (maxDischargeDepth := 99) [hs, hk]; done) | split | refine kept_foldl _ _ _ ?_ (fun _ _ hk => ?_))

@[simp] theorem kept_mfeAct (old : State) (s : State) (a : Nat) (v : Nat) (held : Nat) (hold : Kept q c old) (hs : Kept q c s) :
    Kept q c (mfeAct old s a v held) := by
  unfold mfeAct
  (try dsimp only)
  repeat' (first | with_reducible assumption | (simp +contextual (maxDischargeDepth := 99) [hold, hs]; done) | (simp +contextual (maxDischargeDepth := 99) [hold, hs, hk]; done) | split | refine kept_foldl _ _ _ ?_ (fun _ _ hk => ?_))

@[simp] theorem kept_restartAll (s : State) (hs : Kept q c s) : Kept q c (restartAll s) := by
  simp +contextual (maxDischargeDepth := 99) [restartAll, hs]

@[simp] theorem kept_mfeMode (wasOn : Bool) (s : State) (hs : Kept q c s) : Kept q c (mfeMode wasOn s) := by
  simp +contextual (maxDischargeDepth := 99) [mfeMode, hs]

@[simp] theorem kept_execModulatorOverload (m : Fin 13) (s : State) (hs : Kept q c s) :
    KeptBy q c (execModulatorOverload m s) := by
  simp +contextual (maxDischargeDepth := 99) [execModulatorOverload, hs]

@[simp] theorem kept_execModulatorResetEnd (m : Fin 13) (s : State) (hs : Kept q c s) :
    KeptBy q c (execModulatorResetEnd m s) := by
  simp +contextual (maxDischargeDepth := 99) [execModulatorResetEnd, hs]

@[simp] theorem kept_execPllMUnlock (s : State) (hs : Kept q c s) : KeptBy q c (execPllMUnlock s) := by
  simp +contextual (maxDischargeDepth := 99) [execPllMUnlock, hs]

@[simp] theorem kept_execPllMRelock (s : State) (hs : Kept q c s) : KeptBy q c (execPllMRelock s) := by
  simp +contextual (maxDischargeDepth := 99) [execPllMRelock, hs]

@[simp] theorem kept_execScanVisitEnd (s : State) (hs : Kept q c s) : KeptBy q c (execScanVisitEnd s) := by
  simp [execScanVisitEnd, hs]

@[simp] theorem kept_execSettleCountEnd (ch : Fin 64) (s : State) (hs : Kept q c s) : KeptBy q c (execSettleCountEnd ch s) := by
  simp +contextual (maxDischargeDepth := 99) [execSettleCountEnd, hs]

@[simp] theorem kept_keepSets (s : State) (a : Nat) (n : Nat) (hs : Kept q c s) : Kept q c (keepSets s a n) := by
  simp [keepSets, hs]

@[simp] theorem kept_setStaging (s : State) (b : Bytes) (hs : Kept q c s) : Kept q c (setStaging s b) := by
  simp +contextual (maxDischargeDepth := 99) [setStaging, hs]

@[simp] theorem kept_linsetRejected (s : State) (v : Nat) (hs : Kept q c s) : Kept q c (linsetRejected s v) := by
  simp [linsetRejected, hs]

@[simp] theorem kept_linsetAct (s : State) (v : Nat) (hs : Kept q c s) : Kept q c (linsetAct s v) := by
  simp +contextual (maxDischargeDepth := 99) [linsetAct, hs]

@[simp] theorem kept_linComplete (s : State) (hs : Kept q c s) : Kept q c (linComplete s) := by
  unfold linComplete
  split <;> simp (maxDischargeDepth := 99) [hs]

@[simp] theorem kept_fitSet (s : State) (ordx : Nat) (ordt : Nat) (tsrc : Nat) (tref : Nat) (pts : List FitPoint) (hs : Kept q c s) :
    Kept q c (fitSet s ordx ordt tsrc tref pts).1 := by
  unfold fitSet
  (try dsimp only)
  repeat' (first | with_reducible assumption | (simp +contextual (maxDischargeDepth := 99) [hs]; done) | (simp +contextual (maxDischargeDepth := 99) [hs, hk]; done) | split | refine kept_foldl _ _ _ ?_ (fun _ _ hk => ?_))

@[simp] theorem kept_putRaw (s : State) (m0 : Nat) (t : Nat) (w : ConvWord) (hs : Kept q c s) : Kept q c (putRaw s m0 t w) := by
  simp [putRaw, hs]

@[simp] theorem kept_recordSample (s : State) (p : State) (c0 : Nat) (o : Nat) (x : Nat) (low : Bool) (txBlank : Bool) (blank : Bool) (path : PathSel) (y : Tagged) (hs : Kept q c s) :
    Kept q c (recordSample s p c0 o x low txBlank blank path y) := by
  simp +contextual (maxDischargeDepth := 99) [recordSample, hs]

@[simp] theorem kept_gridSample (s : State) (c0 : Nat) (o : Nat) (hs : Kept q c s) : Kept q c (gridSample s c0 o) := by
  simp [gridSample, hs]

@[simp] theorem kept_setTap (s : State) (c0 : Nat) (x : Tap) (hs : Kept q c s) : Kept q c (setTap s c0 x) := by
  simp [setTap, hs]

@[simp] theorem kept_tapSample (s : State) (c0 : Nat) (o : Nat) (hs : Kept q c s) : Kept q c (tapSample s c0 o) := by
  simp +contextual (maxDischargeDepth := 99) [tapSample, hs]

@[simp] theorem kept_auxSample (s : State) (v : Visit) (o : Nat) (hs : Kept q c s) : Kept q c (auxSample s v o) := by
  unfold auxSample
  (try dsimp only)
  repeat' (first | with_reducible assumption | (simp +contextual (maxDischargeDepth := 99) [hs]; done) | (simp +contextual (maxDischargeDepth := 99) [hs, hk]; done) | split | refine kept_foldl _ _ _ ?_ (fun _ _ hk => ?_))

@[simp] theorem kept_gridWord (s : State) (c0 : Nat) (t : Nat) (w : GridWord) (hs : Kept q c s) : Kept q c (gridWord s c0 t w) := by
  simp +contextual (maxDischargeDepth := 99) [gridWord, hs]

@[simp] theorem kept_auxWord (s : State) (t : Nat) (w : ConvWord) (hs : Kept q c s) : Kept q c (auxWord s t w) := by
  unfold auxWord
  (try dsimp only)
  repeat' (first | with_reducible assumption | (simp +contextual (maxDischargeDepth := 99) [hs]; done) | (simp +contextual (maxDischargeDepth := 99) [hs, hk]; done) | split | refine kept_foldl _ _ _ ?_ (fun _ _ hk => ?_))

@[simp] theorem kept_runWords {α : Type} (f : State → Nat → α → State) (step : Nat) (l : List α) (t : Nat) (s : State) (hs : Kept q c s)
    (hf : ∀ s t w, Kept q c s → Kept q c (f s t w)) : Kept q c (runWords f step l t s) := by
  induction l generalizing t s with
  | nil => exact hs
  | cons w l ih => exact ih _ _ (hf _ _ _ hs)

@[simp] theorem kept_takeGrid (s : State) (r : GridRun) (hs : Kept q c s) : Kept q c (takeGrid s r) := by
  simp +contextual (maxDischargeDepth := 99) [takeGrid, hs]

@[simp] theorem kept_takeAux (s : State) (r : AuxRun) (hs : Kept q c s) : Kept q c (takeAux s r) := by
  simp +contextual (maxDischargeDepth := 99) [takeAux, hs]

@[simp] theorem kept_galStoreSeg (s : State) (j : Nat) (c0 : Nat) (hs : Kept q c s) : Kept q c (galStoreSeg s j c0) := by
  simp +contextual (maxDischargeDepth := 99) [galStoreSeg, hs]

@[simp] theorem kept_galSync (s : State) (hs : Kept q c s) : Kept q c (galSync s) := by
  simp +contextual (maxDischargeDepth := 99) [galSync, hs]

@[simp] theorem kept_modGal (s : State) (f : Gallery → Gallery) (hs : Kept q c s) : Kept q c (modGal s f) := by
  simp [modGal, hs]

@[simp] theorem kept_galArm (s : State) (hs : Kept q c s) : Kept q c (galArm s) := by
  simp +contextual (maxDischargeDepth := 99) [galArm, hs]

@[simp] theorem kept_galTrigger (s : State) (t : Nat) (hs : Kept q c s) : Kept q c (galTrigger s t) := by
  simp +contextual (maxDischargeDepth := 99) [galTrigger, hs]

@[simp] theorem kept_galEnd (s : State) (failed : Bool) (aborted : Bool) (hs : Kept q c s) : Kept q c (galEnd s failed aborted) := by
  simp +contextual (maxDischargeDepth := 99) [galEnd, hs]

@[simp] theorem kept_galGranted (s : State) (hs : Kept q c s) : Kept q c (galGranted s) := by
  simp +contextual (maxDischargeDepth := 99) [galGranted, hs]

@[simp] theorem kept_galRefused (s : State) (hs : Kept q c s) : Kept q c (galRefused s) := by
  simp +contextual (maxDischargeDepth := 99) [galRefused, hs]

@[simp] theorem kept_galFailed (s : State) (hs : Kept q c s) : Kept q c (galFailed s) := by
  simp [galFailed, hs]

@[simp] theorem kept_takeStreams (s : State) (w : Streams) (hs : Kept q c s) : Kept q c (takeStreams s w) := by
  simp +contextual (maxDischargeDepth := 99) [takeStreams, hs]

@[simp] theorem kept_setDetSlot (s : State) (d : Nat) (x : DetSlot) (hs : Kept q c s) : Kept q c (setDetSlot s d x) := by
  simp [setDetSlot, hs]

@[simp] theorem kept_detDone (s : State) (d : Nat) (r : DetSlot) (ts : Nat) (hs : Kept q c s) :
    Kept q c (detDone s d r ts) := by
  simp +contextual (maxDischargeDepth := 99) [detDone, hs]

@[simp] theorem kept_detWindow (s : State) (d : Nat) (v : DetWin) (hs : Kept q c s) : Kept q c (detWindow s d v) := by
  simp [detWindow, hs]

@[simp] theorem kept_detRun (s : State) (d : Nat) (from_ : Nat) (till : Nat) (hs : Kept q c s) : Kept q c (detRun s d from_ till) := by
  unfold detRun
  (try dsimp only)
  repeat' (first | with_reducible assumption | (simp +contextual (maxDischargeDepth := 99) [hs]; done) | (simp +contextual (maxDischargeDepth := 99) [hs, hk]; done) | split | refine kept_foldl _ _ _ ?_ (fun _ _ hk => ?_))

@[simp] theorem kept_detectorResult (s : State) (d : Nat) (from_ : Nat) (words : List GridWord) (aux : List ConvWord) (till : Nat) (hs : Kept q c s) :
    Kept q c (detectorResult s d from_ words aux till) := by
  simp +contextual (maxDischargeDepth := 99) [detectorResult, hs]

@[simp] theorem kept_keepPhasor (s : State) (c0 : Nat) (e : Nat × Nat × Nat) (hs : Kept q c s) : Kept q c (keepPhasor s c0 e) := by
  simp [keepPhasor, hs]

@[simp] theorem kept_phasorSend (s : State) (tr : Nat) (hs : Kept q c s) : Kept q c (phasorSend s tr) := by
  simp +contextual (maxDischargeDepth := 99) [phasorSend, hs]

@[simp] theorem kept_phasorReport (s : State) (hs : Kept q c s) : Kept q c (phasorReport s) := by
  simp +contextual (maxDischargeDepth := 99) [phasorReport, hs]

@[simp] theorem kept_phasorStart (s : State) (hs : Kept q c s) : Kept q c (phasorStart s) := by
  simp [phasorStart, hs]

@[simp] theorem kept_dchOn (s : State) (hs : Kept q c s) : Kept q c (dchOn s) := by
  simp [dchOn, hs]

@[simp] theorem kept_measMode (wasOn : Bool) (s : State) (hs : Kept q c s) : Kept q c (measMode wasOn s) := by
  simp +contextual (maxDischargeDepth := 99) [measMode, hs]

@[simp] theorem kept_aggMove (s : State) (ts : Nat) (hs : Kept q c s) : Kept q c (aggMove s ts) := by
  simp [aggMove, hs]

@[simp] theorem kept_tenMinute (s : State) (hs : Kept q c s) : Kept q c (tenMinute s) := by
  simp [tenMinute, hs]

@[simp] theorem kept_pqPacket (s : State) (c0 : Nat) (level : Nat) (start : Nat) (p : PqVals) (hs : Kept q c s) :
    Kept q c (pqPacket s c0 level start p) := by
  simp [pqPacket, hs]

@[simp] theorem kept_setAgg (s : State) (c0 : Nat) (a : Agg) (hs : Kept q c s) : Kept q c (setAgg s c0 a) := by
  simp [setAgg, hs]

@[simp] theorem kept_aggDone (s : State) (c0 : Nat) (k : Nat) (start : Nat) (q0 : PqVals) (hs : Kept q c s) :
    Kept q c (aggDone s c0 k start q0) := by
  simp [aggDone, hs]

@[simp] theorem kept_baseDone (s : State) (c0 : Nat) (start : Nat) (stop : Nat) (x : Spans) (e15 : Bool) (e10m : Bool) (e2h : Bool) (hs : Kept q c s) :
    Kept q c (baseDone s c0 start stop x e15 e10m e2h) := by
  simp +contextual (maxDischargeDepth := 99) [baseDone, hs]

@[simp] theorem kept_aggClear (s : State) (e15 : Bool) (e10m : Bool) (e2h : Bool) (hs : Kept q c s) : Kept q c (aggClear s e15 e10m e2h) := by
  simp [aggClear, hs]

@[simp] theorem kept_supraRun (s : State) (c0 : Nat) (from_ : Nat) (hs : Kept q c s) : Kept q c (supraRun s c0 from_) := by
  simp +contextual (maxDischargeDepth := 99) [supraRun, hs]

@[simp] theorem kept_supraDone (s : State) (c0 : Nat) (start : Nat) (stop : Nat) (next : Nat) (hs : Kept q c s) :
    Kept q c (supraDone s c0 start stop next) := by
  simp [supraDone, hs]

@[simp] theorem kept_baseInterval (s : State) (hs : Kept q c s) : Kept q c (baseInterval s) := by
  simp +contextual (maxDischargeDepth := 99) [baseInterval, hs]

@[simp] theorem kept_pqEvent (s : State) (ch : Nat) (kind : Nat) (edge : Nat) (ts : Nat) (dur : Nat) (extreme : Nat) (hs : Kept q c s) :
    Kept q c (pqEvent s ch kind edge ts dur extreme) := by
  simp [pqEvent, hs]

@[simp] theorem kept_pqKind (s : State) (c0 : Nat) (kind : Nat) (starts : Bool) (ends : Bool) (ts : Nat) (urms : Nat) (hs : Kept q c s) :
    Kept q c (pqKind s c0 kind starts ends ts urms) := by
  unfold pqKind
  (try dsimp only)
  repeat' (first | with_reducible assumption | (simp +contextual (maxDischargeDepth := 99) [hs]; done) | (simp +contextual (maxDischargeDepth := 99) [hs, hk]; done) | split | refine kept_foldl _ _ _ ?_ (fun _ _ hk => ?_))

@[simp] theorem kept_pqLeft (s : State) (hs : Kept q c s) : Kept q c (pqLeft s) := by
  simp [pqLeft, hs]

@[simp] theorem kept_dipSwell (s : State) (c0 : Nat) (urms : Nat) (ts : Nat) (hs : Kept q c s) : Kept q c (dipSwell s c0 urms ts) := by
  simp +contextual (maxDischargeDepth := 99) [dipSwell, hs]

@[simp] theorem kept_urmsAt (s : State) (c0 : Nat) (e : Nat) (hs : Kept q c s) : Kept q c (urmsAt s c0 e) := by
  unfold urmsAt
  (try dsimp only)
  repeat' (first | with_reducible assumption | (simp +contextual (maxDischargeDepth := 99) [hs]; done) | (simp +contextual (maxDischargeDepth := 99) [hs, hk]; done) | split | refine kept_foldl _ _ _ ?_ (fun _ _ hk => ?_))

@[simp] theorem kept_urmsRun (s : State) (c0 : Nat) (from_ : Nat) (hs : Kept q c s) : Kept q c (urmsRun s c0 from_) := by
  unfold urmsRun
  (try dsimp only)
  repeat' (first | with_reducible assumption | (simp +contextual (maxDischargeDepth := 99) [hs]; done) | (simp +contextual (maxDischargeDepth := 99) [hs, hk]; done) | split | refine kept_foldl _ _ _ ?_ (fun _ _ hk => ?_))

@[simp] theorem kept_chanChanged (old : State) (s : State) (c0 : Nat) (hs : Kept q c s) : Kept q c (chanChanged old s c0) := by
  simp +contextual (maxDischargeDepth := 99) [chanChanged, hs]

@[simp] theorem kept_firChanged (s : State) (b : Nat) (hs : Kept q c s) : Kept q c (firChanged s b) := by
  simp +contextual (maxDischargeDepth := 99) [firChanged, hs]

@[simp] theorem kept_detChanged (old : State) (s : State) (d : Nat) (hs : Kept q c s) : Kept q c (detChanged old s d) := by
  simp [detChanged, hs]

@[simp] theorem kept_dchAct (old : State) (s : State) (a : Nat) (v : Nat) (hs : Kept q c s) : Kept q c (dchAct old s a v) := by
  unfold dchAct
  (try dsimp only)
  repeat' (first | with_reducible assumption | (simp +contextual (maxDischargeDepth := 99) [hs]; done) | (simp +contextual (maxDischargeDepth := 99) [hs, hk]; done) | split | refine kept_foldl _ _ _ ?_ (fun _ _ hk => ?_))

@[simp] theorem kept_dropForce (s : State) (hs : Kept q c s) : Kept q c (dropForce s) := by
  simp +contextual (maxDischargeDepth := 99) [dropForce, hs]

@[simp] theorem kept_tiaWords (s : State) (stage : Nat) (run : AuxRun) (satNow : Bool) (till : Nat) (hs : Kept q c s) :
    Kept q c (tiaWords s stage run satNow till) := by
  simp +contextual (maxDischargeDepth := 99) [tiaWords, hs]

@[simp] theorem kept_execTiaRangeChange (stage : Fin 2) (from_ : MeshTime) (words : List (BitVec 24)) (ovl : List Nat) (sat : List Nat) (satNow : Bool) (till : MeshTime) (s : State) (hs : Kept q c s) :
    KeptBy q c (execTiaRangeChange stage from_ words ovl sat satNow till s) := by
  simp +contextual (maxDischargeDepth := 99) [execTiaRangeChange, hs]

@[simp] theorem kept_execGainPathSwitch (_n : Fin 4) (streams : Streams) (s : State) (hs : Kept q c s) :
    KeptBy q c (execGainPathSwitch _n streams s) := by
  simp [execGainPathSwitch, hs]

@[simp] theorem kept_execDetectorResult (det : Fin 64) (from_ : MeshTime) (words : List GridWord) (aux : List ConvWord) (till : MeshTime) (s : State) (hs : Kept q c s) :
    KeptBy q c (execDetectorResult det from_ words aux till s) := by
  simp [execDetectorResult, hs]

@[simp] theorem kept_takeRuns (s : State) (runs : List GridRun) (hs : Kept q c s) : Kept q c (takeRuns s runs) := by
  simp +contextual (maxDischargeDepth := 99) [takeRuns, hs]

@[simp] theorem kept_execPhasorReport (volts : List GridRun) (currents : List GridRun) (s : State) (hs : Kept q c s) :
    KeptBy q c (execPhasorReport volts currents s) := by
  simp +contextual (maxDischargeDepth := 99) [execPhasorReport, hs]

@[simp] theorem kept_execBaseIntervalEnd (streams : Streams) (s : State) (hs : Kept q c s) : KeptBy q c (execBaseIntervalEnd streams s) := by
  simp +contextual (maxDischargeDepth := 99) [execBaseIntervalEnd, hs]

@[simp] theorem kept_execTenMinuteTick (s : State) (hs : Kept q c s) : KeptBy q c (execTenMinuteTick s) := by
  simp [execTenMinuteTick, hs]

@[simp] theorem kept_execPqDipSwellEdge (ch : Fin 4) (from_ : MeshTime) (words : List GridWord) (aux : List ConvWord) (s : State) (hs : Kept q c s) :
    KeptBy q c (execPqDipSwellEdge ch from_ words aux s) := by
  simp +contextual (maxDischargeDepth := 99) [execPqDipSwellEdge, hs]

@[simp] theorem kept_execSupraWindowEnd (ch : Fin 9) (from_ : MeshTime) (words : List GridWord) (s : State) (hs : Kept q c s) :
    KeptBy q c (execSupraWindowEnd ch from_ words s) := by
  simp +contextual (maxDischargeDepth := 99) [execSupraWindowEnd, hs]

@[simp] theorem kept_execGalleryDone (streams : Streams) (s : State) (hs : Kept q c s) : KeptBy q c (execGalleryDone streams s) := by
  simp +contextual (maxDischargeDepth := 99) [execGalleryDone, hs]

end Sys2Proof.Machine
end

