-- ==== Sys2Proof/Laws/KeptCtl.lean ====
section
/-! SUPPORT. `Kept` through local control, sequencers of power and ownership: one lemma per operation. -/

set_option linter.all false

namespace Sys2Proof.Machine

variable {q : List Instr} {c : Chip}

@[simp] theorem kept_setAct (s : State) (i : Nat) (a : Act) (hs : Kept q c s) : Kept q c (setAct s i a) := by
  simp [setAct, hs]

@[simp] theorem kept_setRule (s : State) (i : Nat) (r : Rule) (hs : Kept q c s) : Kept q c (setRule s i r) := by
  simp [setRule, hs]

@[simp] theorem kept_setSeq (s : State) (i : Nat) (q0 : Seq) (hs : Kept q c s) : Kept q c (setSeq s i q0) := by
  simp [setSeq, hs]

@[simp] theorem kept_setLock (s : State) (i : Nat) (l : Lock) (hs : Kept q c s) : Kept q c (setLock s i l) := by
  simp [setLock, hs]

@[simp] theorem kept_actPacket (s : State) (i : Nat) (cause : Nat) (v : Nat) (o : Owner) (hs : Kept q c s) :
    Kept q c (actPacket s i cause v o) := by
  simp [actPacket, hs]

@[simp] theorem kept_seqPacket (s : State) (k : Nat) (hs : Kept q c s) : Kept q c (seqPacket s k) := by
  simp [seqPacket, hs]

@[simp] theorem kept_lockPacket (s : State) (l : Nat) (kind : Nat) (o : Owner) (hs : Kept q c s) :
    Kept q c (lockPacket s l kind o) := by
  simp [lockPacket, hs]

@[simp] theorem kept_rulePacket (s : State) (r : Nat) (kind : Nat) (status : Nat) (hs : Kept q c s) :
    Kept q c (rulePacket s r kind status) := by
  simp [rulePacket, hs]

@[simp] theorem kept_commandPacket (s : State) (cause : Nat) (orig : Nat) (hs : Kept q c s) :
    Kept q c (commandPacket s cause orig) := by
  simp [commandPacket, hs]

@[simp] theorem kept_raiseLce (s : State) (e : Nat) (hs : Kept q c s) : Kept q c (raiseLce s e) := by
  simp [raiseLce, hs]

@[simp] theorem kept_sendTrigger (s : State) (dest : Nat) (code : Nat) (hs : Kept q c s) :
    Kept q c (sendTrigger s dest code) := by
  simp [sendTrigger, hs]

@[simp] theorem kept_freeLock (s : State) (l : Nat) (kind : Nat) (hs : Kept q c s) : Kept q c (freeLock s l kind) := by
  simp [freeLock, hs]

@[simp] theorem kept_grantLock (s : State) (l : Nat) (o : Owner) (lease : Nat) (implicit : Bool) (hs : Kept q c s) :
    Kept q c (grantLock s l o lease implicit) := by
  simp [grantLock, hs]

@[simp] theorem kept_countLocked (s : State) (st : Nat) (hs : Kept q c s) : Kept q c (countLocked s st) := by
  simp [countLocked, hs]

@[simp] theorem kept_clearPrior (s : State) (l : Nat) (hs : Kept q c s) : Kept q c (clearPrior s l) := by
  simp [clearPrior, hs]

@[simp] theorem kept_acquire (s : State) (o : Owner) (l : Nat) (lease : Nat) (wait : Nat) (tag : Nat) (priv : Bool) (before : List OpResult) (after : List LceOp) (hs : Kept q c s) :
    Kept q c (acquire s o l lease wait tag priv before after).1 := by
  unfold acquire
  (try dsimp only)
  repeat' (first | with_reducible assumption | (simp +contextual (maxDischargeDepth := 99) [hs]; done) | (simp +contextual (maxDischargeDepth := 99) [hs, hk]; done) | split | refine kept_foldl _ _ _ ?_ (fun _ _ hk => ?_))

@[simp] theorem kept_release (s : State) (o : Owner) (l : Nat) (hs : Kept q c s) : Kept q c (release s o l).1 := by
  unfold release
  (try dsimp only)
  repeat' (first | with_reducible assumption | (simp +contextual (maxDischargeDepth := 99) [hs]; done) | (simp +contextual (maxDischargeDepth := 99) [hs, hk]; done) | split | refine kept_foldl _ _ _ ?_ (fun _ _ hk => ?_))

@[simp] theorem kept_writeAct (s : State) (o : Owner) (exempt : Bool) (i : Nat) (v : Nat) (src : WriteSrc) (hs : Kept q c s) :
    Kept q c (writeAct s o exempt i v src).1 := by
  unfold writeAct
  (try dsimp only)
  repeat' (first | with_reducible assumption | (simp +contextual (maxDischargeDepth := 99) [hs]; done) | (simp +contextual (maxDischargeDepth := 99) [hs, hk]; done) | split | refine kept_foldl _ _ _ ?_ (fun _ _ hk => ?_))

@[simp] theorem kept_startSeq (s : State) (o : Owner) (k : Nat) (hs : Kept q c s) : Kept q c (startSeq s o k).1 := by
  unfold startSeq
  (try dsimp only)
  repeat' (first | with_reducible assumption | (simp +contextual (maxDischargeDepth := 99) [hs]; done) | (simp +contextual (maxDischargeDepth := 99) [hs, hk]; done) | split | refine kept_foldl _ _ _ ?_ (fun _ _ hk => ?_))

@[simp] theorem kept_abortSeq (s : State) (k : Nat) (cause : Nat) (loss : Bool) (hs : Kept q c s) :
    Kept q c (abortSeq s k cause loss) := by
  simp +contextual (maxDischargeDepth := 99) [abortSeq, hs]

@[simp] theorem kept_abortBy (s : State) (o : Owner) (k : Nat) (hs : Kept q c s) : Kept q c (abortBy s o k).1 := by
  unfold abortBy
  (try dsimp only)
  repeat' (first | with_reducible assumption | (simp +contextual (maxDischargeDepth := 99) [hs]; done) | (simp +contextual (maxDischargeDepth := 99) [hs, hk]; done) | split | refine kept_foldl _ _ _ ?_ (fun _ _ hk => ?_))

@[simp] theorem kept_endSeq (s : State) (k : Nat) (st : Nat) (hs : Kept q c s) : Kept q c (endSeq s k st) := by
  simp +contextual (maxDischargeDepth := 99) [endSeq, hs]

@[simp] theorem kept_runOp (s : State) (o : Owner) (tag : Nat) (priv : Bool) (before : List OpResult) (after : List LceOp) (p : LceOp) (hs : Kept q c s) :
    Kept q c (runOp s o tag priv before after p).1 := by
  unfold runOp
  (try dsimp only)
  repeat' (first | with_reducible assumption | (simp +contextual (maxDischargeDepth := 99) [hs]; done) | (simp +contextual (maxDischargeDepth := 99) [hs, hk]; done) | split | refine kept_foldl _ _ _ ?_ (fun _ _ hk => ?_))

@[simp] theorem kept_runOps (s : State) (o : Owner) (tag : Nat) (priv : Bool) (before : List OpResult) (x5 : List LceOp) (hs : Kept q c s) :
    Kept q c (runOps s o tag priv before x5).1 := by
  induction x5 generalizing s before with
  | nil => exact hs
  | cons a t ih =>
    unfold runOps
    have h2 := kept_runOp s o tag priv before t a hs
    split <;> rename_i h3 <;> rw [h3] at h2
    · exact h2
    · split
      · exact ih _ _ h2
      · exact h2

@[simp] theorem kept_runRequest (s : State) (o : Owner) (tag : Nat) (priv : Bool) (ops : List LceOp) (hs : Kept q c s) :
    Kept q c (runRequest s o tag priv ops).1 := by
  unfold runRequest
  (try dsimp only)
  repeat' (first | with_reducible assumption | (simp +contextual (maxDischargeDepth := 99) [hs]; done) | (simp +contextual (maxDischargeDepth := 99) [hs, hk]; done) | split | refine kept_foldl _ _ _ ?_ (fun _ _ hk => ?_))

@[simp] theorem kept_reply (s : State) (o : Owner) (tag : Nat) (rs : List OpResult) (final : Bool) (hs : Kept q c s) :
    Kept q c (reply s o tag rs final) := by
  simp [reply, hs]

@[simp] theorem kept_commandRx (s : State) (orig : Nat) (priv : Bool) (body : Bytes) (hs : Kept q c s) :
    Kept q c (commandRx s orig priv body) := by
  unfold commandRx
  (try dsimp only)
  repeat' (first | with_reducible assumption | (simp +contextual (maxDischargeDepth := 99) [hs]; done) | (simp +contextual (maxDischargeDepth := 99) [hs, hk]; done) | split | refine kept_foldl _ _ _ ?_ (fun _ _ hk => ?_))

@[simp] theorem kept_passReply (s : State) (orig : Nat) (priv : Bool) (body : Bytes) (hs : Kept q c s) :
    Kept q c (passReply s orig priv body) := by
  simp +contextual (maxDischargeDepth := 99) [passReply, hs]

@[simp] theorem kept_doWork (s : State) (x1 : LceWork) (hs : Kept q c s) : Kept q c (doWork s x1) := by
  unfold doWork
  (try dsimp only)
  repeat' (first | with_reducible assumption | (simp +contextual (maxDischargeDepth := 99) [hs]; done) | (simp +contextual (maxDischargeDepth := 99) [hs, hk]; done) | split | refine kept_foldl _ _ _ ?_ (fun _ _ hk => ?_))

@[simp] theorem kept_waiterTimeouts (s : State) (hs : Kept q c s) : Kept q c (waiterTimeouts s) := by
  simp +contextual (maxDischargeDepth := 99) [waiterTimeouts, hs]

@[simp] theorem kept_ownerReset (s : State) (cls : Nat) (id : Nat) (hs : Kept q c s) : Kept q c (ownerReset s cls id) := by
  simp +contextual (maxDischargeDepth := 99) [ownerReset, hs]

@[simp] theorem kept_bumpHost (s : State) (n : Nat) (hs : Kept q c s) : Kept q c (bumpHost s n) := by
  simp [bumpHost, hs]

@[simp] theorem kept_renewRules (s : State) (hs : Kept q c s) : Kept q c (renewRules s) := by
  simp +contextual (maxDischargeDepth := 99) [renewRules, hs]

@[simp] theorem kept_loseLock (s : State) (l : Nat) (kind : Nat) (hs : Kept q c s) : Kept q c (loseLock s l kind) := by
  simp +contextual (maxDischargeDepth := 99) [loseLock, hs]

@[simp] theorem kept_lockLosses (s : State) (hs : Kept q c s) : Kept q c (lockLosses s) := by
  unfold lockLosses
  (try dsimp only)
  repeat' (first | with_reducible assumption | (simp +contextual (maxDischargeDepth := 99) [hs]; done) | (simp +contextual (maxDischargeDepth := 99) [hs, hk]; done) | split | refine kept_foldl _ _ _ ?_ (fun _ _ hk => ?_))

@[simp] theorem kept_cleanups (s : State) (hs : Kept q c s) : Kept q c (cleanups s) := by
  simp +contextual (maxDischargeDepth := 99) [cleanups, hs]

@[simp] theorem kept_grantWaiters (s : State) (hs : Kept q c s) : Kept q c (grantWaiters s) := by
  unfold grantWaiters
  (try dsimp only)
  repeat' (first | with_reducible assumption | (simp +contextual (maxDischargeDepth := 99) [hs]; done) | (simp +contextual (maxDischargeDepth := 99) [hs, hk]; done) | split | refine kept_foldl _ _ _ ?_ (fun _ _ hk => ?_))

@[simp] theorem kept_evalCond (s : State) (i : Nat) (hs : Kept q c s) : Kept q c (evalCond s i) := by
  simp +contextual (maxDischargeDepth := 99) [evalCond, hs]

@[simp] theorem kept_ruleAction (s : State) (i : Nat) (rise : Bool) (hs : Kept q c s) : Kept q c (ruleAction s i rise).1 := by
  unfold ruleAction
  (try dsimp only)
  repeat' (first | with_reducible assumption | (simp +contextual (maxDischargeDepth := 99) [hs]; done) | (simp +contextual (maxDischargeDepth := 99) [hs, hk]; done) | split | refine kept_foldl _ _ _ ?_ (fun _ _ hk => ?_))

@[simp] theorem kept_actRule (s : State) (i : Nat) (up : Bool) (hs : Kept q c s) : Kept q c (actRule s i up) := by
  simp +contextual (maxDischargeDepth := 99) [actRule, hs]

@[simp] theorem kept_runRules (s : State) (hs : Kept q c s) : Kept q c (runRules s) := by
  simp +contextual (maxDischargeDepth := 99) [runRules, hs]

@[simp] theorem kept_seqExec (s : State) (k : Nat) (q0 : Seq) (body : Bool) (hs : Kept q c s) : Kept q c (seqExec s k q0 body).1 := by
  unfold seqExec
  (try dsimp only)
  repeat' (first | with_reducible assumption | (simp +contextual (maxDischargeDepth := 99) [hs]; done) | (simp +contextual (maxDischargeDepth := 99) [hs, hk]; done) | split | refine kept_foldl _ _ _ ?_ (fun _ _ hk => ?_))

@[simp] theorem kept_seqOne (s : State) (k : Nat) (hs : Kept q c s) : Kept q c (seqOne s k).1 := by
  unfold seqOne
  (try dsimp only)
  repeat' (first | with_reducible assumption | (simp +contextual (maxDischargeDepth := 99) [hs]; done) | (simp +contextual (maxDischargeDepth := 99) [hs, hk]; done) | split | refine kept_foldl _ _ _ ?_ (fun _ _ hk => ?_))

@[simp] theorem kept_seqSteps (s : State) (k : Nat) (x2 : Nat) (hs : Kept q c s) : Kept q c (seqSteps s k x2) := by
  induction x2 generalizing s with
  | zero => exact hs
  | succ n ih =>
    unfold seqSteps
    have h2 := kept_seqOne s k hs
    split <;> rename_i h3 <;> rw [h3] at h2 <;> first | exact ih _ h2 | exact h2

@[simp] theorem kept_seqAdvance (s : State) (k : Nat) (hs : Kept q c s) : Kept q c (seqAdvance s k) := by
  simp +contextual (maxDischargeDepth := 99) [seqAdvance, hs]

@[simp] theorem kept_applyAct (s : State) (i : Nat) (v : Nat) (cause : Nat) (written : Bool) (o : Owner) (hs : Kept q c s) :
    Kept q c (applyAct s i v cause written o) := by
  simp +contextual (maxDischargeDepth := 99) [applyAct, hs]

@[simp] theorem kept_settleAct (s : State) (p : List Nat) (forced : List Nat) (fates : List Fate) (i : Nat) (hs : Kept q c s) :
    Kept q c (settleAct s p forced fates i) := by
  unfold settleAct
  (try dsimp only)
  repeat' (first | with_reducible assumption | (simp +contextual (maxDischargeDepth := 99) [hs]; done) | (simp +contextual (maxDischargeDepth := 99) [hs, hk]; done) | split | refine kept_foldl _ _ _ ?_ (fun _ _ hk => ?_))

@[simp] theorem kept_endPulses (s : State) (hs : Kept q c s) : Kept q c (endPulses s) := by
  unfold endPulses
  (try dsimp only)
  repeat' (first | with_reducible assumption | (simp +contextual (maxDischargeDepth := 99) [hs]; done) | (simp +contextual (maxDischargeDepth := 99) [hs, hk]; done) | split | refine kept_foldl _ _ _ ?_ (fun _ _ hk => ?_))

@[simp] theorem kept_sendReply (s : State) (fates : List Fate) (r : LceReply) (hs : Kept q c s) :
    Kept q c (sendReply s fates r) := by
  unfold sendReply
  split <;> simp (maxDischargeDepth := 99) [hs]

@[simp] theorem kept_flushReplies (s : State) (fates : List Fate) (hs : Kept q c s) : Kept q c (flushReplies s fates) := by
  simp +contextual (maxDischargeDepth := 99) [flushReplies, hs]

@[simp] theorem kept_settleWaiters (s : State) (fates : List Fate) (hs : Kept q c s) : Kept q c (settleWaiters s fates) := by
  simp [settleWaiters, hs]

@[simp] theorem kept_latchRecords (s : State) (hs : Kept q c s) : Kept q c (latchRecords s) := by
  simp [latchRecords, hs]

@[simp] theorem kept_resolve (s : State) (hs : Kept q c s) : Kept q c (resolve s) := by
  simp +contextual (maxDischargeDepth := 99) [resolve, hs]

@[simp] theorem kept_takeInit (s : State) (i : Nat) (hs : Kept q c s) : Kept q c (takeInit s i) := by
  simp +contextual (maxDischargeDepth := 99) [takeInit, hs]

@[simp] theorem kept_recordChanged (s : State) (i : Nat) (b : Bytes) (hs : Kept q c s) : Kept q c (recordChanged s i b) := by
  simp [recordChanged, hs]

@[simp] theorem kept_installOne (s : State) (t : Nat) (i : Nat) (b : Bytes) (hs : Kept q c s) : Kept q c (installOne s t i b) := by
  unfold installOne
  (try dsimp only)
  repeat' (first | with_reducible assumption | (simp +contextual (maxDischargeDepth := 99) [hs]; done) | (simp +contextual (maxDischargeDepth := 99) [hs, hk]; done) | split | refine kept_foldl _ _ _ ?_ (fun _ _ hk => ?_))

@[simp] theorem kept_installCommit (s : State) (hs : Kept q c s) : Kept q c (installCommit s) := by
  simp +contextual (maxDischargeDepth := 99) [installCommit, hs]

@[simp] theorem kept_tickBegin (s : State) (hs : Kept q c s) : Kept q c (tickBegin s) := by
  simp +contextual (maxDischargeDepth := 99) [tickBegin, hs]

@[simp] theorem kept_tickInputs (s : State) (hs : Kept q c s) : Kept q c (tickInputs s) := by
  simp +contextual (maxDischargeDepth := 99) [tickInputs, hs]

@[simp] theorem kept_hostReplies (s : State) (hs : Kept q c s) : Kept q c (hostReplies s) := by
  unfold hostReplies
  (try dsimp only)
  repeat' (first | with_reducible assumption | (simp +contextual (maxDischargeDepth := 99) [hs]; done) | (simp +contextual (maxDischargeDepth := 99) [hs, hk]; done) | split | refine kept_foldl _ _ _ ?_ (fun _ _ hk => ?_))

@[simp] theorem kept_controlTick (s : State) (hs : Kept q c s) : Kept q c (controlTick s) := by
  simp +contextual (maxDischargeDepth := 99) [controlTick, hs]

@[simp] theorem kept_holdPins (s : State) (hs : Kept q c s) : Kept q c (holdPins s) := by
  simp [holdPins, hs]

@[simp] theorem kept_stageEntry (s : State) (b : Bytes) (hs : Kept q c s) : Kept q c (stageEntry s b) := by
  simp +contextual (maxDischargeDepth := 99) [stageEntry, hs]

@[simp] theorem kept_tblLoad (s : State) (t : Nat) (i : Nat) (hs : Kept q c s) : Kept q c (tblLoad s t i) := by
  simp +contextual (maxDischargeDepth := 99) [tblLoad, hs]

@[simp] theorem kept_lceRejected (s : State) (a : Nat) (v : Nat) (hs : Kept q c s) : Kept q c (lceRejected s a v) := by
  simp +contextual (maxDischargeDepth := 99) [lceRejected, hs]

@[simp] theorem kept_lceAct (s : State) (a : Nat) (v : Nat) (hs : Kept q c s) : Kept q c (lceAct s a v) := by
  unfold lceAct
  split <;> simp (maxDischargeDepth := 99) [hs]

@[simp] theorem kept_allInit (s : State) (hs : Kept q c s) : Kept q c (allInit s) := by
  simp +contextual (maxDischargeDepth := 99) [allInit, hs]

@[simp] theorem kept_bumpGen (s : State) (hs : Kept q c s) : Kept q c (bumpGen s) := by
  simp [bumpGen, hs]

@[simp] theorem kept_dropTest (s : State) (hs : Kept q c s) : Kept q c (dropTest s) := by
  simp +contextual (maxDischargeDepth := 99) [dropTest, hs]

@[simp] theorem kept_lceHalt (s : State) (hs : Kept q c s) : Kept q c (lceHalt s) := by
  simp +contextual (maxDischargeDepth := 99) [lceHalt, hs]

@[simp] theorem kept_freeAll (s : State) (bump : Bool) (hs : Kept q c s) : Kept q c (freeAll s bump) := by
  simp +contextual (maxDischargeDepth := 99) [freeAll, hs]

@[simp] theorem kept_restartRules (s : State) (hs : Kept q c s) : Kept q c (restartRules s) := by
  simp [restartRules, hs]

@[simp] theorem kept_startTicks (s : State) (hs : Kept q c s) : Kept q c (startTicks s) := by
  simp [startTicks, hs]

@[simp] theorem kept_lceMode (old : Mode) (new : Mode) (s : State) (hs : Kept q c s) : Kept q c (lceMode old new s) := by
  unfold lceMode
  repeat' split
  all_goals simp (maxDischargeDepth := 99) [hs]

@[simp] theorem kept_beginTrans (s : State) (target : Mode) (kind : TransKind) (hs : Kept q c s) : Kept q c (beginTrans s target kind) :=
  kept_race s _ rfl hs

@[simp] theorem kept_takeBack (s : State) (n : Nat) (f : LeaveFor) (hs : Kept q c s) : Kept q c (takeBack s n f) := by
  unfold takeBack
  (try dsimp only)
  repeat' (first | with_reducible assumption | (simp +contextual (maxDischargeDepth := 99) [hs]; done) | (simp +contextual (maxDischargeDepth := 99) [hs, hk]; done) | split | refine kept_foldl _ _ _ ?_ (fun _ _ hk => ?_))

@[simp] theorem kept_cutLine (s : State) (n : Nat) (hs : Kept q c s) : Kept q c (cutLine s n) := by
  unfold cutLine
  split <;> simp (maxDischargeDepth := 99) [hs]

@[simp] theorem kept_cutRadio (s : State) (hs : Kept q c s) : Kept q c (cutRadio s) := by
  unfold cutRadio
  split <;> simp (maxDischargeDepth := 99) [hs]

@[simp] theorem kept_busyReply (s : State) (q0 : ModeReq) (hs : Kept q c s) : Kept q c (busyReply s q0) := by
  unfold busyReply
  (try dsimp only)
  repeat' (first | with_reducible assumption | (simp +contextual (maxDischargeDepth := 99) [hs]; done) | (simp +contextual (maxDischargeDepth := 99) [hs, hk]; done) | split | refine kept_foldl _ _ _ ?_ (fun _ _ hk => ?_))

/-- What a selection would give back has the sizes that the state's tables have. -/
theorem Kept.undoOf {s : State} (hs : Kept q c s) (r : Race) : undoSizes (some { r with undo := some (undoOf s) }) = [32, 32, 48, 16] := by
  have h := hs.sizes
  simp only [tableSizes, List.cons.injEq] at h
  simp [undoSizes, Machine.undoOf, h]

@[simp] theorem kept_undoSel (s : State) (x : Undo) (r : Race) (hx : r.undo = some x) (hr : undoSizes (some r) = [32, 32, 48, 16])
    (hs : Kept q c s) : Kept q c (undoSel s x) := by
  unfold undoSel
  refine kept_foldl _ _ _ ?_ fun _ _ hk => by simp [hk]
  refine ⟨hs.1, hs.2.1, keysRise_foldl _ _ (keysRise_filter _ _ hs.regs), hs.pending, hs.fuses, ?_⟩
  have h := hs.sizes
  simp only [tableSizes, List.cons.injEq] at h ⊢
  simp only [undoSizes, hx, Option.bind_some, List.cons.injEq] at hr
  simp only [h, hr, and_self]

@[simp] theorem kept_displace (s : State) (hs : Kept q c s) : Kept q c (displace s) := by
  unfold displace
  split
  · exact hs
  · rename_i r hr
    have hu := hs.undo
    rw [hr] at hu
    refine kept_race _ _ rfl ?_
    split
    · rename_i x hx
      exact kept_undoSel _ x r hx hu (by split <;> simp [hs])
    · split <;> simp [hs]

@[simp] theorem kept_overtake (s : State) (rank : Nat) (hs : Kept q c s) : Kept q c (overtake s rank) := by
  unfold overtake
  split
  · exact hs
  · rename_i r hr
    have hu := hs.undo
    rw [hr] at hu
    exact kept_race _ _ hu (by split <;> simp [hs])

@[simp] theorem kept_noteUndo (s t : State) (ht : Kept q c t) (hs : Kept q c s) : Kept q c (noteUndo s (undoOf t)) := by
  refine kept_race s _ ?_ hs
  cases s.pmu.race with
  | none => rfl
  | some r => exact ht.undoOf r

@[simp] theorem kept_stopSending (s : State) (hs : Kept q c s) : Kept q c (stopSending s) := by
  simp +contextual (maxDischargeDepth := 99) [stopSending, hs]

@[simp] theorem kept_galleryDrop (s : State) (hs : Kept q c s) : Kept q c (galleryDrop s) := by
  simp +contextual (maxDischargeDepth := 99) [galleryDrop, hs]

@[simp] theorem kept_beginSafehold (s : State) (rank : Nat) (hs : Kept q c s) : Kept q c (beginSafehold s rank) :=
  kept_race s _ rfl hs

@[simp] theorem kept_enterSafehold (s : State) (rank : Nat) (hs : Kept q c s) : Kept q c (enterSafehold s rank) := by
  simp +contextual (maxDischargeDepth := 99) [enterSafehold, hs]

@[simp] theorem kept_afterDemotion (s : State) (t : Trans) (hs : Kept q c s) : Kept q c (afterDemotion s t) := by
  simp [afterDemotion, hs]

@[simp] theorem kept_safeCause (s : State) (cause : Field) (hs : Kept q c s) : Kept q c (safeCause s cause) := by
  unfold safeCause
  (try dsimp only)
  repeat' (first | with_reducible assumption | (simp +contextual (maxDischargeDepth := 99) [hs]; done) | (simp +contextual (maxDischargeDepth := 99) [hs, hk]; done) | split | refine kept_foldl _ _ _ ?_ (fun _ _ hk => ?_))

@[simp] theorem kept_portReset (s : State) (n : Nat) (hs : Kept q c s) : Kept q c (portReset s n) := by
  simp +contextual (maxDischargeDepth := 99) [portReset, hs]

@[simp] theorem kept_portsReset (s : State) (hs : Kept q c s) : Kept q c (portsReset s) := by
  simp +contextual (maxDischargeDepth := 99) [portsReset, hs]

@[simp] theorem kept_coreReset (s : State) (hs : Kept q c s) : Kept q c (coreReset s) := by
  unfold coreReset
  have h1 : ∀ l, Kept q c { s with regs := List.foldl (fun m (x : Nat × Nat) => assocSet m x.1 x.2) (s.regs.filter (fun x => !isHcpKey x.1)) l } := fun l =>
    ⟨hs.1, hs.2.1, keysRise_foldl _ _ (keysRise_filter _ _ hs.regs), hs.2.2.2⟩
  simp (maxDischargeDepth := 99) [kept_portsReset _ (h1 _)]

@[simp] theorem kept_assertReset (s : State) (power : Bool) (aonLost : Bool) (cause : Nat) (hs : Kept q c s) :
    Kept q c (assertReset s power aonLost cause) := by
  unfold assertReset
  refine ⟨rfl, hs.2.1, ?_, hs.pending, hs.fuses, rfl⟩
  dsimp only
  split
  · rfl
  · exact keysRise_filter _ _ hs.regs

@[simp] theorem kept_powerOnReset (s : State) (aonLost : Bool) (cause : Nat) (hs : Kept q c s) :
    Kept q c (powerOnReset s aonLost cause) := by
  simp [powerOnReset, hs]

@[simp] theorem kept_systemReset (s : State) (cause : Nat) (hs : Kept q c s) : Kept q c (systemReset s cause) := by
  simp [systemReset, hs]

@[simp] theorem kept_releaseOwn (s : State) (hs : Kept q c s) : Kept q c (releaseOwn s) := by
  simp +contextual (maxDischargeDepth := 99) [releaseOwn, hs]

@[simp] theorem kept_ownClaim (s : State) (hs : Kept q c s) : Kept q c (ownClaim s) := by
  simp [ownClaim, hs]

@[simp] theorem kept_openGate (s : State) (hs : Kept q c s) : Kept q c (openGate s) := by
  simp +contextual (maxDischargeDepth := 99) [openGate, hs]

@[simp] theorem kept_ownSeen (s : State) (dt : Nat) (hs : Kept q c s) : Kept q c (ownSeen s dt) := by
  simp +contextual (maxDischargeDepth := 99) [ownSeen, hs]

@[simp] theorem kept_ownInChange (s : State) (level : Bool) (dt : Nat) (hs : Kept q c s) :
    Kept q c (ownInChange s level dt) := by
  simp [ownInChange, hs]

@[simp] theorem kept_dropLink (s : State) (n : Nat) (ctx : Nat) (hs : Kept q c s) : Kept q c (dropLink s n ctx) := by
  unfold dropLink
  (try dsimp only)
  repeat' (first | with_reducible assumption | (simp +contextual (maxDischargeDepth := 99) [hs]; done) | (simp +contextual (maxDischargeDepth := 99) [hs, hk]; done) | split | refine kept_foldl _ _ _ ?_ (fun _ _ hk => ?_))

@[simp] theorem kept_dropKeyed (s : State) (i : Nat) (hs : Kept q c s) : Kept q c (dropKeyed s i) := by
  simp +contextual (maxDischargeDepth := 99) [dropKeyed, hs]

@[simp] theorem kept_checkCounter (s : State) (i : Nat) (hs : Kept q c s) : Kept q c (checkCounter s i) := by
  simp +contextual (maxDischargeDepth := 99) [checkCounter, hs]

@[simp] theorem kept_checkGroup (s : State) (hs : Kept q c s) : Kept q c (checkGroup s) := by
  simp [checkGroup, hs]

@[simp] theorem kept_promoteCtx (s : State) (i : Nat) (hs : Kept q c s) : Kept q c (promoteCtx s i) := by
  simp +contextual (maxDischargeDepth := 99) [promoteCtx, hs]

@[simp] theorem kept_recordEpoch (s : State) (hs : Kept q c s) : Kept q c (recordEpoch s) := by
  simp [recordEpoch, hs]

@[simp] theorem kept_promote (s : State) (hs : Kept q c s) : Kept q c (promote s) := by
  simp +contextual (maxDischargeDepth := 99) [promote, hs]

@[simp] theorem kept_demote (s : State) (epoch : Nat) (hs : Kept q c s) : Kept q c (demote s epoch) := by
  simp +contextual (maxDischargeDepth := 99) [demote, hs]

@[simp] theorem kept_seeHigher (s : State) (epoch : Nat) (hs : Kept q c s) : Kept q c (seeHigher s epoch) := by
  simp +contextual (maxDischargeDepth := 99) [seeHigher, hs]

@[simp] theorem kept_commitMir (s : State) (r : MirRec) (hs : Kept q c s) : Kept q c (commitMir s r) := by
  simp +contextual (maxDischargeDepth := 99) [commitMir, hs]

@[simp] theorem kept_commitBlock (s : State) (w : Nat × Nat) (hs : Kept q c s) : Kept q c (commitBlock s w) := by
  unfold commitBlock
  (try dsimp only)
  repeat' (first | with_reducible assumption | (simp +contextual (maxDischargeDepth := 99) [hs]; done) | (simp +contextual (maxDischargeDepth := 99) [hs, hk]; done) | split | refine kept_foldl _ _ _ ?_ (fun _ _ hk => ?_))

@[simp] theorem kept_collectFrom (s : State) (a : Shadow) (hs : Kept q c s) : Kept q c (collectFrom s a) := by
  simp +contextual (maxDischargeDepth := 99) [collectFrom, hs]

@[simp] theorem kept_collect (s : State) (hs : Kept q c s) : Kept q c (collect s) := by
  unfold collect
  (try dsimp only)
  repeat' (first | with_reducible assumption | (simp +contextual (maxDischargeDepth := 99) [hs]; done) | (simp +contextual (maxDischargeDepth := 99) [hs, hk]; done) | split | refine kept_foldl _ _ _ ?_ (fun _ _ hk => ?_))

@[simp] theorem kept_mirSlot (s : State) (hs : Kept q c s) : Kept q c (mirSlot s) := by
  simp [mirSlot, hs]

end Sys2Proof.Machine
end

