-- ==== Sys2Proof/Laws/KeptMesh.lean ====
section
/-! SUPPORT. `Kept` through frames, routing, joining, medium access: one lemma per operation. -/

set_option linter.all false

namespace Sys2Proof.Machine

variable {q : List Instr} {c : Chip}

@[simp] theorem kept_putSlot (s : State) (bank : Nat) (port : Nat) (e : Nat) (w : Nat) (hs : Kept q c s) :
    Kept q c (putSlot s bank port e w) := by
  simp [putSlot, hs]

@[simp] theorem kept_sendTo (s : State) (ctx : Nat) (cls : Nat) (sec : Bool) (priv : Bool) (content : Bytes) (hs : Kept q c s) :
    Kept q c (sendTo s ctx cls sec priv content) := by
  simp [sendTo, hs]

@[simp] theorem kept_reachLink (s : State) (n : Nat) (ctx : Nat) (x3 : Nat) (hs : Kept q c s) : Kept q c (reachLink s n ctx x3) := by
  induction x3 generalizing s n ctx with
  | zero => exact hs
  | succ n ih =>
    unfold reachLink
    (try dsimp only)
    repeat' (first | with_reducible assumption | (simp +contextual (maxDischargeDepth := 99) [hs, ih]; done) | split | (refine ih _ ?_) | (refine ih _ _ ?_) | (refine ih _ _ _ ?_) | refine kept_foldl _ _ _ ?_ (fun _ _ hk => ?_))

@[simp] theorem kept_readNext (s : State) (n : Nat) (ctx : Nat) (hs : Kept q c s) : Kept q c (readNext s n ctx) := by
  simp [readNext, hs]

@[simp] theorem kept_randBytes (s : State) (n : Nat) (hs : Kept q c s) : Kept q c (randBytes s n).2 := by
  simp [randBytes, hs]

@[simp] theorem kept_joinSend (s : State) (ctx : Nat) (type : Nat) (sec : Bool) (fields : Bytes) (hs : Kept q c s) :
    Kept q c (joinSend s ctx type sec fields) := by
  simp +contextual (maxDischargeDepth := 99) [joinSend, hs]

@[simp] theorem kept_rekeyStart (s : State) (ctx : Nat) (hs : Kept q c s) : Kept q c (rekeyStart s ctx) := by
  simp +contextual (maxDischargeDepth := 99) [rekeyStart, hs]

@[simp] theorem kept_rekeyAuto (s : State) (ctx : Nat) (hs : Kept q c s) : Kept q c (rekeyAuto s ctx) := by
  simp [rekeyAuto, hs]

@[simp] theorem kept_driverPower (s : State) (n : Nat) (hs : Kept q c s) : Kept q c (driverPower s n) := by
  simp +contextual (maxDischargeDepth := 99) [driverPower, hs]

@[simp] theorem kept_postLeave (s : State) (n : Nat) (f : LeaveFor) (cfg : Nat) (hs : Kept q c s) : Kept q c (postLeave s n f cfg) := by
  simp +contextual (maxDischargeDepth := 99) [postLeave, hs]

@[simp] theorem kept_allocLeave (s : State) (n : Nat) (a : Alloc) (hs : Kept q c s) : Kept q c (allocLeave s n a) := by
  simp +contextual (maxDischargeDepth := 99) [allocLeave, hs]

@[simp] theorem kept_accessLeave (s : State) (n : Nat) (x : AccessTx) (hs : Kept q c s) : Kept q c (accessLeave s n x) := by
  unfold accessLeave
  split <;> simp (maxDischargeDepth := 99) [hs]

@[simp] theorem kept_beaconLeave (s : State) (n : Nat) (hs : Kept q c s) : Kept q c (beaconLeave s n) := by
  simp [beaconLeave, hs]

@[simp] theorem kept_leavePoints (s : State) (n : Nat) (hs : Kept q c s) : Kept q c (leavePoints s n) := by
  simp +contextual (maxDischargeDepth := 99) [leavePoints, hs]

@[simp] theorem kept_unusedAlloc (s : State) (n : Nat) (hs : Kept q c s) : Kept q c (unusedAlloc s n) := by
  unfold unusedAlloc
  split <;> simp (maxDischargeDepth := 99) [hs]

@[simp] theorem kept_sweepDrive (s : State) (n : Nat) (hs : Kept q c s) : Kept q c (sweepDrive s n) := by
  simp +contextual (maxDischargeDepth := 99) [sweepDrive, hs]

@[simp] theorem kept_txGate (s : State) (n : Nat) (hs : Kept q c s) : Kept q c (txGate s n) := by
  simp [txGate, hs]

@[simp] theorem kept_noteGates (s : State) (hs : Kept q c s) : Kept q c (noteGates s) := by
  simp [noteGates, hs]

@[simp] theorem kept_linePhaseSlot (s : State) (hs : Kept q c s) : Kept q c (linePhaseSlot s) := by
  simp +contextual (maxDischargeDepth := 99) [linePhaseSlot, hs]

@[simp] theorem kept_takeGroupFc (s : State) (hs : Kept q c s) : Kept q c (takeGroupFc s) := by
  simp [takeGroupFc, hs]

@[simp] theorem kept_accessAdd (s : State) (port : Nat) (ctx : Nat) (dst : Nat) (bcast : Bool) (cls : Nat) (sec : Bool) (body : Bytes) (hs : Kept q c s) :
    Kept q c (accessAdd s port ctx dst bcast cls sec body) := by
  simp [accessAdd, hs]

@[simp] theorem kept_raPick (s : State) (k : Nat) (hs : Kept q c s) : Kept q c (raPick s k) := by
  unfold raPick
  split <;> simp (maxDischargeDepth := 99) [hs]

@[simp] theorem kept_raPickAll (s : State) (hs : Kept q c s) : Kept q c (raPickAll s) := by
  simp +contextual (maxDischargeDepth := 99) [raPickAll, hs]

@[simp] theorem kept_raBoundary (s : State) (hs : Kept q c s) : Kept q c (raBoundary s) := by
  simp [raBoundary, hs]

@[simp] theorem kept_setDrops (s : State) (ctx : Nat) (k : Nat) (hs : Kept q c s) : Kept q c (setDrops s ctx k) := by
  simp [setDrops, hs]

@[simp] theorem kept_moveQ (s : State) (ctx : Nat) (acked : Bool) (hs : Kept q c s) : Kept q c (moveQ s ctx acked) := by
  simp [moveQ, hs]

@[simp] theorem kept_linkCostOf (s : State) (c0 : Nat) (hs : Kept q c s) : Kept q c (linkCostOf s c0) := by
  simp +contextual (maxDischargeDepth := 99) [linkCostOf, hs]

@[simp] theorem kept_linkCosts (s : State) (hs : Kept q c s) : Kept q c (linkCosts s) := by
  simp +contextual (maxDischargeDepth := 99) [linkCosts, hs]

@[simp] theorem kept_noteChange (s : State) (dest : Nat) (dseq : Nat) (cost : Nat) (hops : Nat) (withdraw : Bool) (moved : Bool) (hs : Kept q c s) :
    Kept q c (noteChange s dest dseq cost hops withdraw moved) := by
  simp [noteChange, hs]

@[simp] theorem kept_ftDrop (s : State) (dest : Nat) (hs : Kept q c s) : Kept q c (ftDrop s dest) := by
  simp +contextual (maxDischargeDepth := 99) [ftDrop, hs]

@[simp] theorem kept_takeRoute (s : State) (kind : Nat) (dest : Nat) (ctx : Nat) (dseq : Nat) (cost : Nat) (hops : Nat) (moved : Bool) (hs : Kept q c s) :
    Kept q c (takeRoute s kind dest ctx dseq cost hops moved) := by
  unfold takeRoute
  (try dsimp only)
  repeat' (first | with_reducible assumption | (simp +contextual (maxDischargeDepth := 99) [hs]; done) | (simp +contextual (maxDischargeDepth := 99) [hs, hk]; done) | split | refine kept_foldl _ _ _ ?_ (fun _ _ hk => ?_))

@[simp] theorem kept_offer (s : State) (kind : Nat) (dest : Nat) (ctx : Nat) (dseq : Nat) (cost : Nat) (hops : Nat) (moved : Bool)
    (hs : Kept q c s) : Kept q c (offer s kind dest ctx dseq cost hops moved) := by
  unfold offer
  have hr := kept_readMem s (ftAddr dest) 8 hs
  revert hr
  generalize readMem s (ftAddr dest) 8 = t
  intro hr
  have hp : ∀ v, Kept q c (memPut t (ftAddr dest) 8 v) := fun v => kept_memPut _ _ _ _ hr
  have ht : ∀ x, Kept q c (takeRoute t kind dest ctx dseq x hops moved) := fun x => kept_takeRoute _ _ _ _ _ _ _ _ hr
  dsimp only
  repeat' split
  all_goals first | exact hs | exact hr | exact hp _ | exact ht _

@[simp] theorem kept_ageRoute (s : State) (dest : Nat) (hs : Kept q c s) : Kept q c (ageRoute s dest) := by
  unfold ageRoute
  (try dsimp only)
  repeat' (first | with_reducible assumption | (simp +contextual (maxDischargeDepth := 99) [hs]; done) | (simp +contextual (maxDischargeDepth := 99) [hs, hk]; done) | split | refine kept_foldl _ _ _ ?_ (fun _ _ hk => ?_))

@[simp] theorem kept_floodKeep (s : State) (c0 : Bytes) (hs : Kept q c s) : Kept q c (floodKeep s c0) := by
  simp [floodKeep, hs]

@[simp] theorem kept_floodAll (s : State) (c0 : Bytes) (hs : Kept q c s) : Kept q c (floodAll s c0) := by
  simp +contextual (maxDischargeDepth := 99) [floodAll, hs]

@[simp] theorem kept_floodChildren (s : State) (cls : Nat) (priv : Bool) (c0 : Bytes) (hs : Kept q c s) :
    Kept q c (floodChildren s cls priv c0) := by
  simp +contextual (maxDischargeDepth := 99) [floodChildren, hs]

@[simp] theorem kept_nextMseq (s : State) (hs : Kept q c s) : Kept q c (nextMseq s).2 := by
  simp [nextMseq, hs]

@[simp] theorem kept_rreqStart (s : State) (target : Nat) (host : Bool) (hs : Kept q c s) :
    Kept q c (rreqStart s target host) := by
  simp +contextual (maxDischargeDepth := 99) [rreqStart, hs]

@[simp] theorem kept_autoRreq (s : State) (target : Nat) (hs : Kept q c s) : Kept q c (autoRreq s target) := by
  simp [autoRreq, hs]

@[simp] theorem kept_commitTo (s : State) (w : Nat) (cls : Nat) (priv : Bool) (c0 : Bytes) (hs : Kept q c s) :
    Kept q c (commitTo s w cls priv c0) := by
  simp [commitTo, hs]

@[simp] theorem kept_lookupReads (s : State) (final : Nat) (hs : Kept q c s) : Kept q c (lookupReads s final) := by
  unfold lookupReads
  (try dsimp only)
  repeat' (first | with_reducible assumption | (simp +contextual (maxDischargeDepth := 99) [hs]; done) | (simp +contextual (maxDischargeDepth := 99) [hs, hk]; done) | split | refine kept_foldl _ _ _ ?_ (fun _ _ hk => ?_))

@[simp] theorem kept_forwardRaw (s : State) (y : Option Nat) (cls : Nat) (priv : Bool) (c0 : Bytes) (hs : Kept q c s) :
    Kept q c (forwardRaw s y cls priv c0).1 := by
  unfold forwardRaw
  (try dsimp only)
  repeat' (first | with_reducible assumption | (simp +contextual (maxDischargeDepth := 99) [hs]; done) | (simp +contextual (maxDischargeDepth := 99) [hs, hk]; done) | split | refine kept_foldl _ _ _ ?_ (fun _ _ hk => ?_))

@[simp] theorem kept_forward (s : State) (y : Option Nat) (cls : Nat) (priv : Bool) (c0 : Bytes) (hs : Kept q c s) :
    Kept q c (forward s y cls priv c0) := by
  simp +contextual (maxDischargeDepth := 99) [forward, hs]

@[simp] theorem kept_originate (s : State) (final : Nat) (cls : Nat) (priv : Bool) (limit : Nat) (body : Bytes) (hs : Kept q c s) :
    Kept q c (originate s final cls priv limit body) := by
  simp [originate, hs]

@[simp] theorem kept_routeEvent (s : State) (target : Nat) (st : Nat) (hs : Kept q c s) :
    Kept q c (routeEvent s target st) := by
  simp [routeEvent, hs]

@[simp] theorem kept_rreqEnd (s : State) (target : Nat) (st : Nat) (ended : Rreq → Bool) (hs : Kept q c s) :
    Kept q c (rreqEnd s target st ended) := by
  simp +contextual (maxDischargeDepth := 99) [rreqEnd, hs]

@[simp] theorem kept_rreqRx (s : State) (y : Nat) (c0 : Bytes) (hs : Kept q c s) : Kept q c (rreqRx s y c0) := by
  simp +contextual (maxDischargeDepth := 99) [rreqRx, hs]

@[simp] theorem kept_rrepRx (s : State) (y : Nat) (priv : Bool) (c0 : Bytes) (hs : Kept q c s) :
    Kept q c (rrepRx s y priv c0) := by
  simp +contextual (maxDischargeDepth := 99) [rrepRx, hs]

@[simp] theorem kept_rrepSend (s : State) (hs : Kept q c s) : Kept q c (rrepSend s) := by
  simp +contextual (maxDischargeDepth := 99) [rrepSend, hs]

@[simp] theorem kept_rerrRx (s : State) (y : Nat) (priv : Bool) (c0 : Bytes) (hs : Kept q c s) :
    Kept q c (rerrRx s y priv c0) := by
  unfold rerrRx
  split <;> simp (maxDischargeDepth := 99) [hs]

@[simp] theorem kept_advSend (s : State) (ctx : Nat) (flags : Nat) (es : List Change) (hs : Kept q c s) :
    Kept q c (advSend s ctx flags es) := by
  simp +contextual (maxDischargeDepth := 99) [advSend, hs]

@[simp] theorem kept_advertFull (s : State) (attach : Bool) (hs : Kept q c s) : Kept q c (advertFull s attach) := by
  unfold advertFull
  split <;> simp (maxDischargeDepth := 99) [hs]

@[simp] theorem kept_advertChanges (s : State) (hs : Kept q c s) : Kept q c (advertChanges s) := by
  unfold advertChanges
  split <;> simp (maxDischargeDepth := 99) [hs]

@[simp] theorem kept_advertDetach (s : State) (ctx : Nat) (hs : Kept q c s) : Kept q c (advertDetach s ctx) := by
  simp [advertDetach, hs]

@[simp] theorem kept_advertEntry (s : State) (y : Nat) (attach : Bool) (e : Bytes) (hs : Kept q c s) :
    Kept q c (advertEntry s y attach e) := by
  unfold advertEntry
  (try dsimp only)
  repeat' (first | with_reducible assumption | (simp +contextual (maxDischargeDepth := 99) [hs]; done) | (simp +contextual (maxDischargeDepth := 99) [hs, hk]; done) | split | refine kept_foldl _ _ _ ?_ (fun _ _ hk => ?_))

@[simp] theorem kept_advertRx (s : State) (y : Nat) (c0 : Bytes) (hs : Kept q c s) : Kept q c (advertRx s y c0) := by
  unfold advertRx
  (try dsimp only)
  repeat' (first | with_reducible assumption | (simp +contextual (maxDischargeDepth := 99) [hs]; done) | (simp +contextual (maxDischargeDepth := 99) [hs, hk]; done) | split | refine kept_foldl _ _ _ ?_ (fun _ _ hk => ?_))

@[simp] theorem kept_heldFlag (s : State) (hs : Kept q c s) : Kept q c (heldFlag s) := by
  simp [heldFlag, hs]

@[simp] theorem kept_deleteCtx (s : State) (ctx : Nat) (hs : Kept q c s) : Kept q c (deleteCtx s ctx) := by
  simp +contextual (maxDischargeDepth := 99) [deleteCtx, hs]

@[simp] theorem kept_ageCtx (s : State) (ctx : Nat) (hs : Kept q c s) : Kept q c (ageCtx s ctx) := by
  simp +contextual (maxDischargeDepth := 99) [ageCtx, hs]

@[simp] theorem kept_writeUp (s : State) (ctx : Nat) (hs : Kept q c s) : Kept q c (writeUp s ctx) := by
  simp [writeUp, hs]

@[simp] theorem kept_advanceLsn (s : State) (ctx : Nat) (hs : Kept q c s) : Kept q c (advanceLsn s ctx) := by
  simp [advanceLsn, hs]

@[simp] theorem kept_ctlReplace (s : State) (ctx : Nat) (ty : Nat) (bodies : List Bytes) (hs : Kept q c s) :
    Kept q c (ctlReplace s ctx ty bodies) := by
  simp +contextual (maxDischargeDepth := 99) [ctlReplace, hs]

@[simp] theorem kept_delayAgain (s : State) (ctx : Nat) (hs : Kept q c s) : Kept q c (delayAgain s ctx) := by
  simp [delayAgain, hs]

@[simp] theorem kept_delayStart (s : State) (ctx : Nat) (hs : Kept q c s) : Kept q c (delayStart s ctx) := by
  simp [delayStart, hs]

@[simp] theorem kept_pathUpdate (s : State) (hs : Kept q c s) : Kept q c (pathUpdate s) := by
  unfold pathUpdate
  (try dsimp only)
  repeat' (first | with_reducible assumption | (simp +contextual (maxDischargeDepth := 99) [hs]; done) | (simp +contextual (maxDischargeDepth := 99) [hs, hk]; done) | split | refine kept_foldl _ _ _ ?_ (fun _ _ hk => ?_))

@[simp] theorem kept_upstreamOf (s : State) (hs : Kept q c s) : Kept q c (upstreamOf s) := by
  simp [upstreamOf, hs]

@[simp] theorem kept_setParent (s : State) (ctx : Nat) (hs : Kept q c s) : Kept q c (setParent s ctx) := by
  unfold setParent
  (try dsimp only)
  repeat' (first | with_reducible assumption | (simp +contextual (maxDischargeDepth := 99) [hs]; done) | (simp +contextual (maxDischargeDepth := 99) [hs, hk]; done) | split | refine kept_foldl _ _ _ ?_ (fun _ _ hk => ?_))

@[simp] theorem kept_countChange (s : State) (old : Option Nat) (ctx : Nat) (hs : Kept q c s) : Kept q c (countChange s old ctx) := by
  simp [countChange, hs]

@[simp] theorem kept_changeParent (s : State) (ctx : Nat) (hs : Kept q c s) : Kept q c (changeParent s ctx) := by
  unfold changeParent
  (try dsimp only)
  repeat' (first | with_reducible assumption | (simp +contextual (maxDischargeDepth := 99) [hs]; done) | (simp +contextual (maxDischargeDepth := 99) [hs, hk]; done) | split | refine kept_foldl _ _ _ ?_ (fun _ _ hk => ?_))

@[simp] theorem kept_epochRaised (s : State) (ctx : Nat) (hs : Kept q c s) : Kept q c (epochRaised s ctx) := by
  simp +contextual (maxDischargeDepth := 99) [epochRaised, hs]

@[simp] theorem kept_resumeParent (s : State) (hs : Kept q c s) : Kept q c (resumeParent s) := by
  simp +contextual (maxDischargeDepth := 99) [resumeParent, hs]

@[simp] theorem kept_signOp (s : State) (hs : Kept q c s) : Kept q c (signOp s) := by
  simp [signOp, hs]

@[simp] theorem kept_secAsk (s : State) (j : SecJob) (hs : Kept q c s) : Kept q c (secAsk s j) := by
  simp [secAsk, hs]

@[simp] theorem kept_queueSig (s : State) (j : SecJob) (hs : Kept q c s) : Kept q c (queueSig s j) := by
  simp [queueSig, hs]

@[simp] theorem kept_signAsk (s : State) (j : SecJob) (hs : Kept q c s) : Kept q c (signAsk s j) := by
  simp [signAsk, hs]

@[simp] theorem kept_putKey (s : State) (ctx : Nat) (k : Bytes) (hs : Kept q c s) : Kept q c (putKey s ctx k) := by
  simp +contextual (maxDischargeDepth := 99) [putKey, hs]

@[simp] theorem kept_newCtx (s : State) (i : Nat) (port : Nat) (addr : Nat) (ext : Nat) (epoch : Nat) (hs : Kept q c s) :
    Kept q c (newCtx s i port addr ext epoch) := by
  simp +contextual (maxDischargeDepth := 99) [newCtx, hs]

@[simp] theorem kept_linkSeg (s : State) (ctx : Nat) (ty : Nat) (c0 : Bytes) (hs : Kept q c s) : Kept q c (linkSeg s ctx ty c0).1 := by
  simp [linkSeg, hs]

@[simp] theorem kept_deny (s : State) (port : Nat) (dst : Nat) (ext : Nat) (cause : Nat) (ctx : Option Nat) (hs : Kept q c s) :
    Kept q c (deny s port dst ext cause ctx) := by
  unfold deny
  split <;> simp (maxDischargeDepth := 99) [hs]

@[simp] theorem kept_setJoin (s : State) (j : Join) (hs : Kept q c s) : Kept q c (setJoin s j) := by
  simp [setJoin, hs]

@[simp] theorem kept_sendOffer (s : State) (j : Join) (hs : Kept q c s) : Kept q c (sendOffer s j) := by
  simp [sendOffer, hs]

@[simp] theorem kept_joinReq (s : State) (port : Nat) (src : Nat) (c0 : Bytes) (hs : Kept q c s) :
    Kept q c (joinReq s port src c0) := by
  unfold joinReq
  (try dsimp only)
  repeat' (first | with_reducible assumption | (simp +contextual (maxDischargeDepth := 99) [hs]; done) | (simp +contextual (maxDischargeDepth := 99) [hs, hk]; done) | split | refine kept_foldl _ _ _ ?_ (fun _ _ hk => ?_))

@[simp] theorem kept_assignShort (s : State) (ext : Nat) (hs : Kept q c s) : Kept q c (assignShort s ext).2 := by
  unfold assignShort
  repeat' split
  all_goals simp (maxDischargeDepth := 99) [hs]

@[simp] theorem kept_grantFor (s : State) (ext : Nat) (role : Nat) (prev : Nat) (hs : Kept q c s) :
    Kept q c (grantFor s ext role prev).2 := by
  unfold grantFor
  (try dsimp only)
  repeat' (first | with_reducible assumption | (simp +contextual (maxDischargeDepth := 99) [hs]; done) | (simp +contextual (maxDischargeDepth := 99) [hs, hk]; done) | split | refine kept_foldl _ _ _ ?_ (fun _ _ hk => ?_))

@[simp] theorem kept_granted (s : State) (ext : Nat) (short : Nat) (bslot : Nat) (status : Nat) (hs : Kept q c s) :
    Kept q c (granted s ext short bslot status) := by
  unfold granted
  split <;> simp (maxDischargeDepth := 99) [hs]

@[simp] theorem kept_addrReq (s : State) (c0 : Bytes) (hs : Kept q c s) : Kept q c (addrReq s c0) := by
  simp +contextual (maxDischargeDepth := 99) [addrReq, hs]

@[simp] theorem kept_addrGrant (s : State) (c0 : Bytes) (hs : Kept q c s) : Kept q c (addrGrant s c0) := by
  simp [addrGrant, hs]

@[simp] theorem kept_askAddress (s : State) (j : Join) (hs : Kept q c s) : Kept q c (askAddress s j) := by
  simp +contextual (maxDischargeDepth := 99) [askAddress, hs]

@[simp] theorem kept_proofDeny (s : State) (j : Join) (cause : Nat) (hs : Kept q c s) : Kept q c (proofDeny s j cause) := by
  simp [proofDeny, hs]

@[simp] theorem kept_parentProved (s : State) (ctx : Nat) (j : Join) (epk : Bytes) (k : Bytes) (hs : Kept q c s) :
    Kept q c (parentProved s ctx j epk k) := by
  simp +contextual (maxDischargeDepth := 99) [parentProved, hs]

@[simp] theorem kept_parentReply (s : State) (ctx : Nat) (j : Join) (priv : Bytes) (m0 : Bytes) (hs : Kept q c s) :
    Kept q c (parentReply s ctx j priv m0) := by
  unfold parentReply
  (try dsimp only)
  repeat' (first | with_reducible assumption | (simp +contextual (maxDischargeDepth := 99) [hs]; done) | (simp +contextual (maxDischargeDepth := 99) [hs, hk]; done) | split | refine kept_foldl _ _ _ ?_ (fun _ _ hk => ?_))

@[simp] theorem kept_parentProofSend (s : State) (ctx : Nat) (m0 : Bytes) (hs : Kept q c s) : Kept q c (parentProofSend s ctx m0) := by
  unfold parentProofSend
  (try dsimp only)
  repeat' (first | with_reducible assumption | (simp +contextual (maxDischargeDepth := 99) [hs]; done) | (simp +contextual (maxDischargeDepth := 99) [hs, hk]; done) | split | refine kept_foldl _ _ _ ?_ (fun _ _ hk => ?_))

@[simp] theorem kept_joinChecked (s : State) (ctx : Nat) (m0 : Bytes) (hs : Kept q c s) : Kept q c (joinChecked s ctx m0) := by
  unfold joinChecked
  (try dsimp only)
  repeat' (first | with_reducible assumption | (simp +contextual (maxDischargeDepth := 99) [hs]; done) | (simp +contextual (maxDischargeDepth := 99) [hs, hk]; done) | split | refine kept_foldl _ _ _ ?_ (fun _ _ hk => ?_))

@[simp] theorem kept_joinProof (s : State) (ctx : Nat) (c0 : Bytes) (hs : Kept q c s) : Kept q c (joinProof s ctx c0) := by
  unfold joinProof
  (try dsimp only)
  repeat' (first | with_reducible assumption | (simp +contextual (maxDischargeDepth := 99) [hs]; done) | (simp +contextual (maxDischargeDepth := 99) [hs, hk]; done) | split | refine kept_foldl _ _ _ ?_ (fun _ _ hk => ?_))

@[simp] theorem kept_allocSend (s : State) (port : Nat) (ctx : Nat) (old : List Nat) (entries : List Nat) (ends : Bool) (hs : Kept q c s) :
    Kept q c (allocSend s port ctx old entries ends) := by
  simp +contextual (maxDischargeDepth := 99) [allocSend, hs]

@[simp] theorem kept_autoAlloc (s : State) (ctx : Nat) (hs : Kept q c s) : Kept q c (autoAlloc s ctx) := by
  unfold autoAlloc
  (try dsimp only)
  repeat' (first | with_reducible assumption | (simp +contextual (maxDischargeDepth := 99) [hs]; done) | (simp +contextual (maxDischargeDepth := 99) [hs, hk]; done) | split | refine kept_foldl _ _ _ ?_ (fun _ _ hk => ?_))

@[simp] theorem kept_gkeySend (s : State) (ctx : Nat) (hs : Kept q c s) : Kept q c (gkeySend s ctx) := by
  unfold gkeySend
  split <;> simp (maxDischargeDepth := 99) [hs]

@[simp] theorem kept_gkeyChildren (s : State) (hs : Kept q c s) : Kept q c (gkeyChildren s) := by
  simp +contextual (maxDischargeDepth := 99) [gkeyChildren, hs]

@[simp] theorem kept_gkeyRx (s : State) (ctx : Nat) (c0 : Bytes) (hs : Kept q c s) : Kept q c (gkeyRx s ctx c0) := by
  simp [gkeyRx, hs]

@[simp] theorem kept_gkeyInstall (s : State) (id : Nat) (k : Bytes) (hs : Kept q c s) : Kept q c (gkeyInstall s id k) := by
  simp +contextual (maxDischargeDepth := 99) [gkeyInstall, hs]

@[simp] theorem kept_gkeyBoundary (s : State) (hs : Kept q c s) : Kept q c (gkeyBoundary s) := by
  unfold gkeyBoundary
  split <;> simp (maxDischargeDepth := 99) [hs]

@[simp] theorem kept_gkeyTake (s : State) (id : Nat) (k : Bytes) (hs : Kept q c s) : Kept q c (gkeyTake s id k) := by
  simp [gkeyTake, hs]

@[simp] theorem kept_joinGone (s : State) (ctx : Nat) (hs : Kept q c s) : Kept q c (joinGone s ctx) := by
  simp [joinGone, hs]

@[simp] theorem kept_movePort (s : State) (o : Nat) (n : Nat) (hs : Kept q c s) : Kept q c (movePort s o n) := by
  simp +contextual (maxDischargeDepth := 99) [movePort, hs]

@[simp] theorem kept_mergeOld (s : State) (j : Join) (hs : Kept q c s) : Kept q c (mergeOld s j).1 := by
  unfold mergeOld
  repeat' split
  all_goals simp (maxDischargeDepth := 99) [hs]

@[simp] theorem kept_joinEstablish (s : State) (ctx : Nat) (hs : Kept q c s) : Kept q c (joinEstablish s ctx) := by
  unfold joinEstablish
  split <;> simp (maxDischargeDepth := 99) [hs]

@[simp] theorem kept_joinAcked (s : State) (ctx : Nat) (seg : Nat) (hs : Kept q c s) : Kept q c (joinAcked s ctx seg) := by
  unfold joinAcked
  (try dsimp only)
  repeat' (first | with_reducible assumption | (simp +contextual (maxDischargeDepth := 99) [hs]; done) | (simp +contextual (maxDischargeDepth := 99) [hs, hk]; done) | split | refine kept_foldl _ _ _ ?_ (fun _ _ hk => ?_))

@[simp] theorem kept_joinExpire (s : State) (ctx : Nat) (hs : Kept q c s) : Kept q c (joinExpire s ctx) := by
  unfold joinExpire
  (try dsimp only)
  repeat' (first | with_reducible assumption | (simp +contextual (maxDischargeDepth := 99) [hs]; done) | (simp +contextual (maxDischargeDepth := 99) [hs, hk]; done) | split | refine kept_foldl _ _ _ ?_ (fun _ _ hk => ?_))

@[simp] theorem kept_setJoiner (s : State) (j : Option Joiner) (hs : Kept q c s) : Kept q c (setJoiner s j) := by
  simp [setJoiner, hs]

@[simp] theorem kept_lateralDone (s : State) (j : Joiner) (cause : Nat) (hs : Kept q c s) :
    Kept q c (lateralDone s j cause) := by
  unfold lateralDone
  split <;> simp (maxDischargeDepth := 99) [hs]

@[simp] theorem kept_chooseTemp (s : State) (hs : Kept q c s) : Kept q c (chooseTemp s).2 := by
  simp [chooseTemp, hs]

@[simp] theorem kept_joinSendReq (s : State) (j : Joiner) (hs : Kept q c s) : Kept q c (joinSendReq s j) := by
  simp [joinSendReq, hs]

@[simp] theorem kept_joinBegin (s : State) (b : Neighbour) (rejoin : Bool) (peer : Bool) (host : Option (Nat × Nat)) (hs : Kept q c s) :
    Kept q c (joinBegin s b rejoin peer host) := by
  unfold joinBegin
  (try dsimp only)
  repeat' (first | with_reducible assumption | (simp +contextual (maxDischargeDepth := 99) [hs]; done) | (simp +contextual (maxDischargeDepth := 99) [hs, hk]; done) | split | refine kept_foldl _ _ _ ?_ (fun _ _ hk => ?_))

@[simp] theorem kept_joinAbandon (s : State) (j : Joiner) (hs : Kept q c s) : Kept q c (joinAbandon s j) := by
  simp [joinAbandon, hs]

@[simp] theorem kept_searchOpen (s : State) (hs : Kept q c s) : Kept q c (searchOpen s) := by
  simp [searchOpen, hs]

@[simp] theorem kept_searchOver (s : State) (hs : Kept q c s) : Kept q c (searchOver s) := by
  simp [searchOver, hs]

@[simp] theorem kept_searchStart (s : State) (hs : Kept q c s) : Kept q c (searchStart s) := by
  simp [searchStart, hs]

@[simp] theorem kept_joinLook (s : State) (hs : Kept q c s) : Kept q c (joinLook s) := by
  simp [joinLook, hs]

@[simp] theorem kept_orphanPick (s : State) (hs : Kept q c s) : Kept q c (orphanPick s) := by
  unfold orphanPick
  (try dsimp only)
  repeat' (first | with_reducible assumption | (simp +contextual (maxDischargeDepth := 99) [hs]; done) | (simp +contextual (maxDischargeDepth := 99) [hs, hk]; done) | split | refine kept_foldl _ _ _ ?_ (fun _ _ hk => ?_))

@[simp] theorem kept_takeParent (s : State) (b : Neighbour) (hs : Kept q c s) : Kept q c (takeParent s b) := by
  unfold takeParent
  (try dsimp only)
  repeat' (first | with_reducible assumption | (simp +contextual (maxDischargeDepth := 99) [hs]; done) | (simp +contextual (maxDischargeDepth := 99) [hs, hk]; done) | split | refine kept_foldl _ _ _ ?_ (fun _ _ hk => ?_))

@[simp] theorem kept_nextCandidate (s : State) (hs : Kept q c s) : Kept q c (nextCandidate s) := by
  unfold nextCandidate
  (try dsimp only)
  repeat' (first | with_reducible assumption | (simp +contextual (maxDischargeDepth := 99) [hs]; done) | (simp +contextual (maxDischargeDepth := 99) [hs, hk]; done) | split | refine kept_foldl _ _ _ ?_ (fun _ _ hk => ?_))

@[simp] theorem kept_joinSearch (s : State) (hs : Kept q c s) : Kept q c (joinSearch s) := by
  unfold joinSearch
  (try dsimp only)
  repeat' (first | with_reducible assumption | (simp +contextual (maxDischargeDepth := 99) [hs]; done) | (simp +contextual (maxDischargeDepth := 99) [hs, hk]; done) | split | refine kept_foldl _ _ _ ?_ (fun _ _ hk => ?_))

@[simp] theorem kept_joinAuto (s : State) (hs : Kept q c s) : Kept q c (joinAuto s) := by
  simp [joinAuto, hs]

@[simp] theorem kept_joinFail (s : State) (j : Joiner) (cause : Nat) (till : Option Nat) (hs : Kept q c s) :
    Kept q c (joinFail s j cause till) := by
  simp +contextual (maxDischargeDepth := 99) [joinFail, hs]

@[simp] theorem kept_joinProofSend (s : State) (hs : Kept q c s) : Kept q c (joinProofSend s) := by
  unfold joinProofSend
  (try dsimp only)
  repeat' (first | with_reducible assumption | (simp +contextual (maxDischargeDepth := 99) [hs]; done) | (simp +contextual (maxDischargeDepth := 99) [hs, hk]; done) | split | refine kept_foldl _ _ _ ?_ (fun _ _ hk => ?_))

@[simp] theorem kept_joinerGoOn (s : State) (hs : Kept q c s) : Kept q c (joinerGoOn s) := by
  unfold joinerGoOn
  (try dsimp only)
  repeat' (first | with_reducible assumption | (simp +contextual (maxDischargeDepth := 99) [hs]; done) | (simp +contextual (maxDischargeDepth := 99) [hs, hk]; done) | split | refine kept_foldl _ _ _ ?_ (fun _ _ hk => ?_))

@[simp] theorem kept_joinOffer (s : State) (port : Nat) (src : Nat) (c0 : Bytes) (hs : Kept q c s) :
    Kept q c (joinOffer s port src c0) := by
  unfold joinOffer
  split <;> simp (maxDischargeDepth := 99) [hs]

@[simp] theorem kept_parentTaken (s : State) (ctx : Nat) (j : Joiner) (m0 : Bytes) (k : Bytes) (hs : Kept q c s) :
    Kept q c (parentTaken s ctx j m0 k) := by
  simp +contextual (maxDischargeDepth := 99) [parentTaken, hs]

@[simp] theorem kept_parentSettled (s : State) (ctx : Nat) (j : Joiner) (m0 : Bytes) (hs : Kept q c s) :
    Kept q c (parentSettled s ctx j m0) := by
  unfold parentSettled
  (try dsimp only)
  repeat' (first | with_reducible assumption | (simp +contextual (maxDischargeDepth := 99) [hs]; done) | (simp +contextual (maxDischargeDepth := 99) [hs, hk]; done) | split | refine kept_foldl _ _ _ ?_ (fun _ _ hk => ?_))

@[simp] theorem kept_parentChecked (s : State) (ctx : Nat) (m0 : Bytes) (hs : Kept q c s) : Kept q c (parentChecked s ctx m0) := by
  unfold parentChecked
  (try dsimp only)
  repeat' (first | with_reducible assumption | (simp +contextual (maxDischargeDepth := 99) [hs]; done) | (simp +contextual (maxDischargeDepth := 99) [hs, hk]; done) | split | refine kept_foldl _ _ _ ?_ (fun _ _ hk => ?_))

@[simp] theorem kept_parentProof (s : State) (ctx : Nat) (c0 : Bytes) (hs : Kept q c s) : Kept q c (parentProof s ctx c0) := by
  unfold parentProof
  (try dsimp only)
  repeat' (first | with_reducible assumption | (simp +contextual (maxDischargeDepth := 99) [hs]; done) | (simp +contextual (maxDischargeDepth := 99) [hs, hk]; done) | split | refine kept_foldl _ _ _ ?_ (fun _ _ hk => ?_))

@[simp] theorem kept_dropOthers (s : State) (ctx : Nat) (hs : Kept q c s) : Kept q c (dropOthers s ctx) := by
  unfold dropOthers
  (try dsimp only)
  repeat' (first | with_reducible assumption | (simp +contextual (maxDischargeDepth := 99) [hs]; done) | (simp +contextual (maxDischargeDepth := 99) [hs, hk]; done) | split | refine kept_foldl _ _ _ ?_ (fun _ _ hk => ?_))

@[simp] theorem kept_provsUntil (s : State) (ctx : Nat) (u : Nat) (hs : Kept q c s) : Kept q c (provsUntil s ctx u) := by
  simp [provsUntil, hs]

@[simp] theorem kept_acceptLateral (s : State) (j : Joiner) (ctx : Nat) (hs : Kept q c s) :
    Kept q c (acceptLateral s j ctx) := by
  simp +contextual (maxDischargeDepth := 99) [acceptLateral, hs]

@[simp] theorem kept_takeAccept (s : State) (j : Joiner) (ctx : Nat) (c0 : Bytes) (hs : Kept q c s) :
    Kept q c (takeAccept s j ctx c0) := by
  simp +contextual (maxDischargeDepth := 99) [takeAccept, hs]

@[simp] theorem kept_acceptParent (s : State) (j : Joiner) (ctx : Nat) (old : Option Nat) (hs : Kept q c s) :
    Kept q c (acceptParent s j ctx old) := by
  unfold acceptParent
  split <;> simp (maxDischargeDepth := 99) [hs]

@[simp] theorem kept_joinAccept (s : State) (ctx : Nat) (c0 : Bytes) (hs : Kept q c s) : Kept q c (joinAccept s ctx c0) := by
  unfold joinAccept
  (try dsimp only)
  repeat' (first | with_reducible assumption | (simp +contextual (maxDischargeDepth := 99) [hs]; done) | (simp +contextual (maxDischargeDepth := 99) [hs, hk]; done) | split | refine kept_foldl _ _ _ ?_ (fun _ _ hk => ?_))

@[simp] theorem kept_joinDenied (s : State) (port : Nat) (src : Nat) (c0 : Bytes) (hs : Kept q c s) :
    Kept q c (joinDenied s port src c0) := by
  unfold joinDenied
  split <;> simp (maxDischargeDepth := 99) [hs]

@[simp] theorem kept_rekeyHold (s : State) (ctx : Nat) (c0 : Bytes) (hs : Kept q c s) : Kept q c (rekeyHold s ctx c0) := by
  simp [rekeyHold, hs]

@[simp] theorem kept_rekeyTake (s : State) (ctx : Nat) (body : Bytes) (k : Bytes) (hs : Kept q c s) : Kept q c (rekeyTake s ctx body k) := by
  simp +contextual (maxDischargeDepth := 99) [rekeyTake, hs]

@[simp] theorem kept_rekeyReply (s : State) (ctx : Nat) (c0 : Bytes) (priv : Bytes) (n : Nat) (hs : Kept q c s) :
    Kept q c (rekeyReply s ctx c0 priv n) := by
  unfold rekeyReply
  (try dsimp only)
  repeat' (first | with_reducible assumption | (simp +contextual (maxDischargeDepth := 99) [hs]; done) | (simp +contextual (maxDischargeDepth := 99) [hs, hk]; done) | split | refine kept_foldl _ _ _ ?_ (fun _ _ hk => ?_))

@[simp] theorem kept_rekeyAnswer (s : State) (ctx : Nat) (c0 : Bytes) (hs : Kept q c s) : Kept q c (rekeyAnswer s ctx c0) := by
  simp +contextual (maxDischargeDepth := 99) [rekeyAnswer, hs]

@[simp] theorem kept_rekeyReqRx (s : State) (ctx : Nat) (c0 : Bytes) (hs : Kept q c s) : Kept q c (rekeyReqRx s ctx c0) := by
  simp +contextual (maxDischargeDepth := 99) [rekeyReqRx, hs]

@[simp] theorem kept_rekeyHeldRun (s : State) (hs : Kept q c s) : Kept q c (rekeyHeldRun s) := by
  simp +contextual (maxDischargeDepth := 99) [rekeyHeldRun, hs]

@[simp] theorem kept_rekeyRespRx (s : State) (ctx : Nat) (c0 : Bytes) (hs : Kept q c s) : Kept q c (rekeyRespRx s ctx c0) := by
  unfold rekeyRespRx
  repeat' split
  all_goals simp (maxDischargeDepth := 99) [hs]

@[simp] theorem kept_renewalRx (s : State) (ctx : Nat) (type : Nat) (c0 : Bytes) (hs : Kept q c s) : Kept q c (renewalRx s ctx type c0) := by
  unfold renewalRx
  have h2 := kept_linkSeg s ctx type c0 hs
  revert h2
  generalize linkSeg s ctx type c0 = r
  intro h2
  obtain ⟨t, o⟩ := r
  cases o with
  | none => exact h2
  | some w => dsimp only at h2 ⊢; split <;> simp (maxDischargeDepth := 99) [h2]

@[simp] theorem kept_rekeyFrame (s : State) (ctx : Nat) (under2 : Bool) (hs : Kept q c s) :
    Kept q c (rekeyFrame s ctx under2) := by
  simp +contextual (maxDischargeDepth := 99) [rekeyFrame, hs]

@[simp] theorem kept_micFailed (s : State) (n : Nat) (f : RxFrame) (ctx : Option Nat) (hs : Kept q c s) : Kept q c (micFailed s n f ctx) := by
  unfold micFailed
  (try dsimp only)
  repeat' (first | with_reducible assumption | (simp +contextual (maxDischargeDepth := 99) [hs]; done) | (simp +contextual (maxDischargeDepth := 99) [hs, hk]; done) | split | refine kept_foldl _ _ _ ?_ (fun _ _ hk => ?_))

@[simp] theorem kept_adoptEpoch (s : State) (ctx : Option Nat) (ep : Option Nat) (hs : Kept q c s) :
    Kept q c (adoptEpoch s ctx ep) := by
  unfold adoptEpoch
  split <;> simp (maxDischargeDepth := 99) [hs]

@[simp] theorem kept_lastChecks (s : State) (f : RxFrame) (ctx : Option Nat) (hs : Kept q c s) :
    Kept q c (lastChecks s f ctx).1 := by
  unfold lastChecks
  repeat' split
  all_goals simp (maxDischargeDepth := 99) [hs]

@[simp] theorem kept_acceptOrder (s : State) (f : RxFrame) (hs : Kept q c s) : Kept q c (acceptOrder s f).1 := by
  unfold acceptOrder
  (try dsimp only)
  repeat' (first | with_reducible assumption | (simp +contextual (maxDischargeDepth := 99) [hs]; done) | (simp +contextual (maxDischargeDepth := 99) [hs, hk]; done) | split | refine kept_foldl _ _ _ ?_ (fun _ _ hk => ?_))

@[simp] theorem kept_keepRssi (s : State) (f : RxFrame) (c0 : Nat) (hs : Kept q c s) : Kept q c (keepRssi s f c0) := by
  simp +contextual (maxDischargeDepth := 99) [keepRssi, hs]

@[simp] theorem kept_acceptCounters (s : State) (f : RxFrame) (c0 : Nat) (hs : Kept q c s) :
    Kept q c (acceptCounters s f c0) := by
  simp +contextual (maxDischargeDepth := 99) [acceptCounters, hs]

@[simp] theorem kept_noteNeighbour (s : State) (f : RxFrame) (accepted : Bool) (hs : Kept q c s) :
    Kept q c (noteNeighbour s f accepted) := by
  simp [noteNeighbour, hs]

@[simp] theorem kept_parentFound (s : State) (addr : Nat) (hs : Kept q c s) : Kept q c (parentFound s addr) := by
  simp [parentFound, hs]

@[simp] theorem kept_pollDecide (s : State) (c0 : Nat) (p : Bytes) (hs : Kept q c s) : Kept q c (pollDecide s c0 p) := by
  simp +contextual (maxDischargeDepth := 99) [pollDecide, hs]

@[simp] theorem kept_reacqWake (s : State) (c0 : Nat) (hs : Kept q c s) : Kept q c (reacqWake s c0) := by
  simp [reacqWake, hs]

@[simp] theorem kept_parentBeacon (s : State) (f : RxFrame) (c0 : Nat) (hs : Kept q c s) : Kept q c (parentBeacon s f c0) := by
  simp +contextual (maxDischargeDepth := 99) [parentBeacon, hs]

@[simp] theorem kept_beaconHeard (s : State) (f : RxFrame) (accepted : Bool) (hs : Kept q c s) : Kept q c (beaconHeard s f accepted) := by
  simp +contextual (maxDischargeDepth := 99) [beaconHeard, hs]

@[simp] theorem kept_beaconRx (s : State) (f : RxFrame) (ctx : Option Nat) (hs : Kept q c s) : Kept q c (beaconRx s f ctx) := by
  unfold beaconRx
  split <;> simp (maxDischargeDepth := 99) [hs]

@[simp] theorem kept_delayReqRx (s : State) (c0 : Nat) (t2 : Nat) (hs : Kept q c s) : Kept q c (delayReqRx s c0 t2) := by
  simp [delayReqRx, hs]

@[simp] theorem kept_delayRespRx (s : State) (c0 : Nat) (b : Bytes) (t4 : Nat) (hs : Kept q c s) :
    Kept q c (delayRespRx s c0 b t4) := by
  unfold delayRespRx
  repeat' split
  all_goals simp (maxDischargeDepth := 99) [hs]

@[simp] theorem kept_allocRx (s : State) (c0 : Nat) (b : Bytes) (hs : Kept q c s) : Kept q c (allocRx s c0 b) := by
  simp [allocRx, hs]

@[simp] theorem kept_pollRx (s : State) (c0 : Nat) (b : Bytes) (hs : Kept q c s) : Kept q c (pollRx s c0 b) := by
  simp [pollRx, hs]

@[simp] theorem kept_macControl (s : State) (f : RxFrame) (c0 : Nat) (hs : Kept q c s) : Kept q c (macControl s f c0) := by
  unfold macControl
  (try dsimp only)
  repeat' (first | with_reducible assumption | (simp +contextual (maxDischargeDepth := 99) [hs]; done) | (simp +contextual (maxDischargeDepth := 99) [hs, hk]; done) | split | refine kept_foldl _ _ _ ?_ (fun _ _ hk => ?_))

@[simp] theorem kept_toRxQueue (s : State) (f : RxFrame) (ctx : Option Nat) (hs : Kept q c s) :
    Kept q c (toRxQueue s f ctx) := by
  simp [toRxQueue, hs]

@[simp] theorem kept_deliverFrame (s : State) (f : RxFrame) (ctx : Option Nat) (hs : Kept q c s) :
    Kept q c (deliverFrame s f ctx) := by
  unfold deliverFrame
  repeat' split
  all_goals simp (maxDischargeDepth := 99) [hs]

@[simp] theorem kept_noteSrc (s : State) (src : Nat) (hs : Kept q c s) : Kept q c (noteSrc s src) := by
  simp [noteSrc, hs]

@[simp] theorem kept_ctxReads (s : State) (port : Nat) (addr : Nat) (hs : Kept q c s) : Kept q c (ctxReads s port addr) := by
  simp +contextual (maxDischargeDepth := 99) [ctxReads, hs]

@[simp] theorem kept_sfmFrame (s : State) (f : RxFrame) (hs : Kept q c s) : Kept q c (sfmFrame s f).1 := by
  unfold sfmFrame
  (try dsimp only)
  repeat' (first | with_reducible assumption | (simp +contextual (maxDischargeDepth := 99) [hs]; done) | (simp +contextual (maxDischargeDepth := 99) [hs, hk]; done) | split | refine kept_foldl _ _ _ ?_ (fun _ _ hk => ?_))

@[simp] theorem kept_dropItem (s : State) (n : Nat) (ctx : Nat) (hs : Kept q c s) : Kept q c (dropItem s n ctx) := by
  unfold dropItem
  split <;> simp (maxDischargeDepth := 99) [hs]

@[simp] theorem kept_linkNext (s : State) (ctx : Nat) (hs : Kept q c s) : Kept q c (linkNext s ctx) := by
  simp [linkNext, hs]

@[simp] theorem kept_allocAcked (s : State) (ctx : Nat) (b : Bytes) (hs : Kept q c s) : Kept q c (allocAcked s ctx b) := by
  simp [allocAcked, hs]

@[simp] theorem kept_ackedTry (s : State) (n : Nat) (ctx : Nat) (lmid : Nat) (mapx : Nat) (it : TxItem) (hs : Kept q c s) :
    Kept q c (ackedTry s n ctx lmid mapx it) := by
  simp +contextual (maxDischargeDepth := 99) [ackedTry, hs]

@[simp] theorem kept_missedTry (s : State) (n : Nat) (ctx : Nat) (lmid : Nat) (hs : Kept q c s) :
    Kept q c (missedTry s n ctx lmid) := by
  simp +contextual (maxDischargeDepth := 99) [missedTry, hs]

@[simp] theorem kept_linkOutcome (s : State) (n : Nat) (ctx : Nat) (lmid : Nat) (mapx : Nat) (acked : Bool) (hs : Kept q c s) :
    Kept q c (linkOutcome s n ctx lmid mapx acked) := by
  unfold linkOutcome
  (try dsimp only)
  repeat' (first | with_reducible assumption | (simp +contextual (maxDischargeDepth := 99) [hs]; done) | (simp +contextual (maxDischargeDepth := 99) [hs, hk]; done) | split | refine kept_foldl _ _ _ ?_ (fun _ _ hk => ?_))

@[simp] theorem kept_accessDropped (s : State) (x : AccessTx) (hs : Kept q c s) : Kept q c (accessDropped s x) := by
  simp +contextual (maxDischargeDepth := 99) [accessDropped, hs]

@[simp] theorem kept_accessTold (s : State) (x : AccessTx) (hs : Kept q c s) : Kept q c (accessTold s x) := by
  simp +contextual (maxDischargeDepth := 99) [accessTold, hs]

@[simp] theorem kept_accessDone (s : State) (k : Nat) (acked : Bool) (hs : Kept q c s) : Kept q c (accessDone s k acked) := by
  unfold accessDone
  split <;> simp (maxDischargeDepth := 99) [hs]

@[simp] theorem kept_orphanResume (s : State) (ctx : Nat) (hs : Kept q c s) : Kept q c (orphanResume s ctx) := by
  simp +contextual (maxDischargeDepth := 99) [orphanResume, hs]

@[simp] theorem kept_accessEcho (s : State) (n : Nat) (ctx : Nat) (mapx : Nat) (acked : Bool) (hs : Kept q c s) :
    Kept q c (accessEcho s n ctx mapx acked) := by
  simp +contextual (maxDischargeDepth := 99) [accessEcho, hs]

@[simp] theorem kept_accessOutcome (s : State) (n : Nat) (mapx : Nat) (acked : Bool) (hs : Kept q c s) :
    Kept q c (accessOutcome s n mapx acked) := by
  unfold accessOutcome
  (try dsimp only)
  repeat' (first | with_reducible assumption | (simp +contextual (maxDischargeDepth := 99) [hs]; done) | (simp +contextual (maxDischargeDepth := 99) [hs, hk]; done) | split | refine kept_foldl _ _ _ ?_ (fun _ _ hk => ?_))

end Sys2Proof.Machine
end

