-- ==== Sys2Proof/Laws/KeptAir.lean ====
section
/-! SUPPORT. `Kept` through transmission, the pair link, reception, superframes, delivery: one lemma per operation. -/

set_option linter.all false

namespace Sys2Proof.Machine

variable {q : List Instr} {c : Chip}

@[simp] theorem kept_takeGrant (s : State) (n : Nat) (f : LeaveFor) (hs : Kept q c s) : Kept q c (takeGrant s n f).1 := by
  unfold takeGrant
  (try dsimp only)
  repeat' (first | with_reducible assumption | (simp +contextual (maxDischargeDepth := 99) [hs]; done) | (simp +contextual (maxDischargeDepth := 99) [hs, hk]; done) | split | refine kept_foldl _ _ _ ?_ (fun _ _ hk => ?_))

@[simp] theorem kept_backToReady (s : State) (n : Nat) (ctx : Nat) (hs : Kept q c s) : Kept q c (backToReady s n ctx) := by
  simp +contextual (maxDischargeDepth := 99) [backToReady, hs]

@[simp] theorem kept_deferLink (s : State) (ctx : Nat) (hs : Kept q c s) : Kept q c (deferLink s ctx) := by
  simp +contextual (maxDischargeDepth := 99) [deferLink, hs]

@[simp] theorem kept_startDrive (s : State) (n : Nat) (vld : Nat) (t : LineTx) (hs : Kept q c s) : Kept q c (startDrive s n vld t) := by
  simp +contextual (maxDischargeDepth := 99) [startDrive, hs]

@[simp] theorem kept_startLine (s : State) (n : Nat) (vld : Nat) (t : LineTx) (hs : Kept q c s) :
    Kept q c (startLine s n vld t) := by
  simp +contextual (maxDischargeDepth := 99) [startLine, hs]

@[simp] theorem kept_limitHit (s : State) (n : Nat) (hs : Kept q c s) : Kept q c (limitHit s n) := by
  unfold limitHit
  split <;> simp (maxDischargeDepth := 99) [hs]

@[simp] theorem kept_endLine (s : State) (n : Nat) (t : LineTx) (hs : Kept q c s) : Kept q c (endLine s n t) := by
  simp +contextual (maxDischargeDepth := 99) [endLine, hs]

@[simp] theorem kept_lineMissed (s : State) (n : Nat) (t : LineTx) (hs : Kept q c s) : Kept q c (lineMissed s n t) := by
  simp +contextual (maxDischargeDepth := 99) [lineMissed, hs]

@[simp] theorem kept_lineOver (s : State) (n : Nat) (t : LineTx) (hs : Kept q c s) : Kept q c (lineOver s n t) := by
  unfold lineOver
  (try dsimp only)
  repeat' (first | with_reducible assumption | (simp +contextual (maxDischargeDepth := 99) [hs]; done) | (simp +contextual (maxDischargeDepth := 99) [hs, hk]; done) | split | refine kept_foldl _ _ _ ?_ (fun _ _ hk => ?_))

@[simp] theorem kept_endEarly (s : State) (n : Nat) (t : LineTx) (own : List TxWin) (hs : Kept q c s) : Kept q c (endEarly s n t own) := by
  simp +contextual (maxDischargeDepth := 99) [endEarly, hs]

@[simp] theorem kept_stopLine (s : State) (n : Nat) (t : LineTx) (own : List TxWin) (hs : Kept q c s) : Kept q c (stopLine s n t own) := by
  simp +contextual (maxDischargeDepth := 99) [stopLine, hs]

@[simp] theorem kept_abortLine (s : State) (n : Nat) (t : LineTx) (own : List TxWin) (hs : Kept q c s) : Kept q c (abortLine s n t own) := by
  simp +contextual (maxDischargeDepth := 99) [abortLine, hs]

@[simp] theorem kept_lineFinish (s : State) (n : Nat) (t : LineTx) (own : List TxWin) (hs : Kept q c s) :
    Kept q c (lineFinish s n t own) := by
  simp +contextual (maxDischargeDepth := 99) [lineFinish, hs]

@[simp] theorem kept_nextSymbol (s : State) (n : Nat) (t : LineTx) (hs : Kept q c s) : Kept q c (nextSymbol s n t) := by
  simp +contextual (maxDischargeDepth := 99) [nextSymbol, hs]

@[simp] theorem kept_symbolSent (s : State) (n : Nat) (t : LineTx) (own : List TxWin) (hs : Kept q c s) :
    Kept q c (symbolSent s n t own) := by
  simp +contextual (maxDischargeDepth := 99) [symbolSent, hs]

@[simp] theorem kept_tailOver (s : State) (n : Nat) (hs : Kept q c s) : Kept q c (tailOver s n) := by
  unfold tailOver
  (try dsimp only)
  repeat' (first | with_reducible assumption | (simp +contextual (maxDischargeDepth := 99) [hs]; done) | (simp +contextual (maxDischargeDepth := 99) [hs, hk]; done) | split | refine kept_foldl _ _ _ ?_ (fun _ _ hk => ?_))

@[simp] theorem kept_tailsOver (s : State) (hs : Kept q c s) : Kept q c (tailsOver s) := by
  simp +contextual (maxDischargeDepth := 99) [tailsOver, hs]

@[simp] theorem kept_gainStep (s : State) (n : Nat) (peak : Nat) (clip : Bool) (hs : Kept q c s) :
    Kept q c (gainStep s n peak clip) := by
  unfold gainStep
  (try dsimp only)
  repeat' (first | with_reducible assumption | (simp +contextual (maxDischargeDepth := 99) [hs]; done) | (simp +contextual (maxDischargeDepth := 99) [hs, hk]; done) | split | refine kept_foldl _ _ _ ?_ (fun _ _ hk => ?_))

@[simp] theorem kept_symbolHeard (s : State) (n : Nat) (peak : Nat) (x : List RxSample) (hs : Kept q c s) :
    Kept q c (symbolHeard s n peak x) := by
  simp +contextual (maxDischargeDepth := 99) [symbolHeard, hs]

@[simp] theorem kept_lineEnd (s : State) (n : Nat) (own : List TxWin) (hs : Kept q c s) : Kept q c (lineEnd s n own) := by
  unfold lineEnd
  (try dsimp only)
  repeat' (first | with_reducible assumption | (simp +contextual (maxDischargeDepth := 99) [hs]; done) | (simp +contextual (maxDischargeDepth := 99) [hs, hk]; done) | split | refine kept_foldl _ _ _ ?_ (fun _ _ hk => ?_))

@[simp] theorem kept_placeCarrier (s : State) (ctx : Nat) (it : TxItem) (hs : Kept q c s) :
    Kept q c (placeCarrier s ctx it) := by
  simp [placeCarrier, hs]

@[simp] theorem kept_countTry (s : State) (ctx : Nat) (slot : Nat) (it : TxItem) (mode : Nat) (hs : Kept q c s) :
    Kept q c (countTry s ctx slot it mode) := by
  simp +contextual (maxDischargeDepth := 99) [countTry, hs]

@[simp] theorem kept_tooBig (s : State) (n : Nat) (ctx : Nat) (it : TxItem) (hs : Kept q c s) :
    Kept q c (tooBig s n ctx it) := by
  simp +contextual (maxDischargeDepth := 99) [tooBig, hs]

@[simp] theorem kept_sendLine (s : State) (n : Nat) (vld : Nat) (a : Alloc) (it : TxItem) (granted : Nat) (hs : Kept q c s) :
    Kept q c (sendLine s n vld a it granted) := by
  unfold sendLine
  (try dsimp only)
  repeat' (first | with_reducible assumption | (simp +contextual (maxDischargeDepth := 99) [hs]; done) | (simp +contextual (maxDischargeDepth := 99) [hs, hk]; done) | split | refine kept_foldl _ _ _ ?_ (fun _ _ hk => ?_))

@[simp] theorem kept_takeTestFc (s : State) (n : Nat) (hs : Kept q c s) : Kept q c (takeTestFc s n).2 := by
  simp [takeTestFc, hs]

@[simp] theorem kept_testLine (s : State) (n : Nat) (slot : Nat) (vld : Nat) (hs : Kept q c s) :
    Kept q c (testLine s n slot vld) := by
  unfold testLine
  (try dsimp only)
  repeat' (first | with_reducible assumption | (simp +contextual (maxDischargeDepth := 99) [hs]; done) | (simp +contextual (maxDischargeDepth := 99) [hs, hk]; done) | split | refine kept_foldl _ _ _ ?_ (fun _ _ hk => ?_))

@[simp] theorem kept_frameStart (s : State) (n : Nat) (slot : Nat) (vld : Nat) (hs : Kept q c s) :
    Kept q c (frameStart s n slot vld) := by
  unfold frameStart
  (try dsimp only)
  repeat' (first | with_reducible assumption | (simp +contextual (maxDischargeDepth := 99) [hs]; done) | (simp +contextual (maxDischargeDepth := 99) [hs, hk]; done) | split | refine kept_foldl _ _ _ ?_ (fun _ _ hk => ?_))

@[simp] theorem kept_beaconLine (s : State) (n : Nat) (vld : Nat) (hs : Kept q c s) : Kept q c (beaconLine s n vld) := by
  simp +contextual (maxDischargeDepth := 99) [beaconLine, hs]

@[simp] theorem kept_accessPayload (s : State) (x : AccessTx) (elem : Bytes) (hs : Kept q c s) : Kept q c (accessPayload s x elem).2.2 := by
  unfold accessPayload
  (try dsimp only)
  repeat' (first | with_reducible assumption | (simp +contextual (maxDischargeDepth := 99) [hs]; done) | (simp +contextual (maxDischargeDepth := 99) [hs, hk]; done) | split | refine kept_foldl _ _ _ ?_ (fun _ _ hk => ?_))

@[simp] theorem kept_setAccess (s : State) (k : Nat) (x : AccessTx) (hs : Kept q c s) : Kept q c (setAccess s k x) := by
  simp [setAccess, hs]

@[simp] theorem kept_dropAccess (s : State) (k : Nat) (hs : Kept q c s) : Kept q c (dropAccess s k) := by
  simp [dropAccess, hs]

@[simp] theorem kept_accessLine (s : State) (n : Nat) (vld : Nat) (hs : Kept q c s) : Kept q c (accessLine s n vld) := by
  unfold accessLine
  split <;> simp (maxDischargeDepth := 99) [hs]

@[simp] theorem kept_lineAck (s : State) (n : Nat) (ws : List (List RxSample)) (hs : Kept q c s) : Kept q c (lineAck s n ws) := by
  unfold lineAck
  (try dsimp only)
  repeat' (first | with_reducible assumption | (simp +contextual (maxDischargeDepth := 99) [hs]; done) | (simp +contextual (maxDischargeDepth := 99) [hs, hk]; done) | split | refine kept_foldl _ _ _ ?_ (fun _ _ hk => ?_))

@[simp] theorem kept_lineTail (s : State) (n : Nat) (vld : Nat) (hs : Kept q c s) : Kept q c (lineTail s n vld) := by
  unfold lineTail
  (try dsimp only)
  repeat' (first | with_reducible assumption | (simp +contextual (maxDischargeDepth := 99) [hs]; done) | (simp +contextual (maxDischargeDepth := 99) [hs, hk]; done) | split | refine kept_foldl _ _ _ ?_ (fun _ _ hk => ?_))

@[simp] theorem kept_startRadio (s : State) (o : RadioOut) (leave : Bool) (hs : Kept q c s) : Kept q c (startRadio s o leave) := by
  simp [startRadio, hs]

@[simp] theorem kept_radioGrant (s : State) (f : LeaveFor) (hs : Kept q c s) : Kept q c (radioGrant s f).1 := by
  unfold radioGrant
  (try dsimp only)
  repeat' (first | with_reducible assumption | (simp +contextual (maxDischargeDepth := 99) [hs]; done) | (simp +contextual (maxDischargeDepth := 99) [hs, hk]; done) | split | refine kept_foldl _ _ _ ?_ (fun _ _ hk => ?_))

@[simp] theorem kept_sendRadio (s : State) (a : Alloc) (it : TxItem) (hs : Kept q c s) : Kept q c (sendRadio s a it) := by
  simp +contextual (maxDischargeDepth := 99) [sendRadio, hs]

@[simp] theorem kept_testRadioSend (s : State) (slot : Nat) (alen : Nat) (x3 : Option Nat) (hs : Kept q c s) :
    Kept q c (testRadioSend s slot alen x3) := by
  unfold testRadioSend
  split <;> simp (maxDischargeDepth := 99) [hs]

@[simp] theorem kept_testRadio (s : State) (slot : Nat) (hs : Kept q c s) : Kept q c (testRadio s slot) := by
  unfold testRadio
  split <;> simp (maxDischargeDepth := 99) [hs]

@[simp] theorem kept_radioStart (s : State) (slot : Nat) (hs : Kept q c s) : Kept q c (radioStart s slot) := by
  unfold radioStart
  (try dsimp only)
  repeat' (first | with_reducible assumption | (simp +contextual (maxDischargeDepth := 99) [hs]; done) | (simp +contextual (maxDischargeDepth := 99) [hs, hk]; done) | split | refine kept_foldl _ _ _ ?_ (fun _ _ hk => ?_))

@[simp] theorem kept_beaconRadio (s : State) (hs : Kept q c s) : Kept q c (beaconRadio s) := by
  simp +contextual (maxDischargeDepth := 99) [beaconRadio, hs]

@[simp] theorem kept_accessRadio (s : State) (hs : Kept q c s) : Kept q c (accessRadio s) := by
  unfold accessRadio
  split <;> simp (maxDischargeDepth := 99) [hs]

@[simp] theorem kept_paFall (s : State) (hs : Kept q c s) : Kept q c (paFall s) := by
  simp [paFall, hs]

@[simp] theorem kept_radioEnd (s : State) (hs : Kept q c s) : Kept q c (radioEnd s) := by
  unfold radioEnd
  (try dsimp only)
  repeat' (first | with_reducible assumption | (simp +contextual (maxDischargeDepth := 99) [hs]; done) | (simp +contextual (maxDischargeDepth := 99) [hs, hk]; done) | split | refine kept_foldl _ _ _ ?_ (fun _ _ hk => ?_))

@[simp] theorem kept_radioTail (s : State) (hs : Kept q c s) : Kept q c (radioTail s) := by
  unfold radioTail
  (try dsimp only)
  repeat' (first | with_reducible assumption | (simp +contextual (maxDischargeDepth := 99) [hs]; done) | (simp +contextual (maxDischargeDepth := 99) [hs, hk]; done) | split | refine kept_foldl _ _ _ ?_ (fun _ _ hk => ?_))

@[simp] theorem kept_radioChecks (s : State) (air : RadioAir) (scan : Bool) (win : Nat → Bool) (span : RadioSig → Nat × Nat) (hs : Kept q c s) :
    Kept q c (radioChecks s air scan win span).1 := by
  unfold radioChecks
  (try dsimp only)
  repeat' (first | with_reducible assumption | (simp +contextual (maxDischargeDepth := 99) [hs]; done) | (simp +contextual (maxDischargeDepth := 99) [hs, hk]; done) | split | refine kept_foldl _ _ _ ?_ (fun _ _ hk => ?_))

@[simp] theorem kept_radioAck (s : State) (air : RadioAir) (hs : Kept q c s) : Kept q c (radioAck s air) := by
  unfold radioAck
  (try dsimp only)
  repeat' (first | with_reducible assumption | (simp +contextual (maxDischargeDepth := 99) [hs]; done) | (simp +contextual (maxDischargeDepth := 99) [hs, hk]; done) | split | refine kept_foldl _ _ _ ?_ (fun _ _ hk => ?_))

@[simp] theorem kept_putFrame (s : State) (b : Bytes) (hs : Kept q c s) : Kept q c (putFrame s b) := by
  simp [putFrame, hs]

@[simp] theorem kept_ringWrite (s : State) (at_ : Nat) (b : Bytes) (hs : Kept q c s) : Kept q c (ringWrite s at_ b) := by
  simp [ringWrite, hs]

@[simp] theorem kept_ringRead (s : State) (f : SentFrame) (hs : Kept q c s) : Kept q c (ringRead s f) := by
  simp +contextual (maxDischargeDepth := 99) [ringRead, hs]

@[simp] theorem kept_startResync (s : State) (hs : Kept q c s) : Kept q c (startResync s) := by
  simp +contextual (maxDischargeDepth := 99) [startResync, hs]

@[simp] theorem kept_pieceRead (s : State) (x1 : Piece) (hs : Kept q c s) : Kept q c (pieceRead s x1) := by
  unfold pieceRead
  (try dsimp only)
  repeat' (first | with_reducible assumption | (simp +contextual (maxDischargeDepth := 99) [hs]; done) | (simp +contextual (maxDischargeDepth := 99) [hs, hk]; done) | split | refine kept_foldl _ _ _ ?_ (fun _ _ hk => ?_))

@[simp] theorem kept_sendFrame (s : State) (b : Bytes) (rec_ : Bool) (hs : Kept q c s) : Kept q c (sendFrame s b rec_) := by
  simp [sendFrame, hs]

@[simp] theorem kept_sendChunk (s : State) (p : Piece) (rest : List Piece) (hs : Kept q c s) : Kept q c (sendChunk s p rest) := by
  simp +contextual (maxDischargeDepth := 99) [sendChunk, hs]

@[simp] theorem kept_sendRecord (s : State) (hs : Kept q c s) : Kept q c (sendRecord s) := by
  unfold sendRecord
  have h1 : Kept q c ({ s with erf := { s.erf with chunkTurn := !s.erf.copyLeft.isEmpty } } : State) := by simp [hs]
  revert h1
  generalize ({ s with erf := { s.erf with chunkTurn := !s.erf.copyLeft.isEmpty } } : State) = s1
  intro h1
  dsimp only
  split
  · exact h1
  · split
    · exact h1
    · have h2 := kept_takeQ s1 12 h1
      revert h2
      generalize takeQ s1 12 = r
      intro h2
      obtain ⟨t, x⟩ := r
      rcases x with _ | _ | _ <;> simp_all

@[simp] theorem kept_sendAgain (s : State) (f : SentFrame) (rest : List SentFrame) (hs : Kept q c s) : Kept q c (sendAgain s f rest) := by
  simp +contextual (maxDischargeDepth := 99) [sendAgain, hs]

@[simp] theorem kept_frameTx (s : State) (hs : Kept q c s) : Kept q c (frameTx s) := by
  unfold frameTx
  (try dsimp only)
  repeat' (first | with_reducible assumption | (simp +contextual (maxDischargeDepth := 99) [hs]; done) | (simp +contextual (maxDischargeDepth := 99) [hs, hk]; done) | split | refine kept_foldl _ _ _ ?_ (fun _ _ hk => ?_))

@[simp] theorem kept_takeNak (s : State) (n : Nat) (hs : Kept q c s) : Kept q c (takeNak s n) := by
  simp +contextual (maxDischargeDepth := 99) [takeNak, hs]

@[simp] theorem kept_takeAck (s : State) (n : Nat) (hs : Kept q c s) : Kept q c (takeAck s n) := by
  simp [takeAck, hs]

@[simp] theorem kept_mirrorOff (s : State) (hs : Kept q c s) : Kept q c (mirrorOff s) := by
  simp [mirrorOff, hs]

@[simp] theorem kept_heartbeatTx (s : State) (hs : Kept q c s) : Kept q c (heartbeatTx s) := by
  simp +contextual (maxDischargeDepth := 99) [heartbeatTx, hs]

@[simp] theorem kept_peerDead (s : State) (hs : Kept q c s) : Kept q c (peerDead s) := by
  simp +contextual (maxDischargeDepth := 99) [peerDead, hs]

@[simp] theorem kept_takeRootTime (s : State) (h0 : Heartbeat) (hs : Kept q c s) : Kept q c (takeRootTime s h0) := by
  simp +contextual (maxDischargeDepth := 99) [takeRootTime, hs]

@[simp] theorem kept_takeLanes (s : State) (lanes : Nat) (hs : Kept q c s) : Kept q c (takeLanes s lanes) := by
  simp +contextual (maxDischargeDepth := 99) [takeLanes, hs]

@[simp] theorem kept_takePrimary (s : State) (h0 : Heartbeat) (hs : Kept q c s) : Kept q c (takePrimary s h0) := by
  simp +contextual (maxDischargeDepth := 99) [takePrimary, hs]

@[simp] theorem kept_peerHeard (s : State) (h0 : Heartbeat) (hs : Kept q c s) : Kept q c (peerHeard s h0) := by
  simp +contextual (maxDischargeDepth := 99) [peerHeard, hs]

@[simp] theorem kept_firstHeard (s : State) (h0 : Heartbeat) (first : Bool) (hs : Kept q c s) :
    Kept q c (firstHeard s h0 first) := by
  simp [firstHeard, hs]

@[simp] theorem kept_copyHeard (s : State) (h0 : Heartbeat) (hs : Kept q c s) : Kept q c (copyHeard s h0) := by
  simp [copyHeard, hs]

@[simp] theorem kept_primaryHears (s : State) (h0 : Heartbeat) (resync : Bool) (hs : Kept q c s) :
    Kept q c (primaryHears s h0 resync) := by
  simp +contextual (maxDischargeDepth := 99) [primaryHears, hs]

@[simp] theorem kept_heartbeatRx (s : State) (h0 : Heartbeat) (hs : Kept q c s) : Kept q c (heartbeatRx s h0) := by
  simp +contextual (maxDischargeDepth := 99) [heartbeatRx, hs]

@[simp] theorem kept_dropLanes (s : State) (x1 : Nat) (hs : Kept q c s) : Kept q c (dropLanes s x1) := by
  induction x1 generalizing s with
  | zero => exact hs
  | succ n ih =>
    unfold dropLanes
    (try dsimp only)
    repeat' (first | with_reducible assumption | (simp +contextual (maxDischargeDepth := 99) [hs, ih]; done) | split | (refine ih _ ?_) | (refine ih _ _ ?_) | (refine ih _ _ _ ?_) | refine kept_foldl _ _ _ ?_ (fun _ _ hk => ?_))

@[simp] theorem kept_hearLane (s : State) (k : Nat) (g : List (BitVec 10)) (hs : Kept q c s) : Kept q c (hearLane s k g).1 := by
  simp [hearLane, hs]

@[simp] theorem kept_erfRejected (s : State) (a : Nat) (v : Nat) (hs : Kept q c s) : Kept q c (erfRejected s a v) := by
  simp [erfRejected, hs]

@[simp] theorem kept_formPair (s : State) (v : Verdicts) (hs : Kept q c s) : Kept q c (formPair s v) := by
  simp [formPair, hs]

@[simp] theorem kept_erfAct (old : State) (s : State) (a : Nat) (v : Nat) (vd : Verdicts) (hs : Kept q c s) :
    Kept q c (erfAct old s a v vd) := by
  simp +contextual (maxDischargeDepth := 99) [erfAct, hs]

@[simp] theorem kept_execHeartbeatTx (s : State) (hs : Kept q c s) : KeptBy q c (execHeartbeatTx s) := by
  simp [execHeartbeatTx, hs]

@[simp] theorem kept_execPeerDead (s : State) (hs : Kept q c s) : KeptBy q c (execPeerDead s) := by
  simp +contextual (maxDischargeDepth := 99) [execPeerDead, hs]

@[simp] theorem kept_execErfFrameTx (s : State) (hs : Kept q c s) : KeptBy q c (execErfFrameTx s) := by
  simp [execErfFrameTx, hs]

@[simp] theorem kept_execAckseqStall (s : State) (hs : Kept q c s) : KeptBy q c (execAckseqStall s) := by
  simp [execAckseqStall, hs]

@[simp] theorem kept_execLaneSyncChange (lane : Fin 2) (groups : List (BitVec 10)) (s : State) (hs : Kept q c s) :
    KeptBy q c (execLaneSyncChange lane groups s) := by
  simp [execLaneSyncChange, hs]

@[simp] theorem kept_execEpochRecord (s : State) (hs : Kept q c s) : KeptBy q c (execEpochRecord s) := by
  simp +contextual (maxDischargeDepth := 99) [execEpochRecord, hs]

@[simp] theorem kept_execNoPrimaryTimeout (s : State) (hs : Kept q c s) : KeptBy q c (execNoPrimaryTimeout s) := by
  simp +contextual (maxDischargeDepth := 99) [execNoPrimaryTimeout, hs]

@[simp] theorem kept_execOwnInChange (level : Bool) (dt : Nat) (s : State) (hs : Kept q c s) :
    KeptBy q c (execOwnInChange level dt s) := by
  simp [execOwnInChange, hs]

@[simp] theorem kept_execOwnClaim (s : State) (hs : Kept q c s) : KeptBy q c (execOwnClaim s) := by
  simp [execOwnClaim, hs]

@[simp] theorem kept_execGateOpen (s : State) (hs : Kept q c s) : KeptBy q c (execGateOpen s) := by
  simp [execGateOpen, hs]

@[simp] theorem kept_execLceStallRelease (s : State) (hs : Kept q c s) : KeptBy q c (execLceStallRelease s) := by
  simp [execLceStallRelease, hs]

@[simp] theorem kept_lastRx (s : State) (n : Nat) (h0 : FrameHdr) (hs : Kept q c s) : Kept q c (lastRx s n h0) := by
  simp +contextual (maxDischargeDepth := 99) [lastRx, hs]

@[simp] theorem kept_lineAcked (s : State) (n : Nat) (f : RxFrame) (c0 : Option Nat) (len : Nat) (hs : Kept q c s) :
    Kept q c (lineAcked s n f c0 len) := by
  unfold lineAcked
  (try dsimp only)
  repeat' (first | with_reducible assumption | (simp +contextual (maxDischargeDepth := 99) [hs]; done) | (simp +contextual (maxDischargeDepth := 99) [hs, hk]; done) | split | refine kept_foldl _ _ _ ?_ (fun _ _ hk => ?_))

@[simp] theorem kept_linePass (s : State) (n : Nat) (a : Acq) (f : RxFrame) (hs : Kept q c s) : Kept q c (linePass s n a f) := by
  unfold linePass
  (try dsimp only)
  repeat' (first | with_reducible assumption | (simp +contextual (maxDischargeDepth := 99) [hs]; done) | (simp +contextual (maxDischargeDepth := 99) [hs, hk]; done) | split | refine kept_foldl _ _ _ ?_ (fun _ _ hk => ?_))

@[simp] theorem kept_mapReads (s : State) (c0 : Option Nat) (hs : Kept q c s) : Kept q c (mapReads s c0) := by
  unfold mapReads
  (try dsimp only)
  repeat' (first | with_reducible assumption | (simp +contextual (maxDischargeDepth := 99) [hs]; done) | (simp +contextual (maxDischargeDepth := 99) [hs, hk]; done) | split | refine kept_foldl _ _ _ ?_ (fun _ _ hk => ?_))

@[simp] theorem kept_acquireFrame (s : State) (n : Nat) (slot : Nat) (t : Nat) (e : Nat × List Nat × List Nat × Nat) (x : List RxSample) (hs : Kept q c s) :
    Kept q c (acquireFrame s n slot t e x) := by
  simp +contextual (maxDischargeDepth := 99) [acquireFrame, hs]

@[simp] theorem kept_preambleAt (s : State) (n : Nat) (slot : Nat) (start : Nat) (x : List RxSample) (hs : Kept q c s) :
    Kept q c (preambleAt s n slot start x) := by
  unfold preambleAt
  generalize preambleFound s n slot start x = l
  split
  · exact hs
  · split <;> simp (maxDischargeDepth := 99) [hs]

@[simp] theorem kept_acqDrop (s : State) (n : Nat) (a : Acq) (hs : Kept q c s) : Kept q c (acqDrop s n a) := by
  simp [acqDrop, hs]

@[simp] theorem kept_acqLeave (s : State) (n : Nat) (hs : Kept q c s) : Kept q c (acqLeave s n) := by
  simp [acqLeave, hs]

@[simp] theorem kept_frameSymbols (s : State) (n : Nat) (a : Acq) (j : Nat) (ys : List RxSym) (hs : Kept q c s) :
    Kept q c (frameSymbols s n a j ys) := by
  simp +contextual (maxDischargeDepth := 99) [frameSymbols, hs]

@[simp] theorem kept_erasedCounts (s : State) (n : Nat) (ys : List RxSym) (hs : Kept q c s) : Kept q c (erasedCounts s n ys) := by
  simp +contextual (maxDischargeDepth := 99) [erasedCounts, hs]

@[simp] theorem kept_linePayload (s : State) (n : Nat) (a : Acq) (rx : LineRx) (h0 : FrameHdr) (map : Bytes) (hs : Kept q c s) :
    Kept q c (linePayload s n a rx h0 map).1 := by
  simp +contextual (maxDischargeDepth := 99) [linePayload, hs]

@[simp] theorem kept_lineBench (s : State) (n : Nat) (a : Acq) (rx : LineRx) (h0 : FrameHdr) (hs : Kept q c s) :
    Kept q c (lineBench s n a rx h0) := by
  unfold lineBench
  split
  · simp [hs]
  · have h2 := kept_linePayload s n a rx h0 (openMap a.mask) hs
    revert h2
    generalize linePayload s n a rx h0 (openMap a.mask) = r
    intro h2
    obtain ⟨t, o⟩ := r
    dsimp only at h2 ⊢
    cases o <;> simp (maxDischargeDepth := 99) [h2]

@[simp] theorem kept_lineBody (s : State) (n : Nat) (a : Acq) (rx : LineRx) (h0 : FrameHdr) (c0 : Option Nat) (map : Option Bytes)
    (hs : Kept q c s) : Kept q c (lineBody s n a rx h0 c0 map) := by
  unfold lineBody
  split
  · simp [hs]
  · cases map with
    | none => simp (maxDischargeDepth := 99) [hs]
    | some w =>
      dsimp only
      have h2 := kept_linePayload s n a rx h0 w hs
      revert h2
      generalize linePayload s n a rx h0 w = r
      intro h2
      obtain ⟨t, o⟩ := r
      dsimp only at h2 ⊢
      cases o <;> simp (maxDischargeDepth := 99) [h2]

@[simp] theorem kept_lineRx (s : State) (n : Nat) (rx : LineRx) (hs : Kept q c s) : Kept q c (lineRx s n rx) := by
  unfold lineRx
  (try dsimp only)
  repeat' (first | with_reducible assumption | (simp +contextual (maxDischargeDepth := 99) [hs]; done) | (simp +contextual (maxDischargeDepth := 99) [hs, hk]; done) | split | refine kept_foldl _ _ _ ?_ (fun _ _ hk => ?_))

@[simp] theorem kept_radioTake (s : State) (f : RxFrame) (hs : Kept q c s) : Kept q c (radioTake s f) := by
  unfold radioTake
  (try dsimp only)
  repeat' (first | with_reducible assumption | (simp +contextual (maxDischargeDepth := 99) [hs]; done) | (simp +contextual (maxDischargeDepth := 99) [hs, hk]; done) | split | refine kept_foldl _ _ _ ?_ (fun _ _ hk => ?_))

@[simp] theorem kept_radioRx (s : State) (rx : RadioRx) (hs : Kept q c s) : Kept q c (radioRx s rx) := by
  unfold radioRx
  split
  · exact hs
  · have h2 := kept_radioChecks s rx.air (radioScans s) (radioOpen s rx.slot.val) (radioSpan s rx.slot.val (radioScans s)) hs
    revert h2
    dsimp only
    generalize radioChecks s rx.air (radioScans s) (radioOpen s rx.slot.val) (radioSpan s rx.slot.val (radioScans s)) = r
    intro h2
    obtain ⟨t, o⟩ := r
    dsimp only at h2 ⊢
    cases o with
    | none => exact h2
    | some gp =>
      obtain ⟨g, p⟩ := gp
      dsimp only
      repeat' split
      all_goals simp (maxDischargeDepth := 99) [h2]

@[simp] theorem kept_wakeWindow (s : State) (hs : Kept q c s) : Kept q c (wakeWindow s) := by
  unfold wakeWindow
  split <;> simp (maxDischargeDepth := 99) [hs]

@[simp] theorem kept_roostSleep (s : State) (hs : Kept q c s) : Kept q c (roostSleep s) := by
  simp +contextual (maxDischargeDepth := 99) [roostSleep, hs]

@[simp] theorem kept_orphanEntry (s : State) (addr : Nat) (hs : Kept q c s) : Kept q c (orphanEntry s addr) := by
  simp +contextual (maxDischargeDepth := 99) [orphanEntry, hs]

@[simp] theorem kept_beaconMissed (s : State) (hs : Kept q c s) : Kept q c (beaconMissed s) := by
  unfold beaconMissed
  split <;> simp (maxDischargeDepth := 99) [hs]

@[simp] theorem kept_reacqEnd (s : State) (hs : Kept q c s) : Kept q c (reacqEnd s) := by
  unfold reacqEnd
  split <;> simp (maxDischargeDepth := 99) [hs]

@[simp] theorem kept_orphanEnd (s : State) (hs : Kept q c s) : Kept q c (orphanEnd s) := by
  unfold orphanEnd
  (try dsimp only)
  repeat' (first | with_reducible assumption | (simp +contextual (maxDischargeDepth := 99) [hs]; done) | (simp +contextual (maxDischargeDepth := 99) [hs, hk]; done) | split | refine kept_foldl _ _ _ ?_ (fun _ _ hk => ?_))

@[simp] theorem kept_vldCut (s : State) (n : Nat) (hs : Kept q c s) : Kept q c (vldCut s n) := by
  unfold vldCut
  (try dsimp only)
  repeat' (first | with_reducible assumption | (simp +contextual (maxDischargeDepth := 99) [hs]; done) | (simp +contextual (maxDischargeDepth := 99) [hs, hk]; done) | split | refine kept_foldl _ _ _ ?_ (fun _ _ hk => ?_))

@[simp] theorem kept_execVldFault (mv : BitVec 15) (s : State) (hs : Kept q c s) : KeptBy q c (execVldFault mv s) := by
  simp +contextual (maxDischargeDepth := 99) [execVldFault, hs]

@[simp] theorem kept_execVldFaultClear (mv : BitVec 15) (s : State) (hs : Kept q c s) :
    KeptBy q c (execVldFaultClear mv s) := by
  simp +contextual (maxDischargeDepth := 99) [execVldFaultClear, hs]

@[simp] theorem kept_execCurrentLimit (port : Fin 4) (s : State) (hs : Kept q c s) : KeptBy q c (execCurrentLimit port s) := by
  simp [execCurrentLimit, hs]

@[simp] theorem kept_execSymbolBoundary (port : Fin 4) (at_ : MeshTime) (peak : BitVec 8) (samples : List RxSample) (own : List TxWin) (s : State) (hs : Kept q c s) :
    KeptBy q c (execSymbolBoundary port at_ peak samples own s) := by
  unfold execSymbolBoundary
  (try dsimp only)
  repeat' (first | with_reducible assumption | (simp +contextual (maxDischargeDepth := 99) [hs]; done) | (simp +contextual (maxDischargeDepth := 99) [hs, hk]; done) | split | refine kept_foldl _ _ _ ?_ (fun _ _ hk => ?_))

@[simp] theorem kept_execPreambleDetect (port : Fin 4) (run : RxRun) (s : State) (hs : Kept q c s) :
    KeptBy q c (execPreambleDetect port run s) := by
  simp [execPreambleDetect, hs]

@[simp] theorem kept_execFrameTxStart (port : Fin 4) (slot : Fin 128) (vld : BitVec 15) (s : State) (hs : Kept q c s) :
    KeptBy q c (execFrameTxStart port slot vld s) := by
  simp [execFrameTxStart, hs]

@[simp] theorem kept_execFrameTxEnd (port : Fin 4) (own : List TxWin) (s : State) (hs : Kept q c s) :
    KeptBy q c (execFrameTxEnd port own s) := by
  simp [execFrameTxEnd, hs]

@[simp] theorem kept_execAckTailTx (port : Fin 4) (vld : BitVec 15) (s : State) (hs : Kept q c s) :
    KeptBy q c (execAckTailTx port vld s) := by
  simp [execAckTailTx, hs]

@[simp] theorem kept_execAckTailRx (port : Fin 4) (first second : List RxSample) (s : State) (hs : Kept q c s) :
    KeptBy q c (execAckTailRx port first second s) := by
  simp [execAckTailRx, hs]

@[simp] theorem kept_execBeaconTx (port : Fin 5) (vld : BitVec 15) (s : State) (hs : Kept q c s) :
    KeptBy q c (execBeaconTx port vld s) := by
  simp +contextual (maxDischargeDepth := 99) [execBeaconTx, hs]

@[simp] theorem kept_execRandomAccessTx (port : Fin 5) (vld : BitVec 15) (s : State) (hs : Kept q c s) :
    KeptBy q c (execRandomAccessTx port vld s) := by
  simp +contextual (maxDischargeDepth := 99) [execRandomAccessTx, hs]

@[simp] theorem kept_execRandomAccessBackoffEnd (port : Fin 5) (s : State) (hs : Kept q c s) :
    KeptBy q c (execRandomAccessBackoffEnd port s) := by
  simp +contextual (maxDischargeDepth := 99) [execRandomAccessBackoffEnd, hs]

@[simp] theorem kept_execLineFrameRx (port : Fin 4) (rx : LineRx) (s : State) (hs : Kept q c s) :
    KeptBy q c (execLineFrameRx port rx s) := by
  simp [execLineFrameRx, hs]

@[simp] theorem kept_execRadioFrameRx (rx : RadioRx) (s : State) (hs : Kept q c s) : KeptBy q c (execRadioFrameRx rx s) := by
  simp [execRadioFrameRx, hs]

@[simp] theorem kept_execRadioFrameTxStart (slot : Fin 128) (s : State) (hs : Kept q c s) :
    KeptBy q c (execRadioFrameTxStart slot s) := by
  simp [execRadioFrameTxStart, hs]

@[simp] theorem kept_execRadioFrameTxEnd (s : State) (hs : Kept q c s) : KeptBy q c (execRadioFrameTxEnd s) := by
  simp [execRadioFrameTxEnd, hs]

@[simp] theorem kept_execRadioAckTx (s : State) (hs : Kept q c s) : KeptBy q c (execRadioAckTx s) := by
  simp [execRadioAckTx, hs]

@[simp] theorem kept_execRadioAckRx (air : RadioAir) (s : State) (hs : Kept q c s) : KeptBy q c (execRadioAckRx air s) := by
  simp [execRadioAckRx, hs]

@[simp] theorem kept_execReportRx (ctx : BitVec 12) (elem : Bytes) (s : State) (hs : Kept q c s) :
    KeptBy q c (execReportRx ctx elem s) := by
  simp +contextual (maxDischargeDepth := 99) [execReportRx, hs]

@[simp] theorem kept_execProposeRx (ctx : BitVec 12) (elem : Bytes) (s : State) (hs : Kept q c s) :
    KeptBy q c (execProposeRx ctx elem s) := by
  simp +contextual (maxDischargeDepth := 99) [execProposeRx, hs]

@[simp] theorem kept_execSweepPointDone (port : Fin 4) (p : Fin 16) (from_ : MeshTime) (v : List RxSample) (i : List (BitVec 32)) (s : State) (hs : Kept q c s) :
    KeptBy q c (execSweepPointDone port p from_ v i s) := by
  simp [execSweepPointDone, hs]

@[simp] theorem kept_execCarrierRx (ctx : BitVec 12) (elem : Bytes) (s : State) (hs : Kept q c s) :
    KeptBy q c (execCarrierRx ctx elem s) := by
  simp +contextual (maxDischargeDepth := 99) [execCarrierRx, hs]

@[simp] theorem kept_execAllocRx (ctx : BitVec 12) (body : Bytes) (s : State) (hs : Kept q c s) :
    KeptBy q c (execAllocRx ctx body s) := by
  simp +contextual (maxDischargeDepth := 99) [execAllocRx, hs]

@[simp] theorem kept_execPollRx (ctx : BitVec 12) (body : Bytes) (s : State) (hs : Kept q c s) :
    KeptBy q c (execPollRx ctx body s) := by
  simp +contextual (maxDischargeDepth := 99) [execPollRx, hs]

@[simp] theorem kept_execDelayExchangeDue (ctx : BitVec 12) (s : State) (hs : Kept q c s) :
    KeptBy q c (execDelayExchangeDue ctx s) := by
  simp [execDelayExchangeDue, hs]

@[simp] theorem kept_execDelayReqRx (ctx : BitVec 12) (t2 : MeshTime) (s : State) (hs : Kept q c s) :
    KeptBy q c (execDelayReqRx ctx t2 s) := by
  simp +contextual (maxDischargeDepth := 99) [execDelayReqRx, hs]

@[simp] theorem kept_execDelayRespRx (ctx : BitVec 12) (body : Bytes) (t4 : MeshTime) (s : State) (hs : Kept q c s) :
    KeptBy q c (execDelayRespRx ctx body t4 s) := by
  simp +contextual (maxDischargeDepth := 99) [execDelayRespRx, hs]

@[simp] theorem kept_execDelayRespTimeout (ctx : BitVec 12) (s : State) (hs : Kept q c s) :
    KeptBy q c (execDelayRespTimeout ctx s) := by
  unfold execDelayRespTimeout
  split <;> simp (maxDischargeDepth := 99) [hs]

@[simp] theorem kept_execBeaconMiss (s : State) (hs : Kept q c s) : KeptBy q c (execBeaconMiss s) := by
  simp [execBeaconMiss, hs]

@[simp] theorem kept_execRfReacqEnd (s : State) (hs : Kept q c s) : KeptBy q c (execRfReacqEnd s) := by
  simp [execRfReacqEnd, hs]

@[simp] theorem kept_execOrphanSearchEnd (s : State) (hs : Kept q c s) : KeptBy q c (execOrphanSearchEnd s) := by
  simp [execOrphanSearchEnd, hs]

@[simp] theorem kept_execUpstreamLostEnd (s : State) (hs : Kept q c s) : KeptBy q c (execUpstreamLostEnd s) := by
  simp [execUpstreamLostEnd, hs]

@[simp] theorem kept_execRoostWakeWindow (s : State) (hs : Kept q c s) : KeptBy q c (execRoostWakeWindow s) := by
  simp [execRoostWakeWindow, hs]

@[simp] theorem kept_execRoostSleep (s : State) (hs : Kept q c s) : KeptBy q c (execRoostSleep s) := by
  simp [execRoostSleep, hs]

@[simp] theorem kept_dropPackets (s : State) (n : Nat) (c0 : Nat) (hs : Kept q c s) : Kept q c (dropPackets s n c0) := by
  simp +contextual (maxDischargeDepth := 99) [dropPackets, hs]

@[simp] theorem kept_dropFreed (s : State) (n : Nat) (before : List Nat) (hs : Kept q c s) :
    Kept q c (dropFreed s n before) := by
  simp +contextual (maxDischargeDepth := 99) [dropFreed, hs]

@[simp] theorem kept_swapBanks (s : State) (hs : Kept q c s) : Kept q c (swapBanks s) := by
  simp +contextual (maxDischargeDepth := 99) [swapBanks, hs]

@[simp] theorem kept_endProvs (s : State) (ctx : Nat) (hs : Kept q c s) : Kept q c (endProvs s ctx) := by
  simp [endProvs, hs]

@[simp] theorem kept_heldEffect (s : State) (h0 : AllocHeld) (hs : Kept q c s) : Kept q c (heldEffect s h0) := by
  simp +contextual (maxDischargeDepth := 99) [heldEffect, hs]

@[simp] theorem kept_installAlloc (s : State) (x : AllocRx) (hs : Kept q c s) : Kept q c (installAlloc s x) := by
  simp +contextual (maxDischargeDepth := 99) [installAlloc, hs]

@[simp] theorem kept_allocEffect (s : State) (hs : Kept q c s) : Kept q c (allocEffect s) := by
  simp +contextual (maxDischargeDepth := 99) [allocEffect, hs]

@[simp] theorem kept_freeAutos (s : State) (hs : Kept q c s) : Kept q c (freeAutos s) := by
  simp +contextual (maxDischargeDepth := 99) [freeAutos, hs]

@[simp] theorem kept_provsExpire (s : State) (hs : Kept q c s) : Kept q c (provsExpire s) := by
  simp +contextual (maxDischargeDepth := 99) [provsExpire, hs]

@[simp] theorem kept_countDown (s : State) (hs : Kept q c s) : Kept q c (countDown s) := by
  simp [countDown, hs]

@[simp] theorem kept_sfmShadows (s : State) (hs : Kept q c s) : Kept q c (sfmShadows s) := by
  simp [sfmShadows, hs]

@[simp] theorem kept_parentChoice (s : State) (hs : Kept q c s) : Kept q c (parentChoice s) := by
  unfold parentChoice
  repeat' split
  all_goals simp (maxDischargeDepth := 99) [hs]

@[simp] theorem kept_mrtBoundary (s : State) (hs : Kept q c s) : Kept q c (mrtBoundary s) := by
  simp +contextual (maxDischargeDepth := 99) [mrtBoundary, hs]

@[simp] theorem kept_superframeBoundary (s : State) (hs : Kept q c s) : Kept q c (superframeBoundary s) := by
  simp +contextual (maxDischargeDepth := 99) [superframeBoundary, hs]

@[simp] theorem kept_execSuperframeBoundary (s : State) (hs : Kept q c s) : KeptBy q c (execSuperframeBoundary s) := by
  simp [execSuperframeBoundary, hs]

@[simp] theorem kept_meshRx (s : State) (p : QPkt) (hs : Kept q c s) : Kept q c (meshRx s p) := by
  simp [meshRx, hs]

@[simp] theorem kept_drainHostOut (s : State) (x1 : Nat) (hs : Kept q c s) : Kept q c (drainHostOut s x1) := by
  induction x1 generalizing s with
  | zero => exact hs
  | succ n ih =>
    unfold drainHostOut
    split
    · exact hs
    · split
      · exact hs
      · split
        · split
          · exact hs
          · exact ih _ (by simp (maxDischargeDepth := 99) [hs])
        · have h2 := kept_takeQ s 11 hs
          revert h2
          generalize takeQ s 11 = r
          intro h2
          obtain ⟨s2, it⟩ := r
          apply ih
          dsimp only at h2 ⊢
          split <;> simp (maxDischargeDepth := 99) [h2]

@[simp] theorem kept_takeHostOut (s : State) (hs : Kept q c s) : Kept q c (takeHostOut s) := by
  simp [takeHostOut, hs]

@[simp] theorem kept_toHostOut (s : State) (p : QPkt) (hs : Kept q c s) : Kept q c (toHostOut s p) := by
  simp [toHostOut, hs]

@[simp] theorem kept_toConsumer (s : State) (p : QPkt) (hs : Kept q c s) : Kept q c (toConsumer s p) := by
  simp [toConsumer, hs]

@[simp] theorem kept_setHeld (s : State) (cls : Nat) (l : List QPkt) (hs : Kept q c s) : Kept q c (setHeld s cls l) := by
  simp [setHeld, hs]

@[simp] theorem kept_deliverHeld (s : State) (p : QPkt) (hs : Kept q c s) : Kept q c (deliverHeld s p) := by
  simp +contextual (maxDischargeDepth := 99) [deliverHeld, hs]

@[simp] theorem kept_flushHeld (s : State) (cls : Nat) (hs : Kept q c s) : Kept q c (flushHeld s cls) := by
  simp +contextual (maxDischargeDepth := 99) [flushHeld, hs]

@[simp] theorem kept_setOpSeq (s : State) (l : List Nat) (hs : Kept q c s) : Kept q c (setOpSeq s l) := by
  simp [setOpSeq, hs]

@[simp] theorem kept_sigVerified (s : State) (cls : Nat) (hs : Kept q c s) : Kept q c (sigVerified s cls) := by
  unfold sigVerified
  (try dsimp only)
  repeat' (first | with_reducible assumption | (simp +contextual (maxDischargeDepth := 99) [hs]; done) | (simp +contextual (maxDischargeDepth := 99) [hs, hk]; done) | split | refine kept_foldl _ _ _ ?_ (fun _ _ hk => ?_))

@[simp] theorem kept_noConsumer (s : State) (hs : Kept q c s) : Kept q c (noConsumer s) := by
  simp [noConsumer, hs]

@[simp] theorem kept_deliverRouting (s : State) (y : Option Nat) (priv : Bool) (c0 : Bytes) (hs : Kept q c s) :
    Kept q c (deliverRouting s y priv c0) := by
  unfold deliverRouting
  split <;> simp (maxDischargeDepth := 99) [hs]

@[simp] theorem kept_deliverJoin (s : State) (p : QPkt) (c0 : Bytes) (sec : Bool) (hs : Kept q c s) : Kept q c (deliverJoin s p c0 sec) := by
  unfold deliverJoin
  (try dsimp only)
  repeat' (first | with_reducible assumption | (simp +contextual (maxDischargeDepth := 99) [hs]; done) | (simp +contextual (maxDischargeDepth := 99) [hs, hk]; done) | split | refine kept_foldl _ _ _ ?_ (fun _ _ hk => ?_))

@[simp] theorem kept_deliver (s : State) (p : QPkt) (cls : Nat) (sec : Bool) (c0 : Bytes) (hs : Kept q c s) :
    Kept q c (deliver s p cls sec c0) := by
  unfold deliver
  (try dsimp only)
  repeat' (first | with_reducible assumption | (simp +contextual (maxDischargeDepth := 99) [hs]; done) | (simp +contextual (maxDischargeDepth := 99) [hs, hk]; done) | split | refine kept_foldl _ _ _ ?_ (fun _ _ hk => ?_))

@[simp] theorem kept_floodRx (s : State) (p : QPkt) (cls : Nat) (c0 : Bytes) (hs : Kept q c s) :
    Kept q c (floodRx s p cls c0) := by
  unfold floodRx
  split <;> simp (maxDischargeDepth := 99) [hs]

@[simp] theorem kept_floodOrigin (s : State) (p : QPkt) (hs : Kept q c s) : Kept q c (floodOrigin s p) := by
  simp +contextual (maxDischargeDepth := 99) [floodOrigin, hs]

@[simp] theorem kept_hostInTaken (s : State) (p : QPkt) (tag : Option (Nat × Nat)) (hs : Kept q c s) : Kept q c (hostInTaken s p tag) := by
  simp +contextual (maxDischargeDepth := 99) [hostInTaken, hs]

@[simp] theorem kept_hostInFront (s : State) (hs : Kept q c s) : Kept q c (hostInFront s) := by
  unfold hostInFront
  have h2 := kept_takeE s 10 hs
  revert h2
  generalize takeE s 10 = r
  intro h2
  obtain ⟨t, x⟩ := r
  dsimp only at h2 ⊢
  cases x with
  | none => simp [h2]
  | some e =>
    dsimp only
    split
    · simp [h2]
    · split
      · exact kept_foldl _ _ _ h2 fun _ _ hk => by simp [hk]
      · exact h2

@[simp] theorem kept_rxTaken (s : State) (p : QPkt) (hs : Kept q c s) : Kept q c (rxTaken s p) := by
  simp +contextual (maxDischargeDepth := 99) [rxTaken, hs]

@[simp] theorem kept_mrtHandle (s : State) (q0 : Nat) (hs : Kept q c s) : Kept q c (mrtHandle s q0) := by
  unfold mrtHandle
  split
  · exact hs
  · split
    · simp [hs]
    · have h2 := kept_takeQ s q0 hs
      revert h2
      generalize takeQ s q0 = r
      intro h2
      obtain ⟨t, x⟩ := r
      rcases x with _ | _ | _ <;> simp_all

@[simp] theorem kept_operatorVerified (s : State) (remote : Bool) (hs : Kept q c s) : Kept q c (operatorVerified s remote) := by
  unfold operatorVerified
  (try dsimp only)
  repeat' (first | with_reducible assumption | (simp +contextual (maxDischargeDepth := 99) [hs]; done) | (simp +contextual (maxDischargeDepth := 99) [hs, hk]; done) | split | refine kept_foldl _ _ _ ?_ (fun _ _ hk => ?_))

@[simp] theorem kept_execAdvertRx (ctx : BitVec 12) (body : Bytes) (s : State) (hs : Kept q c s) :
    KeptBy q c (execAdvertRx ctx body s) := by
  simp +contextual (maxDischargeDepth := 99) [execAdvertRx, hs]

@[simp] theorem kept_execRreqRx (ctx : BitVec 12) (body : Bytes) (s : State) (hs : Kept q c s) :
    KeptBy q c (execRreqRx ctx body s) := by
  simp +contextual (maxDischargeDepth := 99) [execRreqRx, hs]

@[simp] theorem kept_execRrepRx (ctx : BitVec 12) (body : Bytes) (s : State) (hs : Kept q c s) :
    KeptBy q c (execRrepRx ctx body s) := by
  simp +contextual (maxDischargeDepth := 99) [execRrepRx, hs]

@[simp] theorem kept_execRerrRx (ctx : BitVec 12) (body : Bytes) (s : State) (hs : Kept q c s) :
    KeptBy q c (execRerrRx ctx body s) := by
  simp +contextual (maxDischargeDepth := 99) [execRerrRx, hs]

@[simp] theorem kept_execAdvertPeriodic (s : State) (hs : Kept q c s) : KeptBy q c (execAdvertPeriodic s) := by
  simp +contextual (maxDischargeDepth := 99) [execAdvertPeriodic, hs]

@[simp] theorem kept_execRouteAgerVisit (dest : BitVec 16) (s : State) (hs : Kept q c s) :
    KeptBy q c (execRouteAgerVisit dest s) := by
  simp +contextual (maxDischargeDepth := 99) [execRouteAgerVisit, hs]

@[simp] theorem kept_execContextAgerVisit (ctx : BitVec 12) (s : State) (hs : Kept q c s) :
    KeptBy q c (execContextAgerVisit ctx s) := by
  simp +contextual (maxDischargeDepth := 99) [execContextAgerVisit, hs]

@[simp] theorem kept_execRreqTimeout (target : BitVec 16) (s : State) (hs : Kept q c s) :
    KeptBy q c (execRreqTimeout target s) := by
  simp [execRreqTimeout, hs]

@[simp] theorem kept_execJoinSearchEnd (s : State) (hs : Kept q c s) : KeptBy q c (execJoinSearchEnd s) := by
  simp [execJoinSearchEnd, hs]

@[simp] theorem kept_execJoinReqRx (port : Fin 5) (src : BitVec 16) (body : Bytes) (s : State) (hs : Kept q c s) :
    KeptBy q c (execJoinReqRx port src body s) := by
  simp +contextual (maxDischargeDepth := 99) [execJoinReqRx, hs]

@[simp] theorem kept_execAddrReqRx (body : Bytes) (s : State) (hs : Kept q c s) : KeptBy q c (execAddrReqRx body s) := by
  simp +contextual (maxDischargeDepth := 99) [execAddrReqRx, hs]

@[simp] theorem kept_execAddrGrantRx (body : Bytes) (s : State) (hs : Kept q c s) : KeptBy q c (execAddrGrantRx body s) := by
  simp +contextual (maxDischargeDepth := 99) [execAddrGrantRx, hs]

@[simp] theorem kept_execJoinAcceptRx (ctx : BitVec 12) (body : Bytes) (s : State) (hs : Kept q c s) :
    KeptBy q c (execJoinAcceptRx ctx body s) := by
  simp +contextual (maxDischargeDepth := 99) [execJoinAcceptRx, hs]

@[simp] theorem kept_execJoinDenyRx (port : Fin 5) (src : BitVec 16) (body : Bytes) (s : State) (hs : Kept q c s) :
    KeptBy q c (execJoinDenyRx port src body s) := by
  simp +contextual (maxDischargeDepth := 99) [execJoinDenyRx, hs]

@[simp] theorem kept_execJoinOfferTimeout (s : State) (hs : Kept q c s) : KeptBy q c (execJoinOfferTimeout s) := by
  unfold execJoinOfferTimeout
  repeat' split
  all_goals simp (maxDischargeDepth := 99) [hs]

@[simp] theorem kept_execJoinLifeExpiry (ctx : BitVec 12) (s : State) (hs : Kept q c s) :
    KeptBy q c (execJoinLifeExpiry ctx s) := by
  unfold execJoinLifeExpiry
  split <;> simp (maxDischargeDepth := 99) [hs]

@[simp] theorem kept_execJoinAcceptTimeout (s : State) (hs : Kept q c s) : KeptBy q c (execJoinAcceptTimeout s) := by
  unfold execJoinAcceptTimeout
  split <;> simp (maxDischargeDepth := 99) [hs]

end Sys2Proof.Machine
end

