-- ==== Sys2Proof/Laws/KeptStore.lean ====
section
/-! SUPPORT. `Kept` through memory, security, flash, power leave, modes: one lemma per operation. -/

set_option linter.all false

namespace Sys2Proof.Machine

variable {q : List Instr} {c : Chip}

@[simp] theorem kept_loadBody (s : State) (slot : Nat) (hs : Kept q c s) : Kept q c (loadBody s slot) := by
  simp [loadBody, hs]

@[simp] theorem kept_recordSlot (s : State) (slot : Nat) (cause : Nat) (hs : Kept q c s) :
    Kept q c (recordSlot s slot cause) := by
  simp [recordSlot, hs]

@[simp] theorem kept_coreReload (s : State) (hs : Kept q c s) : Kept q c (coreReload s) := by
  simp +contextual (maxDischargeDepth := 99) [coreReload, hs]

@[simp] theorem kept_imageFailed (s : State) (hs : Kept q c s) : Kept q c (imageFailed s) := by
  simp +contextual (maxDischargeDepth := 99) [imageFailed, hs]

@[simp] theorem kept_criticalPoison (s : State) (readOk : Bool) (hs : Kept q c s) : Kept q c (criticalPoison s readOk) := by
  unfold criticalPoison
  (try dsimp only)
  repeat' (first | with_reducible assumption | (simp +contextual (maxDischargeDepth := 99) [hs]; done) | (simp +contextual (maxDischargeDepth := 99) [hs, hk]; done) | split | refine kept_foldl _ _ _ ?_ (fun _ _ hk => ?_))

@[simp] theorem kept_scrubNext (s : State) (word : Nat) (inQueue : Bool) (hs : Kept q c s) :
    Kept q c (scrubNext s word inQueue) := by
  unfold scrubNext
  (try dsimp only)
  repeat' (first | with_reducible assumption | (simp +contextual (maxDischargeDepth := 99) [hs]; done) | (simp +contextual (maxDischargeDepth := 99) [hs, hk]; done) | split | refine kept_foldl _ _ _ ?_ (fun _ _ hk => ?_))

@[simp] theorem kept_putData (s : State) (w d : Nat) (hs : Kept q c s) : Kept q c (putData s w d) := by
  unfold putData
  split
  · exact hs
  · exact ⟨cellsWf_write _ _ _ _ hs.1, hs.2⟩

@[simp] theorem kept_scrubBuf (s : State) (w : Nat) (errs : List (Fin 275)) (hs : Kept q c s) : Kept q c (scrubBuf s w errs) := by
  simp [scrubBuf, hs]

@[simp] theorem kept_scrubMain (s : State) (w : Nat) (errs : List (Fin 275)) (readOk : Bool) (hs : Kept q c s) :
    Kept q c (scrubMain s w errs readOk) := by
  simp +contextual (maxDischargeDepth := 99) [scrubMain, hs]

@[simp] theorem kept_putQData (s : State) (q0 : Nat) (k : Nat) (j : Nat) (d : Nat) (hs : Kept q c s) : Kept q c (putQData s q0 k j d) := by
  simp [putQData, hs]

@[simp] theorem kept_scrubQueue (s : State) (x : Nat × Nat × Nat × Nat) (errs : List (Fin 275)) (hs : Kept q c s) :
    Kept q c (scrubQueue s x errs) := by
  unfold scrubQueue
  (try dsimp only)
  repeat' (first | with_reducible assumption | (simp +contextual (maxDischargeDepth := 99) [hs]; done) | (simp +contextual (maxDischargeDepth := 99) [hs, hk]; done) | split | refine kept_foldl _ _ _ ?_ (fun _ _ hk => ?_))

@[simp] theorem kept_scrubRead (s : State) (errs : List (Fin 275)) (readOk : Bool) (hs : Kept q c s) :
    Kept q c (scrubRead s errs readOk) := by
  unfold scrubRead
  (try dsimp only)
  repeat' (first | with_reducible assumption | (simp +contextual (maxDischargeDepth := 99) [hs]; done) | (simp +contextual (maxDischargeDepth := 99) [hs, hk]; done) | split | refine kept_foldl _ _ _ ?_ (fun _ _ hk => ?_))

@[simp] theorem kept_execScrubRead (errs : List (Fin 275)) (readOk : Bool) (s : State) (hs : Kept q c s) :
    KeptBy q c (execScrubRead errs readOk s) := by
  simp [execScrubRead, hs]

@[simp] theorem kept_hostInCopy (s : State) (lce : Bool) (hs : Kept q c s) : Kept q c (hostInCopy s lce) := by
  unfold hostInCopy
  split <;> simp (maxDischargeDepth := 99) [hs]

@[simp] theorem kept_execBankRequest (bank : Fin 16) (req : Fin 12) (words : Fin 8) (dt : Nat) (s : State) (hs : Kept q c s) :
    KeptBy q c (execBankRequest bank req words dt s) := by
  simp [execBankRequest, hs]

@[simp] theorem kept_execBankWithdraw (bank : Fin 16) (req : Fin 12) (dt : Nat) (s : State) (hs : Kept q c s) :
    KeptBy q c (execBankWithdraw bank req dt s) := by
  simp [execBankWithdraw, hs]

@[simp] theorem kept_execBurstComplete (bank : Fin 16) (s : State) (hs : Kept q c s) :
    KeptBy q c (execBurstComplete bank s) := by
  simp [execBurstComplete, hs]

@[simp] theorem kept_fixMark (s : State) (w : Nat) (hs : Kept q c s) : Kept q c (fixMark s w) := by
  unfold fixMark
  (try dsimp only)
  repeat' (first | with_reducible assumption | (simp +contextual (maxDischargeDepth := 99) [hs]; done) | (simp +contextual (maxDischargeDepth := 99) [hs, hk]; done) | split | refine kept_foldl _ _ _ ?_ (fun _ _ hk => ?_))

@[simp] theorem kept_writeBack (s : State) (hs : Kept q c s) : Kept q c (writeBack s) := by
  unfold writeBack
  (try dsimp only)
  repeat' (first | with_reducible assumption | (simp +contextual (maxDischargeDepth := 99) [hs]; done) | (simp +contextual (maxDischargeDepth := 99) [hs, hk]; done) | split | refine kept_foldl _ _ _ ?_ (fun _ _ hk => ?_))

@[simp] theorem kept_execEccWriteback (s : State) (hs : Kept q c s) : KeptBy q c (execEccWriteback s) := by
  simp [execEccWriteback, hs]

@[simp] theorem kept_certInstall (s : State) (c0 : Bytes) (hs : Kept q c s) : Kept q c (certInstall s c0).1 := by
  unfold certInstall
  (try dsimp only)
  repeat' (first | with_reducible assumption | (simp +contextual (maxDischargeDepth := 99) [hs]; done) | (simp +contextual (maxDischargeDepth := 99) [hs, hk]; done) | split | refine kept_foldl _ _ _ ?_ (fun _ _ hk => ?_))

@[simp] theorem kept_nodekeyGen (s : State) (hs : Kept q c s) : Kept q c (nodekeyGen s).1 := by
  simp [nodekeyGen, hs]

@[simp] theorem kept_keyInstall (s : State) (kind : Nat) (index : Nat) (domain : Nat) (pub : Bytes) (hs : Kept q c s) :
    Kept q c (keyInstall s kind index domain pub).1 := by
  unfold keyInstall
  repeat' split
  all_goals simp (maxDischargeDepth := 99) [hs]

@[simp] theorem kept_gkeySet (s : State) (id : Nat) (effect : Nat) (key : Bytes) (hs : Kept q c s) :
    Kept q c (gkeySet s id effect key).1 := by
  unfold gkeySet
  (try dsimp only)
  repeat' (first | with_reducible assumption | (simp +contextual (maxDischargeDepth := 99) [hs]; done) | (simp +contextual (maxDischargeDepth := 99) [hs, hk]; done) | split | refine kept_foldl _ _ _ ?_ (fun _ _ hk => ?_))

/-- Burning ROOTHASH clears none of its fuses. -/
theorem burnHash_keeps (o : Option Bytes) (d : Bytes) : leNat (o.getD []) &&& leNat ((burnHash o d).getD []) = leNat (o.getD []) := by
  have e : leNat ((burnHash o d).getD []) = leNat (o.getD []) ||| leNat d := by
    have hb : leNat (o.getD []) ||| leNat d < 256 ^ max (o.getD []).length d.length := by
      have hp : ∀ n, n ≤ max (o.getD []).length d.length → 2 ^ (8 * n) ≤ 2 ^ (8 * max (o.getD []).length d.length) :=
        fun n hn => Nat.pow_le_pow_right (by decide) (Nat.mul_le_mul_left 8 hn)
      have e8 : 256 ^ max (o.getD []).length d.length = 2 ^ (8 * max (o.getD []).length d.length) := by rw [Nat.pow_mul]
      rw [e8]
      exact Nat.or_lt_two_pow (Nat.lt_of_lt_of_le (leNat_lt _) (hp _ (Nat.le_max_left _ _)))
        (Nat.lt_of_lt_of_le (leNat_lt _) (hp _ (Nat.le_max_right _ _)))
    simp only [burnHash, hashFuses]
    split
    · rename_i h
      have h := leNat_zeros _ h
      rw [leNat_leBytes, Nat.mod_eq_of_lt hb] at h
      simp [h, leNat]
    · rw [Option.getD_some, leNat_leBytes, Nat.mod_eq_of_lt hb]
  rw [e]
  exact and_or_keeps _ (Nat.and_self _)

/-- Burning rollback fuses clears none. -/
theorem burnUpTo_keeps (level n fuses x : Nat) (h : x &&& fuses = x) : x &&& burnUpTo level n fuses = x := by
  induction n generalizing fuses with
  | zero => exact h
  | succ n ih =>
    unfold burnUpTo
    refine ih _ ?_
    split
    · exact and_or_keeps _ h
    · exact h

@[simp] theorem kept_burnFuses (s : State) (field : Nat) (data : Bytes) (level : Nat) (ok : Bool) (hs : Kept q c s) :
    Kept q c (burnFuses s field data level ok) := by
  have h0 : ∀ (d : Chip) (t : State), Kept q c t → FusesKept t.chip d → Kept q c { t with chip := d } := by
    intro d t h a
    refine ⟨h.1, h.2.1, h.2.2.1, h.2.2.2.1, ?_, h.2.2.2.2.2⟩
    obtain ⟨b1, b2, b3, b4, b5, b6, b7, b8, b9⟩ := h.fuses
    obtain ⟨a1, a2, a3, a4, a5, a6, a7, a8, a9⟩ := a
    exact ⟨a1.trans b1, a2.trans b2, a3.trans b3, a4.trans b4, by rw [← b5, Nat.and_assoc, a5], by rw [← b6, Nat.and_assoc, a6],
      by rw [← b7, Nat.and_assoc, a7], fun x => a8 (b8 x), fun x => a9 (b9 x)⟩
  have h1 : ∀ x y : Nat, x &&& (x ||| y) = x := fun x y => and_or_keeps y (Nat.and_self x)
  have h3 : ∀ l n f : Nat, f &&& burnUpTo l n f = f := fun l n f => burnUpTo_keeps l n f f (Nat.and_self f)
  unfold burnFuses
  cases ok
  · have h2 := kept_draw s hs
    dsimp only
    simp only [Bool.false_eq_true, ↓reduceIte]
    refine kept_keyEvent _ _ _ (kept_setFlag _ _ (h0 _ _ h2 ?_)) <;> split <;>
      simp +contextual [FusesKept, h1, hashBits, burnHash_keeps]
  · simp only [↓reduceIte]
    refine h0 _ _ hs ?_ <;> split <;> simp +contextual [FusesKept, h1, h3, hashBits, burnHash_keeps]

@[simp] theorem kept_burnNow (s : State) (hs : Kept q c s) : Kept q c (burnNow s) := by
  unfold burnNow
  split <;> simp (maxDischargeDepth := 99) [hs]

@[simp] theorem kept_burnRefused (s : State) (hs : Kept q c s) : Kept q c (burnRefused s) := by
  unfold burnRefused
  split <;> simp (maxDischargeDepth := 99) [hs]

@[simp] theorem kept_burnAsk (s : State) (hs : Kept q c s) : Kept q c (burnAsk s) := by
  simp [burnAsk, hs]

@[simp] theorem kept_sessionOpening (s : State) (n : Nat) (epk : Bytes) (hs : Kept q c s) :
    Kept q c (sessionOpening s n epk).1 := by
  simp +contextual (maxDischargeDepth := 99) [sessionOpening, hs]

@[simp] theorem kept_sessionProving (s : State) (n : Nat) (idx : Nat) (sig : Bytes) (hs : Kept q c s) :
    Kept q c (sessionProving s n idx sig).1 := by
  unfold sessionProving
  (try dsimp only)
  repeat' (first | with_reducible assumption | (simp +contextual (maxDischargeDepth := 99) [hs]; done) | (simp +contextual (maxDischargeDepth := 99) [hs, hk]; done) | split | refine kept_foldl _ _ _ ?_ (fun _ _ hk => ?_))

@[simp] theorem kept_sessionEnd (s : State) (n : Nat) (hs : Kept q c s) : Kept q c (sessionEnd s n) := by
  simp [sessionEnd, hs]

@[simp] theorem kept_putImage (s : State) (c0 : CfgRec) (hs : Kept q c s) : Kept q c (putImage s c0) := by
  simp [putImage, hs]

@[simp] theorem kept_calCommit (s : State) (hs : Kept q c s) : Kept q c (calCommit s) := by
  simp [calCommit, hs]

@[simp] theorem kept_cfgCommit (s : State) (hs : Kept q c s) : Kept q c (cfgCommit s) := by
  simp [cfgCommit, hs]

@[simp] theorem kept_commitCfg (s : State) (c0 : CfgRec) (hs : Kept q c s) : Kept q c (commitCfg s c0) := by
  simp [commitCfg, hs]

@[simp] theorem kept_saveCfg (s : State) (hs : Kept q c s) : Kept q c (saveCfg s) := by
  simp +contextual (maxDischargeDepth := 99) [saveCfg, hs]

@[simp] theorem kept_attest (s : State) (challenge : Bytes) (hs : Kept q c s) : Kept q c (attest s challenge).1 := by
  simp [attest, hs]

@[simp] theorem kept_attestNow (s : State) (hs : Kept q c s) : Kept q c (attestNow s) := by
  unfold attestNow
  (try dsimp only)
  repeat' (first | with_reducible assumption | (simp +contextual (maxDischargeDepth := 99) [hs]; done) | (simp +contextual (maxDischargeDepth := 99) [hs, hk]; done) | split | refine kept_foldl _ _ _ ?_ (fun _ _ hk => ?_))

@[simp] theorem kept_runSigs (s : State) (n : Nat) (hs : Kept q c s) : Kept q c (runSigs s n) := by
  simp [runSigs, hs]

@[simp] theorem kept_burstGranted (s : State) (hs : Kept q c s) : Kept q c (burstGranted s) := by
  simp [burstGranted, hs]

@[simp] theorem kept_pacedSlot (s : State) (hs : Kept q c s) : Kept q c (pacedSlot s) := by
  simp [pacedSlot, hs]

@[simp] theorem kept_burstDegraded (s : State) (hs : Kept q c s) : Kept q c (burstDegraded s) := by
  simp [burstDegraded, hs]

@[simp] theorem kept_burstFailed (s : State) (hs : Kept q c s) : Kept q c (burstFailed s) := by
  simp +contextual (maxDischargeDepth := 99) [burstFailed, hs]

@[simp] theorem kept_execRekeyReqRx (ctx : BitVec 12) (body : Bytes) (s : State) (hs : Kept q c s) :
    KeptBy q c (execRekeyReqRx ctx body s) := by
  simp +contextual (maxDischargeDepth := 99) [execRekeyReqRx, hs]

@[simp] theorem kept_execRekeyRespRx (ctx : BitVec 12) (body : Bytes) (s : State) (hs : Kept q c s) :
    KeptBy q c (execRekeyRespRx ctx body s) := by
  simp +contextual (maxDischargeDepth := 99) [execRekeyRespRx, hs]

@[simp] theorem kept_execRekeyRetry (ctx : BitVec 12) (s : State) (hs : Kept q c s) : KeptBy q c (execRekeyRetry ctx s) := by
  simp +contextual (maxDischargeDepth := 99) [execRekeyRetry, hs]

@[simp] theorem kept_execGkeyRx (ctx : BitVec 12) (body : Bytes) (s : State) (hs : Kept q c s) :
    KeptBy q c (execGkeyRx ctx body s) := by
  simp +contextual (maxDischargeDepth := 99) [execGkeyRx, hs]

@[simp] theorem kept_execTrngHealthFail (x0 : Unit) (s : State) (hs : Kept q c s) : KeptBy q c (execTrngHealthFail x0 s) := by
  simp +contextual (maxDischargeDepth := 99) [execTrngHealthFail, hs]

@[simp] theorem kept_trngStarts (s : State) (hs : Kept q c s) : Kept q c (trngStarts s) := by
  simp +contextual (maxDischargeDepth := 99) [trngStarts, hs]

@[simp] theorem kept_execSessionIdleExpiry (port : HostPort) (s : State) (hs : Kept q c s) :
    KeptBy q c (execSessionIdleExpiry port s) := by
  simp [execSessionIdleExpiry, hs]

@[simp] theorem kept_flashErase (s : State) (off : Nat) (len : Nat) (hs : Kept q c s) : Kept q c (flashErase s off len) := by
  exact ⟨hs.1, cellsWf_filter _ _ _ hs.2.1, hs.2.2⟩

@[simp] theorem kept_flashBegin (s : State) (f : FlashOp) (hs : Kept q c s) : Kept q c (flashBegin s f) := by
  simp [flashBegin, hs]

@[simp] theorem kept_flashFinish (s : State) (f : FlashOp) (status : Nat) (hs : Kept q c s) :
    Kept q c (flashFinish s f status) := by
  unfold flashFinish
  split <;> simp (maxDischargeDepth := 99) [hs]

@[simp] theorem kept_flashEffect (s : State) (f : FlashOp) (hs : Kept q c s) : Kept q c (flashEffect s f) := by
  simp +contextual (maxDischargeDepth := 99) [flashEffect, hs]

@[simp] theorem kept_flashComplete (s : State) (hs : Kept q c s) : Kept q c (flashComplete s) := by
  unfold flashComplete
  split <;> simp (maxDischargeDepth := 99) [hs]

@[simp] theorem kept_flashGranted (s : State) (hs : Kept q c s) : Kept q c (flashGranted s) := by
  simp [flashGranted, hs]

@[simp] theorem kept_flashRefused (s : State) (hs : Kept q c s) : Kept q c (flashRefused s) := by
  unfold flashRefused
  split <;> simp (maxDischargeDepth := 99) [hs]

@[simp] theorem kept_holdLeave (s : State) (r : LeaveReq) (cost : Nat) (hs : Kept q c s) : Kept q c (holdLeave s r cost) := by
  simp [holdLeave, hs]

@[simp] theorem kept_decided (s : State) (r : LeaveReq) (hs : Kept q c s) : Kept q c (decided s r) := by
  simp [decided, hs]

@[simp] theorem kept_onGrant (s : State) (r : LeaveReq) (hs : Kept q c s) : Kept q c (onGrant s r) := by
  unfold onGrant
  split <;> simp (maxDischargeDepth := 99) [hs]

@[simp] theorem kept_grant (s : State) (r : LeaveReq) (hs : Kept q c s) : Kept q c (grant s r) := by
  simp +contextual (maxDischargeDepth := 99) [grant, hs]

@[simp] theorem kept_degradeLine (s : State) (r : LeaveReq) (step : Nat) (hs : Kept q c s) :
    Kept q c (degradeLine s r step) := by
  simp +contextual (maxDischargeDepth := 99) [degradeLine, hs]

@[simp] theorem kept_degrade (s : State) (r : LeaveReq) (hs : Kept q c s) : Kept q c (degrade s r) := by
  unfold degrade
  split <;> simp (maxDischargeDepth := 99) [hs]

@[simp] theorem kept_failReq (s : State) (r : LeaveReq) (hs : Kept q c s) : Kept q c (failReq s r) := by
  unfold failReq
  (try dsimp only)
  repeat' (first | with_reducible assumption | (simp +contextual (maxDischargeDepth := 99) [hs]; done) | (simp +contextual (maxDischargeDepth := 99) [hs, hk]; done) | split | refine kept_foldl _ _ _ ?_ (fun _ _ hk => ?_))

@[simp] theorem kept_waitEnd (s : State) (r : LeaveReq) (hs : Kept q c s) : Kept q c (waitEnd s r) := by
  simp +contextual (maxDischargeDepth := 99) [waitEnd, hs]

@[simp] theorem kept_waitOrFail (s : State) (r : LeaveReq) (hs : Kept q c s) : Kept q c (waitOrFail s r) := by
  simp [waitOrFail, hs]

@[simp] theorem kept_refuse (s : State) (r : LeaveReq) (hs : Kept q c s) : Kept q c (refuse s r) := by
  unfold refuse
  (try dsimp only)
  repeat' (first | with_reducible assumption | (simp +contextual (maxDischargeDepth := 99) [hs]; done) | (simp +contextual (maxDischargeDepth := 99) [hs, hk]; done) | split | refine kept_foldl _ _ _ ?_ (fun _ _ hk => ?_))

@[simp] theorem kept_decideReq (s : State) (r : LeaveReq) (hs : Kept q c s) : Kept q c (decideReq s r) := by
  simp [decideReq, hs]

@[simp] theorem kept_decide1 (s : State) (req : Nat) (hs : Kept q c s) : Kept q c (decide1 s req) := by
  simp +contextual (maxDischargeDepth := 99) [decide1, hs]

@[simp] theorem kept_tidyLeave (s : State) (hs : Kept q c s) : Kept q c (tidyLeave s) := by
  simp [tidyLeave, hs]

@[simp] theorem kept_governor (s : State) (hs : Kept q c s) : Kept q c (governor s) := by
  simp +contextual (maxDischargeDepth := 99) [governor, hs]

@[simp] theorem kept_waitExpired (s : State) (req : Nat) (hs : Kept q c s) : Kept q c (waitExpired s req) := by
  unfold waitExpired
  (try dsimp only)
  repeat' (first | with_reducible assumption | (simp +contextual (maxDischargeDepth := 99) [hs]; done) | (simp +contextual (maxDischargeDepth := 99) [hs, hk]; done) | split | refine kept_foldl _ _ _ ?_ (fun _ _ hk => ?_))

@[simp] theorem kept_railFell (s : State) (rail : Nat) (hs : Kept q c s) : Kept q c (railFell s rail) := by
  simp +contextual (maxDischargeDepth := 99) [railFell, hs]

@[simp] theorem kept_latchCauses (s : State) (hs : Kept q c s) : Kept q c (latchCauses s) := by
  simp +contextual (maxDischargeDepth := 99) [latchCauses, hs]

@[simp] theorem kept_releaseReset (s : State) (pairId : Bool) (cmsnN : Bool) (hs : Kept q c s) :
    Kept q c (releaseReset s pairId cmsnN) := by
  simp +contextual (maxDischargeDepth := 99) [releaseReset, hs]

@[simp] theorem kept_holdParent (s : State) (hs : Kept q c s) : Kept q c (holdParent s) := by
  unfold holdParent
  split <;> simp (maxDischargeDepth := 99) [hs]

@[simp] theorem kept_loadCfg (s : State) (c0 : CfgRec) (hs : Kept q c s) : Kept q c (loadCfg s c0) := by
  unfold loadCfg
  have h2 : KeptOf q c (c0.cells.foldl (fun m x => cellSet (sramReset x.1) m x.1 x.2) s.sram) s.flash
      (c0.regs.foldl (fun m x => assocSet m x.1 x.2) s.regs) s.pending s.chip
      (s.lines.length :: s.tbu.dets.length :: s.lce.acts.length :: s.lce.locks.length :: 48 :: s.mqf.queues.length ::
       s.mqf.arbs.length :: s.hcp.ports.length :: s.hcp.srcs.length :: undoSizes s.pmu.race) := by
    refine ⟨cellsWf_foldl _ _ _ hs.1, hs.2.1, keysRise_foldl _ _ hs.regs, hs.pending, hs.fuses, ?_⟩
    have h3 := hs.sizes
    simp only [tableSizes] at h3
    simp_all
  have h4 : (table 48 0 c0.scan).length = 48 := by simp [table]
  simp (maxDischargeDepth := 99) [h2, h4]

@[simp] theorem kept_readCfg (s : State) (hs : Kept q c s) : Kept q c (readCfg s) := by
  unfold readCfg
  (try dsimp only)
  repeat' (first | with_reducible assumption | (simp +contextual (maxDischargeDepth := 99) [hs]; done) | (simp +contextual (maxDischargeDepth := 99) [hs, hk]; done) | split | refine kept_foldl _ _ _ ?_ (fun _ _ hk => ?_))

@[simp] theorem kept_startImage (s : State) (slot : Nat) (took : Nat) (hs : Kept q c s) : Kept q c (startImage s slot took) := by
  simp +contextual (maxDischargeDepth := 99) [startImage, hs]

@[simp] theorem kept_recordHeaders (s : State) (hs : Kept q c s) : Kept q c (recordHeaders s) := by
  simp +contextual (maxDischargeDepth := 99) [recordHeaders, hs]

@[simp] theorem kept_romIdle (s : State) (hs : Kept q c s) : Kept q c (romIdle s) := by
  simp [romIdle, hs]

@[simp] theorem kept_tryImage (s : State) (slot : Nat) (took : Nat) (hs : Kept q c s) : Kept q c (tryImage s slot took) := by
  simp +contextual (maxDischargeDepth := 99) [tryImage, hs]

@[simp] theorem kept_imageChecked (s : State) (slot : Nat) (r : ImageResult) (hs : Kept q c s) :
    Kept q c (imageChecked s slot r) := by
  simp +contextual (maxDischargeDepth := 99) [imageChecked, hs]

@[simp] theorem kept_roostEnter (s : State) (hs : Kept q c s) : Kept q c (roostEnter s) := by
  unfold roostEnter
  dsimp only
  generalize h3 : List.foldl _ (memWrite _ _ _) _ = t
  have h2 : Kept q c t := by
    rw [← h3]
    exact kept_foldl _ _ _ (kept_memWrite _ _ _ (kept_foldl _ _ _ (kept_clearCells _ hs) fun _ _ hk => kept_readMem _ _ _ hk))
      fun _ _ hk => by simp [hk]
  refine ⟨cellsWf_filter _ _ _ h2.1, h2.2.1, keysRise_filter _ _ h2.regs, h2.pending, h2.fuses, ?_⟩
  have h4 := h2.sizes
  simp only [tableSizes] at h4 ⊢
  simp_all [State.reset]

@[simp] theorem kept_exitPass (s : State) (hs : Kept q c s) : Kept q c (exitPass s) := by
  simp +contextual (maxDischargeDepth := 99) [exitPass, hs]

@[simp] theorem kept_unpark (s : State) (c0 : Nat) (hs : Kept q c s) : Kept q c (unpark s c0) := by
  simp +contextual (maxDischargeDepth := 99) [unpark, hs]

@[simp] theorem kept_queuesEmpty (s : State) (hs : Kept q c s) : Kept q c (queuesEmpty s) := by
  refine ⟨hs.1, hs.2.1, hs.regs, hs.pending, hs.fuses, ?_⟩
  have h := hs.sizes
  simp only [tableSizes] at h ⊢
  simp_all [queuesEmpty]

@[simp] theorem kept_roostLeave (s : State) (hs : Kept q c s) : Kept q c (roostLeave s) := by
  simp +contextual (maxDischargeDepth := 99) [roostLeave, hs]

@[simp] theorem kept_roostWoken (s : State) (di : Option (Nat × Bool)) (readOk : Bool) (hs : Kept q c s) :
    Kept q c (roostWoken s di readOk) := by
  simp +contextual (maxDischargeDepth := 99) [roostWoken, hs]

@[simp] theorem kept_driversOff (s : State) (hs : Kept q c s) : Kept q c (driversOff s) := by
  simp +contextual (maxDischargeDepth := 99) [driversOff, hs]

@[simp] theorem kept_endSweeps (s : State) (hs : Kept q c s) : Kept q c (endSweeps s) := by
  simp +contextual (maxDischargeDepth := 99) [endSweeps, hs]

@[simp] theorem kept_enterMode (s : State) (old : Mode) (new : Mode) (hs : Kept q c s) : Kept q c (enterMode s old new) := by
  unfold enterMode
  repeat' split
  all_goals simp (maxDischargeDepth := 99) [hs]

@[simp] theorem kept_noteBoot (s : State) (old : Mode) (hs : Kept q c s) : Kept q c (noteBoot s old) := by
  simp [noteBoot, hs]

@[simp] theorem kept_notePromotion (s : State) (kind : TransKind) (hs : Kept q c s) : Kept q c (notePromotion s kind) := by
  unfold notePromotion
  split <;> simp (maxDischargeDepth := 99) [hs]

@[simp] theorem kept_delayAfter (s : State) (kind : TransKind) (hs : Kept q c s) : Kept q c (delayAfter s kind) := by
  unfold delayAfter
  (try dsimp only)
  repeat' (first | with_reducible assumption | (simp +contextual (maxDischargeDepth := 99) [hs]; done) | (simp +contextual (maxDischargeDepth := 99) [hs, hk]; done) | split | refine kept_foldl _ _ _ ?_ (fun _ _ hk => ?_))

@[simp] theorem kept_noteTransition (s : State) (t : Trans) (old : Mode) (hs : Kept q c s) :
    Kept q c (noteTransition s t old) := by
  unfold noteTransition
  (try dsimp only)
  repeat' (first | with_reducible assumption | (simp +contextual (maxDischargeDepth := 99) [hs]; done) | (simp +contextual (maxDischargeDepth := 99) [hs, hk]; done) | split | refine kept_foldl _ _ _ ?_ (fun _ _ hk => ?_))

@[simp] theorem kept_transitionEnd (s : State) (hs : Kept q c s) : Kept q c (transitionEnd s) := by
  unfold transitionEnd
  split
  · exact hs
  · rename_i t _
    have h2 := kept_race s { s.pmu with mode := t.target, prev := s.pmu.mode, trans := none, race := none } rfl hs
    revert h2
    dsimp only
    generalize ({ s with pmu := { s.pmu with mode := t.target, prev := s.pmu.mode, trans := none, race := none } } : State) = r
    intro h2
    simp (maxDischargeDepth := 99) [h2]

@[simp] theorem kept_leaveSafehold (s : State) (target : Mode) (ok : Bool) (hs : Kept q c s) :
    Kept q c (leaveSafehold s target ok).1 := by
  unfold leaveSafehold
  repeat' split
  all_goals simp (maxDischargeDepth := 99) [hs]

@[simp] theorem kept_modeSet (s : State) (c0 : Nat) (hs : Kept q c s) : Kept q c (modeSet s c0).1 := by
  unfold modeSet
  repeat' split
  all_goals simp (maxDischargeDepth := 99) [hs]

@[simp] theorem kept_coreRestart (s : State) (hs : Kept q c s) : Kept q c (coreRestart s) := by
  simp +contextual (maxDischargeDepth := 99) [coreRestart, hs]

@[simp] theorem kept_watchdog (s : State) (hs : Kept q c s) : Kept q c (watchdog s) := by
  simp +contextual (maxDischargeDepth := 99) [watchdog, hs]

@[simp] theorem kept_noteTj (s : State) (tj : Nat) (hs : Kept q c s) : Kept q c (noteTj s tj) := by
  simp [noteTj, hs]

@[simp] theorem kept_readJunction (s : State) (tj : BitVec 12) (hs : Kept q c s) : Kept q c (readJunction s tj) := by
  simp +contextual (maxDischargeDepth := 99) [readJunction, hs]

@[simp] theorem kept_capSet (s : State) (hs : Kept q c s) : Kept q c (capSet s) := by
  simp +contextual (maxDischargeDepth := 99) [capSet, hs]

@[simp] theorem kept_capClear (s : State) (hs : Kept q c s) : Kept q c (capClear s) := by
  simp +contextual (maxDischargeDepth := 99) [capClear, hs]

@[simp] theorem kept_thermalOff (s : State) (hs : Kept q c s) : Kept q c (thermalOff s) := by
  simp [thermalOff, hs]

@[simp] theorem kept_resetWhenSent (s : State) (hs : Kept q c s) : Kept q c (resetWhenSent s) := by
  simp [resetWhenSent, hs]

@[simp] theorem kept_phaseSlot (s : State) (hs : Kept q c s) : Kept q c (phaseSlot s) := by
  simp +contextual (maxDischargeDepth := 99) [phaseSlot, hs]

@[simp] theorem kept_execSupplyUndervoltage (rail : Fin 4) (s : State) (hs : Kept q c s) :
    KeptBy q c (execSupplyUndervoltage rail s) := by
  simp [execSupplyUndervoltage, hs]

@[simp] theorem kept_execSupplyOvervoltage (rail : Fin 4) (s : State) (hs : Kept q c s) :
    KeptBy q c (execSupplyOvervoltage rail s) := by
  simp [execSupplyOvervoltage, hs]

@[simp] theorem kept_execResetNLow (s : State) (hs : Kept q c s) : KeptBy q c (execResetNLow s) := by
  simp [execResetNLow, hs]

@[simp] theorem kept_execClockLoss (_pll : Fin 4) (s : State) (hs : Kept q c s) : KeptBy q c (execClockLoss _pll s) := by
  simp [execClockLoss, hs]

@[simp] theorem kept_execRtckLoss (s : State) (hs : Kept q c s) : KeptBy q c (execRtckLoss s) := by
  simp [execRtckLoss, hs]

@[simp] theorem kept_execResetStretchStart (s : State) (hs : Kept q c s) : KeptBy q c (execResetStretchStart s) := by
  simp +contextual (maxDischargeDepth := 99) [execResetStretchStart, hs]

@[simp] theorem kept_execResetRelease (pairId : Bool) (cmsnN : Bool) (s : State) (hs : Kept q c s) :
    KeptBy q c (execResetRelease pairId cmsnN s) := by
  simp [execResetRelease, hs]

@[simp] theorem kept_execImageCheckDone (slot : Fin 2) (r : ImageResult) (s : State) (hs : Kept q c s) :
    KeptBy q c (execImageCheckDone slot r s) := by
  simp [execImageCheckDone, hs]

@[simp] theorem kept_execModeTransitionEnd (s : State) (hs : Kept q c s) : KeptBy q c (execModeTransitionEnd s) := by
  simp [execModeTransitionEnd, hs]

@[simp] theorem kept_execWatchdogExpiry (x0 : Unit) (s : State) (hs : Kept q c s) : KeptBy q c (execWatchdogExpiry x0 s) := by
  simp [execWatchdogExpiry, hs]

@[simp] theorem kept_execThermSafehold (tj : BitVec 12) (s : State) (hs : Kept q c s) :
    KeptBy q c (execThermSafehold tj s) := by
  simp +contextual (maxDischargeDepth := 99) [execThermSafehold, hs]

@[simp] theorem kept_execThermalShutdown (tj : BitVec 12) (s : State) (hs : Kept q c s) :
    KeptBy q c (execThermalShutdown tj s) := by
  simp +contextual (maxDischargeDepth := 99) [execThermalShutdown, hs]

@[simp] theorem kept_execThermalShutdownEnd (tj : BitVec 12) (s : State) (hs : Kept q c s) :
    KeptBy q c (execThermalShutdownEnd tj s) := by
  simp [execThermalShutdownEnd, hs]

@[simp] theorem kept_execThermalCapSet (tj : BitVec 12) (s : State) (hs : Kept q c s) :
    KeptBy q c (execThermalCapSet tj s) := by
  simp +contextual (maxDischargeDepth := 99) [execThermalCapSet, hs]

@[simp] theorem kept_execThermalCapClear (tj : BitVec 12) (s : State) (hs : Kept q c s) :
    KeptBy q c (execThermalCapClear tj s) := by
  simp +contextual (maxDischargeDepth := 99) [execThermalCapClear, hs]

@[simp] theorem kept_execRoostWake (di : Option (Fin 16 × Bool)) (readOk : Bool) (s : State) (hs : Kept q c s) :
    KeptBy q c (execRoostWake di readOk s) := by
  simp [execRoostWake, hs]

@[simp] theorem kept_execJtagSystemReset (s : State) (hs : Kept q c s) : KeptBy q c (execJtagSystemReset s) := by
  simp [execJtagSystemReset, hs]

end Sys2Proof.Machine
end

