-- ==== Sys2Proof/Laws/KeptHost.lean ====
section
/-! SUPPORT. `Kept` through registers as hosts reach them, the host port, the rows that name requests: one lemma per operation. -/

set_option linter.all false

namespace Sys2Proof.Machine

variable {q : List Instr} {c : Chip}

@[simp] theorem kept_setSrc (s : State) (x : Src) (v : SrcState) (hs : Kept q c s) : Kept q c (setSrc s x v) := by
  simp [setSrc, hs]

@[simp] theorem kept_latch (s : State) (src : Src) (base : Nat) (n : Nat) (hs : Kept q c s) :
    Kept q c (latch s src base n) := by
  unfold latch
  split <;> simp (maxDischargeDepth := 99) [hs]

@[simp] theorem kept_clearMqf (s : State) (base : Nat) (hs : Kept q c s) : Kept q c (clearMqf s base) := by
  unfold clearMqf
  split <;> simp (maxDischargeDepth := 99) [hs]

@[simp] theorem kept_clearRc (s : State) (r : RegDef) (n : Nat) (hs : Kept q c s) : Kept q c (clearRc s r n) := by
  simp +contextual (maxDischargeDepth := 99) [clearRc, hs]

@[simp] theorem kept_readReg (s : State) (src : Src) (a : Nat) (hs : Kept q c s) : Kept q c (readReg s src a).1 := by
  unfold readReg
  repeat' split
  all_goals simp (maxDischargeDepth := 99) [hs]

@[simp] theorem kept_readRegs (s : State) (src : Src) (a : Nat) (x3 : Nat) (hs : Kept q c s) :
    Kept q c (readRegs s src a x3).1 := by
  induction x3 generalizing s a with
  | zero => exact hs
  | succ n ih => exact ih _ _ (kept_readReg s src a hs)

@[simp] theorem kept_writeRejected (s : State) (base : Nat) (v : Nat) (hs : Kept q c s) :
    Kept q c (writeRejected s base v) := by
  unfold writeRejected
  split <;> simp (maxDischargeDepth := 99) [hs]

@[simp] theorem kept_storeField (s : State) (v : Nat) (f : Field) (hs : Kept q c s) : Kept q c (storeField s v f) := by
  unfold storeField
  repeat' split
  all_goals simp (maxDischargeDepth := 99) [hs]

@[simp] theorem kept_takeRoot (s : State) (hs : Kept q c s) : Kept q c (takeRoot s) := by
  simp +contextual (maxDischargeDepth := 99) [takeRoot, hs]

@[simp] theorem kept_tbuAct (old : State) (s : State) (src : Src) (a : Nat) (v : Nat) (hold : Kept q c old) (hs : Kept q c s) :
    Kept q c (tbuAct old s src a v) := by
  unfold tbuAct
  split <;> simp (maxDischargeDepth := 99) [hold, hs]

@[simp] theorem kept_lphyAct (s : State) (a : Nat) (n : Nat) (v : Nat) (hs : Kept q c s) : Kept q c (lphyAct s a n v) := by
  simp +contextual (maxDischargeDepth := 99) [lphyAct, hs]

@[simp] theorem kept_sfmAct (s : State) (a : Nat) (v : Nat) (hs : Kept q c s) : Kept q c (sfmAct s a v) := by
  unfold sfmAct
  split <;> simp (maxDischargeDepth := 99) [hs]

@[simp] theorem kept_ftCommit (s : State) (w : Nat) (hs : Kept q c s) : Kept q c (ftCommit s w) := by
  simp +contextual (maxDischargeDepth := 99) [ftCommit, hs]

@[simp] theorem kept_mrtAct (s : State) (src : Src) (a : Nat) (v : Nat) (hs : Kept q c s) : Kept q c (mrtAct s src a v) := by
  unfold mrtAct
  split <;> simp (maxDischargeDepth := 99) [hs]

@[simp] theorem kept_mfeWrite (old : State) (s : State) (src : Src) (a : Nat) (v : Nat) (hold : Kept q c old) (hs : Kept q c s) :
    Kept q c (mfeWrite old s src a v) := by
  simp [mfeWrite, hold, hs]

@[simp] theorem kept_lpaAct (s : State) (base : Nat) (n : Nat) (hs : Kept q c s) : Kept q c (lpaAct s base n) := by
  simp +contextual (maxDischargeDepth := 99) [lpaAct, hs]

@[simp] theorem kept_writeAct' (old : State) (s : State) (src : Src) (base : Nat) (n : Nat) (v : Nat) (vd : Verdicts) (hold : Kept q c old) (hs : Kept q c s) :
    Kept q c (writeAct' old s src base n v vd) := by
  unfold writeAct'
  split <;> simp (maxDischargeDepth := 99) [hold, hs]

@[simp] theorem kept_writeReg (s : State) (src : Src) (a : Nat) (v : Nat) (vd : Verdicts) (hs : Kept q c s) :
    Kept q c (writeReg s src a v vd).1 := by
  unfold writeReg
  (try dsimp only)
  repeat' (first | with_reducible assumption | (simp +contextual (maxDischargeDepth := 99) [hs]; done) | (simp +contextual (maxDischargeDepth := 99) [hs, hk]; done) | split | refine kept_foldl _ _ _ ?_ (fun _ _ hk => ?_))

@[simp] theorem kept_writeRegs (s : State) (src : Src) (a : Nat) (vd : Verdicts) (x4 : List Nat) (x5 : Nat) (hs : Kept q c s) :
    Kept q c (writeRegs s src a vd x4 x5).1 := by
  induction x4 generalizing s a x5 with
  | nil => exact hs
  | cons v t ih =>
    unfold writeRegs
    dsimp only
    split
    · exact kept_writeReg s src a v vd hs
    · exact ih _ _ _ (kept_writeReg s src a v vd hs)

@[simp] theorem kept_mirContext (s : State) (a : Nat) (d : Bytes) (hs : Kept q c s) : Kept q c (mirContext s a d) := by
  simp +contextual (maxDischargeDepth := 99) [mirContext, hs]

@[simp] theorem kept_mirMem (s : State) (a : Nat) (d : Bytes) (hs : Kept q c s) : Kept q c (mirMem s a d) := by
  simp +contextual (maxDischargeDepth := 99) [mirMem, hs]

@[simp] theorem kept_mirEffect (old : State) (s : State) (k : Nat) (hold : Kept q c old) (hs : Kept q c s) :
    Kept q c (mirEffect old s k) := by
  simp +contextual (maxDischargeDepth := 99) [mirEffect, hold, hs]

@[simp] theorem kept_mirField (s : State) (k : Nat) (v : Option Nat) (hs : Kept q c s) : Kept q c (mirField s k v) := by
  unfold mirField
  have h := kept_keepMeas s (k / 32 % 0x100000) hs
  revert h
  dsimp only
  generalize keepMeas s (k / 32 % 0x100000) = t
  intro h
  refine kept_mirEffect _ _ _ h ?_
  cases v with
  | none => exact ⟨h.1, h.2.1, keysRise_erase _ _ h.regs, h.2.2.2⟩
  | some x => exact ⟨h.1, h.2.1, keysRise_set _ _ _ h.regs, h.2.2.2⟩

@[simp] theorem kept_mirFields (s : State) (lo : Nat) (hi0 : Option Nat) (l : List (Nat × Nat)) (hs : Kept q c s) :
    Kept q c (mirFields s lo hi0 l) := by
  simp +contextual (maxDischargeDepth := 99) [mirFields, hs]

@[simp] theorem kept_mirKeys (s : State) (k : KeyMirror) (hs : Kept q c s) : Kept q c (mirKeys s k) := by
  simp [mirKeys, hs]

@[simp] theorem kept_mirTick (s : State) (t : Nat) (hs : Kept q c s) : Kept q c (mirTick s t) := by
  simp [mirTick, hs]

@[simp] theorem kept_mirAct (s : State) (i : Nat) (a : Act) (hs : Kept q c s) : Kept q c (mirAct s i a) := by
  simp [mirAct, hs]

@[simp] theorem kept_mirLock (s : State) (i : Nat) (l : Lock) (hs : Kept q c s) : Kept q c (mirLock s i l) := by
  simp [mirLock, hs]

@[simp] theorem kept_mirRule (s : State) (i : Nat) (r : Option Rule) (hs : Kept q c s) : Kept q c (mirRule s i r) := by
  simp [mirRule, hs]

@[simp] theorem kept_mirSeq (s : State) (i : Nat) (q0 : Option Seq) (hs : Kept q c s) : Kept q c (mirSeq s i q0) := by
  simp [mirSeq, hs]

@[simp] theorem kept_mirSlots (s : State) (active : Nat) (lo : Nat) (hi0 : Option Nat) (l : List (Nat × Nat)) (hs : Kept q c s) :
    Kept q c (mirSlots s active lo hi0 l) := by
  simp [mirSlots, hs]

@[simp] theorem kept_mirMrt (s : State) (m : MrtMirror) (hs : Kept q c s) : Kept q c (mirMrt s m) := by
  simp +contextual (maxDischargeDepth := 99) [mirMrt, hs]

@[simp] theorem kept_applyRec (s : State) (r : MirRec) (hs : Kept q c s) : Kept q c (applyRec s r) := by
  unfold applyRec
  (try dsimp only)
  repeat' (first | with_reducible assumption | (simp +contextual (maxDischargeDepth := 99) [hs]; done) | (simp +contextual (maxDischargeDepth := 99) [hs, hk]; done) | split | refine kept_foldl _ _ _ ?_ (fun _ _ hk => ?_))

@[simp] theorem kept_applyMsg (s : State) (b : Bytes) (hs : Kept q c s) : Kept q c (applyMsg s b) := by
  unfold applyMsg
  (try dsimp only)
  repeat' (first | with_reducible assumption | (simp +contextual (maxDischargeDepth := 99) [hs]; done) | (simp +contextual (maxDischargeDepth := 99) [hs, hk]; done) | split | refine kept_foldl _ _ _ ?_ (fun _ _ hk => ?_))

@[simp] theorem kept_nakFrame (s : State) (hs : Kept q c s) : Kept q c (nakFrame s) := by
  simp [nakFrame, hs]

@[simp] theorem kept_mirrorLost (s : State) (hs : Kept q c s) : Kept q c (mirrorLost s) := by
  simp [mirrorLost, hs]

@[simp] theorem kept_applyQueued (s : State) (x1 : Nat) (hs : Kept q c s) : Kept q c (applyQueued s x1) := by
  induction x1 generalizing s with
  | zero => exact hs
  | succ n ih =>
    unfold applyQueued
    split
    · exact hs
    · have h2 := kept_takeQ s 13 hs
      revert h2
      generalize takeQ s 13 = r
      intro h2
      obtain ⟨t, it⟩ := r
      dsimp only at h2 ⊢
      refine ih _ ?_
      split <;> simp (maxDischargeDepth := 99) [h2]

@[simp] theorem kept_applyFrame (s : State) (lseq : Nat) (body : Bytes) (hs : Kept q c s) : Kept q c (applyFrame s lseq body) := by
  simp [applyFrame, hs]

@[simp] theorem kept_recordRx (s : State) (lseq : Nat) (body : Bytes) (hs : Kept q c s) : Kept q c (recordRx s lseq body) := by
  simp +contextual (maxDischargeDepth := 99) [recordRx, hs]

@[simp] theorem kept_chunkRx (s : State) (lseq : Nat) (body : Bytes) (hs : Kept q c s) : Kept q c (chunkRx s lseq body) := by
  simp +contextual (maxDischargeDepth := 99) [chunkRx, hs]

@[simp] theorem kept_goodFrame (s : State) (type : Nat) (lseq : Nat) (body : Bytes) (hs : Kept q c s) :
    Kept q c (goodFrame s type lseq body) := by
  unfold goodFrame
  (try dsimp only)
  repeat' (first | with_reducible assumption | (simp +contextual (maxDischargeDepth := 99) [hs]; done) | (simp +contextual (maxDischargeDepth := 99) [hs, hk]; done) | split | refine kept_foldl _ _ _ ?_ (fun _ _ hk => ?_))

@[simp] theorem kept_spoiltFrame (s : State) (b : Option Bytes) (hs : Kept q c s) : Kept q c (spoiltFrame s b) := by
  simp +contextual (maxDischargeDepth := 99) [spoiltFrame, hs]

@[simp] theorem kept_frameRx (s : State) (rx : ErfRx) (hs : Kept q c s) : Kept q c (frameRx s rx) := by
  unfold frameRx
  (try dsimp only)
  repeat' (first | with_reducible assumption | (simp +contextual (maxDischargeDepth := 99) [hs]; done) | (simp +contextual (maxDischargeDepth := 99) [hs, hk]; done) | split | refine kept_foldl _ _ _ ?_ (fun _ _ hk => ?_))

@[simp] theorem kept_execHeartbeatRx (rx : ErfRx) (x1 : Unit) (s : State) (hs : Kept q c s) : KeptBy q c (execHeartbeatRx rx x1 s) := by
  simp [execHeartbeatRx, hs]

@[simp] theorem kept_execMirrorRecordRx (rx : ErfRx) (x1 : Unit) (x2 : Unit) (s : State) (hs : Kept q c s) :
    KeptBy q c (execMirrorRecordRx rx x1 x2 s) := by
  simp [execMirrorRecordRx, hs]

@[simp] theorem kept_execCopyChunkRx (rx : ErfRx) (x1 : Unit) (x2 : Unit) (x3 : Unit) (s : State) (hs : Kept q c s) :
    KeptBy q c (execCopyChunkRx rx x1 x2 x3 s) := by
  simp [execCopyChunkRx, hs]

@[simp] theorem kept_doPing (s : State) (c0 : Current) (hs : Kept q c s) : Kept q c (doPing s c0).1 := by
  simp [doPing, hs]

@[simp] theorem kept_doRegRead (s : State) (c0 : Current) (hs : Kept q c s) : Kept q c (doRegRead s c0).1 := by
  unfold doRegRead
  (try dsimp only)
  repeat' (first | with_reducible assumption | (simp +contextual (maxDischargeDepth := 99) [hs]; done) | (simp +contextual (maxDischargeDepth := 99) [hs, hk]; done) | split | refine kept_foldl _ _ _ ?_ (fun _ _ hk => ?_))

@[simp] theorem kept_doRegWrite (s : State) (c0 : Current) (hs : Kept q c s) : Kept q c (doRegWrite s c0).1 := by
  unfold doRegWrite
  (try dsimp only)
  repeat' (first | with_reducible assumption | (simp +contextual (maxDischargeDepth := 99) [hs]; done) | (simp +contextual (maxDischargeDepth := 99) [hs, hk]; done) | split | refine kept_foldl _ _ _ ?_ (fun _ _ hk => ?_))

@[simp] theorem kept_doSubscribe (s : State) (c0 : Current) (hs : Kept q c s) : Kept q c (doSubscribe s c0).1 := by
  simp +contextual (maxDischargeDepth := 99) [doSubscribe, hs]

@[simp] theorem kept_doPortConfig (s : State) (c0 : Current) (hs : Kept q c s) : Kept q c (doPortConfig s c0).1 := by
  simp [doPortConfig, hs]

@[simp] theorem kept_doSessionOpen (s : State) (c0 : Current) (hs : Kept q c s) : Kept q c (doSessionOpen s c0).1 := by
  unfold doSessionOpen
  split <;> simp (maxDischargeDepth := 99) [hs]

@[simp] theorem kept_doSessionProve (s : State) (c0 : Current) (hs : Kept q c s) : Kept q c (doSessionProve s c0).1 := by
  unfold doSessionProve
  (try dsimp only)
  repeat' (first | with_reducible assumption | (simp +contextual (maxDischargeDepth := 99) [hs]; done) | (simp +contextual (maxDischargeDepth := 99) [hs, hk]; done) | split | refine kept_foldl _ _ _ ?_ (fun _ _ hk => ?_))

@[simp] theorem kept_doMeshSend (s : State) (c0 : Current) (hs : Kept q c s) : Kept q c (doMeshSend s c0).1 := by
  unfold doMeshSend
  (try dsimp only)
  repeat' (first | with_reducible assumption | (simp +contextual (maxDischargeDepth := 99) [hs]; done) | (simp +contextual (maxDischargeDepth := 99) [hs, hk]; done) | split | refine kept_foldl _ _ _ ?_ (fun _ _ hk => ?_))

@[simp] theorem kept_doMapRead (s : State) (c0 : Current) (hs : Kept q c s) : Kept q c (doMapRead s c0).1 := by
  unfold doMapRead
  (try dsimp only)
  repeat' (first | with_reducible assumption | (simp +contextual (maxDischargeDepth := 99) [hs]; done) | (simp +contextual (maxDischargeDepth := 99) [hs, hk]; done) | split | refine kept_foldl _ _ _ ?_ (fun _ _ hk => ?_))

@[simp] theorem kept_doSweepRead (s : State) (c0 : Current) (hs : Kept q c s) : Kept q c (doSweepRead s c0).1 := by
  unfold doSweepRead
  (try dsimp only)
  repeat' (first | with_reducible assumption | (simp +contextual (maxDischargeDepth := 99) [hs]; done) | (simp +contextual (maxDischargeDepth := 99) [hs, hk]; done) | split | refine kept_foldl _ _ _ ?_ (fun _ _ hk => ?_))

@[simp] theorem kept_doContextRead (s : State) (c0 : Current) (hs : Kept q c s) : Kept q c (doContextRead s c0).1 := by
  unfold doContextRead
  (try dsimp only)
  repeat' (first | with_reducible assumption | (simp +contextual (maxDischargeDepth := 99) [hs]; done) | (simp +contextual (maxDischargeDepth := 99) [hs, hk]; done) | split | refine kept_foldl _ _ _ ?_ (fun _ _ hk => ?_))

@[simp] theorem kept_sendFragments (s : State) (x1 : Nat) (hs : Kept q c s) : Kept q c (sendFragments s x1) := by
  induction x1 generalizing s with
  | zero => exact hs
  | succ n ih =>
    unfold sendFragments
    dsimp only
    split
    · exact hs
    · split
      · exact hs
      · split
        · simp (maxDischargeDepth := 99) [hs]
        · repeat' (first | (apply ih; simp (maxDischargeDepth := 99) [hs]; done) | (simp (maxDischargeDepth := 99) [hs]; done) | split)

@[simp] theorem kept_doGalleryRead (s : State) (c0 : Current) (hs : Kept q c s) : Kept q c (doGalleryRead s c0).1 := by
  unfold doGalleryRead
  (try dsimp only)
  repeat' (first | with_reducible assumption | (simp +contextual (maxDischargeDepth := 99) [hs]; done) | (simp +contextual (maxDischargeDepth := 99) [hs, hk]; done) | split | refine kept_foldl _ _ _ ?_ (fun _ _ hk => ?_))

@[simp] theorem kept_doAddrReserve (s : State) (c0 : Current) (hs : Kept q c s) : Kept q c (doAddrReserve s c0).1 := by
  unfold doAddrReserve
  (try dsimp only)
  repeat' (first | with_reducible assumption | (simp +contextual (maxDischargeDepth := 99) [hs]; done) | (simp +contextual (maxDischargeDepth := 99) [hs, hk]; done) | split | refine kept_foldl _ _ _ ?_ (fun _ _ hk => ?_))

@[simp] theorem kept_doAddrRelease (s : State) (c0 : Current) (hs : Kept q c s) : Kept q c (doAddrRelease s c0).1 := by
  unfold doAddrRelease
  split <;> simp (maxDischargeDepth := 99) [hs]

@[simp] theorem kept_doLateralOpen (s : State) (c0 : Current) (hs : Kept q c s) : Kept q c (doLateralOpen s c0).1 := by
  unfold doLateralOpen
  (try dsimp only)
  repeat' (first | with_reducible assumption | (simp +contextual (maxDischargeDepth := 99) [hs]; done) | (simp +contextual (maxDischargeDepth := 99) [hs, hk]; done) | split | refine kept_foldl _ _ _ ?_ (fun _ _ hk => ?_))

@[simp] theorem kept_lateralBegin (s : State) (c0 : Current) (hs : Kept q c s) : Kept q c (lateralBegin s c0) := by
  unfold lateralBegin
  split <;> simp (maxDischargeDepth := 99) [hs]

@[simp] theorem kept_doFit (s : State) (c0 : Current) (hs : Kept q c s) : Kept q c (doFit s c0).1 := by
  simp [doFit, hs]

@[simp] theorem kept_doLceOps (s : State) (c0 : Current) (hs : Kept q c s) : Kept q c (doLceOps s c0).1 := by
  unfold doLceOps
  (try dsimp only)
  repeat' (first | with_reducible assumption | (simp +contextual (maxDischargeDepth := 99) [hs]; done) | (simp +contextual (maxDischargeDepth := 99) [hs, hk]; done) | split | refine kept_foldl _ _ _ ?_ (fun _ _ hk => ?_))

@[simp] theorem kept_doAttest (s : State) (c0 : Current) (hs : Kept q c s) : Kept q c (doAttest s c0).1 := by
  unfold doAttest
  split <;> simp (maxDischargeDepth := 99) [hs]

@[simp] theorem kept_doNodekeyGen (s : State) (hs : Kept q c s) : Kept q c (doNodekeyGen s).1 := by
  unfold doNodekeyGen
  split <;> simp (maxDischargeDepth := 99) [hs]

@[simp] theorem kept_doCertInstall (s : State) (c0 : Current) (hs : Kept q c s) : Kept q c (doCertInstall s c0).1 := by
  simp [doCertInstall, hs]

@[simp] theorem kept_doKeyInstall (s : State) (c0 : Current) (hs : Kept q c s) : Kept q c (doKeyInstall s c0).1 := by
  simp [doKeyInstall, hs]

@[simp] theorem kept_doGkeySet (s : State) (c0 : Current) (hs : Kept q c s) : Kept q c (doGkeySet s c0).1 := by
  simp [doGkeySet, hs]

@[simp] theorem kept_doRekey (s : State) (c0 : Current) (hs : Kept q c s) : Kept q c (doRekey s c0).1 := by
  unfold doRekey
  (try dsimp only)
  repeat' (first | with_reducible assumption | (simp +contextual (maxDischargeDepth := 99) [hs]; done) | (simp +contextual (maxDischargeDepth := 99) [hs, hk]; done) | split | refine kept_foldl _ _ _ ?_ (fun _ _ hk => ?_))

@[simp] theorem kept_doOtpBurn (s : State) (c0 : Current) (hs : Kept q c s) : Kept q c (doOtpBurn s c0).1 := by
  unfold doOtpBurn
  split <;> simp (maxDischargeDepth := 99) [hs]

@[simp] theorem kept_doRollback (s : State) (hs : Kept q c s) : Kept q c (doRollback s).1 := by
  unfold doRollback
  (try dsimp only)
  repeat' (first | with_reducible assumption | (simp +contextual (maxDischargeDepth := 99) [hs]; done) | (simp +contextual (maxDischargeDepth := 99) [hs, hk]; done) | split | refine kept_foldl _ _ _ ?_ (fun _ _ hk => ?_))

@[simp] theorem kept_doFlashErase (s : State) (c0 : Current) (hs : Kept q c s) : Kept q c (doFlashErase s c0).1 := by
  unfold doFlashErase
  (try dsimp only)
  repeat' (first | with_reducible assumption | (simp +contextual (maxDischargeDepth := 99) [hs]; done) | (simp +contextual (maxDischargeDepth := 99) [hs, hk]; done) | split | refine kept_foldl _ _ _ ?_ (fun _ _ hk => ?_))

@[simp] theorem kept_doFlashWrite (s : State) (c0 : Current) (hs : Kept q c s) : Kept q c (doFlashWrite s c0).1 := by
  unfold doFlashWrite
  (try dsimp only)
  repeat' (first | with_reducible assumption | (simp +contextual (maxDischargeDepth := 99) [hs]; done) | (simp +contextual (maxDischargeDepth := 99) [hs, hk]; done) | split | refine kept_foldl _ _ _ ?_ (fun _ _ hk => ?_))

@[simp] theorem kept_doConfigSave (s : State) (hs : Kept q c s) : Kept q c (doConfigSave s).1 := by
  simp [doConfigSave, hs]

@[simp] theorem kept_doFlashRead (s : State) (c0 : Current) (hs : Kept q c s) : Kept q c (doFlashRead s c0).1 := by
  unfold doFlashRead
  (try dsimp only)
  repeat' (first | with_reducible assumption | (simp +contextual (maxDischargeDepth := 99) [hs]; done) | (simp +contextual (maxDischargeDepth := 99) [hs, hk]; done) | split | refine kept_foldl _ _ _ ?_ (fun _ _ hk => ?_))

@[simp] theorem kept_doOp (s : State) (c0 : Current) (hs : Kept q c s) : Kept q c (doOp s c0).1 := by
  unfold doOp
  split <;> simp (maxDischargeDepth := 99) [hs]

@[simp] theorem kept_markLast (s : State) (n : Nat) (then_ : Nat) (hs : Kept q c s) : Kept q c (markLast s n then_) := by
  unfold markLast
  (try dsimp only)
  repeat' (first | with_reducible assumption | (simp +contextual (maxDischargeDepth := 99) [hs]; done) | (simp +contextual (maxDischargeDepth := 99) [hs, hk]; done) | split | refine kept_foldl _ _ _ ?_ (fun _ _ hk => ?_))

@[simp] theorem kept_netConfig (s : State) (p : Bytes) (hs : Kept q c s) : Kept q c (netConfig s p) := by
  simp +contextual (maxDischargeDepth := 99) [netConfig, hs]

@[simp] theorem kept_portConfig (s : State) (p : Bytes) (hs : Kept q c s) : Kept q c (portConfig s p) := by
  simp +contextual (maxDischargeDepth := 99) [portConfig, hs]

@[simp] theorem kept_afterReply (s : State) (c0 : Current) (st : Nat) (hs : Kept q c s) : Kept q c (afterReply s c0 st) := by
  unfold afterReply
  repeat' split
  all_goals simp (maxDischargeDepth := 99) [hs]

@[simp] theorem kept_answerOp (s : State) (c0 : Current) (hs : Kept q c s) : Kept q c (answerOp s c0) := by
  unfold answerOp
  (try dsimp only)
  repeat' (first | with_reducible assumption | (simp +contextual (maxDischargeDepth := 99) [hs]; done) | (simp +contextual (maxDischargeDepth := 99) [hs, hk]; done) | split | refine kept_foldl _ _ _ ?_ (fun _ _ hk => ?_))

@[simp] theorem kept_runReq (s : State) (c0 : Current) (hs : Kept q c s) : Kept q c (runReq s c0) := by
  unfold runReq
  (try dsimp only)
  repeat' (first | with_reducible assumption | (simp +contextual (maxDischargeDepth := 99) [hs]; done) | (simp +contextual (maxDischargeDepth := 99) [hs, hk]; done) | split | refine kept_foldl _ _ _ ?_ (fun _ _ hk => ?_))

@[simp] theorem kept_secStep (s : State) (x1 : SecJob) (hs : Kept q c s) : Kept q c (secStep s x1) := by
  unfold secStep
  (try dsimp only)
  repeat' (first | with_reducible assumption | (simp +contextual (maxDischargeDepth := 99) [hs]; done) | (simp +contextual (maxDischargeDepth := 99) [hs, hk]; done) | split | refine kept_foldl _ _ _ ?_ (fun _ _ hk => ?_))

@[simp] theorem kept_secDrain (s : State) (n : Nat) (hs : Kept q c s) : Kept q c (secDrain s n) := by
  induction n generalizing s with
  | zero => exact hs
  | succ n ih =>
    unfold secDrain
    (try dsimp only)
    repeat' (first | with_reducible assumption | (simp +contextual (maxDischargeDepth := 99) [hs, ih]; done) | split | (refine ih _ ?_) | (refine ih _ _ ?_) | (refine ih _ _ _ ?_) | refine kept_foldl _ _ _ ?_ (fun _ _ hk => ?_))

@[simp] theorem kept_secRun (s : State) (hs : Kept q c s) : Kept q c (secRun s) := by
  simp [secRun, hs]

@[simp] theorem kept_lateHostCause (s : State) (st : Nat) (op : Nat) (params : Bytes) (hs : Kept q c s) :
    Kept q c (lateHostCause s st op params) := by
  simp [lateHostCause, hs]

@[simp] theorem kept_turnAway (s : State) (c0 : Current) (st : Nat) (hs : Kept q c s) : Kept q c (turnAway s c0 st) := by
  simp [turnAway, hs]

@[simp] theorem kept_replyStatus (s : State) (q0 : Req) (auth : Bool) (params : Bytes) (hs : Kept q c s) :
    Kept q c (replyStatus s q0 auth params) := by
  simp [replyStatus, hs]

@[simp] theorem kept_handleReq (s : State) (q0 : Req) (hs : Kept q c s) : Kept q c (handleReq s q0) := by
  unfold handleReq
  (try dsimp only)
  repeat' (first | with_reducible assumption | (simp +contextual (maxDischargeDepth := 99) [hs]; done) | (simp +contextual (maxDischargeDepth := 99) [hs, hk]; done) | split | refine kept_foldl _ _ _ ?_ (fun _ _ hk => ?_))

@[simp] theorem kept_spoiltReq (s : State) (q0 : Req) (hs : Kept q c s) : Kept q c (spoiltReq s q0) := by
  simp +contextual (maxDischargeDepth := 99) [spoiltReq, hs]

@[simp] theorem kept_readReq (s : State) (q0 : Req) (hs : Kept q c s) : Kept q c (readReq s q0) := by
  simp +contextual (maxDischargeDepth := 99) [readReq, hs]

@[simp] theorem kept_serveLoop (s : State) (x1 : Nat) (hs : Kept q c s) : Kept q c (serveLoop s x1) := by
  induction x1 generalizing s with
  | zero => exact hs
  | succ n ih =>
    unfold serveLoop
    split
    · exact hs
    · split
      · exact hs
      · exact ih _ (by simp (maxDischargeDepth := 99) [hs])

@[simp] theorem kept_serve (s : State) (hs : Kept q c s) : Kept q c (serve s) := by
  simp +contextual (maxDischargeDepth := 99) [serve, hs]

@[simp] theorem kept_addReq (s : State) (q0 : Req) (hs : Kept q c s) : Kept q c (addReq s q0) := by
  simp +contextual (maxDischargeDepth := 99) [addReq, hs]

@[simp] theorem kept_hostRequest (s : State) (op : Nat) (r : HostReq) (hs : Kept q c s) : Kept q c (hostRequest s op r) := by
  simp +contextual (maxDischargeDepth := 99) [hostRequest, hs]

@[simp] theorem kept_packetRx (s : State) (port : HostPort) (b : Bytes) (ip : Nat) (udp : Nat) (v : Verdicts) (hs : Kept q c s) :
    Kept q c (packetRx s port b ip udp v) := by
  unfold packetRx
  (try dsimp only)
  repeat' (first | with_reducible assumption | (simp +contextual (maxDischargeDepth := 99) [hs]; done) | (simp +contextual (maxDischargeDepth := 99) [hs, hk]; done) | split | refine kept_foldl _ _ _ ?_ (fun _ _ hk => ?_))

@[simp] theorem kept_uartLoop (s : State) (v : Verdicts) (b : Bytes) (x3 : Nat) (hs : Kept q c s) :
    Kept q c (uartLoop s v b x3) := by
  induction x3 generalizing s b with
  | zero => exact hs
  | succ n ih =>
    unfold uartLoop
    split
    · simp [hs]
    · exact ih _ _ (by simp [hs])
    · exact ih _ _ (by simp [hs])

@[simp] theorem kept_uartRx (s : State) (b : Bytes) (v : Verdicts) (hs : Kept q c s) : Kept q c (uartRx s b v) := by
  simp [uartRx, hs]

@[simp] theorem kept_freeVerdicts (s : State) (hs : Kept q c s) : Kept q c (freeVerdicts s).2 := by
  simp [freeVerdicts, hs]

@[simp] theorem kept_gapLoop (s : State) (b : Bytes) (x2 : Nat) (hs : Kept q c s) : Kept q c (gapLoop s b x2) := by
  induction x2 generalizing s b with
  | zero => exact hs
  | succ n ih =>
    unfold gapLoop
    split
    · exact hs
    · exact ih _ _ (by simp [hs])
    · exact ih _ _ (by simp [hs])
    · exact ih _ _ (by simp [hs])

@[simp] theorem kept_uartGap (s : State) (hs : Kept q c s) : Kept q c (uartGap s) := by
  simp [uartGap, hs]

@[simp] theorem kept_gapOut (s : State) (n : Nat) (hs : Kept q c s) : Kept q c (gapOut s n) := by
  simp +contextual (maxDischargeDepth := 99) [gapOut, hs]

@[simp] theorem kept_sentFront (s : State) (n : Nat) (hs : Kept q c s) : Kept q c (sentFront s n) := by
  unfold sentFront
  (try dsimp only)
  repeat' (first | with_reducible assumption | (simp +contextual (maxDischargeDepth := 99) [hs]; done) | (simp +contextual (maxDischargeDepth := 99) [hs, hk]; done) | split | refine kept_foldl _ _ _ ?_ (fun _ _ hk => ?_))

@[simp] theorem kept_leaveFront (s : State) (n : Nat) (k : OutPkt) (hs : Kept q c s) : Kept q c (leaveFront s n k) := by
  simp +contextual (maxDischargeDepth := 99) [leaveFront, hs]

@[simp] theorem kept_sendOut (s : State) (n : Nat) (x2 : Nat) (hs : Kept q c s) : Kept q c (sendOut s n x2) := by
  induction x2 generalizing s with
  | zero => exact hs
  | succ n0 ih =>
    unfold sendOut
    split
    · exact hs
    · split
      · exact ih _ (by simp [hs])
      · split <;> simp [hs]

@[simp] theorem kept_dropSpoilt (s : State) (n : Nat) (x2 : Nat) (hs : Kept q c s) : Kept q c (dropSpoilt s n x2) := by
  induction x2 generalizing s n with
  | zero => exact hs
  | succ n ih =>
    unfold dropSpoilt
    (try dsimp only)
    repeat' (first | with_reducible assumption | (simp +contextual (maxDischargeDepth := 99) [hs, ih]; done) | split | (refine ih _ ?_) | (refine ih _ _ ?_) | (refine ih _ _ _ ?_) | refine kept_foldl _ _ _ ?_ (fun _ _ hk => ?_))

@[simp] theorem kept_afterRoom (s : State) (n : Nat) (hs : Kept q c s) : Kept q c (afterRoom s n) := by
  simp +contextual (maxDischargeDepth := 99) [afterRoom, hs]

@[simp] theorem kept_spiTransaction (s : State) (mosi : Bytes) (v : Verdicts) (hs : Kept q c s) :
    Kept q c (spiTransaction s mosi v) := by
  unfold spiTransaction
  (try dsimp only)
  repeat' (first | with_reducible assumption | (simp +contextual (maxDischargeDepth := 99) [hs]; done) | (simp +contextual (maxDischargeDepth := 99) [hs, hk]; done) | split | refine kept_foldl _ _ _ ?_ (fun _ _ hk => ?_))

@[simp] theorem kept_arpReply (s : State) (ip : Nat) (mac : Nat) (hs : Kept q c s) : Kept q c (arpReply s ip mac) := by
  simp [arpReply, hs]

@[simp] theorem kept_arpFailed (s : State) (ip : Nat) (hs : Kept q c s) : Kept q c (arpFailed s ip) := by
  simp +contextual (maxDischargeDepth := 99) [arpFailed, hs]

@[simp] theorem kept_arpAgain (s : State) (ip : Nat) (hs : Kept q c s) : Kept q c (arpAgain s ip) := by
  unfold arpAgain
  split <;> simp (maxDischargeDepth := 99) [hs]

@[simp] theorem kept_remoteReq (s : State) (o : Nat) (seq : Nat) (op : Nat) (params : Bytes) (priv : Bool) (v : Verdicts) (hs : Kept q c s) :
    Kept q c (remoteReq s o seq op params priv v) := by
  unfold remoteReq
  (try dsimp only)
  repeat' (first | with_reducible assumption | (simp +contextual (maxDischargeDepth := 99) [hs]; done) | (simp +contextual (maxDischargeDepth := 99) [hs, hk]; done) | split | refine kept_foldl _ _ _ ?_ (fun _ _ hk => ?_))

@[simp] theorem kept_remoteReply (s : State) (o : Nat) (b : Bytes) (hs : Kept q c s) : Kept q c (remoteReply s o b) := by
  simp [remoteReply, hs]

@[simp] theorem kept_remotePacket (s : State) (p : QPkt) (v : Verdicts) (hs : Kept q c s) : Kept q c (remotePacket s p v) := by
  simp +contextual (maxDischargeDepth := 99) [remotePacket, hs]

@[simp] theorem kept_remoteRx (s : State) (v : Verdicts) (hs : Kept q c s) : Kept q c (remoteRx s v) := by
  unfold remoteRx
  repeat' split
  all_goals simp (maxDischargeDepth := 99) [hs]

@[simp] theorem kept_execSpiTransaction (mosi : Bytes) (v : Verdicts) (s : State) (hs : Kept q c s) :
    KeptBy q c (execSpiTransaction mosi v s) := by
  simp [execSpiTransaction, hs]

@[simp] theorem kept_execUartBreak (s : State) (hs : Kept q c s) : KeptBy q c (execUartBreak s) := by
  simp +contextual (maxDischargeDepth := 99) [execUartBreak, hs]

@[simp] theorem kept_execUartByteGap (s : State) (hs : Kept q c s) : KeptBy q c (execUartByteGap s) := by
  simp [execUartByteGap, hs]

@[simp] theorem kept_execUartCtsChange (high : Bool) (s : State) (hs : Kept q c s) : KeptBy q c (execUartCtsChange high s) := by
  simp [execUartCtsChange, hs]

@[simp] theorem kept_execPortBufferRoom (port : HostPort) (sent : Nat) (s : State) (hs : Kept q c s) :
    KeptBy q c (execPortBufferRoom port sent s) := by
  simp +contextual (maxDischargeDepth := 99) [execPortBufferRoom, hs]

@[simp] theorem kept_execArpRequestRx (ip : BitVec 32) (s : State) (hs : Kept q c s) : KeptBy q c (execArpRequestRx ip s) := by
  simp [execArpRequestRx, hs]

@[simp] theorem kept_execArpReplyRx (ip : BitVec 32) (mac : BitVec 48) (s : State) (hs : Kept q c s) :
    KeptBy q c (execArpReplyRx ip mac s) := by
  simp [execArpReplyRx, hs]

@[simp] theorem kept_execArpRetry (ip : BitVec 32) (s : State) (hs : Kept q c s) : KeptBy q c (execArpRetry ip s) := by
  simp [execArpRetry, hs]

@[simp] theorem kept_execArpCacheExpiry (s : State) (hs : Kept q c s) : KeptBy q c (execArpCacheExpiry s) := by
  simp [execArpCacheExpiry, hs]

@[simp] theorem kept_execHostPacketRx (port : HostPort) (bytes : Bytes) (eth : EthMeta) (v : Verdicts) (s : State) (hs : Kept q c s) :
    KeptBy q c (execHostPacketRx port bytes eth v s) := by
  unfold execHostPacketRx
  repeat' split
  all_goals simp (maxDischargeDepth := 99) [hs]

@[simp] theorem kept_execPuluacRemoteRx (v : Verdicts) (s : State) (hs : Kept q c s) : KeptBy q c (execPuluacRemoteRx v s) := by
  simp [execPuluacRemoteRx, hs]

@[simp] theorem kept_runTicks (s : State) (x1 : Nat) (hs : Kept q c s) : Kept q c (runTicks s x1) := by
  induction x1 generalizing s with
  | zero => exact hs
  | succ n ih =>
    unfold runTicks
    (try dsimp only)
    repeat' (first | with_reducible assumption | (simp +contextual (maxDischargeDepth := 99) [hs, ih]; done) | split | (refine ih _ ?_) | (refine ih _ _ ?_) | (refine ih _ _ _ ?_) | refine kept_foldl _ _ _ ?_ (fun _ _ hk => ?_))

@[simp] theorem kept_execControlTick (s : State) (hs : Kept q c s) : KeptBy q c (execControlTick s) := by
  simp +contextual (maxDischargeDepth := 99) [execControlTick, hs]

@[simp] theorem kept_ticksTo (s : State) (t : Nat) (hs : Kept q c s) : Kept q c (ticksTo s t) := by
  simp +contextual (maxDischargeDepth := 99) [ticksTo, hs]

@[simp] theorem kept_execLeaseExpiry (l : Fin 32) (s : State) (hs : Kept q c s) : KeptBy q c (execLeaseExpiry l s) := by
  simp +contextual (maxDischargeDepth := 99) [execLeaseExpiry, hs]

@[simp] theorem kept_execRuleHoldExpiry (i : Fin 256) (s : State) (hs : Kept q c s) : KeptBy q c (execRuleHoldExpiry i s) := by
  simp [execRuleHoldExpiry, hs]

@[simp] theorem kept_execQtimeExpiry (i : Fin 256) (s : State) (hs : Kept q c s) : KeptBy q c (execQtimeExpiry i s) := by
  simp [execQtimeExpiry, hs]

@[simp] theorem kept_execSequenceWaitExpiry (k : Fin 64) (s : State) (hs : Kept q c s) :
    KeptBy q c (execSequenceWaitExpiry k s) := by
  unfold execSequenceWaitExpiry
  split <;> simp (maxDischargeDepth := 99) [hs]

@[simp] theorem kept_execWaitcondTimeout (k : Fin 64) (s : State) (hs : Kept q c s) : KeptBy q c (execWaitcondTimeout k s) := by
  unfold execWaitcondTimeout
  split <;> simp (maxDischargeDepth := 99) [hs]

@[simp] theorem kept_execSequenceMaxtime (k : Fin 64) (s : State) (hs : Kept q c s) : KeptBy q c (execSequenceMaxtime k s) := by
  simp [execSequenceMaxtime, hs]

@[simp] theorem kept_execWaiterTimeout (l : Fin 32) (s : State) (hs : Kept q c s) : KeptBy q c (execWaiterTimeout l s) := by
  unfold execWaiterTimeout
  split <;> simp (maxDischargeDepth := 99) [hs]

@[simp] theorem kept_execPulseEnd (i : Fin 32) (s : State) (hs : Kept q c s) : KeptBy q c (execPulseEnd i s) := by
  unfold execPulseEnd
  split <;> simp (maxDischargeDepth := 99) [hs]

@[simp] theorem kept_execBistablePulseEnd (i : Fin 32) (s : State) (hs : Kept q c s) :
    KeptBy q c (execBistablePulseEnd i s) := by
  unfold execBistablePulseEnd
  split <;> simp (maxDischargeDepth := 99) [hs]

@[simp] theorem kept_execInterlockDeadExpiry (i : Fin 32) (s : State) (hs : Kept q c s) :
    KeptBy q c (execInterlockDeadExpiry i s) := by
  simp [execInterlockDeadExpiry, hs]

@[simp] theorem kept_execDiLevelAccept (di : Fin 16) (level : Bool) (s : State) (hs : Kept q c s) :
    KeptBy q c (execDiLevelAccept di level s) := by
  simp [execDiLevelAccept, hs]

@[simp] theorem kept_execLceCommandRx (orig : BitVec 16) (priv : Bool) (body : Bytes) (s : State) (hs : Kept q c s) :
    KeptBy q c (execLceCommandRx orig priv body s) := by
  simp [execLceCommandRx, hs]

@[simp] theorem kept_oneOp (s : State) (by_ : LceBy) (p : LceOp) (hs : Kept q c s) : Kept q c (oneOp s by_ p) := by
  unfold oneOp
  split <;> simp (maxDischargeDepth := 99) [hs]

@[simp] theorem kept_execLceAcquire (by_ : LceBy) (l : BitVec 8) (lease : BitVec 16) (wait : BitVec 16) (s : State) (hs : Kept q c s) :
    KeptBy q c (execLceAcquire by_ l lease wait s) := by
  simp [execLceAcquire, hs]

@[simp] theorem kept_execLceRelease (by_ : LceBy) (l : BitVec 8) (s : State) (hs : Kept q c s) :
    KeptBy q c (execLceRelease by_ l s) := by
  simp [execLceRelease, hs]

@[simp] theorem kept_execLceSet (by_ : LceBy) (i : BitVec 8) (v : BitVec 16) (s : State) (hs : Kept q c s) :
    KeptBy q c (execLceSet by_ i v s) := by
  simp [execLceSet, hs]

@[simp] theorem kept_execLceStart (by_ : LceBy) (k : BitVec 8) (s : State) (hs : Kept q c s) :
    KeptBy q c (execLceStart by_ k s) := by
  simp [execLceStart, hs]

@[simp] theorem kept_execLceAbort (by_ : LceBy) (k : BitVec 8) (s : State) (hs : Kept q c s) :
    KeptBy q c (execLceAbort by_ k s) := by
  simp [execLceAbort, hs]

@[simp] theorem kept_execLceTrigger (by_ : LceBy) (code : BitVec 8) (s : State) (hs : Kept q c s) :
    KeptBy q c (execLceTrigger by_ code s) := by
  simp [execLceTrigger, hs]

@[simp] theorem kept_execPing (r : HostReq) (s : State) (hs : Kept q c s) : KeptBy q c (execPing r s) := by
  simp [execPing, hs]

@[simp] theorem kept_execRegRead (r : HostReq) (s : State) (hs : Kept q c s) : KeptBy q c (execRegRead r s) := by
  simp [execRegRead, hs]

@[simp] theorem kept_execRegWrite (r : HostReq) (s : State) (hs : Kept q c s) : KeptBy q c (execRegWrite r s) := by
  simp [execRegWrite, hs]

@[simp] theorem kept_execEventSubscribe (r : HostReq) (s : State) (hs : Kept q c s) : KeptBy q c (execEventSubscribe r s) := by
  simp [execEventSubscribe, hs]

@[simp] theorem kept_execPortReset (r : HostReq) (s : State) (hs : Kept q c s) : KeptBy q c (execPortReset r s) := by
  simp [execPortReset, hs]

@[simp] theorem kept_execPortConfig (r : HostReq) (s : State) (hs : Kept q c s) : KeptBy q c (execPortConfig r s) := by
  simp [execPortConfig, hs]

@[simp] theorem kept_execNetConfig (r : HostReq) (s : State) (hs : Kept q c s) : KeptBy q c (execNetConfig r s) := by
  simp [execNetConfig, hs]

@[simp] theorem kept_execSessionOpen (r : HostReq) (s : State) (hs : Kept q c s) : KeptBy q c (execSessionOpen r s) := by
  simp [execSessionOpen, hs]

@[simp] theorem kept_execSessionProve (r : HostReq) (s : State) (hs : Kept q c s) : KeptBy q c (execSessionProve r s) := by
  simp [execSessionProve, hs]

@[simp] theorem kept_execSessionClose (r : HostReq) (s : State) (hs : Kept q c s) : KeptBy q c (execSessionClose r s) := by
  simp [execSessionClose, hs]

@[simp] theorem kept_execMeshSend (r : HostReq) (s : State) (hs : Kept q c s) : KeptBy q c (execMeshSend r s) := by
  simp [execMeshSend, hs]

@[simp] theorem kept_execDeviceReset (r : HostReq) (s : State) (hs : Kept q c s) : KeptBy q c (execDeviceReset r s) := by
  simp [execDeviceReset, hs]

@[simp] theorem kept_execModeSet (r : HostReq) (s : State) (hs : Kept q c s) : KeptBy q c (execModeSet r s) := by
  simp [execModeSet, hs]

@[simp] theorem kept_execMapRead (r : HostReq) (s : State) (hs : Kept q c s) : KeptBy q c (execMapRead r s) := by
  simp [execMapRead, hs]

@[simp] theorem kept_execSweepRead (r : HostReq) (s : State) (hs : Kept q c s) : KeptBy q c (execSweepRead r s) := by
  simp [execSweepRead, hs]

@[simp] theorem kept_execContextRead (r : HostReq) (s : State) (hs : Kept q c s) : KeptBy q c (execContextRead r s) := by
  simp [execContextRead, hs]

@[simp] theorem kept_execAddrReserve (r : HostReq) (s : State) (hs : Kept q c s) : KeptBy q c (execAddrReserve r s) := by
  simp [execAddrReserve, hs]

@[simp] theorem kept_execAddrRelease (r : HostReq) (s : State) (hs : Kept q c s) : KeptBy q c (execAddrRelease r s) := by
  simp [execAddrRelease, hs]

@[simp] theorem kept_execLateralOpen (r : HostReq) (s : State) (hs : Kept q c s) : KeptBy q c (execLateralOpen r s) := by
  simp [execLateralOpen, hs]

@[simp] theorem kept_execFit (r : HostReq) (s : State) (hs : Kept q c s) : KeptBy q c (execFit r s) := by
  simp [execFit, hs]

@[simp] theorem kept_execGalleryRead (r : HostReq) (s : State) (hs : Kept q c s) : KeptBy q c (execGalleryRead r s) := by
  simp [execGalleryRead, hs]

@[simp] theorem kept_execLceOps (r : HostReq) (s : State) (hs : Kept q c s) : KeptBy q c (execLceOps r s) := by
  simp [execLceOps, hs]

@[simp] theorem kept_execAttest (r : HostReq) (s : State) (hs : Kept q c s) : KeptBy q c (execAttest r s) := by
  simp [execAttest, hs]

@[simp] theorem kept_execNodekeyGen (r : HostReq) (s : State) (hs : Kept q c s) : KeptBy q c (execNodekeyGen r s) := by
  simp [execNodekeyGen, hs]

@[simp] theorem kept_execCertInstall (r : HostReq) (s : State) (hs : Kept q c s) : KeptBy q c (execCertInstall r s) := by
  simp [execCertInstall, hs]

@[simp] theorem kept_execKeyInstall (r : HostReq) (s : State) (hs : Kept q c s) : KeptBy q c (execKeyInstall r s) := by
  simp [execKeyInstall, hs]

@[simp] theorem kept_execGkeySet (r : HostReq) (s : State) (hs : Kept q c s) : KeptBy q c (execGkeySet r s) := by
  simp [execGkeySet, hs]

@[simp] theorem kept_execRekey (r : HostReq) (s : State) (hs : Kept q c s) : KeptBy q c (execRekey r s) := by
  simp [execRekey, hs]

@[simp] theorem kept_execOtpBurn (r : HostReq) (s : State) (hs : Kept q c s) : KeptBy q c (execOtpBurn r s) := by
  simp [execOtpBurn, hs]

@[simp] theorem kept_execRollbackCommit (r : HostReq) (s : State) (hs : Kept q c s) : KeptBy q c (execRollbackCommit r s) := by
  simp [execRollbackCommit, hs]

@[simp] theorem kept_execFlashErase (r : HostReq) (s : State) (hs : Kept q c s) : KeptBy q c (execFlashErase r s) := by
  simp [execFlashErase, hs]

@[simp] theorem kept_execFlashWrite (r : HostReq) (s : State) (hs : Kept q c s) : KeptBy q c (execFlashWrite r s) := by
  simp [execFlashWrite, hs]

@[simp] theorem kept_execFlashRead (r : HostReq) (s : State) (hs : Kept q c s) : KeptBy q c (execFlashRead r s) := by
  simp [execFlashRead, hs]

@[simp] theorem kept_execConfigSave (r : HostReq) (s : State) (hs : Kept q c s) : KeptBy q c (execConfigSave r s) := by
  simp [execConfigSave, hs]

@[simp] theorem kept_execFlashOpComplete (s : State) (hs : Kept q c s) : KeptBy q c (execFlashOpComplete s) := by
  simp [execFlashOpComplete, hs]

@[simp] theorem kept_execMrtPacketHandle (q0 : Fin 16) (x1 : Unit) (x2 : Unit) (s : State) (hs : Kept q c s) :
    KeptBy q c (execMrtPacketHandle q0 x1 x2 s) := by
  simp [execMrtPacketHandle, hs]

@[simp] theorem kept_execOperatorSigVerified (remote : Bool) (x1 : Unit) (s : State) (hs : Kept q c s) :
    KeptBy q c (execOperatorSigVerified remote x1 s) := by
  simp [execOperatorSigVerified, hs]

@[simp] theorem kept_execJoinOfferRx (port : Fin 5) (src : BitVec 16) (body : Bytes) (s : State) (hs : Kept q c s) :
    KeptBy q c (execJoinOfferRx port src body s) := by
  simp +contextual (maxDischargeDepth := 99) [execJoinOfferRx, hs]

@[simp] theorem kept_execJoinProofRx (ctx : BitVec 12) (body : Bytes) (x2 : Unit) (x3 : Unit) (s : State) (hs : Kept q c s) :
    KeptBy q c (execJoinProofRx ctx body x2 x3 s) := by
  simp +contextual (maxDischargeDepth := 99) [execJoinProofRx, hs]

@[simp] theorem kept_execParentProofRx (ctx : BitVec 12) (body : Bytes) (x2 : Unit) (x3 : Unit) (s : State) (hs : Kept q c s) :
    KeptBy q c (execParentProofRx ctx body x2 x3 s) := by
  simp +contextual (maxDischargeDepth := 99) [execParentProofRx, hs]

@[simp] theorem kept_execTrngReady (s : State) (hs : Kept q c s) : KeptBy q c (execTrngReady s) := by
  simp +contextual (maxDischargeDepth := 99) [execTrngReady, hs]

@[simp] theorem kept_execLinCommitComplete (s : State) (hs : Kept q c s) : KeptBy q c (execLinCommitComplete s) := by
  simp [execLinCommitComplete, hs]

@[simp] theorem kept_execHostInCopy (lce : Bool) (s : State) (hs : Kept q c s) : KeptBy q c (execHostInCopy lce s) := by
  simp [execHostInCopy, hs]

@[simp] theorem kept_execPhaseSlotBoundary (streams : Streams) (s : State) (hs : Kept q c s) :
    KeptBy q c (execPhaseSlotBoundary streams s) := by
  simp +contextual (maxDischargeDepth := 99) [execPhaseSlotBoundary, hs]

@[simp] theorem kept_execLeaveWaitExpiry (req : Fin 11) (s : State) (hs : Kept q c s) :
    KeptBy q c (execLeaveWaitExpiry req s) := by
  simp [execLeaveWaitExpiry, hs]

@[simp] theorem kept_execSyncInEdge (ts : MeshTime) (lowOk : Bool) (s : State) (hs : Kept q c s) :
    KeptBy q c (execSyncInEdge ts lowOk s) := by
  simp +contextual (maxDischargeDepth := 99) [execSyncInEdge, hs]

@[simp] theorem kept_writeOne (s : State) (r : HostReq) (a : Nat) (v : Nat) (hs : Kept q c s) :
    Kept q c (writeOne s r a v) := by
  simp [writeOne, hs]

@[simp] theorem kept_readOne (s : State) (r : HostReq) (a : Nat) (hs : Kept q c s) : Kept q c (readOne s r a) := by
  simp [readOne, hs]

@[simp] theorem kept_idle (s : State) (hs : Kept q c s) : Kept q c (idle s) := by
  simp +contextual (maxDischargeDepth := 99) [idle, hs]

@[simp] theorem kept_execTimesetArm (r : HostReq) (s : State) (hs : Kept q c s) : KeptBy q c (execTimesetArm r s) := by
  simp [execTimesetArm, hs]

@[simp] theorem kept_execHeldHalfWrite (which : Fin 3) (r : HostReq) (s : State) (hs : Kept q c s) :
    KeptBy q c (execHeldHalfWrite which r s) := by
  simp [execHeldHalfWrite, hs]

@[simp] theorem kept_execLatchingRead (which : Fin 8) (r : HostReq) (s : State) (hs : Kept q c s) :
    KeptBy q c (execLatchingRead which r s) := by
  simp [execLatchingRead, hs]

@[simp] theorem kept_execReepochWrite (r : HostReq) (s : State) (hs : Kept q c s) : KeptBy q c (execReepochWrite r s) := by
  simp [execReepochWrite, hs]

@[simp] theorem kept_execSweepGo (port : Fin 4) (r : HostReq) (s : State) (hs : Kept q c s) :
    KeptBy q c (execSweepGo port r s) := by
  simp [execSweepGo, hs]

@[simp] theorem kept_execSweepAbort (port : Fin 4) (r : HostReq) (s : State) (hs : Kept q c s) :
    KeptBy q c (execSweepAbort port r s) := by
  simp [execSweepAbort, hs]

@[simp] theorem kept_execSlotSwapRequest (r : HostReq) (s : State) (hs : Kept q c s) :
    KeptBy q c (execSlotSwapRequest r s) := by
  simp [execSlotSwapRequest, hs]

@[simp] theorem kept_execRreqGo (r : HostReq) (s : State) (hs : Kept q c s) : KeptBy q c (execRreqGo r s) := by
  simp [execRreqGo, hs]

@[simp] theorem kept_execFwdEntryCommit (r : HostReq) (s : State) (hs : Kept q c s) : KeptBy q c (execFwdEntryCommit r s) := by
  simp [execFwdEntryCommit, hs]

@[simp] theorem kept_execScanGo (r : HostReq) (s : State) (hs : Kept q c s) : KeptBy q c (execScanGo r s) := by
  simp [execScanGo, hs]

@[simp] theorem kept_execScanStop (r : HostReq) (s : State) (hs : Kept q c s) : KeptBy q c (execScanStop r s) := by
  simp [execScanStop, hs]

@[simp] theorem kept_execScanEntryCommit (r : HostReq) (s : State) (hs : Kept q c s) :
    KeptBy q c (execScanEntryCommit r s) := by
  simp [execScanEntryCommit, hs]

@[simp] theorem kept_execExcitationWrite (which : Fin 3) (r : HostReq) (s : State) (hs : Kept q c s) :
    KeptBy q c (execExcitationWrite which r s) := by
  simp [execExcitationWrite, hs]

@[simp] theorem kept_execXpcfgWrite (r : HostReq) (s : State) (hs : Kept q c s) : KeptBy q c (execXpcfgWrite r s) := by
  simp [execXpcfgWrite, hs]

@[simp] theorem kept_execGalleryArm (r : HostReq) (s : State) (hs : Kept q c s) : KeptBy q c (execGalleryArm r s) := by
  simp [execGalleryArm, hs]

@[simp] theorem kept_execGalleryTriggerWrite (r : HostReq) (s : State) (hs : Kept q c s) :
    KeptBy q c (execGalleryTriggerWrite r s) := by
  simp [execGalleryTriggerWrite, hs]

@[simp] theorem kept_execGalleryAbort (r : HostReq) (s : State) (hs : Kept q c s) : KeptBy q c (execGalleryAbort r s) := by
  simp [execGalleryAbort, hs]

@[simp] theorem kept_execLinLoad (r : HostReq) (s : State) (hs : Kept q c s) : KeptBy q c (execLinLoad r s) := by
  simp [execLinLoad, hs]

@[simp] theorem kept_execLinCommit (r : HostReq) (s : State) (hs : Kept q c s) : KeptBy q c (execLinCommit r s) := by
  simp [execLinCommit, hs]

@[simp] theorem kept_execLceTableLoad (r : HostReq) (s : State) (hs : Kept q c s) : KeptBy q c (execLceTableLoad r s) := by
  simp [execLceTableLoad, hs]

@[simp] theorem kept_execLceTableCommit (r : HostReq) (s : State) (hs : Kept q c s) : KeptBy q c (execLceTableCommit r s) := by
  simp [execLceTableCommit, hs]

@[simp] theorem kept_execTestOutputWrite (which : Fin 3) (r : HostReq) (s : State) (hs : Kept q c s) :
    KeptBy q c (execTestOutputWrite which r s) := by
  simp [execTestOutputWrite, hs]

@[simp] theorem kept_execResyncWrite (r : HostReq) (s : State) (hs : Kept q c s) : KeptBy q c (execResyncWrite r s) := by
  simp [execResyncWrite, hs]

@[simp] theorem kept_execPromoteWrite (r : HostReq) (s : State) (hs : Kept q c s) : KeptBy q c (execPromoteWrite r s) := by
  simp [execPromoteWrite, hs]

@[simp] theorem kept_execPairEnWrite (r : HostReq) (s : State) (hs : Kept q c s) : KeptBy q c (execPairEnWrite r s) := by
  simp [execPairEnWrite, hs]

end Sys2Proof.Machine
end

