-- ==== Sys2Proof/Laws/Touch.lean ====
section
/-! SUPPORT. Which parts of the state an operation can touch. A part is a unit's state, a memory, or the register block of a unit; a set of
parts is a mask of bits. `Touch m s t`: from `s` to `t` nothing outside `m` differs. One lemma per operation follows in the files
Touch*.lean. -/

namespace Sys2Proof.Machine

/-- Bit `i` of a mask. -/
def hasBit (m i : Nat) : Bool := m / 2 ^ i % 2 == 1

/-- Every bit of `m` is in `l`. -/
def subMask (m l : Nat) : Bool := m &&& l == m

/-- The part of a register field by its key: one bit per block of 64 KiB, and one for what lies above the blocks. -/
def keyBit (k : Nat) : Nat := 23 + min 16 (k / 2097152)

/-- A mask holds the block of a field. -/
def okField (m : Nat) (f : Field) : Bool := hasBit m (keyBit (fieldKey f))

/-- The mode sequencer's share of the PMU: all but the books of the governor and the dates of readings. -/
def Pmu.seq (p : Pmu) : Pmu := { p with pending := [], held := [], answers := [], vldMs := 0, tjMs := 0, maxMs := 0 }

/-- The dates of the sensors' readings. -/
def Pmu.stamps (p : Pmu) : Nat × Nat × Nat := (p.vldMs, p.tjMs, p.maxMs)

/-- The governor's books. -/
def Pmu.books (p : Pmu) : List LeaveReq × List LeaveHeld × List LeaveAnswer := (p.pending, p.held, p.answers)

/-- Mesh time with its slew, and the cycles of its domain. -/
def Tbu.clock (t : Tbu) : MeshTime × Nat × Int × Nat := (t.time, t.cycles, t.slew, t.slewAcc)

/-- TBU beside mesh time. -/
def Tbu.grid (t : Tbu) : Tbu := { t with time := 0, cycles := 0, slew := 0, slewAcc := 0 }

/-- The packet queues with the staging buffers of HOST-IN. -/
def Mqf.packets (q : Mqf) : List Queue × List Staged × List (Nat × (Nat × Nat × Nat × Nat × Nat)) := (q.queues, q.staged, q.qcnt)

/-- The marks on words: wrong bits, and write-backs still due. -/
def Mqf.marks (q : Mqf) : List (Nat × Nat) × List Nat := (q.flips, q.writebacks)

/-- Arbiters and code counters. -/
def Mqf.banks (q : Mqf) : List Arb × List (Nat × (Nat × Nat × Nat)) := (q.arbs, q.ecc)

/-- HCP beside its ports. -/
def Hcp.inner (h : Hcp) : Hcp := { h with ports := [] }

/-- Equal where bit `i` is not in the mask. -/
def Eqv {α : Type} (m i : Nat) (a b : α) : Prop := hasBit m i = true ∨ a = b

/-- The register fields of the blocks outside the mask read alike. -/
def EqRegs (m : Nat) (a b : List (Nat × Nat)) : Prop :=
  ∀ k : Nat, hasBit m (keyBit k) = false → assocFind? a k = assocFind? b k

/-- `Touch` over the parts of a state. -/
def TouchOf (m : Nat) (s : State) (chip : Chip) (regs : List (Nat × Nat)) (sram flash : List Host.Cell) (pmu : Pmu) (tbu : Tbu)
    (lines : List LinePort) (sfm : Sfm) (mrt : Mrt) (rfx : Rfx) (mfe : Mfe) (dch : Dch) (lce : Lce) (erf : Erf) (mir : Mirror) (sec : Sec)
    (nvm : Nvm) (mqf : Mqf) (hcp : Hcp) (drawn : Nat) : Prop :=
  Eqv m 0 chip s.chip ∧ Eqv m 1 sram s.sram ∧ Eqv m 2 flash s.flash ∧ Eqv m 3 pmu.seq s.pmu.seq ∧ Eqv m 4 pmu.books s.pmu.books ∧
  Eqv m 5 tbu.clock s.tbu.clock ∧ Eqv m 6 tbu.grid s.tbu.grid ∧ Eqv m 7 lines s.lines ∧ Eqv m 8 sfm s.sfm ∧ Eqv m 9 mrt s.mrt ∧
  Eqv m 10 rfx s.rfx ∧ Eqv m 11 mfe s.mfe ∧ Eqv m 12 dch s.dch ∧ Eqv m 13 lce s.lce ∧ Eqv m 14 erf s.erf ∧ Eqv m 15 sec s.sec ∧
  Eqv m 16 nvm s.nvm ∧ Eqv m 17 mqf.packets s.mqf.packets ∧ Eqv m 18 mqf.banks s.mqf.banks ∧ Eqv m 19 mqf.marks s.mqf.marks ∧
  Eqv m 20 hcp.ports s.hcp.ports ∧ Eqv m 21 hcp.inner s.hcp.inner ∧ Eqv m 22 drawn s.drawn ∧
  Eqv m 40 pmu.stamps s.pmu.stamps ∧ Eqv m 41 mir s.mir ∧ EqRegs m regs s.regs

/-- From `s` to `t` nothing outside the mask differs. -/
def Touch (m : Nat) (s t : State) : Prop :=
  TouchOf m s t.chip t.regs t.sram t.flash t.pmu t.tbu t.lines t.sfm t.mrt t.rfx t.mfe t.dch t.lce t.erf t.mir t.sec t.nvm t.mqf t.hcp
    t.drawn

theorem Eqv.refl {α : Type} (m i : Nat) (a : α) : Eqv m i a a := Or.inr rfl
theorem EqRegs.refl (m : Nat) (a : List (Nat × Nat)) : EqRegs m a a := fun _ _ => rfl

theorem Touch.refl (m : Nat) (s : State) : Touch m s s := by
  simp only [Touch, TouchOf]
  refine ⟨?_, ?_, ?_, ?_, ?_, ?_, ?_, ?_, ?_, ?_, ?_, ?_, ?_, ?_, ?_, ?_, ?_, ?_, ?_, ?_, ?_, ?_, ?_, ?_, ?_, .refl _ _⟩ <;> exact .refl _ _ _

theorem hasBit_eq (m i : Nat) : hasBit m i = m.testBit i := by
  rw [hasBit, Nat.testBit_eq_decide_div_mod_eq]
  rfl

theorem subMask_bit {m l i : Nat} (h : subMask m l = true) (hl : hasBit l i = false) : hasBit m i = false := by
  rw [hasBit_eq] at hl ⊢
  have e : m &&& l = m := by simpa [subMask] using h
  rw [← e, Nat.testBit_and, hl, Bool.and_false]

theorem Eqv.lift {α : Type} {m l i : Nat} {a b c : α} (h : subMask m l = true) (x : Eqv l i b a) (y : Eqv m i c b) :
    Eqv l i c a := by
  by_cases hl : hasBit l i = true
  · exact Or.inl hl
  · have hm := subMask_bit h (by simpa using hl)
    rcases x with x | x
    · exact absurd x hl
    · rcases y with y | y
      · rw [hm] at y; exact absurd y (by simp)
      · exact Or.inr (y.trans x)

theorem EqRegs.lift {m l : Nat} {a b c : List (Nat × Nat)} (h : subMask m l = true) (x : EqRegs l b a) (y : EqRegs m c b) :
    EqRegs l c a := fun k hk =>
  (y k (subMask_bit h hk)).trans (x k hk)

/-- What an operation does within a smaller mask it does within the larger one. -/
theorem Touch.lift {m l : Nat} {s t r : State} (h : subMask m l = true) (x : Touch l s t) (y : Touch m t r) : Touch l s r := by
  simp only [Touch, TouchOf] at x y ⊢
  obtain ⟨x0, x1, x2, x3, x4, x5, x6, x7, x8, x9, x10, x11, x12, x13, x14, x15, x16, x17, x18, x19, x20, x21, x22, xs, xm, x23⟩ := x
  obtain ⟨y0, y1, y2, y3, y4, y5, y6, y7, y8, y9, y10, y11, y12, y13, y14, y15, y16, y17, y18, y19, y20, y21, y22, ys, ym, y23⟩ := y
  exact ⟨x0.lift h y0, x1.lift h y1, x2.lift h y2, x3.lift h y3,
    x4.lift h y4, x5.lift h y5, x6.lift h y6, x7.lift h y7,
    x8.lift h y8, x9.lift h y9, x10.lift h y10, x11.lift h y11,
    x12.lift h y12, x13.lift h y13, x14.lift h y14, x15.lift h y15,
    x16.lift h y16, x17.lift h y17, x18.lift h y18, x19.lift h y19,
    x20.lift h y20, x21.lift h y21, x22.lift h y22, xs.lift h ys, xm.lift h ym, x23.lift h y23⟩

theorem Touch.trans {m : Nat} {s t r : State} (x : Touch m s t) (y : Touch m t r) : Touch m s r := by
  refine Touch.lift ?_ x y
  simp [subMask]

variable {m : Nat} {s0 : State}

@[simp] theorem touchOf_fold (s : State) :
    TouchOf m s0 s.chip s.regs s.sram s.flash s.pmu s.tbu s.lines s.sfm s.mrt s.rfx s.mfe s.dch s.lce s.erf s.mir s.sec s.nvm s.mqf s.hcp
      s.drawn = Touch m s0 s := propext Iff.rfl

@[simp] theorem touch_mk (chip : Chip) (regs : List (Nat × Nat)) (sram flash : List Host.Cell) (pmu : Pmu) (tbu : Tbu)
    (lines : List LinePort) (sfm : Sfm) (mrt : Mrt) (rfx : Rfx) (mfe : Mfe) (dch : Dch) (lce : Lce) (erf : Erf) (mir : Mirror) (sec : Sec)
    (nvm : Nvm) (mqf : Mqf) (hcp : Hcp) (drawn : Nat) (pend : List Instr) :
    Touch m s0 ⟨chip, regs, sram, flash, pmu, tbu, lines, sfm, mrt, rfx, mfe, dch, lce, erf, mir, sec, nvm, mqf, hcp, drawn, pend⟩ =
      (Eqv m 0 chip s0.chip ∧ Eqv m 1 sram s0.sram ∧ Eqv m 2 flash s0.flash ∧ Eqv m 3 pmu.seq s0.pmu.seq ∧
        Eqv m 4 pmu.books s0.pmu.books ∧ Eqv m 5 tbu.clock s0.tbu.clock ∧ Eqv m 6 tbu.grid s0.tbu.grid ∧ Eqv m 7 lines s0.lines ∧
        Eqv m 8 sfm s0.sfm ∧ Eqv m 9 mrt s0.mrt ∧ Eqv m 10 rfx s0.rfx ∧ Eqv m 11 mfe s0.mfe ∧ Eqv m 12 dch s0.dch ∧
        Eqv m 13 lce s0.lce ∧ Eqv m 14 erf s0.erf ∧ Eqv m 15 sec s0.sec ∧ Eqv m 16 nvm s0.nvm ∧
        Eqv m 17 mqf.packets s0.mqf.packets ∧ Eqv m 18 mqf.banks s0.mqf.banks ∧ Eqv m 19 mqf.marks s0.mqf.marks ∧
        Eqv m 20 hcp.ports s0.hcp.ports ∧ Eqv m 21 hcp.inner s0.hcp.inner ∧ Eqv m 22 drawn s0.drawn ∧
        Eqv m 40 pmu.stamps s0.pmu.stamps ∧ Eqv m 41 mir s0.mir ∧ EqRegs m regs s0.regs) :=
  propext Iff.rfl

/-- A part in the mask may be anything. -/
@[simp] theorem eqv_in {α : Type} (i : Nat) (a b : α) (h : hasBit m i = true) : Eqv m i a b := Or.inl h

section
variable (s : State) (h : Touch m s0 s)
include h
@[simp] theorem touch_chip : Eqv m 0 s.chip s0.chip := h.1
@[simp] theorem touch_sram : Eqv m 1 s.sram s0.sram := h.2.1
@[simp] theorem touch_flash : Eqv m 2 s.flash s0.flash := h.2.2.1
@[simp] theorem touch_seq : Eqv m 3 s.pmu.seq s0.pmu.seq := h.2.2.2.1
@[simp] theorem touch_books : Eqv m 4 s.pmu.books s0.pmu.books := h.2.2.2.2.1
@[simp] theorem touch_clock : Eqv m 5 s.tbu.clock s0.tbu.clock := h.2.2.2.2.2.1
@[simp] theorem touch_grid : Eqv m 6 s.tbu.grid s0.tbu.grid := h.2.2.2.2.2.2.1
@[simp] theorem touch_lines : Eqv m 7 s.lines s0.lines := h.2.2.2.2.2.2.2.1
@[simp] theorem touch_sfm : Eqv m 8 s.sfm s0.sfm := h.2.2.2.2.2.2.2.2.1
@[simp] theorem touch_mrt : Eqv m 9 s.mrt s0.mrt := h.2.2.2.2.2.2.2.2.2.1
@[simp] theorem touch_rfx : Eqv m 10 s.rfx s0.rfx := h.2.2.2.2.2.2.2.2.2.2.1
@[simp] theorem touch_mfe : Eqv m 11 s.mfe s0.mfe := h.2.2.2.2.2.2.2.2.2.2.2.1
@[simp] theorem touch_dch : Eqv m 12 s.dch s0.dch := h.2.2.2.2.2.2.2.2.2.2.2.2.1
@[simp] theorem touch_lce : Eqv m 13 s.lce s0.lce := h.2.2.2.2.2.2.2.2.2.2.2.2.2.1
@[simp] theorem touch_erf : Eqv m 14 s.erf s0.erf := h.2.2.2.2.2.2.2.2.2.2.2.2.2.2.1
@[simp] theorem touch_sec : Eqv m 15 s.sec s0.sec := h.2.2.2.2.2.2.2.2.2.2.2.2.2.2.2.1
@[simp] theorem touch_nvm : Eqv m 16 s.nvm s0.nvm := h.2.2.2.2.2.2.2.2.2.2.2.2.2.2.2.2.1
@[simp] theorem touch_packets : Eqv m 17 s.mqf.packets s0.mqf.packets := h.2.2.2.2.2.2.2.2.2.2.2.2.2.2.2.2.2.1
@[simp] theorem touch_banks : Eqv m 18 s.mqf.banks s0.mqf.banks := h.2.2.2.2.2.2.2.2.2.2.2.2.2.2.2.2.2.2.1
@[simp] theorem touch_marks : Eqv m 19 s.mqf.marks s0.mqf.marks := h.2.2.2.2.2.2.2.2.2.2.2.2.2.2.2.2.2.2.2.1
@[simp] theorem touch_ports : Eqv m 20 s.hcp.ports s0.hcp.ports := h.2.2.2.2.2.2.2.2.2.2.2.2.2.2.2.2.2.2.2.2.1
@[simp] theorem touch_inner : Eqv m 21 s.hcp.inner s0.hcp.inner := h.2.2.2.2.2.2.2.2.2.2.2.2.2.2.2.2.2.2.2.2.2.1
@[simp] theorem touch_drawn : Eqv m 22 s.drawn s0.drawn := h.2.2.2.2.2.2.2.2.2.2.2.2.2.2.2.2.2.2.2.2.2.2.1
@[simp] theorem touch_regs : EqRegs m s.regs s0.regs := h.2.2.2.2.2.2.2.2.2.2.2.2.2.2.2.2.2.2.2.2.2.2.2.2.2
@[simp] theorem touch_mir : Eqv m 41 s.mir s0.mir := h.2.2.2.2.2.2.2.2.2.2.2.2.2.2.2.2.2.2.2.2.2.2.2.2.1
@[simp] theorem touch_stamps : Eqv m 40 s.pmu.stamps s0.pmu.stamps := h.2.2.2.2.2.2.2.2.2.2.2.2.2.2.2.2.2.2.2.2.2.2.2.1
end

/-! Parts of updated records: what is left of the share that an update does not name. -/

@[simp] theorem pmu_seq_mk (p : Pmu) (a : List LeaveReq) (b : List LeaveHeld) (c : List LeaveAnswer) (v w x : Nat) :
    Pmu.seq ⟨p.mode, p.prev, p.trans, p.race, p.recovery, p.paired, p.validCfg, p.inReset, p.stretch, p.cause, p.shutdown, p.above130,
      p.cmsnN, p.pairId, a, b, c, v, w, x⟩ = p.seq := rfl

@[simp] theorem pmu_books_mk (p : Pmu) (m pv : Mode) (t : Option Trans) (r : Option Race) (a b c d e : Bool) (f : Nat) (g h i j : Bool)
    (v w x : Nat) :
    Pmu.books ⟨m, pv, t, r, a, b, c, d, e, f, g, h, i, j, p.pending, p.held, p.answers, v, w, x⟩ = p.books := rfl

@[simp] theorem pmu_stamps_mk (p : Pmu) (m pv : Mode) (t : Option Trans) (r : Option Race) (a b c d e : Bool) (f : Nat) (g h i j : Bool)
    (x : List LeaveReq) (y : List LeaveHeld) (z : List LeaveAnswer) :
    Pmu.stamps ⟨m, pv, t, r, a, b, c, d, e, f, g, h, i, j, x, y, z, p.vldMs, p.tjMs, p.maxMs⟩ = p.stamps := rfl

@[simp] theorem tbu_clock_mk (p : Tbu) (x2 : Int) (x5 : List Detector) (x6 : Nat) (x7 : Option Nat) (x8 : Nat) (x9 : Option Nat) (x10 :
      Nat) (x11 : Bool) (x12 : Nat) (x13 : Nat) (x14 : Int) (x15 : Int) (x16 : Nat) (x17 : Bool) (x18 : Int) (x19 : Bool) (x20 : Option
      MeshTime) (x21 : Bool) (x22 : Nat) (x23 : Nat) (x24 : Option Nat) (x25 : Option (Nat × Nat)) (x26 : Nat) (x27 : Option Nat) (x28 :
      Option Nat) : Tbu.clock ⟨p.time, p.cycles, x2, p.slew, p.slewAcc, x5, x6, x7, x8, x9, x10, x11, x12, x13, x14, x15, x16, x17, x18,
      x19, x20, x21, x22, x23, x24, x25, x26, x27, x28⟩ = Tbu.clock p := rfl

@[simp] theorem tbu_grid_mk (p : Tbu) (x0 : MeshTime) (x1 : Nat) (x3 : Int) (x4 : Nat) : Tbu.grid ⟨x0, x1, p.trimAcc, x3, x4, p.dets,
      p.z, p.src, p.good, p.firstPer, p.symsNext, p.started, p.slotAt, p.boundAt, p.cyc, p.shift, p.countdown, p.reepoch, p.nextShift,
      p.edgeTaken, p.armed, p.fresh, p.tlCount, p.tlPort, p.lastBeacon, p.lastImplied, p.syncSel, p.syncOut, p.boundDue⟩ = Tbu.grid p :=
      rfl

@[simp] theorem mqf_packets_mk (p : Mqf) (x2 : List Arb) (x3 : List Nat) (x4 : List (Nat × Nat)) (x5 : List (Nat × (Nat × Nat × Nat))) :
      Mqf.packets ⟨p.queues, p.staged, x2, x3, x4, x5, p.qcnt⟩ = Mqf.packets p := rfl

@[simp] theorem mqf_banks_mk (p : Mqf) (x0 : List Queue) (x1 : List Staged) (x3 : List Nat) (x4 : List (Nat × Nat)) (x6 : List (Nat ×
      (Nat × Nat × Nat × Nat × Nat))) : Mqf.banks ⟨x0, x1, p.arbs, x3, x4, p.ecc, x6⟩ = Mqf.banks p := rfl

@[simp] theorem mqf_marks_mk (p : Mqf) (x0 : List Queue) (x1 : List Staged) (x2 : List Arb) (x5 : List (Nat × (Nat × Nat × Nat))) (x6 :
      List (Nat × (Nat × Nat × Nat × Nat × Nat))) : Mqf.marks ⟨x0, x1, x2, p.writebacks, p.flips, x5, x6⟩ = Mqf.marks p := rfl

@[simp] theorem hcp_inner_mk (p : Hcp) (x0 : List PortState) :
    Hcp.inner ⟨x0, p.srcs, p.remoteDups, p.current, p.waiting, p.flash, p.arpCache, p.arpWait, p.arpSent, p.ctsHigh, p.miso,
      p.resetDue⟩ = Hcp.inner p := rfl

/-! Shared steps. -/

/-- What an outcome leaves. -/
def TouchBy (m : Nat) (s : State) (o : Host.Outcome State Fault Refusal) : Prop :=
  match o with
  | .next t => Touch m s t
  | _ => True

@[simp] theorem touchBy_next (s t : State) : TouchBy m s (.next t) = Touch m s t := propext Iff.rfl

@[simp] theorem touch_ite (p : Prop) [Decidable p] (s t : State) (h : Touch m s0 s) (h' : Touch m s0 t) :
    Touch m s0 (if p then s else t) := by split <;> assumption

@[simp] theorem touch_foldl {α : Type} (g : State → α → State) (l : List α) (s : State) (h : Touch m s0 s)
    (hg : ∀ s x, Touch m s0 s → Touch m s0 (g s x)) : Touch m s0 (l.foldl g s) := by
  induction l generalizing s with
  | nil => exact h
  | cons a l ih => exact ih _ (hg _ _ h)

@[simp] theorem touch_foldr {α : Type} (g : α → State → State) (l : List α) (s : State) (h : Touch m s0 s)
    (hg : ∀ s x, Touch m s0 s → Touch m s0 (g x s)) : Touch m s0 (l.foldr g s) := by
  induction l with
  | nil => exact h
  | cons a l ih => exact hg _ _ ih

theorem assocFind_set_ne {α : Type} (l : List (Nat × α)) (k j : Nat) (v : α) (h : j ≠ k) :
    assocFind? (assocSet l k v) j = assocFind? l j := by
  have h' : ¬ k = j := fun e => h e.symm
  induction l with
  | nil => simp [assocSet, assocFind?, h']
  | cons a t ih =>
    obtain ⟨i, w⟩ := a
    simp only [assocSet]
    split
    · simp only [assocFind?]
      split
      · rfl
      · exact ih
    · split
      · rename_i h1 h2
        subst h2
        simp [assocFind?, h']
      · simp [assocFind?, h']

theorem assocFind_erase_ne {α : Type} (l : List (Nat × α)) (k j : Nat) (h : j ≠ k) :
    assocFind? (assocErase l k) j = assocFind? l j := by
  induction l with
  | nil => rfl
  | cons a t ih =>
    obtain ⟨i, w⟩ := a
    simp only [assocErase]
    split
    · rename_i h1
      subst h1
      simp only [assocFind?, if_neg (fun e : i = j => h e.symm)]
      exact ih
    · simp only [assocFind?]
      split
      · rfl
      · exact ih

/-- A change of the register table alone, within the mask. -/
theorem Touch.ofRegs (s : State) (r : List (Nat × Nat)) (h : EqRegs m r s.regs) : Touch m s { s with regs := r } := by
  obtain ⟨x0, x1, x2, x3, x4, x5, x6, x7, x8, x9, x10, x11, x12, x13, x14, x15, x16, x17, x18, x19, x20, x21, x22, xs, xm, -⟩ := Touch.refl m s
  exact ⟨x0, x1, x2, x3, x4, x5, x6, x7, x8, x9, x10, x11, x12, x13, x14, x15, x16, x17, x18, x19, x20, x21, x22, xs, xm, h⟩

@[simp] theorem touch_setF (s : State) (f : Field) (v : Nat) (hm : okField m f = true) (hs : Touch m s0 s) :
    Touch m s0 (setF s f v) := by
  refine Touch.trans hs (.ofRegs s _ fun k hk => assocFind_set_ne _ _ _ _ fun e => ?_)
  subst e
  rw [okField, hk] at hm
  cases hm

@[simp] theorem touch_clearF (s : State) (f : Field) (hm : okField m f = true) (hs : Touch m s0 s) :
    Touch m s0 (clearF s f) := by
  refine Touch.trans hs (.ofRegs s _ fun k hk => assocFind_erase_ne _ _ _ fun e => ?_)
  subst e
  rw [okField, hk] at hm
  cases hm

/-- A mask that holds every block from `b` on. -/
def fromBlock (m b : Nat) : Bool := (List.range 17).all (fun i => decide (i < b) || hasBit m (23 + i))

theorem okField_from (f : Field) (b : Nat) (hb : 2097152 * b ≤ fieldKey f) (h16 : b ≤ 16) (h : fromBlock m b = true) :
    okField m f = true := by
  have := List.all_eq_true.mp h (min 16 (fieldKey f / 2097152)) (List.mem_range.mpr (by omega))
  simp only [Bool.or_eq_true, decide_eq_true_eq] at this
  rcases this with x | x
  · omega
  · exact x

end Sys2Proof.Machine
end

