-- ==== Sys2Proof/Laws/TouchFields.lean ====
section
/-! SUPPORT. `Touch` and register fields: the block of every field that is numbered by a port or an index. -/

set_option linter.all false

namespace Sys2Proof.Machine
variable {m : Nat} {s0 : State}

theorem Touch.liftBy {n : Nat} {s : State} {o : Host.Outcome State Fault Refusal} (h : subMask n m = true) (x : Touch m s0 s)
    (y : TouchBy n s o) : TouchBy m s0 o := by
  cases o with
  | next t => exact Touch.lift h x y
  | _ => trivial

@[simp] theorem okf_LPA_CTL_EN (n : Nat) (h : fromBlock m 2 = true) : okField m (F.LPA_CTL_EN n) = true :=
  okField_from _ 2 (by simp only [fieldKey, F.LPA_CTL_EN]; omega) (by decide) h
@[simp] theorem okf_LPA_CTL_XMODE (n : Nat) (h : fromBlock m 2 = true) : okField m (F.LPA_CTL_XMODE n) = true :=
  okField_from _ 2 (by simp only [fieldKey, F.LPA_CTL_XMODE]; omega) (by decide) h
@[simp] theorem okf_LPA_CTL_XSENSE (n : Nat) (h : fromBlock m 2 = true) : okField m (F.LPA_CTL_XSENSE n) = true :=
  okField_from _ 2 (by simp only [fieldKey, F.LPA_CTL_XSENSE]; omega) (by decide) h
@[simp] theorem okf_LPA_CTL_ILIM (n : Nat) (h : fromBlock m 2 = true) : okField m (F.LPA_CTL_ILIM n) = true :=
  okField_from _ 2 (by simp only [fieldKey, F.LPA_CTL_ILIM]; omega) (by decide) h
@[simp] theorem okf_LPA_CTL_FOLDSTEP (n : Nat) (h : fromBlock m 2 = true) : okField m (F.LPA_CTL_FOLDSTEP n) = true :=
  okField_from _ 2 (by simp only [fieldKey, F.LPA_CTL_FOLDSTEP]; omega) (by decide) h
@[simp] theorem okf_LPA_CTL_XISCALE (n : Nat) (h : fromBlock m 2 = true) : okField m (F.LPA_CTL_XISCALE n) = true :=
  okField_from _ 2 (by simp only [fieldKey, F.LPA_CTL_XISCALE]; omega) (by decide) h
@[simp] theorem okf_LPA_LEVEL_DATA_LEVEL (n : Nat) (h : fromBlock m 2 = true) : okField m (F.LPA_LEVEL_DATA_LEVEL n) = true :=
  okField_from _ 2 (by simp only [fieldKey, F.LPA_LEVEL_DATA_LEVEL]; omega) (by decide) h
@[simp] theorem okf_LPA_LEVEL_BEACON_LEVEL (n : Nat) (h : fromBlock m 2 = true) : okField m (F.LPA_LEVEL_BEACON_LEVEL n) = true :=
  okField_from _ 2 (by simp only [fieldKey, F.LPA_LEVEL_BEACON_LEVEL]; omega) (by decide) h
@[simp] theorem okf_LPA_LEVEL_ACK_LEVEL (n : Nat) (h : fromBlock m 2 = true) : okField m (F.LPA_LEVEL_ACK_LEVEL n) = true :=
  okField_from _ 2 (by simp only [fieldKey, F.LPA_LEVEL_ACK_LEVEL]; omega) (by decide) h
@[simp] theorem okf_LPA_RX_AGC (n : Nat) (h : fromBlock m 2 = true) : okField m (F.LPA_RX_AGC n) = true :=
  okField_from _ 2 (by simp only [fieldKey, F.LPA_RX_AGC]; omega) (by decide) h
@[simp] theorem okf_LPA_RX_GAIN (n : Nat) (h : fromBlock m 2 = true) : okField m (F.LPA_RX_GAIN n) = true :=
  okField_from _ 2 (by simp only [fieldKey, F.LPA_RX_GAIN]; omega) (by decide) h
@[simp] theorem okf_LPA_STAT_DRV (n : Nat) (h : fromBlock m 2 = true) : okField m (F.LPA_STAT_DRV n) = true :=
  okField_from _ 2 (by simp only [fieldKey, F.LPA_STAT_DRV]; omega) (by decide) h
@[simp] theorem okf_LPA_STAT_LEVEL_NOW (n : Nat) (h : fromBlock m 2 = true) : okField m (F.LPA_STAT_LEVEL_NOW n) = true :=
  okField_from _ 2 (by simp only [fieldKey, F.LPA_STAT_LEVEL_NOW]; omega) (by decide) h
@[simp] theorem okf_LPA_STAT_GAIN_NOW (n : Nat) (h : fromBlock m 2 = true) : okField m (F.LPA_STAT_GAIN_NOW n) = true :=
  okField_from _ 2 (by simp only [fieldKey, F.LPA_STAT_GAIN_NOW]; omega) (by decide) h
@[simp] theorem okf_LPA_STAT_TXGATE (n : Nat) (h : fromBlock m 2 = true) : okField m (F.LPA_STAT_TXGATE n) = true :=
  okField_from _ 2 (by simp only [fieldKey, F.LPA_STAT_TXGATE]; omega) (by decide) h
@[simp] theorem okf_LPA_STAT_LIMIT (n : Nat) (h : fromBlock m 2 = true) : okField m (F.LPA_STAT_LIMIT n) = true :=
  okField_from _ 2 (by simp only [fieldKey, F.LPA_STAT_LIMIT]; omega) (by decide) h
@[simp] theorem okf_LPA_STAT_VLD (n : Nat) (h : fromBlock m 2 = true) : okField m (F.LPA_STAT_VLD n) = true :=
  okField_from _ 2 (by simp only [fieldKey, F.LPA_STAT_VLD]; omega) (by decide) h
@[simp] theorem okf_LPA_CNT_LIMITS (n : Nat) (h : fromBlock m 2 = true) : okField m (F.LPA_CNT_LIMITS n) = true :=
  okField_from _ 2 (by simp only [fieldKey, F.LPA_CNT_LIMITS]; omega) (by decide) h
@[simp] theorem okf_LPA_CNT_ABORTS (n : Nat) (h : fromBlock m 2 = true) : okField m (F.LPA_CNT_ABORTS n) = true :=
  okField_from _ 2 (by simp only [fieldKey, F.LPA_CNT_ABORTS]; omega) (by decide) h
@[simp] theorem okf_LPA_CNT_CLIPS (n : Nat) (h : fromBlock m 2 = true) : okField m (F.LPA_CNT_CLIPS n) = true :=
  okField_from _ 2 (by simp only [fieldKey, F.LPA_CNT_CLIPS]; omega) (by decide) h
@[simp] theorem okf_LPHY_BAND_PRESET (n : Nat) (h : fromBlock m 3 = true) : okField m (F.LPHY_BAND_PRESET n) = true :=
  okField_from _ 3 (by simp only [fieldKey, F.LPHY_BAND_PRESET]; omega) (by decide) h
@[simp] theorem okf_LPHY_BAND_NLANES (n : Nat) (h : fromBlock m 3 = true) : okField m (F.LPHY_BAND_NLANES n) = true :=
  okField_from _ 3 (by simp only [fieldKey, F.LPHY_BAND_NLANES]; omega) (by decide) h
@[simp] theorem okf_LPHY_BAND_HSYM (n : Nat) (h : fromBlock m 3 = true) : okField m (F.LPHY_BAND_HSYM n) = true :=
  okField_from _ 3 (by simp only [fieldKey, F.LPHY_BAND_HSYM]; omega) (by decide) h
@[simp] theorem okf_LPHY_MODESEL_FLOOR (n : Nat) (h : fromBlock m 3 = true) : okField m (F.LPHY_MODESEL_FLOOR n) = true :=
  okField_from _ 3 (by simp only [fieldKey, F.LPHY_MODESEL_FLOOR]; omega) (by decide) h
@[simp] theorem okf_LPHY_MODESEL_THR_P (n : Nat) (h : fromBlock m 3 = true) : okField m (F.LPHY_MODESEL_THR_P n) = true :=
  okField_from _ 3 (by simp only [fieldKey, F.LPHY_MODESEL_THR_P]; omega) (by decide) h
@[simp] theorem okf_LPHY_MODESEL_THR_N (n : Nat) (h : fromBlock m 3 = true) : okField m (F.LPHY_MODESEL_THR_N n) = true :=
  okField_from _ 3 (by simp only [fieldKey, F.LPHY_MODESEL_THR_N]; omega) (by decide) h
@[simp] theorem okf_LPHY_MODESEL_THR_4 (n : Nat) (h : fromBlock m 3 = true) : okField m (F.LPHY_MODESEL_THR_4 n) = true :=
  okField_from _ 3 (by simp only [fieldKey, F.LPHY_MODESEL_THR_4]; omega) (by decide) h
@[simp] theorem okf_LPHY_RXCTL_PRE_WIN (n : Nat) (h : fromBlock m 3 = true) : okField m (F.LPHY_RXCTL_PRE_WIN n) = true :=
  okField_from _ 3 (by simp only [fieldKey, F.LPHY_RXCTL_PRE_WIN]; omega) (by decide) h
@[simp] theorem okf_LPHY_RXCTL_IMP_DB (n : Nat) (h : fromBlock m 3 = true) : okField m (F.LPHY_RXCTL_IMP_DB n) = true :=
  okField_from _ 3 (by simp only [fieldKey, F.LPHY_RXCTL_IMP_DB]; omega) (by decide) h
@[simp] theorem okf_LPHY_RXCTL_IMP_WIDE (n : Nat) (h : fromBlock m 3 = true) : okField m (F.LPHY_RXCTL_IMP_WIDE n) = true :=
  okField_from _ 3 (by simp only [fieldKey, F.LPHY_RXCTL_IMP_WIDE]; omega) (by decide) h
@[simp] theorem okf_LPHY_RXCTL_ACK_FRAC (n : Nat) (h : fromBlock m 3 = true) : okField m (F.LPHY_RXCTL_ACK_FRAC n) = true :=
  okField_from _ 3 (by simp only [fieldKey, F.LPHY_RXCTL_ACK_FRAC]; omega) (by decide) h
@[simp] theorem okf_LPHY_RXCTL_FREESEARCH (n : Nat) (h : fromBlock m 3 = true) : okField m (F.LPHY_RXCTL_FREESEARCH n) = true :=
  okField_from _ 3 (by simp only [fieldKey, F.LPHY_RXCTL_FREESEARCH]; omega) (by decide) h
@[simp] theorem okf_LPHY_RXCTL_PRE_THR (n : Nat) (h : fromBlock m 3 = true) : okField m (F.LPHY_RXCTL_PRE_THR n) = true :=
  okField_from _ 3 (by simp only [fieldKey, F.LPHY_RXCTL_PRE_THR]; omega) (by decide) h
@[simp] theorem okf_LPHY_LANEMASK_0_LANES (n : Nat) (h : fromBlock m 3 = true) : okField m (F.LPHY_LANEMASK_0_LANES n) = true :=
  okField_from _ 3 (by simp only [fieldKey, F.LPHY_LANEMASK_0_LANES]; omega) (by decide) h
@[simp] theorem okf_LPHY_LANEMASK_1_LANES (n : Nat) (h : fromBlock m 3 = true) : okField m (F.LPHY_LANEMASK_1_LANES n) = true :=
  okField_from _ 3 (by simp only [fieldKey, F.LPHY_LANEMASK_1_LANES]; omega) (by decide) h
@[simp] theorem okf_LPHY_LANEMASK_2_LANES (n : Nat) (h : fromBlock m 3 = true) : okField m (F.LPHY_LANEMASK_2_LANES n) = true :=
  okField_from _ 3 (by simp only [fieldKey, F.LPHY_LANEMASK_2_LANES]; omega) (by decide) h
@[simp] theorem okf_LPHY_LANEMASK_3_LANES (n : Nat) (h : fromBlock m 3 = true) : okField m (F.LPHY_LANEMASK_3_LANES n) = true :=
  okField_from _ 3 (by simp only [fieldKey, F.LPHY_LANEMASK_3_LANES]; omega) (by decide) h
@[simp] theorem okf_LPHY_RXCNT_FRAMES (n : Nat) (h : fromBlock m 3 = true) : okField m (F.LPHY_RXCNT_FRAMES n) = true :=
  okField_from _ 3 (by simp only [fieldKey, F.LPHY_RXCNT_FRAMES]; omega) (by decide) h
@[simp] theorem okf_LPHY_RXCNT_CRCERR (n : Nat) (h : fromBlock m 3 = true) : okField m (F.LPHY_RXCNT_CRCERR n) = true :=
  okField_from _ 3 (by simp only [fieldKey, F.LPHY_RXCNT_CRCERR]; omega) (by decide) h
@[simp] theorem okf_LPHY_HDRCNT_PREDET (n : Nat) (h : fromBlock m 3 = true) : okField m (F.LPHY_HDRCNT_PREDET n) = true :=
  okField_from _ 3 (by simp only [fieldKey, F.LPHY_HDRCNT_PREDET]; omega) (by decide) h
@[simp] theorem okf_LPHY_HDRCNT_HDRERR (n : Nat) (h : fromBlock m 3 = true) : okField m (F.LPHY_HDRCNT_HDRERR n) = true :=
  okField_from _ 3 (by simp only [fieldKey, F.LPHY_HDRCNT_HDRERR]; omega) (by decide) h
@[simp] theorem okf_LPHY_ERACNT_IMPSYM (n : Nat) (h : fromBlock m 3 = true) : okField m (F.LPHY_ERACNT_IMPSYM n) = true :=
  okField_from _ 3 (by simp only [fieldKey, F.LPHY_ERACNT_IMPSYM]; omega) (by decide) h
@[simp] theorem okf_LPHY_ERACNT_MAPMISS (n : Nat) (h : fromBlock m 3 = true) : okField m (F.LPHY_ERACNT_MAPMISS n) = true :=
  okField_from _ 3 (by simp only [fieldKey, F.LPHY_ERACNT_MAPMISS]; omega) (by decide) h
@[simp] theorem okf_LPHY_ERACNT_WIDEERA (n : Nat) (h : fromBlock m 3 = true) : okField m (F.LPHY_ERACNT_WIDEERA n) = true :=
  okField_from _ 3 (by simp only [fieldKey, F.LPHY_ERACNT_WIDEERA]; omega) (by decide) h
@[simp] theorem okf_LPHY_TXCNT_TXFRAMES (n : Nat) (h : fromBlock m 3 = true) : okField m (F.LPHY_TXCNT_TXFRAMES n) = true :=
  okField_from _ 3 (by simp only [fieldKey, F.LPHY_TXCNT_TXFRAMES]; omega) (by decide) h
@[simp] theorem okf_LPHY_TXCNT_ACKMISS (n : Nat) (h : fromBlock m 3 = true) : okField m (F.LPHY_TXCNT_ACKMISS n) = true :=
  okField_from _ 3 (by simp only [fieldKey, F.LPHY_TXCNT_ACKMISS]; omega) (by decide) h
@[simp] theorem okf_LPHY_TXCNT_NOFIT (n : Nat) (h : fromBlock m 3 = true) : okField m (F.LPHY_TXCNT_NOFIT n) = true :=
  okField_from _ 3 (by simp only [fieldKey, F.LPHY_TXCNT_NOFIT]; omega) (by decide) h
@[simp] theorem okf_LPHY_LASTRX_MODE (n : Nat) (h : fromBlock m 3 = true) : okField m (F.LPHY_LASTRX_MODE n) = true :=
  okField_from _ 3 (by simp only [fieldKey, F.LPHY_LASTRX_MODE]; omega) (by decide) h
@[simp] theorem okf_LPHY_LASTRX_LMID (n : Nat) (h : fromBlock m 3 = true) : okField m (F.LPHY_LASTRX_LMID n) = true :=
  okField_from _ 3 (by simp only [fieldKey, F.LPHY_LASTRX_LMID]; omega) (by decide) h
@[simp] theorem okf_LPHY_LASTRX_LENGTH (n : Nat) (h : fromBlock m 3 = true) : okField m (F.LPHY_LASTRX_LENGTH n) = true :=
  okField_from _ 3 (by simp only [fieldKey, F.LPHY_LASTRX_LENGTH]; omega) (by decide) h
@[simp] theorem okf_LPHY_LASTRX_CRCOK (n : Nat) (h : fromBlock m 3 = true) : okField m (F.LPHY_LASTRX_CRCOK n) = true :=
  okField_from _ 3 (by simp only [fieldKey, F.LPHY_LASTRX_CRCOK]; omega) (by decide) h
@[simp] theorem okf_LPHY_ECHOCFG_LIVE_ON (n : Nat) (h : fromBlock m 3 = true) : okField m (F.LPHY_ECHOCFG_LIVE_ON n) = true :=
  okField_from _ 3 (by simp only [fieldKey, F.LPHY_ECHOCFG_LIVE_ON]; omega) (by decide) h
@[simp] theorem okf_LPHY_ECHOCFG_LIVE_OFF (n : Nat) (h : fromBlock m 3 = true) : okField m (F.LPHY_ECHOCFG_LIVE_OFF n) = true :=
  okField_from _ 3 (by simp only [fieldKey, F.LPHY_ECHOCFG_LIVE_OFF]; omega) (by decide) h
@[simp] theorem okf_LPHY_ECHOCFG_ZMIN (n : Nat) (h : fromBlock m 3 = true) : okField m (F.LPHY_ECHOCFG_ZMIN n) = true :=
  okField_from _ 3 (by simp only [fieldKey, F.LPHY_ECHOCFG_ZMIN]; omega) (by decide) h
@[simp] theorem okf_LPHY_ECHOCFG_IMP_DEAD (n : Nat) (h : fromBlock m 3 = true) : okField m (F.LPHY_ECHOCFG_IMP_DEAD n) = true :=
  okField_from _ 3 (by simp only [fieldKey, F.LPHY_ECHOCFG_IMP_DEAD]; omega) (by decide) h
@[simp] theorem okf_LPHY_ECHOCFG_ZSTEP (n : Nat) (h : fromBlock m 3 = true) : okField m (F.LPHY_ECHOCFG_ZSTEP n) = true :=
  okField_from _ 3 (by simp only [fieldKey, F.LPHY_ECHOCFG_ZSTEP]; omega) (by decide) h
@[simp] theorem okf_LPHY_ECHOAGE_ZAGE_MAX (n : Nat) (h : fromBlock m 3 = true) : okField m (F.LPHY_ECHOAGE_ZAGE_MAX n) = true :=
  okField_from _ 3 (by simp only [fieldKey, F.LPHY_ECHOAGE_ZAGE_MAX]; omega) (by decide) h
@[simp] theorem okf_LPHY_ECHOAGE_NAGE_MAX (n : Nat) (h : fromBlock m 3 = true) : okField m (F.LPHY_ECHOAGE_NAGE_MAX n) = true :=
  okField_from _ 3 (by simp only [fieldKey, F.LPHY_ECHOAGE_NAGE_MAX]; omega) (by decide) h
@[simp] theorem okf_LPHY_ECHOAGE_CHG_MIN (n : Nat) (h : fromBlock m 3 = true) : okField m (F.LPHY_ECHOAGE_CHG_MIN n) = true :=
  okField_from _ 3 (by simp only [fieldKey, F.LPHY_ECHOAGE_CHG_MIN]; omega) (by decide) h
@[simp] theorem okf_LPHY_ZCAL_ZSCALE (n : Nat) (h : fromBlock m 3 = true) : okField m (F.LPHY_ZCAL_ZSCALE n) = true :=
  okField_from _ 3 (by simp only [fieldKey, F.LPHY_ZCAL_ZSCALE]; omega) (by decide) h
@[simp] theorem okf_LPHY_ZCAL_ZROT (n : Nat) (h : fromBlock m 3 = true) : okField m (F.LPHY_ZCAL_ZROT n) = true :=
  okField_from _ 3 (by simp only [fieldKey, F.LPHY_ZCAL_ZROT]; omega) (by decide) h
@[simp] theorem okf_LPHY_SWEEP_FSTART (n : Nat) (h : fromBlock m 3 = true) : okField m (F.LPHY_SWEEP_FSTART n) = true :=
  okField_from _ 3 (by simp only [fieldKey, F.LPHY_SWEEP_FSTART]; omega) (by decide) h
@[simp] theorem okf_LPHY_SWEEP_FSTOP (n : Nat) (h : fromBlock m 3 = true) : okField m (F.LPHY_SWEEP_FSTOP n) = true :=
  okField_from _ 3 (by simp only [fieldKey, F.LPHY_SWEEP_FSTOP]; omega) (by decide) h
@[simp] theorem okf_LPHY_SWEEP_FSTEP (n : Nat) (h : fromBlock m 3 = true) : okField m (F.LPHY_SWEEP_FSTEP n) = true :=
  okField_from _ 3 (by simp only [fieldKey, F.LPHY_SWEEP_FSTEP]; omega) (by decide) h
@[simp] theorem okf_LPHY_SWEEP_SWLEVEL (n : Nat) (h : fromBlock m 3 = true) : okField m (F.LPHY_SWEEP_SWLEVEL n) = true :=
  okField_from _ 3 (by simp only [fieldKey, F.LPHY_SWEEP_SWLEVEL]; omega) (by decide) h
@[simp] theorem okf_LPHY_SWEEP_FREE (n : Nat) (h : fromBlock m 3 = true) : okField m (F.LPHY_SWEEP_FREE n) = true :=
  okField_from _ 3 (by simp only [fieldKey, F.LPHY_SWEEP_FREE]; omega) (by decide) h
@[simp] theorem okf_LPHY_SWEEP_GO (n : Nat) (h : fromBlock m 3 = true) : okField m (F.LPHY_SWEEP_GO n) = true :=
  okField_from _ 3 (by simp only [fieldKey, F.LPHY_SWEEP_GO]; omega) (by decide) h
@[simp] theorem okf_LPHY_SWEEP_ABORT (n : Nat) (h : fromBlock m 3 = true) : okField m (F.LPHY_SWEEP_ABORT n) = true :=
  okField_from _ 3 (by simp only [fieldKey, F.LPHY_SWEEP_ABORT]; omega) (by decide) h
@[simp] theorem okf_LPHY_SWPSMASK_PSMASK (n : Nat) (h : fromBlock m 3 = true) : okField m (F.LPHY_SWPSMASK_PSMASK n) = true :=
  okField_from _ 3 (by simp only [fieldKey, F.LPHY_SWPSMASK_PSMASK]; omega) (by decide) h
@[simp] theorem okf_LPHY_SWSTAT_STATE (n : Nat) (h : fromBlock m 3 = true) : okField m (F.LPHY_SWSTAT_STATE n) = true :=
  okField_from _ 3 (by simp only [fieldKey, F.LPHY_SWSTAT_STATE]; omega) (by decide) h
@[simp] theorem okf_LPHY_SWSTAT_FAILED (n : Nat) (h : fromBlock m 3 = true) : okField m (F.LPHY_SWSTAT_FAILED n) = true :=
  okField_from _ 3 (by simp only [fieldKey, F.LPHY_SWSTAT_FAILED]; omega) (by decide) h
@[simp] theorem okf_LPHY_SWSTAT_BIN (n : Nat) (h : fromBlock m 3 = true) : okField m (F.LPHY_SWSTAT_BIN n) = true :=
  okField_from _ 3 (by simp only [fieldKey, F.LPHY_SWSTAT_BIN]; omega) (by decide) h
@[simp] theorem okf_LPHY_SWSTAT_POINTS (n : Nat) (h : fromBlock m 3 = true) : okField m (F.LPHY_SWSTAT_POINTS n) = true :=
  okField_from _ 3 (by simp only [fieldKey, F.LPHY_SWSTAT_POINTS]; omega) (by decide) h
@[simp] theorem okf_LPHY_ECHOCNT_ZSTEPS (n : Nat) (h : fromBlock m 3 = true) : okField m (F.LPHY_ECHOCNT_ZSTEPS n) = true :=
  okField_from _ 3 (by simp only [fieldKey, F.LPHY_ECHOCNT_ZSTEPS]; omega) (by decide) h
@[simp] theorem okf_LPHY_ECHOCNT_STALEMARK (n : Nat) (h : fromBlock m 3 = true) : okField m (F.LPHY_ECHOCNT_STALEMARK n) = true :=
  okField_from _ 3 (by simp only [fieldKey, F.LPHY_ECHOCNT_STALEMARK]; omega) (by decide) h
@[simp] theorem okf_LPHY_MAPWIN_INDEX (n : Nat) (h : fromBlock m 3 = true) : okField m (F.LPHY_MAPWIN_INDEX n) = true :=
  okField_from _ 3 (by simp only [fieldKey, F.LPHY_MAPWIN_INDEX]; omega) (by decide) h
@[simp] theorem okf_LPHY_MAPWIN_SEL (n : Nat) (h : fromBlock m 3 = true) : okField m (F.LPHY_MAPWIN_SEL n) = true :=
  okField_from _ 3 (by simp only [fieldKey, F.LPHY_MAPWIN_SEL]; omega) (by decide) h
@[simp] theorem okf_LPHY_MAPDATALO_DATALO (n : Nat) (h : fromBlock m 3 = true) : okField m (F.LPHY_MAPDATALO_DATALO n) = true :=
  okField_from _ 3 (by simp only [fieldKey, F.LPHY_MAPDATALO_DATALO]; omega) (by decide) h
@[simp] theorem okf_LPHY_MAPDATAHI_DATAHI (n : Nat) (h : fromBlock m 3 = true) : okField m (F.LPHY_MAPDATAHI_DATAHI n) = true :=
  okField_from _ 3 (by simp only [fieldKey, F.LPHY_MAPDATAHI_DATAHI]; omega) (by decide) h
@[simp] theorem okf_SFM_PORTCFG_BCN_EN (n : Nat) (h : fromBlock m 4 = true) : okField m (F.SFM_PORTCFG_BCN_EN n) = true :=
  okField_from _ 4 (by simp only [fieldKey, F.SFM_PORTCFG_BCN_EN]; omega) (by decide) h
@[simp] theorem okf_SFM_PORTCFG_BSLOT (n : Nat) (h : fromBlock m 4 = true) : okField m (F.SFM_PORTCFG_BSLOT n) = true :=
  okField_from _ 4 (by simp only [fieldKey, F.SFM_PORTCFG_BSLOT]; omega) (by decide) h
@[simp] theorem okf_SFM_PORTCFG_PERMIT_JOIN (n : Nat) (h : fromBlock m 4 = true) : okField m (F.SFM_PORTCFG_PERMIT_JOIN n) = true :=
  okField_from _ 4 (by simp only [fieldKey, F.SFM_PORTCFG_PERMIT_JOIN]; omega) (by decide) h
@[simp] theorem okf_SFM_PORTCFG_AUTOLEN (n : Nat) (h : fromBlock m 4 = true) : okField m (F.SFM_PORTCFG_AUTOLEN n) = true :=
  okField_from _ 4 (by simp only [fieldKey, F.SFM_PORTCFG_AUTOLEN]; omega) (by decide) h
@[simp] theorem okf_SFM_LAYOUT_WB (n : Nat) (h : fromBlock m 4 = true) : okField m (F.SFM_LAYOUT_WB n) = true :=
  okField_from _ 4 (by simp only [fieldKey, F.SFM_LAYOUT_WB]; omega) (by decide) h
@[simp] theorem okf_SFM_LAYOUT_GEXP (n : Nat) (h : fromBlock m 4 = true) : okField m (F.SFM_LAYOUT_GEXP n) = true :=
  okField_from _ 4 (by simp only [fieldKey, F.SFM_LAYOUT_GEXP]; omega) (by decide) h
@[simp] theorem okf_SFM_LAYOUT_JSTART (n : Nat) (h : fromBlock m 4 = true) : okField m (F.SFM_LAYOUT_JSTART n) = true :=
  okField_from _ 4 (by simp only [fieldKey, F.SFM_LAYOUT_JSTART]; omega) (by decide) h
@[simp] theorem okf_SFM_LAYOUT_DSTART (n : Nat) (h : fromBlock m 4 = true) : okField m (F.SFM_LAYOUT_DSTART n) = true :=
  okField_from _ 4 (by simp only [fieldKey, F.SFM_LAYOUT_DSTART]; omega) (by decide) h
@[simp] theorem okf_SFM_LAYOUT_U (n : Nat) (h : fromBlock m 4 = true) : okField m (F.SFM_LAYOUT_U n) = true :=
  okField_from _ 4 (by simp only [fieldKey, F.SFM_LAYOUT_U]; omega) (by decide) h
@[simp] theorem okf_SFM_AUTOPOOL_0_SLOTS (n : Nat) (h : fromBlock m 4 = true) : okField m (F.SFM_AUTOPOOL_0_SLOTS n) = true :=
  okField_from _ 4 (by simp only [fieldKey, F.SFM_AUTOPOOL_0_SLOTS]; omega) (by decide) h
@[simp] theorem okf_SFM_AUTOPOOL_1_SLOTS (n : Nat) (h : fromBlock m 4 = true) : okField m (F.SFM_AUTOPOOL_1_SLOTS n) = true :=
  okField_from _ 4 (by simp only [fieldKey, F.SFM_AUTOPOOL_1_SLOTS]; omega) (by decide) h
@[simp] theorem okf_SFM_AUTOPOOL_2_SLOTS (n : Nat) (h : fromBlock m 4 = true) : okField m (F.SFM_AUTOPOOL_2_SLOTS n) = true :=
  okField_from _ 4 (by simp only [fieldKey, F.SFM_AUTOPOOL_2_SLOTS]; omega) (by decide) h
@[simp] theorem okf_SFM_AUTOPOOL_3_SLOTS (n : Nat) (h : fromBlock m 4 = true) : okField m (F.SFM_AUTOPOOL_3_SLOTS n) = true :=
  okField_from _ 4 (by simp only [fieldKey, F.SFM_AUTOPOOL_3_SLOTS]; omega) (by decide) h
@[simp] theorem okf_SFM_RXERR_SLOT (n : Nat) (h : fromBlock m 4 = true) : okField m (F.SFM_RXERR_SLOT n) = true :=
  okField_from _ 4 (by simp only [fieldKey, F.SFM_RXERR_SLOT]; omega) (by decide) h
@[simp] theorem okf_SFM_RXERR_UNKNOWN (n : Nat) (h : fromBlock m 4 = true) : okField m (F.SFM_RXERR_UNKNOWN n) = true :=
  okField_from _ 4 (by simp only [fieldKey, F.SFM_RXERR_UNKNOWN]; omega) (by decide) h
@[simp] theorem okf_SFM_RXERR_FCERR (n : Nat) (h : fromBlock m 4 = true) : okField m (F.SFM_RXERR_FCERR n) = true :=
  okField_from _ 4 (by simp only [fieldKey, F.SFM_RXERR_FCERR]; omega) (by decide) h
@[simp] theorem okf_SFM_RXERR_MICERR (n : Nat) (h : fromBlock m 4 = true) : okField m (F.SFM_RXERR_MICERR n) = true :=
  okField_from _ 4 (by simp only [fieldKey, F.SFM_RXERR_MICERR]; omega) (by decide) h
@[simp] theorem okf_SFM_RXERR_CLASS (n : Nat) (h : fromBlock m 4 = true) : okField m (F.SFM_RXERR_CLASS n) = true :=
  okField_from _ 4 (by simp only [fieldKey, F.SFM_RXERR_CLASS]; omega) (by decide) h
@[simp] theorem okf_SFM_RXCNT_ACCEPTED (n : Nat) (h : fromBlock m 4 = true) : okField m (F.SFM_RXCNT_ACCEPTED n) = true :=
  okField_from _ 4 (by simp only [fieldKey, F.SFM_RXCNT_ACCEPTED]; omega) (by decide) h
@[simp] theorem okf_SFM_RXCNT_DUP (n : Nat) (h : fromBlock m 4 = true) : okField m (F.SFM_RXCNT_DUP n) = true :=
  okField_from _ 4 (by simp only [fieldKey, F.SFM_RXCNT_DUP]; omega) (by decide) h
@[simp] theorem okf_SFM_RXCNT_EPOCHLOW (n : Nat) (h : fromBlock m 4 = true) : okField m (F.SFM_RXCNT_EPOCHLOW n) = true :=
  okField_from _ 4 (by simp only [fieldKey, F.SFM_RXCNT_EPOCHLOW]; omega) (by decide) h
@[simp] theorem okf_SFM_TXCNT_ACKED (n : Nat) (h : fromBlock m 4 = true) : okField m (F.SFM_TXCNT_ACKED n) = true :=
  okField_from _ 4 (by simp only [fieldKey, F.SFM_TXCNT_ACKED]; omega) (by decide) h
@[simp] theorem okf_SFM_TXCNT_RETRIES (n : Nat) (h : fromBlock m 4 = true) : okField m (F.SFM_TXCNT_RETRIES n) = true :=
  okField_from _ 4 (by simp only [fieldKey, F.SFM_TXCNT_RETRIES]; omega) (by decide) h
@[simp] theorem okf_SFM_TXCNT_DROPPED (n : Nat) (h : fromBlock m 4 = true) : okField m (F.SFM_TXCNT_DROPPED n) = true :=
  okField_from _ 4 (by simp only [fieldKey, F.SFM_TXCNT_DROPPED]; omega) (by decide) h
@[simp] theorem okf_SFM_TXCNT_TOOBIG (n : Nat) (h : fromBlock m 4 = true) : okField m (F.SFM_TXCNT_TOOBIG n) = true :=
  okField_from _ 4 (by simp only [fieldKey, F.SFM_TXCNT_TOOBIG]; omega) (by decide) h
@[simp] theorem okf_MRT_JOIN_JSEG (n : Nat) (h : fromBlock m 5 = true) : okField m (F.MRT_JOIN_JSEG n) = true :=
  okField_from _ 5 (by simp only [fieldKey, F.MRT_JOIN_JSEG]; omega) (by decide) h
@[simp] theorem okf_MRT_JOIN_JLEN (n : Nat) (h : fromBlock m 5 = true) : okField m (F.MRT_JOIN_JLEN n) = true :=
  okField_from _ 5 (by simp only [fieldKey, F.MRT_JOIN_JLEN]; omega) (by decide) h
@[simp] theorem okf_evMask (n : Nat) (h : hasBit m 35 = true) : okField m (F.evMask n) = true := by
  unfold F.evMask; split <;> exact h
@[simp] theorem okf_crcErr (n : Nat) (h : hasBit m 35 = true) : okField m (F.crcErr n) = true := by
  unfold F.crcErr; split <;> exact h
@[simp] theorem okf_dups (n : Nat) (h : hasBit m 35 = true) : okField m (F.dups n) = true := by
  unfold F.dups; split <;> exact h
@[simp] theorem okf_evDrop (n : Nat) (h : hasBit m 35 = true) : okField m (F.evDrop n) = true := by
  unfold F.evDrop; split <;> exact h
@[simp] theorem okf_policy (n : Nat) (h : hasBit m 23 = true) (hn : n ≤ 100) : okField m (F.policy n) = true := by
  have : keyBit (fieldKey (F.policy n)) = 23 := by simp only [keyBit, fieldKey, F.policy, F.PMU_LEAVE_POLICY_POL0]; omega
  rw [okField, this]; exact h
@[simp] theorem okf_txLat (n : Nat) (h : fromBlock m 1 = true) : okField m (F.txLat n) = true :=
  okField_from _ 1 (by simp only [fieldKey, F.txLat, F.TBU_LAT0_TXLAT]; omega) (by decide) h
@[simp] theorem okf_rxLat (n : Nat) (h : fromBlock m 1 = true) : okField m (F.rxLat n) = true :=
  okField_from _ 1 (by simp only [fieldKey, F.rxLat, F.TBU_LAT0_RXLAT]; omega) (by decide) h
@[simp] theorem okf_laneMask (n w : Nat) (h : fromBlock m 3 = true) : okField m (F.laneMask n w) = true :=
  okField_from _ 3 (by simp only [fieldKey, F.laneMask, F.LPHY_LANEMASK_0_LANES]; omega) (by decide) h
@[simp] theorem okf_autoPool (n w : Nat) (h : fromBlock m 4 = true) : okField m (F.autoPool n w) = true :=
  okField_from _ 4 (by simp only [fieldKey, F.autoPool, F.SFM_AUTOPOOL_0_SLOTS]; omega) (by decide) h
theorem okField_mono {m l : Nat} {f : Field} (h : subMask m l = true) (hf : okField m f = true) : okField l f = true := by
  by_cases hl : hasBit l (keyBit (fieldKey f)) = true
  · exact hl
  · have := subMask_bit h (by simpa using hl)
    rw [okField, this] at hf
    cases hf
@[simp] theorem okField_ite (p : Prop) [Decidable p] (f g : Field) (h : okField m f = true) (h' : okField m g = true) :
    okField m (if p then f else g) = true := by split <;> assumption
@[simp] theorem eqRegs_all (a b : List (Nat × Nat)) (h : fromBlock m 0 = true) : EqRegs m a b := by
  intro k hk
  have := List.all_eq_true.mp h (min 16 (k / 2097152)) (List.mem_range.mpr (by omega))
  simp only [Bool.or_eq_true, decide_eq_true_eq] at this
  rcases this with x | x
  · omega
  · rw [keyBit, x] at hk; cases hk
theorem okField_all (f : Field) (h : fromBlock m 0 = true) : okField m f = true :=
  okField_from f 0 (by omega) (by decide) h
theorem okf_tiaF (i : Nat) (f : Field) (h0 : okField m f = true) (h1 : okField m (tiaF f 1) = true) (hi : i < 2) : okField m (tiaF f i) = true := by
  have : i = 0 ∨ i = 1 := by omega
  rcases this with rfl | rfl
  · exact h0
  · exact h1
@[simp] theorem okf_tia_range (i : Nat) (h : hasBit m 30 = true) (hi : i < 2) : okField m (tiaF F.MFE_TIA0_RANGE i) = true := okf_tiaF i _ h h hi
@[simp] theorem okf_tia_sat (i : Nat) (h : hasBit m 30 = true) (hi : i < 2) : okField m (tiaF F.MFE_TIA0_SAT i) = true := okf_tiaF i _ h h hi
theorem win_addr (f : Field) (i : Nat) : (win f i).addr = f.addr + 0x100000 * (i + 1) := by unfold win; exact rfl
theorem win_lo (f : Field) (i : Nat) : (win f i).lo = f.lo := by unfold win; exact rfl
theorem win_key (a l i N c : Nat) (h : c ≤ N * 32) : c ≤ (a + N * (i + 1)) * 32 + l := by
  have h1 : N * 1 ≤ N * (i + 1) := Nat.mul_le_mul_left _ (Nat.le_add_left 1 i)
  have h2 : N * 32 ≤ (a + N * (i + 1)) * 32 := Nat.mul_le_mul_right _ (by omega)
  exact Nat.le_trans h (Nat.le_trans h2 (Nat.le_add_right _ _))
theorem win_key2 (f : Field) (i : Nat) : 33554432 ≤ fieldKey (win f i)  := by
  have h := win_key f.addr f.lo i 0x100000 33554432 (by decide)
  rw [← win_addr, ← win_lo f i] at h
  exact h
@[simp] theorem okf_win (f : Field) (i : Nat) (h : fromBlock m 16 = true) : okField m (win f i) = true :=
  okField_from _ 16 (win_key2 f i) (Nat.le_refl _) h
@[simp] theorem touch_setFlag (s : State) (f : Field) (hm : okField m f = true) (hs : Touch m s0 s) :
    Touch m s0 (setFlag s f) := touch_setF s f _ hm hs
@[simp] theorem touch_putFlag (s : State) (f : Field) (b : Bool) (hm : okField m f = true) (hs : Touch m s0 s) :
    Touch m s0 (putFlag s f b) := touch_setF s f _ hm hs
@[simp] theorem touch_incBy (s : State) (f : Field) (n : Nat) (hm : okField m f = true) (hs : Touch m s0 s) :
    Touch m s0 (incBy s f n) := touch_setF s f _ hm hs
@[simp] theorem touch_inc (s : State) (f : Field) (hm : okField m f = true) (hs : Touch m s0 s) :
    Touch m s0 (inc s f) := touch_setF s f _ hm hs
end Sys2Proof.Machine
end

