-- ==== Sys2Proof/Laws/TouchTime.lean ====
section
/-! SUPPORT. `Touch` through registers, shared operations, time base, ECHO: one lemma per operation. -/

set_option linter.all false

namespace Sys2Proof.Machine

variable {m : Nat} {s0 : State}

@[simp] theorem touch_draw (s : State) (hm : subMask 4194304 m = true) (hs : Touch m s0 s) :
    Touch m s0 (draw s).2 := by
  refine Touch.lift hm hs ?_
  clear hs hm
  have hs : Touch 4194304 s s := .refl _ _
  simp +contextual +decide (maxDischargeDepth := 99) [draw, hs, hasBit, subMask]

@[simp] theorem touch_freshKey (s : State) (hm : subMask 4194304 m = true) (hs : Touch m s0 s) : Touch m s0 (freshKey s).2 := by
  refine Touch.lift hm hs ?_
  clear hs hm
  have hs : Touch 4194304 s s := .refl _ _
  simp +decide (maxDischargeDepth := 99) [freshKey, hs, hasBit, subMask]

@[simp] theorem touch_noteVld (s : State) (mv : Nat) (hm : subMask 1099545182208 m = true) (hs : Touch m s0 s) :
    Touch m s0 (noteVld s mv) := by
  refine Touch.lift hm hs ?_
  clear hs hm
  have hs : Touch 1099545182208 s s := .refl _ _
  simp +decide (maxDischargeDepth := 99) [noteVld, hs, hasBit, subMask]

@[simp] theorem touch_setLink (s : State) (i : Nat) (l : Link) (hm : subMask 256 m = true) (hs : Touch m s0 s) :
    Touch m s0 (setLink s i l) := by
  refine Touch.lift hm hs ?_
  clear hs hm
  have hs : Touch 256 s s := .refl _ _
  simp +contextual +decide (maxDischargeDepth := 99) [setLink, hs, hasBit, subMask]

@[simp] theorem touch_modLink (s : State) (i : Nat) (f : Link → Link) (hm : subMask 256 m = true) (hs : Touch m s0 s) :
    Touch m s0 (modLink s i f) := by
  refine Touch.lift hm hs ?_
  clear hs hm
  have hs : Touch 256 s s := .refl _ _
  simp +decide (maxDischargeDepth := 99) [modLink, hs, hasBit, subMask]

@[simp] theorem touch_setLine (s : State) (n : Nat) (l : LinePort) (hm : subMask 128 m = true) (hs : Touch m s0 s) :
    Touch m s0 (setLine s n l) := by
  refine Touch.lift hm hs ?_
  clear hs hm
  have hs : Touch 128 s s := .refl _ _
  simp +contextual +decide (maxDischargeDepth := 99) [setLine, hs, hasBit, subMask]

@[simp] theorem touch_modLine (s : State) (n : Nat) (f : LinePort → LinePort) (hm : subMask 128 m = true) (hs : Touch m s0 s) :
    Touch m s0 (modLine s n f) := by
  refine Touch.lift hm hs ?_
  clear hs hm
  have hs : Touch 128 s s := .refl _ _
  simp +decide (maxDischargeDepth := 99) [modLine, hs, hasBit, subMask]

@[simp] theorem touch_setHport (s : State) (n : Nat) (p : PortState) (hm : subMask 1048576 m = true) (hs : Touch m s0 s) :
    Touch m s0 (setHport s n p) := by
  refine Touch.lift hm hs ?_
  clear hs hm
  have hs : Touch 1048576 s s := .refl _ _
  simp +contextual +decide (maxDischargeDepth := 99) [setHport, hs, hasBit, subMask]

@[simp] theorem touch_arpNeed (s : State) (ip : Nat) (hm : subMask 2097152 m = true) (hs : Touch m s0 s) :
    Touch m s0 (arpNeed s ip) := by
  refine Touch.lift hm hs ?_
  clear hs hm
  have hs : Touch 2097152 s s := .refl _ _
  simp +contextual +decide (maxDischargeDepth := 99) [arpNeed, hs, hasBit, subMask]

@[simp] theorem touch_emitThen (s : State) (n : Nat) (vf : Nat) (seq : Nat) (op : Nat) (params : Bytes) (auth : Bool) (dstIp : Nat) (dstPort : Nat) (then_ : Nat) (hm : subMask 3145728 m = true) (hs : Touch m s0 s) :
    Touch m s0 (emitThen s n vf seq op params auth dstIp dstPort then_) := by
  refine Touch.lift hm hs ?_
  clear hs hm
  have hs : Touch 3145728 s s := .refl _ _
  simp +decide (maxDischargeDepth := 99) [emitThen, hs, hasBit, subMask]

@[simp] theorem touch_emit (s : State) (n : Nat) (vf : Nat) (seq : Nat) (op : Nat) (params : Bytes) (auth : Bool) (dstIp : Nat) (dstPort : Nat) (hm : subMask 3145728 m = true) (hs : Touch m s0 s) :
    Touch m s0 (emit s n vf seq op params auth dstIp dstPort) := by
  refine Touch.lift hm hs ?_
  clear hs hm
  have hs : Touch 3145728 s s := .refl _ _
  simp +decide (maxDischargeDepth := 99) [emit, hs, hasBit, subMask]

@[simp] theorem touch_eventLost (s : State) (n : Nat) (len : Nat) (hm : subMask 34360786944 m = true) (hs : Touch m s0 s) :
    Touch m s0 (eventLost s n len) := by
  refine Touch.lift hm hs ?_
  clear hs hm
  have hs : Touch 34360786944 s s := .refl _ _
  simp +decide (maxDischargeDepth := 99) [eventLost, hs, hasBit, subMask]

@[simp] theorem touch_emitEvent (s : State) (n : Nat) (op : Nat) (params : Bytes) (hm : subMask 34362884096 m = true) (hs : Touch m s0 s) :
    Touch m s0 (emitEvent s n op params) := by
  refine Touch.lift hm hs ?_
  clear hs hm
  have hs : Touch 34362884096 s s := .refl _ _
  simp +decide (maxDischargeDepth := 99) [emitEvent, hs, hasBit, subMask]

@[simp] theorem touch_raiseAt (s : State) (ts : Nat) (unit : Nat) (fn : Nat) (body : Bytes) (hm : subMask 34362884096 m = true) (hs : Touch m s0 s) :
    Touch m s0 (raiseAt s ts unit fn body) := by
  refine Touch.lift hm hs ?_
  clear hs hm
  have hs : Touch 34362884096 s s := .refl _ _
  simp +contextual +decide (maxDischargeDepth := 99) [raiseAt, hs, hasBit, subMask]

@[simp] theorem touch_raise (s : State) (unit : Nat) (fn : Nat) (body : Bytes) (hm : subMask 34362884096 m = true) (hs : Touch m s0 s) :
    Touch m s0 (raise s unit fn body) := by
  refine Touch.lift hm hs ?_
  clear hs hm
  have hs : Touch 34362884096 s s := .refl _ _
  simp +decide (maxDischargeDepth := 99) [raise, hs, hasBit, subMask]

@[simp] theorem touch_modeEventFrom (s : State) (prev : Mode) (hm : subMask 34362884096 m = true) (hs : Touch m s0 s) :
    Touch m s0 (modeEventFrom s prev) := by
  refine Touch.lift hm hs ?_
  clear hs hm
  have hs : Touch 34362884096 s s := .refl _ _
  simp +contextual +decide (maxDischargeDepth := 99) [modeEventFrom, hs, hasBit, subMask]

@[simp] theorem touch_modeEvent (s : State) (hm : subMask 34362884096 m = true) (hs : Touch m s0 s) :
    Touch m s0 (modeEvent s) := by
  refine Touch.lift hm hs ?_
  clear hs hm
  have hs : Touch 34362884096 s s := .refl _ _
  simp +decide (maxDischargeDepth := 99) [modeEvent, hs, hasBit, subMask]

@[simp] theorem touch_leaveEvent (s : State) (req : Nat) (outcome : Nat) (obj : Nat) (hm : subMask 34362884096 m = true) (hs : Touch m s0 s) :
    Touch m s0 (leaveEvent s req outcome obj) := by
  refine Touch.lift hm hs ?_
  clear hs hm
  have hs : Touch 34362884096 s s := .refl _ _
  simp +decide (maxDischargeDepth := 99) [leaveEvent, hs, hasBit, subMask]

@[simp] theorem touch_timebaseEvent (s : State) (cause : Nat) (value : Int) (hm : subMask 34362884096 m = true) (hs : Touch m s0 s) :
    Touch m s0 (timebaseEvent s cause value) := by
  refine Touch.lift hm hs ?_
  clear hs hm
  have hs : Touch 34362884096 s s := .refl _ _
  simp +decide (maxDischargeDepth := 99) [timebaseEvent, hs, hasBit, subMask]

@[simp] theorem touch_lineEvent (s : State) (port : Nat) (cause : Nat) (hm : subMask 34362884096 m = true) (hs : Touch m s0 s) :
    Touch m s0 (lineEvent s port cause) := by
  refine Touch.lift hm hs ?_
  clear hs hm
  have hs : Touch 34362884096 s s := .refl _ _
  simp +decide (maxDischargeDepth := 99) [lineEvent, hs, hasBit, subMask]

@[simp] theorem touch_memoryEvent (s : State) (word : Nat) (hm : subMask 34362884096 m = true) (hs : Touch m s0 s) :
    Touch m s0 (memoryEvent s word) := by
  refine Touch.lift hm hs ?_
  clear hs hm
  have hs : Touch 34362884096 s s := .refl _ _
  simp +decide (maxDischargeDepth := 99) [memoryEvent, hs, hasBit, subMask]

@[simp] theorem touch_countCode (s : State) (target : Nat) (kind : Nat) (hm : subMask 262144 m = true) (hs : Touch m s0 s) :
    Touch m s0 (countCode s target kind) := by
  refine Touch.lift hm hs ?_
  clear hs hm
  have hs : Touch 262144 s s := .refl _ _
  simp +contextual +decide (maxDischargeDepth := 99) [countCode, hs, hasBit, subMask]

@[simp] theorem touch_uncorrectable (s : State) (word : Nat) (inQueue : Bool) (hm : subMask 51543015424 m = true) (hs : Touch m s0 s) :
    Touch m s0 (uncorrectable s word inQueue) := by
  refine Touch.lift hm hs ?_
  clear hs hm
  have hs : Touch 51543015424 s s := .refl _ _
  simp +decide (maxDischargeDepth := 99) [uncorrectable, hs, hasBit, subMask]

@[simp] theorem touch_dropFlips (s : State) (key : Nat) (hm : subMask 524288 m = true) (hs : Touch m s0 s) :
    Touch m s0 (dropFlips s key) := by
  refine Touch.lift hm hs ?_
  clear hs hm
  have hs : Touch 524288 s s := .refl _ _
  simp +decide (maxDischargeDepth := 99) [dropFlips, hs, hasBit, subMask]

@[simp] theorem touch_setFlips (s : State) (key : Nat) (bad : Nat) (hm : subMask 524288 m = true) (hs : Touch m s0 s) :
    Touch m s0 (setFlips s key bad) := by
  refine Touch.lift hm hs ?_
  clear hs hm
  have hs : Touch 524288 s s := .refl _ _
  simp +decide (maxDischargeDepth := 99) [setFlips, hs, hasBit, subMask]

@[simp] theorem touch_clearMem (s : State) (a : Nat) (n : Nat) (hm : subMask 524288 m = true) (hs : Touch m s0 s) :
    Touch m s0 (clearMem s a n) := by
  refine Touch.lift hm hs ?_
  clear hs hm
  have hs : Touch 524288 s s := .refl _ _
  simp +decide (maxDischargeDepth := 99) [clearMem, hs, hasBit, subMask]

@[simp] theorem touch_setArb (s : State) (b : Nat) (a : Arb) (hm : subMask 262144 m = true) (hs : Touch m s0 s) :
    Touch m s0 (setArb s b a) := by
  refine Touch.lift hm hs ?_
  clear hs hm
  have hs : Touch 262144 s s := .refl _ _
  simp +contextual +decide (maxDischargeDepth := 99) [setArb, hs, hasBit, subMask]

@[simp] theorem touch_raiseScrub (s : State) (b : Nat) (hm : subMask 262144 m = true) (hs : Touch m s0 s) : Touch m s0 (raiseScrub s b) := by
  refine Touch.lift hm hs ?_
  clear hs hm
  have hs : Touch 262144 s s := .refl _ _
  simp +decide (maxDischargeDepth := 99) [raiseScrub, hs, hasBit, subMask]

@[simp] theorem touch_noteFix (s : State) (key : Nat) (hm : subMask 786432 m = true) (hs : Touch m s0 s) : Touch m s0 (noteFix s key) := by
  refine Touch.lift hm hs ?_
  clear hs hm
  have hs : Touch 786432 s s := .refl _ _
  simp +decide (maxDischargeDepth := 99) [noteFix, hs, hasBit, subMask]

@[simp] theorem touch_noteRead (s : State) (key : Nat) (r : Option (List Nat)) (hm : subMask 51543539712 m = true) (hs : Touch m s0 s) :
    Touch m s0 (noteRead s key r) := by
  refine Touch.lift hm hs ?_
  clear hs hm
  have hs : Touch 51543539712 s s := .refl _ _
  unfold noteRead
  (try dsimp only)
  repeat' (first | with_reducible assumption | (simp +contextual +decide (maxDischargeDepth := 99) [hs, hasBit, subMask]; done) | (simp +contextual +decide (maxDischargeDepth := 99) [hs, hk, hasBit, subMask]; done) | split | refine touch_foldl _ _ _ ?_ (fun _ _ hk => ?_))

@[simp] theorem touch_setMark (s : State) (w : Nat) (bad : Nat) (hm : subMask 1048576 m = true) (hs : Touch m s0 s) :
    Touch m s0 (setMark s w bad) := by
  refine Touch.lift hm hs ?_
  clear hs hm
  have hs : Touch 1048576 s s := .refl _ _
  simp +decide (maxDischargeDepth := 99) [setMark, hs, hasBit, subMask]

@[simp] theorem touch_bufRead (s : State) (n : Nat) (place : List Nat) (hm : subMask 51543539712 m = true) (hs : Touch m s0 s) :
    Touch m s0 (bufRead s n place) := by
  refine Touch.lift hm hs ?_
  clear hs hm
  have hs : Touch 51543539712 s s := .refl _ _
  simp +contextual +decide (maxDischargeDepth := 99) [bufRead, hs, hasBit, subMask]

@[simp] theorem touch_readMem (s : State) (a : Nat) (n : Nat) (hm : subMask 51543539712 m = true) (hs : Touch m s0 s) :
    Touch m s0 (readMem s a n) := by
  refine Touch.lift hm hs ?_
  clear hs hm
  have hs : Touch 51543539712 s s := .refl _ _
  simp +contextual +decide (maxDischargeDepth := 99) [readMem, hs, hasBit, subMask]

@[simp] theorem touch_meetWord (s : State) (a : Nat) (n : Nat) (w : Nat) (hm : subMask 51543539712 m = true) (hs : Touch m s0 s) :
    Touch m s0 (meetWord s a n w) := by
  refine Touch.lift hm hs ?_
  clear hs hm
  have hs : Touch 51543539712 s s := .refl _ _
  unfold meetWord
  (try dsimp only)
  repeat' (first | with_reducible assumption | (simp +contextual +decide (maxDischargeDepth := 99) [hs, hasBit, subMask]; done) | (simp +contextual +decide (maxDischargeDepth := 99) [hs, hk, hasBit, subMask]; done) | split | refine touch_foldl _ _ _ ?_ (fun _ _ hk => ?_))

@[simp] theorem touch_meetFlips (s : State) (a : Nat) (n : Nat) (hm : subMask 51543539712 m = true) (hs : Touch m s0 s) :
    Touch m s0 (meetFlips s a n) := by
  refine Touch.lift hm hs ?_
  clear hs hm
  have hs : Touch 51543539712 s s := .refl _ _
  simp +contextual +decide (maxDischargeDepth := 99) [meetFlips, hs, hasBit, subMask]

@[simp] theorem touch_memWrite (s : State) (a : Nat) (b : Bytes) (hm : subMask 51543539714 m = true) (hs : Touch m s0 s) :
    Touch m s0 (memWrite s a b) := by
  refine Touch.lift hm hs ?_
  have h : Touch 51543539714 s (meetFlips s a b.length) := touch_meetFlips s a b.length (by decide) (.refl _ _)
  simp only [Touch, TouchOf] at h ⊢
  exact ⟨h.1, Or.inl (by decide), h.2.2⟩

@[simp] theorem touch_flashPut (s : State) (a : Nat) (b : Bytes) (hm : subMask 4 m = true) (hs : Touch m s0 s) :
    Touch m s0 (flashPut s a b) := by
  refine Touch.lift hm hs ?_
  clear hs hm
  have hs : Touch 4 s s := .refl _ _
  simp +contextual +decide (maxDischargeDepth := 99) [flashPut, hs, hasBit, subMask]

@[simp] theorem touch_memPut (s : State) (a : Nat) (n : Nat) (v : Nat) (hm : subMask 51543539714 m = true) (hs : Touch m s0 s) :
    Touch m s0 (memPut s a n v) := by
  refine Touch.lift hm hs ?_
  clear hs hm
  have hs : Touch 51543539714 s s := .refl _ _
  simp +decide (maxDischargeDepth := 99) [memPut, hs, hasBit, subMask]

@[simp] theorem touch_cSet (s : State) (i : Nat) (f : CF) (v : Nat) (hm : subMask 51543539714 m = true) (hs : Touch m s0 s) :
    Touch m s0 (cSet s i f v) := by
  refine Touch.lift hm hs ?_
  clear hs hm
  have hs : Touch 51543539714 s s := .refl _ _
  simp +decide (maxDischargeDepth := 99) [cSet, hs, hasBit, subMask]

@[simp] theorem touch_cInc (s : State) (i : Nat) (f : CF) (hm : subMask 51543539714 m = true) (hs : Touch m s0 s) :
    Touch m s0 (cInc s i f) := by
  refine Touch.lift hm hs ?_
  clear hs hm
  have hs : Touch 51543539714 s s := .refl _ _
  simp +decide (maxDischargeDepth := 99) [cInc, hs, hasBit, subMask]

@[simp] theorem touch_cLinkBit (s : State) (i : Nat) (b : Nat) (v : Bool) (hm : subMask 51543539714 m = true) (hs : Touch m s0 s) :
    Touch m s0 (cLinkBit s i b v) := by
  refine Touch.lift hm hs ?_
  clear hs hm
  have hs : Touch 51543539714 s s := .refl _ _
  simp +decide (maxDischargeDepth := 99) [cLinkBit, hs, hasBit, subMask]

@[simp] theorem touch_cKBit (s : State) (i : Nat) (b : Nat) (v : Bool) (hm : subMask 51543539714 m = true) (hs : Touch m s0 s) :
    Touch m s0 (cKBit s i b v) := by
  refine Touch.lift hm hs ?_
  clear hs hm
  have hs : Touch 51543539714 s s := .refl _ _
  simp +decide (maxDischargeDepth := 99) [cKBit, hs, hasBit, subMask]

@[simp] theorem touch_rSet (s : State) (i : Nat) (f : CF) (v : Nat) (hm : subMask 51543539714 m = true) (hs : Touch m s0 s) :
    Touch m s0 (rSet s i f v) := by
  refine Touch.lift hm hs ?_
  clear hs hm
  have hs : Touch 51543539714 s s := .refl _ _
  simp +decide (maxDischargeDepth := 99) [rSet, hs, hasBit, subMask]

@[simp] theorem touch_keyEvent (s : State) (cause : Nat) (ctx : Nat) (hm : subMask 34362884096 m = true) (hs : Touch m s0 s) :
    Touch m s0 (keyEvent s cause ctx) := by
  refine Touch.lift hm hs ?_
  clear hs hm
  have hs : Touch 34362884096 s s := .refl _ _
  simp +decide (maxDischargeDepth := 99) [keyEvent, hs, hasBit, subMask]

@[simp] theorem touch_linkEvent (s : State) (ctx : Nat) (cause : Nat) (hm : subMask 34362884096 m = true) (hs : Touch m s0 s) :
    Touch m s0 (linkEvent s ctx cause) := by
  refine Touch.lift hm hs ?_
  clear hs hm
  have hs : Touch 34362884096 s s := .refl _ _
  simp +decide (maxDischargeDepth := 99) [linkEvent, hs, hasBit, subMask]

@[simp] theorem touch_erfEvent (s : State) (cause : Nat) (hm : subMask 34362884096 m = true) (hs : Touch m s0 s) :
    Touch m s0 (erfEvent s cause) := by
  refine Touch.lift hm hs ?_
  clear hs hm
  have hs : Touch 34362884096 s s := .refl _ _
  simp +decide (maxDischargeDepth := 99) [erfEvent, hs, hasBit, subMask]

@[simp] theorem touch_complete (s : State) (n : Nat) (seq : Nat) (op : Nat) (auth : Bool) (status : Nat) (data : Bytes) (hm : subMask 3145728 m = true) (hs : Touch m s0 s) :
    Touch m s0 (complete s n seq op auth status data) := by
  refine Touch.lift hm hs ?_
  clear hs hm
  have hs : Touch 3145728 s s := .refl _ _
  simp +decide (maxDischargeDepth := 99) [complete, hs, hasBit, subMask]

@[simp] theorem touch_answerReq (s : State) (n : Nat) (seq : Nat) (op : Nat) (auth : Bool) (status : Nat) (data : Bytes) (hm : subMask 3145728 m = true) (hs : Touch m s0 s) :
    Touch m s0 (answerReq s n seq op auth status data) := by
  refine Touch.lift hm hs ?_
  clear hs hm
  have hs : Touch 3145728 s s := .refl _ _
  simp +decide (maxDischargeDepth := 99) [answerReq, hs, hasBit, subMask]

@[simp] theorem touch_setQueue (s : State) (i : Nat) (q : Queue) (hm : subMask 131072 m = true) (hs : Touch m s0 s) :
    Touch m s0 (setQueue s i q) := by
  refine Touch.lift hm hs ?_
  clear hs hm
  have hs : Touch 131072 s s := .refl _ _
  simp +contextual +decide (maxDischargeDepth := 99) [setQueue, hs, hasBit, subMask]

@[simp] theorem touch_setQcnt (s : State) (i : Nat) (c : Nat × Nat × Nat × Nat × Nat) (hm : subMask 131072 m = true) (hs : Touch m s0 s) :
    Touch m s0 (setQcnt s i c) := by
  refine Touch.lift hm hs ?_
  clear hs hm
  have hs : Touch 131072 s s := .refl _ _
  simp +contextual +decide (maxDischargeDepth := 99) [setQcnt, hs, hasBit, subMask]

@[simp] theorem touch_countFull (s : State) (i : Nat) (hm : subMask 131072 m = true) (hs : Touch m s0 s) :
    Touch m s0 (countFull s i) := by
  refine Touch.lift hm hs ?_
  clear hs hm
  have hs : Touch 131072 s s := .refl _ _
  simp +decide (maxDischargeDepth := 99) [countFull, hs, hasBit, subMask]

@[simp] theorem touch_countOversize (s : State) (i : Nat) (hm : subMask 131072 m = true) (hs : Touch m s0 s) :
    Touch m s0 (countOversize s i) := by
  refine Touch.lift hm hs ?_
  clear hs hm
  have hs : Touch 131072 s s := .refl _ _
  simp +decide (maxDischargeDepth := 99) [countOversize, hs, hasBit, subMask]

@[simp] theorem touch_countZlp (s : State) (i : Nat) (hm : subMask 131072 m = true) (hs : Touch m s0 s) :
    Touch m s0 (countZlp s i) := by
  refine Touch.lift hm hs ?_
  clear hs hm
  have hs : Touch 131072 s s := .refl _ _
  simp +decide (maxDischargeDepth := 99) [countZlp, hs, hasBit, subMask]

@[simp] theorem touch_countRewind (s : State) (i : Nat) (hm : subMask 131072 m = true) (hs : Touch m s0 s) :
    Touch m s0 (countRewind s i) := by
  refine Touch.lift hm hs ?_
  clear hs hm
  have hs : Touch 131072 s s := .refl _ _
  simp +decide (maxDischargeDepth := 99) [countRewind, hs, hasBit, subMask]

@[simp] theorem touch_countPoison (s : State) (i : Nat) (hm : subMask 131072 m = true) (hs : Touch m s0 s) :
    Touch m s0 (countPoison s i) := by
  refine Touch.lift hm hs ?_
  clear hs hm
  have hs : Touch 131072 s s := .refl _ _
  simp +decide (maxDischargeDepth := 99) [countPoison, hs, hasBit, subMask]

@[simp] theorem touch_clearQ (s : State) (i : Nat) (place : Nat) (n : Nat) (hm : subMask 524288 m = true) (hs : Touch m s0 s) :
    Touch m s0 (clearQ s i place n) := by
  refine Touch.lift hm hs ?_
  clear hs hm
  have hs : Touch 524288 s s := .refl _ _
  simp +contextual +decide (maxDischargeDepth := 99) [clearQ, hs, hasBit, subMask]

@[simp] theorem touch_readQ (s : State) (i : Nat) (place : Nat) (it : QItem) (j : Nat) (hm : subMask 51543539712 m = true) (hs : Touch m s0 s) :
    Touch m s0 (readQ s i place it j) := by
  refine Touch.lift hm hs ?_
  clear hs hm
  have hs : Touch 51543539712 s s := .refl _ _
  simp +decide (maxDischargeDepth := 99) [readQ, hs, hasBit, subMask]

@[simp] theorem touch_readPay (s : State) (i : Nat) (place : Nat) (it : QItem) (n : Nat) (hm : subMask 51543539712 m = true) (hs : Touch m s0 s) :
    Touch m s0 (readPay s i place it n) := by
  refine Touch.lift hm hs ?_
  clear hs hm
  have hs : Touch 51543539712 s s := .refl _ _
  simp +contextual +decide (maxDischargeDepth := 99) [readPay, hs, hasBit, subMask]

@[simp] theorem touch_pushQ (s : State) (i : Nat) (e : QEntry) (hm : subMask 655360 m = true) (hs : Touch m s0 s) :
    Touch m s0 (pushQ s i e) := by
  refine Touch.lift hm hs ?_
  clear hs hm
  have hs : Touch 655360 s s := .refl _ _
  simp +decide (maxDischargeDepth := 99) [pushQ, hs, hasBit, subMask]

@[simp] theorem touch_gapMark (s : State) (i : Nat) (bytes : Nat) (oversize : Nat) (hm : subMask 655360 m = true) (hs : Touch m s0 s) :
    Touch m s0 (gapMark s i bytes oversize) := by
  refine Touch.lift hm hs ?_
  clear hs hm
  have hs : Touch 655360 s s := .refl _ _
  unfold gapMark
  (try dsimp only)
  repeat' (first | with_reducible assumption | (simp +contextual +decide (maxDischargeDepth := 99) [hs, hasBit, subMask]; done) | (simp +contextual +decide (maxDischargeDepth := 99) [hs, hk, hasBit, subMask]; done) | split | refine touch_foldl _ _ _ ?_ (fun _ _ hk => ?_))

@[simp] theorem touch_commitItem (s : State) (i : Nat) (len : Nat) (item : QItem) (tag : Option (Nat × Nat)) (hm : subMask 655360 m = true) (hs : Touch m s0 s) :
    Touch m s0 (commitItem s i len item tag).1 := by
  refine Touch.lift hm hs ?_
  clear hs hm
  have hs : Touch 655360 s s := .refl _ _
  unfold commitItem
  (try dsimp only)
  repeat' (first | with_reducible assumption | (simp +contextual +decide (maxDischargeDepth := 99) [hs, hasBit, subMask]; done) | (simp +contextual +decide (maxDischargeDepth := 99) [hs, hk, hasBit, subMask]; done) | split | refine touch_foldl _ _ _ ?_ (fun _ _ hk => ?_))

@[simp] theorem touch_commitQ (s : State) (i : Nat) (p : QPkt) (hm : subMask 655360 m = true) (hs : Touch m s0 s) :
    Touch m s0 (commitQ s i p).1 := by
  refine Touch.lift hm hs ?_
  clear hs hm
  have hs : Touch 655360 s s := .refl _ _
  unfold commitQ
  (try dsimp only)
  repeat' (first | with_reducible assumption | (simp +contextual +decide (maxDischargeDepth := 99) [hs, hasBit, subMask]; done) | (simp +contextual +decide (maxDischargeDepth := 99) [hs, hk, hasBit, subMask]; done) | split | refine touch_foldl _ _ _ ?_ (fun _ _ hk => ?_))

@[simp] theorem touch_rewindQ (s : State) (i : Nat) (len : Nat) (hm : subMask 655360 m = true) (hs : Touch m s0 s) :
    Touch m s0 (rewindQ s i len) := by
  refine Touch.lift hm hs ?_
  clear hs hm
  have hs : Touch 655360 s s := .refl _ _
  simp +decide (maxDischargeDepth := 99) [rewindQ, hs, hasBit, subMask]

@[simp] theorem touch_releaseGaps (s : State) (i : Nat) (hm : subMask 131072 m = true) (hs : Touch m s0 s) :
    Touch m s0 (releaseGaps s i) := by
  refine Touch.lift hm hs ?_
  clear hs hm
  have hs : Touch 131072 s s := .refl _ _
  simp +decide (maxDischargeDepth := 99) [releaseGaps, hs, hasBit, subMask]

@[simp] theorem touch_flushAt (s : State) (i : Nat) (k : Nat) (hm : subMask 655360 m = true) (hs : Touch m s0 s) :
    Touch m s0 (flushAt s i k) := by
  refine Touch.lift hm hs ?_
  clear hs hm
  have hs : Touch 655360 s s := .refl _ _
  simp +decide (maxDischargeDepth := 99) [flushAt, hs, hasBit, subMask]

@[simp] theorem touch_takeAt (s : State) (i : Nat) (k : Nat) (e : QEntry) (hm : subMask 51543670784 m = true) (hs : Touch m s0 s) :
    Touch m s0 (takeAt s i k e).1 := by
  refine Touch.lift hm hs ?_
  clear hs hm
  have hs : Touch 51543670784 s s := .refl _ _
  unfold takeAt
  (try dsimp only)
  repeat' (first | with_reducible assumption | (simp +contextual +decide (maxDischargeDepth := 99) [hs, hasBit, subMask]; done) | (simp +contextual +decide (maxDischargeDepth := 99) [hs, hk, hasBit, subMask]; done) | split | refine touch_foldl _ _ _ ?_ (fun _ _ hk => ?_))

@[simp] theorem touch_takeE (s : State) (i : Nat) (hm : subMask 51543670784 m = true) (hs : Touch m s0 s) : Touch m s0 (takeE s i).1 := by
  refine Touch.lift hm hs ?_
  clear hs hm
  have hs : Touch 51543670784 s s := .refl _ _
  unfold takeE
  (try dsimp only)
  repeat' (first | with_reducible assumption | (simp +contextual +decide (maxDischargeDepth := 99) [hs, hasBit, subMask]; done) | (simp +contextual +decide (maxDischargeDepth := 99) [hs, hk, hasBit, subMask]; done) | split | refine touch_foldl _ _ _ ?_ (fun _ _ hk => ?_))

@[simp] theorem touch_takeQ (s : State) (i : Nat) (hm : subMask 51543670784 m = true) (hs : Touch m s0 s) :
    Touch m s0 (takeQ s i).1 := by
  refine Touch.lift hm hs ?_
  clear hs hm
  have hs : Touch 51543670784 s s := .refl _ _
  unfold takeQ
  (try dsimp only)
  repeat' (first | with_reducible assumption | (simp +contextual +decide (maxDischargeDepth := 99) [hs, hasBit, subMask]; done) | (simp +contextual +decide (maxDischargeDepth := 99) [hs, hk, hasBit, subMask]; done) | split | refine touch_foldl _ _ _ ?_ (fun _ _ hk => ?_))

@[simp] theorem touch_gapEvent (s : State) (source : Nat) (g : Gap) (hm : subMask 34362884096 m = true) (hs : Touch m s0 s) :
    Touch m s0 (gapEvent s source g) := by
  refine Touch.lift hm hs ?_
  clear hs hm
  have hs : Touch 34362884096 s s := .refl _ _
  simp +decide (maxDischargeDepth := 99) [gapEvent, hs, hasBit, subMask]

@[simp] theorem touch_drainEvents (s : State) (i : Nat) (unit : Nat) (fuel : Nat) (hm : subMask 51543670784 m = true) (hs : Touch m s0 s) :
    Touch m s0 (drainEvents s i unit fuel) := by
  refine Touch.lift hm hs ?_
  clear hs hm
  have hs : Touch 51543670784 s s := .refl _ _
  suffices key : ∀ b0, Touch 51543670784 b0 s → Touch 51543670784 b0 (drainEvents s i unit fuel) from key _ hs
  clear hs
  intro b0 hs
  induction fuel generalizing s with
  | zero => exact hs
  | succ n ih =>
    unfold drainEvents
    split
    · split
      · exact hs
      · have h2 := touch_takeQ s i (m := 51543670784) (by decide) hs
        revert h2
        generalize takeQ s i = r
        intro h2
        obtain ⟨s2, it⟩ := r
        apply ih
        dsimp only at h2 ⊢
        split <;> simp +contextual +decide (maxDischargeDepth := 99) [h2, hasBit, subMask]
    · exact hs

@[simp] theorem touch_measEvent (s : State) (type : Nat) (body : Bytes) (hm : subMask 51543670784 m = true) (hs : Touch m s0 s) :
    Touch m s0 (measEvent s type body) := by
  refine Touch.lift hm hs ?_
  clear hs hm
  have hs : Touch 51543670784 s s := .refl _ _
  simp +decide (maxDischargeDepth := 99) [measEvent, hs, hasBit, subMask]

@[simp] theorem touch_ctrlEvent (s : State) (type : Nat) (body : Bytes) (hm : subMask 51543670784 m = true) (hs : Touch m s0 s) :
    Touch m s0 (ctrlEvent s type body) := by
  refine Touch.lift hm hs ?_
  clear hs hm
  have hs : Touch 51543670784 s s := .refl _ _
  simp +decide (maxDischargeDepth := 99) [ctrlEvent, hs, hasBit, subMask]

@[simp] theorem touch_finishLocal (s : State) (c0 : Current) (status : Nat) (data : Bytes) (hm : subMask 3145728 m = true) (hs : Touch m s0 s) :
    Touch m s0 (finishLocal s c0 status data) := by
  refine Touch.lift hm hs ?_
  clear hs hm
  have hs : Touch 3145728 s s := .refl _ _
  simp +decide (maxDischargeDepth := 99) [finishLocal, hs, hasBit, subMask]

@[simp] theorem touch_answerSend (s : State) (tag : Option (Nat × Nat)) (status : Nat) (hm : subMask 3145728 m = true) (hs : Touch m s0 s) :
    Touch m s0 (answerSend s tag status) := by
  refine Touch.lift hm hs ?_
  clear hs hm
  have hs : Touch 3145728 s s := .refl _ _
  unfold answerSend
  (try dsimp only)
  repeat' (first | with_reducible assumption | (simp +contextual +decide (maxDischargeDepth := 99) [hs, hasBit, subMask]; done) | (simp +contextual +decide (maxDischargeDepth := 99) [hs, hk, hasBit, subMask]; done) | split | refine touch_foldl _ _ _ ?_ (fun _ _ hk => ?_))

@[simp] theorem touch_hostInDropped (s : State) (x : Staged) (hm : subMask 4298113024 m = true) (hs : Touch m s0 s) :
    Touch m s0 (hostInDropped s x) := by
  refine Touch.lift hm hs ?_
  clear hs hm
  have hs : Touch 4298113024 s s := .refl _ _
  simp +decide (maxDischargeDepth := 99) [hostInDropped, hs, hasBit, subMask]

@[simp] theorem touch_stageBegin (s : State) (x1 : Nat) (hm : subMask 4298768384 m = true) (hs : Touch m s0 s) :
    Touch m s0 (stageBegin s x1) := by
  refine Touch.lift hm hs ?_
  clear hs hm
  have hs : Touch 4298768384 s s := .refl _ _
  suffices key : ∀ b0, Touch 4298768384 b0 s → Touch 4298768384 b0 (stageBegin s x1) from key _ hs
  clear hs
  intro b0 hs
  induction x1 generalizing s with
  | zero => exact hs
  | succ n ih =>
    unfold stageBegin
    (try dsimp only)
    repeat' (first | with_reducible assumption | (simp +contextual +decide (maxDischargeDepth := 99) [hs, ih, hasBit, subMask]; done) | split | (refine ih _ ?_) | (refine ih _ _ ?_) | (refine ih _ _ _ ?_) | refine touch_foldl _ _ _ ?_ (fun _ _ hk => ?_))

@[simp] theorem touch_stageEnd (s : State) (hm : subMask 4298768384 m = true) (hs : Touch m s0 s) : Touch m s0 (stageEnd s) := by
  refine Touch.lift hm hs ?_
  clear hs hm
  have hs : Touch 4298768384 s s := .refl _ _
  unfold stageEnd
  (try dsimp only)
  repeat' (first | with_reducible assumption | (simp +contextual +decide (maxDischargeDepth := 99) [hs, hasBit, subMask]; done) | (simp +contextual +decide (maxDischargeDepth := 99) [hs, hk, hasBit, subMask]; done) | split | refine touch_foldl _ _ _ ?_ (fun _ _ hk => ?_))

@[simp] theorem touch_stage (s : State) (x : Staged) (hm : subMask 4298768384 m = true) (hs : Touch m s0 s) : Touch m s0 (stage s x) := by
  refine Touch.lift hm hs ?_
  clear hs hm
  have hs : Touch 4298768384 s s := .refl _ _
  simp +decide (maxDischargeDepth := 99) [stage, hs, hasBit, subMask]

@[simp] theorem touch_stageLce (s : State) (dst : Nat) (body : Bytes) (send : Bool) (hm : subMask 4298768384 m = true) (hs : Touch m s0 s) :
    Touch m s0 (stageLce s dst body send) := by
  refine Touch.lift hm hs ?_
  clear hs hm
  have hs : Touch 4298768384 s s := .refl _ _
  simp +contextual +decide (maxDischargeDepth := 99) [stageLce, hs, hasBit, subMask]

@[simp] theorem touch_stageHcp (s : State) (p : QPkt) (tag : Option (Nat × Nat)) (hm : subMask 4298768384 m = true) (hs : Touch m s0 s) :
    Touch m s0 (stageHcp s p tag) := by
  refine Touch.lift hm hs ?_
  clear hs hm
  have hs : Touch 4298768384 s s := .refl _ _
  simp +decide (maxDischargeDepth := 99) [stageHcp, hs, hasBit, subMask]

@[simp] theorem touch_sendRemote (s : State) (orig : Nat) (vf : Nat) (seq : Nat) (op : Nat) (params : Bytes) (hm : subMask 4298768384 m = true) (hs : Touch m s0 s) :
    Touch m s0 (sendRemote s orig vf seq op params) := by
  refine Touch.lift hm hs ?_
  clear hs hm
  have hs : Touch 4298768384 s s := .refl _ _
  simp +decide (maxDischargeDepth := 99) [sendRemote, hs, hasBit, subMask]

@[simp] theorem touch_answerRemote (s : State) (orig : Nat) (seq : Nat) (op : Nat) (status : Nat) (data : Bytes) (hm : subMask 4298768384 m = true) (hs : Touch m s0 s) :
    Touch m s0 (answerRemote s orig seq op status data) := by
  refine Touch.lift hm hs ?_
  clear hs hm
  have hs : Touch 4298768384 s s := .refl _ _
  simp +contextual +decide (maxDischargeDepth := 99) [answerRemote, hs, hasBit, subMask]

@[simp] theorem touch_finishCurrent (s : State) (status : Nat) (data : Bytes) (hm : subMask 4298768384 m = true) (hs : Touch m s0 s) :
    Touch m s0 (finishCurrent s status data) := by
  refine Touch.lift hm hs ?_
  clear hs hm
  have hs : Touch 4298768384 s s := .refl _ _
  unfold finishCurrent
  repeat' split
  all_goals simp +contextual +decide (maxDischargeDepth := 99) [hs, hasBit, subMask]

@[simp] theorem touch_useAnswer (s : State) (req : Nat) (f : LeaveFor) (hm : subMask 16 m = true) (hs : Touch m s0 s) :
    Touch m s0 (useAnswer s req f) := by
  refine Touch.lift hm hs ?_
  clear hs hm
  have hs : Touch 16 s s := .refl _ _
  simp +decide (maxDischargeDepth := 99) [useAnswer, hs, hasBit, subMask]

@[simp] theorem touch_setAnswer (s : State) (req : Nat) (f : LeaveFor) (a : LeaveAns) (step : Nat) (hm : subMask 16 m = true) (hs : Touch m s0 s) :
    Touch m s0 (setAnswer s req f a step) := by
  refine Touch.lift hm hs ?_
  clear hs hm
  have hs : Touch 16 s s := .refl _ _
  simp +decide (maxDischargeDepth := 99) [setAnswer, hs, hasBit, subMask]

@[simp] theorem touch_askFor (s : State) (req : Nat) (f : LeaveFor) (obj : Nat) (level : Nat) (beacon : Bool) (hm : subMask 16 m = true) (hs : Touch m s0 s) :
    Touch m s0 (askFor s req f obj level beacon) := by
  refine Touch.lift hm hs ?_
  clear hs hm
  have hs : Touch 16 s s := .refl _ _
  simp +decide (maxDischargeDepth := 99) [askFor, hs, hasBit, subMask]

@[simp] theorem touch_askLeave (s : State) (req : Nat) (obj : Nat) (level : Nat) (beacon : Bool) (hm : subMask 16 m = true) (hs : Touch m s0 s) :
    Touch m s0 (askLeave s req obj level beacon) := by
  refine Touch.lift hm hs ?_
  clear hs hm
  have hs : Touch 16 s s := .refl _ _
  simp +contextual +decide (maxDischargeDepth := 99) [askLeave, hs, hasBit, subMask]

@[simp] theorem touch_dropLeave (s : State) (req : Nat) (f : LeaveFor) (hm : subMask 16 m = true) (hs : Touch m s0 s) :
    Touch m s0 (dropLeave s req f) := by
  refine Touch.lift hm hs ?_
  clear hs hm
  have hs : Touch 16 s s := .refl _ _
  simp +decide (maxDischargeDepth := 99) [dropLeave, hs, hasBit, subMask]

@[simp] theorem touch_releaseLeave (s : State) (req : Nat) (hm : subMask 16 m = true) (hs : Touch m s0 s) :
    Touch m s0 (releaseLeave s req) := by
  refine Touch.lift hm hs ?_
  clear hs hm
  have hs : Touch 16 s s := .refl _ _
  simp +contextual +decide (maxDischargeDepth := 99) [releaseLeave, hs, hasBit, subMask]

@[simp] theorem touch_withdrawLeave (s : State) (req : Nat) (hm : subMask 16 m = true) (hs : Touch m s0 s) :
    Touch m s0 (withdrawLeave s req) := by
  refine Touch.lift hm hs ?_
  clear hs hm
  have hs : Touch 16 s s := .refl _ _
  simp +contextual +decide (maxDischargeDepth := 99) [withdrawLeave, hs, hasBit, subMask]

@[simp] theorem touch_runTime (s : State) (n : Nat) (hm : subMask 96 m = true) (hs : Touch m s0 s) :
    Touch m s0 (runTime s n) := by
  refine Touch.lift hm hs ?_
  clear hs hm
  have hs : Touch 96 s s := .refl _ _
  simp +contextual +decide (maxDischargeDepth := 99) [runTime, hs, hasBit, subMask]

@[simp] theorem touch_advanceTo (s : State) (t : Nat) (hm : subMask 96 m = true) (hs : Touch m s0 s) :
    Touch m s0 (advanceTo s t) := by
  refine Touch.lift hm hs ?_
  clear hs hm
  have hs : Touch 96 s s := .refl _ _
  simp +contextual +decide (maxDischargeDepth := 99) [advanceTo, hs, hasBit, subMask]

@[simp] theorem touch_stepTime (s : State) (off : Int) (hm : subMask 32240 m = true) (hs : Touch m s0 s) :
    Touch m s0 (stepTime s off) := by
  refine Touch.lift hm hs ?_
  clear hs hm
  have hs : Touch 32240 s s := .refl _ _
  simp +contextual +decide (maxDischargeDepth := 99) [stepTime, hs, hasBit, subMask]

@[simp] theorem touch_setDet (s : State) (n : Nat) (d : Detector) (hm : subMask 64 m = true) (hs : Touch m s0 s) :
    Touch m s0 (setDet s n d) := by
  refine Touch.lift hm hs ?_
  clear hs hm
  have hs : Touch 64 s s := .refl _ _
  simp +contextual +decide (maxDischargeDepth := 99) [setDet, hs, hasBit, subMask]

@[simp] theorem touch_measureOffset (s : State) (n : Nat) (hm : subMask 64 m = true) (hs : Touch m s0 s) :
    Touch m s0 (measureOffset s n) := by
  refine Touch.lift hm hs ?_
  clear hs hm
  have hs : Touch 64 s s := .refl _ _
  unfold measureOffset
  repeat' split
  all_goals simp +contextual +decide (maxDischargeDepth := 99) [hs, hasBit, subMask]

@[simp] theorem touch_setSource (s : State) (src : Option Nat) (hm : subMask 34379661376 m = true) (hs : Touch m s0 s) :
    Touch m s0 (setSource s src) := by
  refine Touch.lift hm hs ?_
  clear hs hm
  have hs : Touch 34379661376 s s := .refl _ _
  simp +contextual +decide (maxDischargeDepth := 99) [setSource, hs, hasBit, subMask]

@[simp] theorem touch_enterHoldover (s : State) (hm : subMask 34379661376 m = true) (hs : Touch m s0 s) :
    Touch m s0 (enterHoldover s) := by
  refine Touch.lift hm hs ?_
  clear hs hm
  have hs : Touch 34379661376 s s := .refl _ _
  simp +contextual +decide (maxDischargeDepth := 99) [enterHoldover, hs, hasBit, subMask]

@[simp] theorem touch_coast (s : State) (hm : subMask 64 m = true) (hs : Touch m s0 s) : Touch m s0 (coast s) := by
  refine Touch.lift hm hs ?_
  clear hs hm
  have hs : Touch 64 s s := .refl _ _
  simp +decide (maxDischargeDepth := 99) [coast, hs, hasBit, subMask]

@[simp] theorem touch_selectNomf (s : State) (p : Nat) (hm : subMask 16777216 m = true) (hs : Touch m s0 s) :
    Touch m s0 (selectNomf s p) := by
  refine Touch.lift hm hs ?_
  clear hs hm
  have hs : Touch 16777216 s s := .refl _ _
  simp +decide (maxDischargeDepth := 99) [selectNomf, hs, hasBit, subMask]

@[simp] theorem touch_trackCrossing (s : State) (zm : Int) (hm : subMask 16777280 m = true) (hs : Touch m s0 s) :
    Touch m s0 (trackCrossing s zm) := by
  refine Touch.lift hm hs ?_
  clear hs hm
  have hs : Touch 16777280 s s := .refl _ _
  simp +decide (maxDischargeDepth := 99) [trackCrossing, hs, hasBit, subMask]

@[simp] theorem touch_relocate (s : State) (hm : subMask 16777280 m = true) (hs : Touch m s0 s) : Touch m s0 (relocate s) := by
  refine Touch.lift hm hs ?_
  clear hs hm
  have hs : Touch 16777280 s s := .refl _ _
  simp +decide (maxDischargeDepth := 99) [relocate, hs, hasBit, subMask]

@[simp] theorem touch_lockOn (s : State) (p : Nat) (z : Nat) (hm : subMask 16777280 m = true) (hs : Touch m s0 s) :
    Touch m s0 (lockOn s p z) := by
  refine Touch.lift hm hs ?_
  clear hs hm
  have hs : Touch 16777280 s s := .refl _ _
  simp +decide (maxDischargeDepth := 99) [lockOn, hs, hasBit, subMask]

@[simp] theorem touch_firstBound (s : State) (p : Nat) (hm : subMask 16777280 m = true) (hs : Touch m s0 s) :
    Touch m s0 (firstBound s p) := by
  refine Touch.lift hm hs ?_
  clear hs hm
  have hs : Touch 16777280 s s := .refl _ _
  simp +decide (maxDischargeDepth := 99) [firstBound, hs, hasBit, subMask]

@[simp] theorem touch_firstLock (s : State) (p : Nat) (z : Nat) (hm : subMask 16777280 m = true) (hs : Touch m s0 s) : Touch m s0 (firstLock s p z) := by
  refine Touch.lift hm hs ?_
  clear hs hm
  have hs : Touch 16777280 s s := .refl _ _
  simp +contextual +decide (maxDischargeDepth := 99) [firstLock, hs, hasBit, subMask]

@[simp] theorem touch_acceptCrossing (s : State) (n : Nat) (ts : Nat) (hm : subMask 34379661376 m = true) (hs : Touch m s0 s) :
    Touch m s0 (acceptCrossing s n ts) := by
  refine Touch.lift hm hs ?_
  clear hs hm
  have hs : Touch 34379661376 s s := .refl _ _
  unfold acceptCrossing
  repeat' split
  all_goals simp +contextual +decide (maxDischargeDepth := 99) [hs, hasBit, subMask]

@[simp] theorem touch_candidate (s : State) (n : Nat) (ts : Nat) (hm : subMask 34379661376 m = true) (hs : Touch m s0 s) :
    Touch m s0 (candidate s n ts) := by
  refine Touch.lift hm hs ?_
  clear hs hm
  have hs : Touch 34379661376 s s := .refl _ _
  unfold candidate
  (try dsimp only)
  repeat' (first | with_reducible assumption | (simp +contextual +decide (maxDischargeDepth := 99) [hs, hasBit, subMask]; done) | (simp +contextual +decide (maxDischargeDepth := 99) [hs, hk, hasBit, subMask]; done) | split | refine touch_foldl _ _ _ ?_ (fun _ _ hk => ?_))

@[simp] theorem touch_detMissed (s : State) (n : Nat) (d : Detector) (hm : subMask 64 m = true) (hs : Touch m s0 s) :
    Touch m s0 (detMissed s n d) := by
  refine Touch.lift hm hs ?_
  clear hs hm
  have hs : Touch 64 s s := .refl _ _
  simp +contextual +decide (maxDischargeDepth := 99) [detMissed, hs, hasBit, subMask]

@[simp] theorem touch_sourceMissed (s : State) (hm : subMask 64 m = true) (hs : Touch m s0 s) :
    Touch m s0 (sourceMissed s) := by
  refine Touch.lift hm hs ?_
  clear hs hm
  have hs : Touch 64 s s := .refl _ _
  simp +contextual +decide (maxDischargeDepth := 99) [sourceMissed, hs, hasBit, subMask]

@[simp] theorem touch_missCrossing (s : State) (n : Nat) (hm : subMask 34379661376 m = true) (hs : Touch m s0 s) :
    Touch m s0 (missCrossing s n) := by
  refine Touch.lift hm hs ?_
  clear hs hm
  have hs : Touch 34379661376 s s := .refl _ _
  simp +contextual +decide (maxDischargeDepth := 99) [missCrossing, hs, hasBit, subMask]

@[simp] theorem touch_syncPulse (s : State) (sel : Nat) (hm : subMask 64 m = true) (hs : Touch m s0 s) :
    Touch m s0 (syncPulse s sel) := by
  refine Touch.lift hm hs ?_
  clear hs hm
  have hs : Touch 64 s s := .refl _ _
  simp +contextual +decide (maxDischargeDepth := 99) [syncPulse, hs, hasBit, subMask]

@[simp] theorem touch_tbuPhaseSlot (s : State) (hm : subMask 16777312 m = true) (hs : Touch m s0 s) :
    Touch m s0 (tbuPhaseSlot s) := by
  refine Touch.lift hm hs ?_
  clear hs hm
  have hs : Touch 16777312 s s := .refl _ _
  simp +contextual +decide (maxDischargeDepth := 99) [tbuPhaseSlot, hs, hasBit, subMask]

@[simp] theorem touch_boundaryShift (s : State) (hm : subMask 16777280 m = true) (hs : Touch m s0 s) :
    Touch m s0 (boundaryShift s) := by
  refine Touch.lift hm hs ?_
  clear hs hm
  have hs : Touch 16777280 s s := .refl _ _
  simp +contextual +decide (maxDischargeDepth := 99) [boundaryShift, hs, hasBit, subMask]

@[simp] theorem touch_boundaryNomf (s : State) (hm : subMask 16777216 m = true) (hs : Touch m s0 s) :
    Touch m s0 (boundaryNomf s) := by
  refine Touch.lift hm hs ?_
  clear hs hm
  have hs : Touch 16777216 s s := .refl _ _
  unfold boundaryNomf
  repeat' split
  all_goals simp +contextual +decide (maxDischargeDepth := 99) [hs, hasBit, subMask]

@[simp] theorem touch_boundarySyms (s : State) (hm : subMask 16777280 m = true) (hs : Touch m s0 s) :
    Touch m s0 (boundarySyms s) := by
  refine Touch.lift hm hs ?_
  clear hs hm
  have hs : Touch 16777280 s s := .refl _ _
  simp +contextual +decide (maxDischargeDepth := 99) [boundarySyms, hs, hasBit, subMask]

@[simp] theorem touch_boundaryArmed (s : State) (hm : subMask 34379693552 m = true) (hs : Touch m s0 s) :
    Touch m s0 (boundaryArmed s) := by
  refine Touch.lift hm hs ?_
  clear hs hm
  have hs : Touch 34379693552 s s := .refl _ _
  unfold boundaryArmed
  repeat' split
  all_goals simp +contextual +decide (maxDischargeDepth := 99) [hs, hasBit, subMask]

@[simp] theorem touch_tbuBoundary (s : State) (hm : subMask 34379693552 m = true) (hs : Touch m s0 s) :
    Touch m s0 (tbuBoundary s) := by
  refine Touch.lift hm hs ?_
  clear hs hm
  have hs : Touch 34379693552 s s := .refl _ _
  simp +contextual +decide (maxDischargeDepth := 99) [tbuBoundary, hs, hasBit, subMask]

@[simp] theorem touch_disciplineTime (s : State) (d : Nat) (mtime : Nat) (tr : Nat) (hm : subMask 34379693552 m = true) (hs : Touch m s0 s) :
    Touch m s0 (disciplineTime s d mtime tr).1 := by
  refine Touch.lift hm hs ?_
  clear hs hm
  have hs : Touch 34379693552 s s := .refl _ _
  unfold disciplineTime
  (try dsimp only)
  repeat' (first | with_reducible assumption | (simp +contextual +decide (maxDischargeDepth := 99) [hs, hasBit, subMask]; done) | (simp +contextual +decide (maxDischargeDepth := 99) [hs, hk, hasBit, subMask]; done) | split | refine touch_foldl _ _ _ ?_ (fun _ _ hk => ?_))

@[simp] theorem touch_layGrid (s : State) (dbo : Nat) (m0 : Nat) (bound : Nat) (hm : subMask 16777280 m = true) (hs : Touch m s0 s) :
    Touch m s0 (layGrid s dbo m0 bound) := by
  refine Touch.lift hm hs ?_
  clear hs hm
  have hs : Touch 16777280 s s := .refl _ _
  simp +decide (maxDischargeDepth := 99) [layGrid, hs, hasBit, subMask]

@[simp] theorem touch_beaconDomain (s : State) (wasFresh : Bool) (dbo : Nat) (m0 : Nat) (bound : Nat) (hm : subMask 34379661376 m = true) (hs : Touch m s0 s) :
    Touch m s0 (beaconDomain s wasFresh dbo m0 bound) := by
  refine Touch.lift hm hs ?_
  clear hs hm
  have hs : Touch 34379661376 s s := .refl _ _
  simp +contextual +decide (maxDischargeDepth := 99) [beaconDomain, hs, hasBit, subMask]

@[simp] theorem touch_beaconShift (s : State) (b : BeaconTime) (hm : subMask 64 m = true) (hs : Touch m s0 s) :
    Touch m s0 (beaconShift s b) := by
  refine Touch.lift hm hs ?_
  clear hs hm
  have hs : Touch 64 s s := .refl _ _
  simp +contextual +decide (maxDischargeDepth := 99) [beaconShift, hs, hasBit, subMask]

@[simp] theorem touch_beaconPeriod (s : State) (b : BeaconTime) (bound : Nat) (hm : subMask 16777280 m = true) (hs : Touch m s0 s) :
    Touch m s0 (beaconPeriod s b bound) := by
  refine Touch.lift hm hs ?_
  clear hs hm
  have hs : Touch 16777280 s s := .refl _ _
  unfold beaconPeriod
  repeat' split
  all_goals simp +contextual +decide (maxDischargeDepth := 99) [hs, hasBit, subMask]

@[simp] theorem touch_beaconBooks (s : State) (ctx : Nat) (port : Nat) (b : BeaconTime) (tr : Nat) (bound : Nat) (hm : subMask 16777280 m = true) (hs : Touch m s0 s) :
    Touch m s0 (beaconBooks s ctx port b tr bound) := by
  refine Touch.lift hm hs ?_
  clear hs hm
  have hs : Touch 16777280 s s := .refl _ _
  simp +contextual +decide (maxDischargeDepth := 99) [beaconBooks, hs, hasBit, subMask]

@[simp] theorem touch_beaconNumber (s : State) (n : Nat) (hm : subMask 16777216 m = true) (hs : Touch m s0 s) :
    Touch m s0 (beaconNumber s n) := by
  refine Touch.lift hm hs ?_
  clear hs hm
  have hs : Touch 16777216 s s := .refl _ _
  simp +decide (maxDischargeDepth := 99) [beaconNumber, hs, hasBit, subMask]

@[simp] theorem touch_beaconFields (s : State) (b : BeaconTime) (hm : subMask 16777280 m = true) (hs : Touch m s0 s) :
    Touch m s0 (beaconFields s b) := by
  refine Touch.lift hm hs ?_
  clear hs hm
  have hs : Touch 16777280 s s := .refl _ _
  simp +decide (maxDischargeDepth := 99) [beaconFields, hs, hasBit, subMask]

@[simp] theorem touch_timeParentBeacon (s : State) (ctx : Nat) (port : Nat) (b : BeaconTime) (tr : Nat) (hm : subMask 34379693552 m = true) (hs : Touch m s0 s) :
    Touch m s0 (timeParentBeacon s ctx port b tr) := by
  refine Touch.lift hm hs ?_
  clear hs hm
  have hs : Touch 34379693552 s s := .refl _ _
  simp +decide (maxDischargeDepth := 99) [timeParentBeacon, hs, hasBit, subMask]

@[simp] theorem touch_alignGrid (s : State) (b : BeaconTime) (tr : Nat) (hm : subMask 16777280 m = true) (hs : Touch m s0 s) :
    Touch m s0 (alignGrid s b tr) := by
  refine Touch.lift hm hs ?_
  clear hs hm
  have hs : Touch 16777280 s s := .refl _ _
  simp +decide (maxDischargeDepth := 99) [alignGrid, hs, hasBit, subMask]

@[simp] theorem touch_phaseEvent (s : State) (ctx : Nat) (cls : Nat) (angle : Nat) (hm : subMask 34362884096 m = true) (hs : Touch m s0 s) :
    Touch m s0 (phaseEvent s ctx cls angle) := by
  refine Touch.lift hm hs ?_
  clear hs hm
  have hs : Touch 34362884096 s s := .refl _ _
  simp +decide (maxDischargeDepth := 99) [phaseEvent, hs, hasBit, subMask]

@[simp] theorem touch_identifyPhase (s : State) (n : Nat) (ctx : Nat) (zco : Nat) (tr : Nat) (hm : subMask 51543539714 m = true) (hs : Touch m s0 s) :
    Touch m s0 (identifyPhase s n ctx zco tr) := by
  refine Touch.lift hm hs ?_
  clear hs hm
  have hs : Touch 51543539714 s s := .refl _ _
  unfold identifyPhase
  repeat' split
  all_goals simp +contextual +decide (maxDischargeDepth := 99) [hs, hasBit, subMask]

@[simp] theorem touch_syncInRoot (s : State) (ts : Nat) (hm : subMask 34379661376 m = true) (hs : Touch m s0 s) :
    Touch m s0 (syncInRoot s ts) := by
  refine Touch.lift hm hs ?_
  clear hs hm
  have hs : Touch 34379661376 s s := .refl _ _
  simp +contextual +decide (maxDischargeDepth := 99) [syncInRoot, hs, hasBit, subMask]

@[simp] theorem touch_execCrossingCandidate (port : Fin 4) (ts : MeshTime) (s : State) (hm : subMask 34379661408 m = true) (hs : Touch m s0 s) :
    TouchBy m s0 (execCrossingCandidate port ts s) := by
  refine Touch.liftBy hm hs ?_
  clear hs hm
  have hs : Touch 34379661408 s s := .refl _ _
  simp +decide (maxDischargeDepth := 99) [execCrossingCandidate, hs, hasBit, subMask]

@[simp] theorem touch_execCrossingMiss (port : Fin 4) (s : State) (hm : subMask 34379661376 m = true) (hs : Touch m s0 s) :
    TouchBy m s0 (execCrossingMiss port s) := by
  refine Touch.liftBy hm hs ?_
  clear hs hm
  have hs : Touch 34379661376 s s := .refl _ _
  simp +decide (maxDischargeDepth := 99) [execCrossingMiss, hs, hasBit, subMask]

@[simp] theorem touch_execMeshSecondCrossing (s : State) (hm : subMask 96 m = true) (hs : Touch m s0 s) :
    TouchBy m s0 (execMeshSecondCrossing s) := by
  refine Touch.liftBy hm hs ?_
  clear hs hm
  have hs : Touch 96 s s := .refl _ _
  simp +decide (maxDischargeDepth := 99) [execMeshSecondCrossing, hs, hasBit, subMask]

@[simp] theorem touch_readMap (s : State) (ix : Nat) (hm : subMask 51543539712 m = true) (hs : Touch m s0 s) : Touch m s0 (readMap s ix) := by
  refine Touch.lift hm hs ?_
  clear hs hm
  have hs : Touch 51543539712 s s := .refl _ _
  simp +decide (maxDischargeDepth := 99) [readMap, hs, hasBit, subMask]

@[simp] theorem touch_readLink (s : State) (ctx : Nat) (hm : subMask 51543539712 m = true) (hs : Touch m s0 s) :
    Touch m s0 (readLink s ctx) := by
  refine Touch.lift hm hs ?_
  clear hs hm
  have hs : Touch 51543539712 s s := .refl _ _
  simp +decide (maxDischargeDepth := 99) [readLink, hs, hasBit, subMask]

@[simp] theorem touch_releaseTime (s : State) (t : Nat) (hm : subMask 4194304 m = true) (hs : Touch m s0 s) :
    Touch m s0 (releaseTime s t).2 := by
  refine Touch.lift hm hs ?_
  clear hs hm
  have hs : Touch 4194304 s s := .refl _ _
  simp +decide (maxDischargeDepth := 99) [releaseTime, hs, hasBit, subMask]

@[simp] theorem touch_driveOn (s : State) (n : Nat) (level : Nat) (hm : subMask 1099478073472 m = true) (hs : Touch m s0 s) :
    Touch m s0 (driveOn s n level) := by
  refine Touch.lift hm hs ?_
  clear hs hm
  have hs : Touch 1099478073472 s s := .refl _ _
  simp +decide (maxDischargeDepth := 99) [driveOn, hs, hasBit, subMask]

@[simp] theorem touch_driveOff (s : State) (n : Nat) (hm : subMask 1099478073472 m = true) (hs : Touch m s0 s) :
    Touch m s0 (driveOff s n) := by
  refine Touch.lift hm hs ?_
  clear hs hm
  have hs : Touch 1099478073472 s s := .refl _ _
  simp +decide (maxDischargeDepth := 99) [driveOff, hs, hasBit, subMask]

@[simp] theorem touch_cellPut (s : State) (n : Nat) (i : Nat) (c : MapCell) (hm : subMask 128 m = true) (hs : Touch m s0 s) :
    Touch m s0 (cellPut s n i c) := by
  refine Touch.lift hm hs ?_
  clear hs hm
  have hs : Touch 128 s s := .refl _ _
  simp +decide (maxDischargeDepth := 99) [cellPut, hs, hasBit, subMask]

@[simp] theorem touch_ageCells (s : State) (n : Nat) (hm : subMask 128 m = true) (hs : Touch m s0 s) :
    Touch m s0 (ageCells s n) := by
  refine Touch.lift hm hs ?_
  clear hs hm
  have hs : Touch 128 s s := .refl _ _
  simp +decide (maxDischargeDepth := 99) [ageCells, hs, hasBit, subMask]

@[simp] theorem touch_measureZ (s : State) (n : Nat) (i : Nat) (mag : Nat) (ph : Int) (always : Bool) (hm : subMask 1099444519040 m = true) (hs : Touch m s0 s) :
    Touch m s0 (measureZ s n i mag ph always) := by
  refine Touch.lift hm hs ?_
  clear hs hm
  have hs : Touch 1099444519040 s s := .refl _ _
  simp +decide (maxDischargeDepth := 99) [measureZ, hs, hasBit, subMask]

@[simp] theorem touch_measureNoise (s : State) (n : Nat) (i : Nat) (noise : Nat) (hm : subMask 128 m = true) (hs : Touch m s0 s) :
    Touch m s0 (measureNoise s n i noise) := by
  refine Touch.lift hm hs ?_
  clear hs hm
  have hs : Touch 128 s s := .refl _ _
  simp +decide (maxDischargeDepth := 99) [measureNoise, hs, hasBit, subMask]

@[simp] theorem touch_markErased (s : State) (n : Nat) (i : Nat) (hm : subMask 128 m = true) (hs : Touch m s0 s) :
    Touch m s0 (markErased s n i) := by
  refine Touch.lift hm hs ?_
  clear hs hm
  have hs : Touch 128 s s := .refl _ _
  simp +decide (maxDischargeDepth := 99) [markErased, hs, hasBit, subMask]

@[simp] theorem touch_setStale (s : State) (n : Nat) (lanes : Nat) (p : Nat) (hm : subMask 128 m = true) (hs : Touch m s0 s) :
    Touch m s0 (setStale s n lanes p) := by
  refine Touch.lift hm hs ?_
  clear hs hm
  have hs : Touch 128 s s := .refl _ _
  simp +contextual +decide (maxDischargeDepth := 99) [setStale, hs, hasBit, subMask]

@[simp] theorem touch_markLimited (s : State) (n : Nat) (lanes : Nat) (p : Nat) (hm : subMask 1099444519040 m = true) (hs : Touch m s0 s) :
    Touch m s0 (markLimited s n lanes p) := by
  refine Touch.lift hm hs ?_
  clear hs hm
  have hs : Touch 1099444519040 s s := .refl _ _
  simp +contextual +decide (maxDischargeDepth := 99) [markLimited, hs, hasBit, subMask]

@[simp] theorem touch_clearCells (s : State) (hm : subMask 128 m = true) (hs : Touch m s0 s) :
    Touch m s0 (clearCells s) := by
  refine Touch.lift hm hs ?_
  clear hs hm
  have hs : Touch 128 s s := .refl _ _
  simp +contextual +decide (maxDischargeDepth := 99) [clearCells, hs, hasBit, subMask]

@[simp] theorem touch_initRecord (s : State) (ctx : Nat) (hm : subMask 51543539714 m = true) (hs : Touch m s0 s) :
    Touch m s0 (initRecord s ctx) := by
  refine Touch.lift hm hs ?_
  clear hs hm
  have hs : Touch 51543539714 s s := .refl _ _
  simp +decide (maxDischargeDepth := 99) [initRecord, hs, hasBit, subMask]

@[simp] theorem touch_countLevel (s : State) (ctx : Nat) (level : Nat) (hm : subMask 51543539970 m = true) (hs : Touch m s0 s) :
    Touch m s0 (countLevel s ctx level) := by
  refine Touch.lift hm hs ?_
  clear hs hm
  have hs : Touch 51543539970 s s := .refl _ _
  simp +decide (maxDischargeDepth := 99) [countLevel, hs, hasBit, subMask]

@[simp] theorem touch_rollLevels (s : State) (ctx : Nat) (hm : subMask 51547734274 m = true) (hs : Touch m s0 s) :
    Touch m s0 (rollLevels s ctx) := by
  refine Touch.lift hm hs ?_
  clear hs hm
  have hs : Touch 51547734274 s s := .refl _ _
  simp +decide (maxDischargeDepth := 99) [rollLevels, hs, hasBit, subMask]

@[simp] theorem touch_poolPut (s : State) (ix : Nat) (m0 : Bytes) (hm : subMask 51543539714 m = true) (hs : Touch m s0 s) :
    Touch m s0 (poolPut s ix m0) := by
  refine Touch.lift hm hs ?_
  clear hs hm
  have hs : Touch 51543539714 s s := .refl _ _
  simp +decide (maxDischargeDepth := 99) [poolPut, hs, hasBit, subMask]

@[simp] theorem touch_keepView (s : State) (ctx : Nat) (m0 : Bytes) (hm : subMask 51543539714 m = true) (hs : Touch m s0 s) :
    Touch m s0 (keepView s ctx m0) := by
  refine Touch.lift hm hs ?_
  clear hs hm
  have hs : Touch 51543539714 s s := .refl _ _
  unfold keepView
  repeat' split
  all_goals simp +contextual +decide (maxDischargeDepth := 99) [hs, hasBit, subMask]

@[simp] theorem touch_reportDecide (s : State) (ctx : Nat) (hm : subMask 51543539970 m = true) (hs : Touch m s0 s) :
    Touch m s0 (reportDecide s ctx) := by
  refine Touch.lift hm hs ?_
  clear hs hm
  have hs : Touch 51543539970 s s := .refl _ _
  simp +decide (maxDischargeDepth := 99) [reportDecide, hs, hasBit, subMask]

@[simp] theorem touch_proposeMap (s : State) (ctx : Nat) (lmid : Nat) (ix : Nat) (m0 : Bytes) (hm : subMask 51610648834 m = true) (hs : Touch m s0 s) :
    Touch m s0 (proposeMap s ctx lmid ix m0) := by
  refine Touch.lift hm hs ?_
  clear hs hm
  have hs : Touch 51610648834 s s := .refl _ _
  simp +decide (maxDischargeDepth := 99) [proposeMap, hs, hasBit, subMask]

@[simp] theorem touch_proposeDecide (s : State) (ctx : Nat) (hm : subMask 51610648834 m = true) (hs : Touch m s0 s) :
    Touch m s0 (proposeDecide s ctx) := by
  refine Touch.lift hm hs ?_
  clear hs hm
  have hs : Touch 51610648834 s s := .refl _ _
  unfold proposeDecide
  repeat' split
  all_goals simp +contextual +decide (maxDischargeDepth := 99) [hs, hasBit, subMask]

@[simp] theorem touch_altPoison (s : State) (ctx : Nat) (hm : subMask 256 m = true) (hs : Touch m s0 s) : Touch m s0 (altPoison s ctx) := by
  refine Touch.lift hm hs ?_
  clear hs hm
  have hs : Touch 256 s s := .refl _ _
  simp +decide (maxDischargeDepth := 99) [altPoison, hs, hasBit, subMask]

@[simp] theorem touch_echoRecompute (s : State) (ctx : Nat) (hm : subMask 51610648834 m = true) (hs : Touch m s0 s) :
    Touch m s0 (echoRecompute s ctx) := by
  refine Touch.lift hm hs ?_
  clear hs hm
  have hs : Touch 51610648834 s s := .refl _ _
  simp +decide (maxDischargeDepth := 99) [echoRecompute, hs, hasBit, subMask]

@[simp] theorem touch_swapMaps (s : State) (ctx : Nat) (st : Nat) (hm : subMask 51543539970 m = true) (hs : Touch m s0 s) :
    Touch m s0 (swapMaps s ctx st) := by
  refine Touch.lift hm hs ?_
  clear hs hm
  have hs : Touch 51543539970 s s := .refl _ _
  simp +decide (maxDischargeDepth := 99) [swapMaps, hs, hasBit, subMask]

@[simp] theorem touch_freeOld (s : State) (ctx : Nat) (hm : subMask 51543539714 m = true) (hs : Touch m s0 s) :
    Touch m s0 (freeOld s ctx) := by
  refine Touch.lift hm hs ?_
  clear hs hm
  have hs : Touch 51543539714 s s := .refl _ _
  simp +decide (maxDischargeDepth := 99) [freeOld, hs, hasBit, subMask]

@[simp] theorem touch_altMark (s : State) (ctx : Nat) (b : Nat) (hm : subMask 51543539714 m = true) (hs : Touch m s0 s) :
    Touch m s0 (altMark s ctx b) := by
  refine Touch.lift hm hs ?_
  clear hs hm
  have hs : Touch 51543539714 s s := .refl _ _
  simp +decide (maxDischargeDepth := 99) [altMark, hs, hasBit, subMask]

@[simp] theorem touch_mapFrameAccepted (s : State) (ctx : Nat) (lmid : Nat) (hm : subMask 51543539970 m = true) (hs : Touch m s0 s) :
    Touch m s0 (mapFrameAccepted s ctx lmid) := by
  refine Touch.lift hm hs ?_
  clear hs hm
  have hs : Touch 51543539970 s s := .refl _ _
  simp +decide (maxDischargeDepth := 99) [mapFrameAccepted, hs, hasBit, subMask]

@[simp] theorem touch_mapFrameAcked (s : State) (ctx : Nat) (lmid : Nat) (mapx : Nat) (hm : subMask 51543539970 m = true) (hs : Touch m s0 s) :
    Touch m s0 (mapFrameAcked s ctx lmid mapx) := by
  refine Touch.lift hm hs ?_
  clear hs hm
  have hs : Touch 51543539970 s s := .refl _ _
  simp +decide (maxDischargeDepth := 99) [mapFrameAcked, hs, hasBit, subMask]

@[simp] theorem touch_carryAgain (s : State) (ctx : Nat) (hm : subMask 256 m = true) (hs : Touch m s0 s) : Touch m s0 (carryAgain s ctx) := by
  refine Touch.lift hm hs ?_
  clear hs hm
  have hs : Touch 256 s s := .refl _ _
  simp +decide (maxDischargeDepth := 99) [carryAgain, hs, hasBit, subMask]

@[simp] theorem touch_mapFrameUnacked (s : State) (ctx : Nat) (lmid : Nat) (hm : subMask 51610648834 m = true) (hs : Touch m s0 s) :
    Touch m s0 (mapFrameUnacked s ctx lmid) := by
  refine Touch.lift hm hs ?_
  clear hs hm
  have hs : Touch 51610648834 s s := .refl _ _
  simp +decide (maxDischargeDepth := 99) [mapFrameUnacked, hs, hasBit, subMask]

@[simp] theorem touch_reportRx (s : State) (ctx : Nat) (b : Bytes) (hm : subMask 51614843138 m = true) (hs : Touch m s0 s) :
    Touch m s0 (reportRx s ctx b) := by
  refine Touch.lift hm hs ?_
  clear hs hm
  have hs : Touch 51614843138 s s := .refl _ _
  simp +decide (maxDischargeDepth := 99) [reportRx, hs, hasBit, subMask]

@[simp] theorem touch_proposeRx (s : State) (ctx : Nat) (b : Bytes) (hm : subMask 51610648834 m = true) (hs : Touch m s0 s) :
    Touch m s0 (proposeRx s ctx b) := by
  refine Touch.lift hm hs ?_
  clear hs hm
  have hs : Touch 51610648834 s s := .refl _ _
  unfold proposeRx
  (try dsimp only)
  repeat' (first | with_reducible assumption | (simp +contextual +decide (maxDischargeDepth := 99) [hs, hasBit, subMask]; done) | (simp +contextual +decide (maxDischargeDepth := 99) [hs, hk, hasBit, subMask]; done) | split | refine touch_foldl _ _ _ ?_ (fun _ _ hk => ?_))

@[simp] theorem touch_mapxRx (s : State) (ctx : Nat) (b : Bytes) (hm : subMask 51614843138 m = true) (hs : Touch m s0 s) :
    Touch m s0 (mapxRx s ctx b) := by
  refine Touch.lift hm hs ?_
  clear hs hm
  have hs : Touch 51614843138 s s := .refl _ _
  simp +decide (maxDischargeDepth := 99) [mapxRx, hs, hasBit, subMask]

@[simp] theorem touch_echoBoundary (s : State) (hm : subMask 51610648962 m = true) (hs : Touch m s0 s) :
    Touch m s0 (echoBoundary s) := by
  refine Touch.lift hm hs ?_
  clear hs hm
  have hs : Touch 51610648962 s s := .refl _ _
  simp +contextual +decide (maxDischargeDepth := 99) [echoBoundary, hs, hasBit, subMask]

@[simp] theorem touch_sweepEvent (s : State) (n : Nat) (result : Nat) (hm : subMask 34362884096 m = true) (hs : Touch m s0 s) :
    Touch m s0 (sweepEvent s n result) := by
  refine Touch.lift hm hs ?_
  clear hs hm
  have hs : Touch 34362884096 s s := .refl _ _
  simp +decide (maxDischargeDepth := 99) [sweepEvent, hs, hasBit, subMask]

@[simp] theorem touch_sweepOff (s : State) (n : Nat) (hm : subMask 1099482267776 m = true) (hs : Touch m s0 s) :
    Touch m s0 (sweepOff s n) := by
  refine Touch.lift hm hs ?_
  clear hs hm
  have hs : Touch 1099482267776 s s := .refl _ _
  simp +decide (maxDischargeDepth := 99) [sweepOff, hs, hasBit, subMask]

@[simp] theorem touch_sweepEnd (s : State) (n : Nat) (st : Nat) (result : Nat) (hm : subMask 1099485413520 m = true) (hs : Touch m s0 s) :
    Touch m s0 (sweepEnd s n st result) := by
  refine Touch.lift hm hs ?_
  clear hs hm
  have hs : Touch 1099485413520 s s := .refl _ _
  simp +decide (maxDischargeDepth := 99) [sweepEnd, hs, hasBit, subMask]

@[simp] theorem touch_sweepStart (s : State) (n : Nat) (hm : subMask 1099444519056 m = true) (hs : Touch m s0 s) :
    Touch m s0 (sweepStart s n) := by
  refine Touch.lift hm hs ?_
  clear hs hm
  have hs : Touch 1099444519056 s s := .refl _ _
  simp +decide (maxDischargeDepth := 99) [sweepStart, hs, hasBit, subMask]

@[simp] theorem touch_sweepAnswer (s : State) (granted : Bool) (hm : subMask 1099447664640 m = true) (hs : Touch m s0 s) :
    Touch m s0 (sweepAnswer s granted) := by
  refine Touch.lift hm hs ?_
  clear hs hm
  have hs : Touch 1099447664640 s s := .refl _ _
  simp +contextual +decide (maxDischargeDepth := 99) [sweepAnswer, hs, hasBit, subMask]

@[simp] theorem touch_sweepSlot (s : State) (hm : subMask 1099485413520 m = true) (hs : Touch m s0 s) :
    Touch m s0 (sweepSlot s) := by
  refine Touch.lift hm hs ?_
  clear hs hm
  have hs : Touch 1099485413520 s s := .refl _ _
  simp +contextual +decide (maxDischargeDepth := 99) [sweepSlot, hs, hasBit, subMask]

@[simp] theorem touch_sweepTake (s : State) (n : Nat) (slot : Nat) (b : Nat) (mag : Nat) (ph : Int) (z : ZExact) (hm : subMask 1099444519040 m = true) (hs : Touch m s0 s) :
    Touch m s0 (sweepTake s n slot b mag ph z) := by
  refine Touch.lift hm hs ?_
  clear hs hm
  have hs : Touch 1099444519040 s s := .refl _ _
  simp +decide (maxDischargeDepth := 99) [sweepTake, hs, hasBit, subMask]

@[simp] theorem touch_sweepPoint (s : State) (n : Nat) (slot : Nat) (z : Option (Nat × Int)) (x : ZExact) (hm : subMask 1099485413520 m = true) (hs : Touch m s0 s) :
    Touch m s0 (sweepPoint s n slot z x) := by
  refine Touch.lift hm hs ?_
  clear hs hm
  have hs : Touch 1099485413520 s s := .refl _ _
  unfold sweepPoint
  (try dsimp only)
  repeat' (first | with_reducible assumption | (simp +contextual +decide (maxDischargeDepth := 99) [hs, hasBit, subMask]; done) | (simp +contextual +decide (maxDischargeDepth := 99) [hs, hk, hasBit, subMask]; done) | split | refine touch_foldl _ _ _ ?_ (fun _ _ hk => ?_))

@[simp] theorem touch_dutyAdd (s : State) (t : Nat) (hm : subMask 1024 m = true) (hs : Touch m s0 s) :
    Touch m s0 (dutyAdd s t) := by
  refine Touch.lift hm hs ?_
  clear hs hm
  have hs : Touch 1024 s s := .refl _ _
  simp +contextual +decide (maxDischargeDepth := 99) [dutyAdd, hs, hasBit, subMask]

@[simp] theorem touch_radioConfigApply (s : State) (hm : subMask 1024 m = true) (hs : Touch m s0 s) :
    Touch m s0 (radioConfigApply s) := by
  refine Touch.lift hm hs ?_
  clear hs hm
  have hs : Touch 1024 s s := .refl _ _
  simp +contextual +decide (maxDischargeDepth := 99) [radioConfigApply, hs, hasBit, subMask]

@[simp] theorem touch_countClip (s : State) (n : Nat) (t : LineTx) (j : Nat) (hm : subMask 67108864 m = true) (hs : Touch m s0 s) :
    Touch m s0 (countClip s n t j) := by
  refine Touch.lift hm hs ?_
  clear hs hm
  have hs : Touch 67108864 s s := .refl _ _
  simp +decide (maxDischargeDepth := 99) [countClip, hs, hasBit, subMask]

@[simp] theorem touch_countErased (s : State) (n : Nat) (lanes : Nat) (erased : List Nat) (hm : subMask 1099444518912 m = true) (hs : Touch m s0 s) :
    Touch m s0 (countErased s n lanes erased) := by
  refine Touch.lift hm hs ?_
  clear hs hm
  have hs : Touch 1099444518912 s s := .refl _ _
  simp +decide (maxDischargeDepth := 99) [countErased, hs, hasBit, subMask]

@[simp] theorem touch_symbolNoise (s : State) (n : Nat) (mask : Nat) (p : Nat) (sent : Nat → Option Nat) (e : List Nat) (erased : List Nat) (hm : subMask 128 m = true) (hs : Touch m s0 s) :
    Touch m s0 (symbolNoise s n mask p sent e erased) := by
  refine Touch.lift hm hs ?_
  clear hs hm
  have hs : Touch 128 s s := .refl _ _
  simp +contextual +decide (maxDischargeDepth := 99) [symbolNoise, hs, hasBit, subMask]

@[simp] theorem touch_rxNoise (s : State) (n : Nat) (a : Acq) (j : Nat) (y : RxSym) (hm : subMask 128 m = true) (hs : Touch m s0 s) :
    Touch m s0 (rxNoise s n a j y) := by
  refine Touch.lift hm hs ?_
  clear hs hm
  have hs : Touch 128 s s := .refl _ _
  simp +decide (maxDischargeDepth := 99) [rxNoise, hs, hasBit, subMask]

@[simp] theorem touch_preambleNoise (s : State) (n : Nat) (a : Acq) (hm : subMask 128 m = true) (hs : Touch m s0 s) :
    Touch m s0 (preambleNoise s n a) := by
  refine Touch.lift hm hs ?_
  clear hs hm
  have hs : Touch 128 s s := .refl _ _
  simp +decide (maxDischargeDepth := 99) [preambleNoise, hs, hasBit, subMask]

@[simp] theorem touch_rxLevels (s : State) (n : Nat) (ctx : Nat) (a : Acq) (hm : subMask 51543539714 m = true) (hs : Touch m s0 s) :
    Touch m s0 (rxLevels s n ctx a) := by
  refine Touch.lift hm hs ?_
  clear hs hm
  have hs : Touch 51543539714 s s := .refl _ _
  simp +contextual +decide (maxDischargeDepth := 99) [rxLevels, hs, hasBit, subMask]

@[simp] theorem touch_measureSymbol (s : State) (n : Nat) (t : LineTx) (w : TxWin) (hm : subMask 1099444519040 m = true) (hs : Touch m s0 s) :
    Touch m s0 (measureSymbol s n t w) := by
  refine Touch.lift hm hs ?_
  clear hs hm
  have hs : Touch 1099444519040 s s := .refl _ _
  unfold measureSymbol
  (try dsimp only)
  repeat' (first | with_reducible assumption | (simp +contextual +decide (maxDischargeDepth := 99) [hs, hasBit, subMask]; done) | (simp +contextual +decide (maxDischargeDepth := 99) [hs, hk, hasBit, subMask]; done) | split | refine touch_foldl _ _ _ ?_ (fun _ _ hk => ?_))

@[simp] theorem touch_measureTx (s : State) (n : Nat) (t : LineTx) (upto : Nat) (ws : List TxWin) (hm : subMask 1099444519040 m = true) (hs : Touch m s0 s) :
    Touch m s0 (measureTx s n t upto ws) := by
  refine Touch.lift hm hs ?_
  clear hs hm
  have hs : Touch 1099444519040 s s := .refl _ _
  simp +contextual +decide (maxDischargeDepth := 99) [measureTx, hs, hasBit, subMask]

@[simp] theorem touch_quietTake (s : State) (n : Nat) (q0 : Quiet) (hm : subMask 128 m = true) (hs : Touch m s0 s) :
    Touch m s0 (quietTake s n q0) := by
  refine Touch.lift hm hs ?_
  clear hs hm
  have hs : Touch 128 s s := .refl _ _
  simp +contextual +decide (maxDischargeDepth := 99) [quietTake, hs, hasBit, subMask]

@[simp] theorem touch_silentNoise (s : State) (n : Nat) (x : List RxSample) (hm : subMask 128 m = true) (hs : Touch m s0 s) :
    Touch m s0 (silentNoise s n x) := by
  refine Touch.lift hm hs ?_
  clear hs hm
  have hs : Touch 128 s s := .refl _ _
  simp +contextual +decide (maxDischargeDepth := 99) [silentNoise, hs, hasBit, subMask]

@[simp] theorem touch_quietBefore (s : State) (n : Nat) (at_ : Nat) (hm : subMask 128 m = true) (hs : Touch m s0 s) :
    Touch m s0 (quietBefore s n at_) := by
  refine Touch.lift hm hs ?_
  clear hs hm
  have hs : Touch 128 s s := .refl _ _
  simp +contextual +decide (maxDischargeDepth := 99) [quietBefore, hs, hasBit, subMask]

@[simp] theorem touch_headerSilent (s : State) (n : Nat) (a : Acq) (ys : List RxSym) (hm : subMask 128 m = true) (hs : Touch m s0 s) :
    Touch m s0 (headerSilent s n a ys) := by
  refine Touch.lift hm hs ?_
  clear hs hm
  have hs : Touch 128 s s := .refl _ _
  simp +contextual +decide (maxDischargeDepth := 99) [headerSilent, hs, hasBit, subMask]

@[simp] theorem touch_tailErased (s : State) (n : Nat) (mask : Nat) (slot : Nat) (first : Nat) (ws : List (List RxSample)) (hm : subMask 1099444519040 m = true) (hs : Touch m s0 s) :
    Touch m s0 (tailErased s n mask slot first ws) := by
  refine Touch.lift hm hs ?_
  clear hs hm
  have hs : Touch 1099444519040 s s := .refl _ _
  simp +contextual +decide (maxDischargeDepth := 99) [tailErased, hs, hasBit, subMask]

end Sys2Proof.Machine
end

