-- ==== Sys2Proof/Laws/TouchMeas.lean ====
section
/-! SUPPORT. `Touch` through measurement, linearisation, detectors: one lemma per operation. -/

set_option linter.all false

namespace Sys2Proof.Machine

variable {m : Nat} {s0 : State}

@[simp] theorem touch_setChan (s : State) (c : Nat) (x : Chan) (hm : subMask 4096 m = true) (hs : Touch m s0 s) :
    Touch m s0 (setChan s c x) := by
  refine Touch.lift hm hs ?_
  clear hs hm
  have hs : Touch 4096 s s := .refl _ _
  simp +contextual +decide (maxDischargeDepth := 99) [setChan, hs, hasBit, subMask]

@[simp] theorem touch_keepPast (s : State) (hm : subMask 4096 m = true) (hs : Touch m s0 s) : Touch m s0 (keepPast s) := by
  refine Touch.lift hm hs ?_
  clear hs hm
  have hs : Touch 4096 s s := .refl _ _
  simp +decide (maxDischargeDepth := 99) [keepPast, hs, hasBit, subMask]

@[simp] theorem touch_keepMeas (s : State) (a : Nat) (hm : subMask 4096 m = true) (hs : Touch m s0 s) : Touch m s0 (keepMeas s a) := by
  refine Touch.lift hm hs ?_
  clear hs hm
  have hs : Touch 4096 s s := .refl _ _
  simp +decide (maxDischargeDepth := 99) [keepMeas, hs, hasBit, subMask]

@[simp] theorem touch_restartAt (s : State) (c : Nat) (t : Nat) (hm : subMask 4096 m = true) (hs : Touch m s0 s) :
    Touch m s0 (restartAt s c t) := by
  refine Touch.lift hm hs ?_
  clear hs hm
  have hs : Touch 4096 s s := .refl _ _
  simp +decide (maxDischargeDepth := 99) [restartAt, hs, hasBit, subMask]

@[simp] theorem touch_restartMod (s : State) (m0 : Nat) (t : Nat) (hm : subMask 4096 m = true) (hs : Touch m s0 s) :
    Touch m s0 (restartMod s m0 t) := by
  refine Touch.lift hm hs ?_
  clear hs hm
  have hs : Touch 4096 s s := .refl _ _
  simp +decide (maxDischargeDepth := 99) [restartMod, hs, hasBit, subMask]

@[simp] theorem touch_confChange (s : State) (c0 : Nat) (hm : subMask 4096 m = true) (hs : Touch m s0 s) : Touch m s0 (confChange s c0) := by
  refine Touch.lift hm hs ?_
  clear hs hm
  have hs : Touch 4096 s s := .refl _ _
  simp +decide (maxDischargeDepth := 99) [confChange, hs, hasBit, subMask]

@[simp] theorem touch_restartConv (s : State) (hm : subMask 4096 m = true) (hs : Touch m s0 s) :
    Touch m s0 (restartConv s) := by
  refine Touch.lift hm hs ?_
  clear hs hm
  have hs : Touch 4096 s s := .refl _ _
  unfold restartConv
  repeat' split
  all_goals simp +contextual +decide (maxDischargeDepth := 99) [hs, hasBit, subMask]

@[simp] theorem touch_restartChan (s : State) (c0 : Nat) (hm : subMask 4096 m = true) (hs : Touch m s0 s) :
    Touch m s0 (restartChan s c0) := by
  refine Touch.lift hm hs ?_
  clear hs hm
  have hs : Touch 4096 s s := .refl _ _
  simp +decide (maxDischargeDepth := 99) [restartChan, hs, hasBit, subMask]

@[simp] theorem touch_phaseHold (s : State) (hm : subMask 2048 m = true) (hs : Touch m s0 s) : Touch m s0 (phaseHold s) := by
  refine Touch.lift hm hs ?_
  clear hs hm
  have hs : Touch 2048 s s := .refl _ _
  simp +decide (maxDischargeDepth := 99) [phaseHold, hs, hasBit, subMask]

@[simp] theorem touch_sineChanged (s : State) (hm : subMask 2048 m = true) (hs : Touch m s0 s) : Touch m s0 (sineChanged s) := by
  refine Touch.lift hm hs ?_
  clear hs hm
  have hs : Touch 2048 s s := .refl _ _
  simp +decide (maxDischargeDepth := 99) [sineChanged, hs, hasBit, subMask]

@[simp] theorem touch_applyForm (s : State) (f : ExcForm) (hm : subMask 35436632064 m = true) (hs : Touch m s0 s) :
    Touch m s0 (applyForm s f) := by
  refine Touch.lift hm hs ?_
  clear hs hm
  have hs : Touch 35436632064 s s := .refl _ _
  simp +contextual +decide (maxDischargeDepth := 99) [applyForm, hs, hasBit, subMask]

@[simp] theorem touch_excUpdate (s : State) (hm : subMask 35436632080 m = true) (hs : Touch m s0 s) :
    Touch m s0 (excUpdate s) := by
  refine Touch.lift hm hs ?_
  clear hs hm
  have hs : Touch 35436632080 s s := .refl _ _
  unfold excUpdate
  (try dsimp only)
  repeat' (first | with_reducible assumption | (simp +contextual +decide (maxDischargeDepth := 99) [hs, hasBit, subMask]; done) | (simp +contextual +decide (maxDischargeDepth := 99) [hs, hk, hasBit, subMask]; done) | split | refine touch_foldl _ _ _ ?_ (fun _ _ hk => ?_))

@[simp] theorem touch_excGranted (s : State) (hm : subMask 35436632064 m = true) (hs : Touch m s0 s) :
    Touch m s0 (excGranted s) := by
  refine Touch.lift hm hs ?_
  clear hs hm
  have hs : Touch 35436632064 s s := .refl _ _
  simp +decide (maxDischargeDepth := 99) [excGranted, hs, hasBit, subMask]

@[simp] theorem touch_excDegraded (s : State) (hm : subMask 35436632064 m = true) (hs : Touch m s0 s) :
    Touch m s0 (excDegraded s) := by
  refine Touch.lift hm hs ?_
  clear hs hm
  have hs : Touch 35436632064 s s := .refl _ _
  simp +contextual +decide (maxDischargeDepth := 99) [excDegraded, hs, hasBit, subMask]

@[simp] theorem touch_excFailed (s : State) (hm : subMask 35436632064 m = true) (hs : Touch m s0 s) :
    Touch m s0 (excFailed s) := by
  refine Touch.lift hm hs ?_
  clear hs hm
  have hs : Touch 35436632064 s s := .refl _ _
  simp +contextual +decide (maxDischargeDepth := 99) [excFailed, hs, hasBit, subMask]

@[simp] theorem touch_rangeChange (s : State) (i : Nat) (old : Nat) (new : Nat) (t : Nat) (hm : subMask 52617418752 m = true) (hi : i < 2) (hs : Touch m s0 s) :
    Touch m s0 (rangeChange s i old new t) := by
  refine Touch.lift hm hs ?_
  clear hs hm
  have hs : Touch 52617418752 s s := .refl _ _
  simp +contextual +decide (maxDischargeDepth := 99) [rangeChange, hs, hi, hasBit, subMask]

@[simp] theorem touch_applyRange (s : State) (i : Nat) (hm : subMask 52617418752 m = true) (hi : i < 2) (hs : Touch m s0 s) :
    Touch m s0 (applyRange s i) := by
  refine Touch.lift hm hs ?_
  clear hs hm
  have hs : Touch 52617418752 s s := .refl _ _
  unfold applyRange
  split
  · split
    · exact touch_rangeChange _ i _ _ _ (by decide) hi (by simp +decide [hs, hasBit])
    · exact hs
  · exact hs

@[simp] theorem touch_applyRanges (s : State) (hm : subMask 52617418752 m = true) (hs : Touch m s0 s) : Touch m s0 (applyRanges s) := by
  refine Touch.lift hm hs ?_
  clear hs hm
  have hs : Touch 52617418752 s s := .refl _ _
  simp +decide (maxDischargeDepth := 99) [applyRanges, hs, hasBit, subMask]

@[simp] theorem touch_freeRange (s : State) (i : Nat) (hm : subMask 52617418752 m = true) (hi : i < 2) (hs : Touch m s0 s) :
    Touch m s0 (freeRange s i) := by
  refine Touch.lift hm hs ?_
  clear hs hm
  have hs : Touch 52617418752 s s := .refl _ _
  unfold freeRange
  split
  · split
    · exact hs
    · exact touch_rangeChange _ i _ _ _ (by decide) hi (by simp +decide [hs, hasBit])
  · split
    · exact hs
    · simp +decide [hs, hasBit]
  · exact hs

@[simp] theorem touch_freeRanges (s : State) (hm : subMask 52617418752 m = true) (hs : Touch m s0 s) : Touch m s0 (freeRanges s) := by
  refine Touch.lift hm hs ?_
  clear hs hm
  have hs : Touch 52617418752 s s := .refl _ _
  simp +decide (maxDischargeDepth := 99) [freeRanges, hs, hasBit, subMask]

@[simp] theorem touch_tiaSample (s : State) (i : Nat) (e : Nat) (o : Nat) (sat : Bool) (tag : Nat) (x : Int) (last : Bool) (hm : subMask 52617418752 m = true)
    (hi : i < 2) (hs : Touch m s0 s) : Touch m s0 (tiaSample s i e o sat tag x last) := by
  refine Touch.lift hm hs ?_
  clear hs hm
  have hs : Touch 52617418752 s s := .refl _ _
  unfold tiaSample
  dsimp only
  generalize (if tag = 0 ∧ 100 * x.natAbs ≤ 8 * 2 ^ 149 then nth 0 s.mfe.tiaLow i + 1 else 0) = low
  generalize h1 : ({ s with mfe := { s.mfe with tiaPrev := s.mfe.tiaPrev.set i (some x), tiaLow := s.mfe.tiaLow.set i low } } : State) = a
  have ha : Touch 52617418752 s a := by rw [← h1]; simp +decide [hs, hasBit]
  split
  · exact ha
  · split
    · simp +decide [hs, hasBit]
    · exact touch_rangeChange _ i _ _ _ (by decide) hi ha

@[simp] theorem touch_measDue (s : State) (a : Nat) (hm : subMask 52617418752 m = true) (hs : Touch m s0 s) : Touch m s0 (measDue s a) := by
  refine Touch.lift hm hs ?_
  clear hs hm
  have hs : Touch 52617418752 s s := .refl _ _
  simp +decide (maxDischargeDepth := 99) [measDue, hs, hasBit, subMask]

@[simp] theorem touch_endVisit (s : State) (hm : subMask 2048 m = true) (hs : Touch m s0 s) : Touch m s0 (endVisit s) := by
  refine Touch.lift hm hs ?_
  clear hs hm
  have hs : Touch 2048 s s := .refl _ _
  unfold endVisit
  (try dsimp only)
  repeat' (first | with_reducible assumption | (simp +contextual +decide (maxDischargeDepth := 99) [hs, hasBit, subMask]; done) | (simp +contextual +decide (maxDischargeDepth := 99) [hs, hk, hasBit, subMask]; done) | split | refine touch_foldl _ _ _ ?_ (fun _ _ hk => ?_))

@[simp] theorem touch_scanIdle (s : State) (hm : subMask 52617418752 m = true) (hs : Touch m s0 s) :
    Touch m s0 (scanIdle s) := by
  refine Touch.lift hm hs ?_
  clear hs hm
  have hs : Touch 52617418752 s s := .refl _ _
  simp +contextual +decide (maxDischargeDepth := 99) [scanIdle, hs, hasBit, subMask]

@[simp] theorem touch_visit (s : State) (e : Nat) (hm : subMask 52617418752 m = true) (hs : Touch m s0 s) :
    Touch m s0 (visit s e) := by
  refine Touch.lift hm hs ?_
  clear hs hm
  have hs : Touch 52617418752 s s := .refl _ _
  simp +contextual +decide (maxDischargeDepth := 99) [visit, hs, hasBit, subMask]

@[simp] theorem touch_passCount (s : State) (hm : subMask 52617418752 m = true) (hs : Touch m s0 s) : Touch m s0 (passCount s) := by
  refine Touch.lift hm hs ?_
  clear hs hm
  have hs : Touch 52617418752 s s := .refl _ _
  simp +decide (maxDischargeDepth := 99) [passCount, hs, hasBit, subMask]

@[simp] theorem touch_scanStart (s : State) (hm : subMask 52617418752 m = true) (hs : Touch m s0 s) :
    Touch m s0 (scanStart s) := by
  refine Touch.lift hm hs ?_
  clear hs hm
  have hs : Touch 52617418752 s s := .refl _ _
  unfold scanStart
  repeat' split
  all_goals simp +contextual +decide (maxDischargeDepth := 99) [hs, hasBit, subMask]

@[simp] theorem touch_scanResume (s : State) (hm : subMask 52617418752 m = true) (hs : Touch m s0 s) : Touch m s0 (scanResume s) := by
  refine Touch.lift hm hs ?_
  clear hs hm
  have hs : Touch 52617418752 s s := .refl _ _
  simp +decide (maxDischargeDepth := 99) [scanResume, hs, hasBit, subMask]

@[simp] theorem touch_passDone (s : State) (hm : subMask 52617418752 m = true) (hs : Touch m s0 s) :
    Touch m s0 (passDone s) := by
  refine Touch.lift hm hs ?_
  clear hs hm
  have hs : Touch 52617418752 s s := .refl _ _
  simp +decide (maxDischargeDepth := 99) [passDone, hs, hasBit, subMask]

@[simp] theorem touch_rangeBefore (s : State) (e : Nat) (i : Nat) (hm : subMask 52617418848 m = true) (hi : i < 2) (hs : Touch m s0 s) :
    Touch m s0 (rangeBefore s e i) := by
  refine Touch.lift hm hs ?_
  clear hs hm
  have hs : Touch 52617418848 s s := .refl _ _
  unfold rangeBefore
  split
  · split
    · exact touch_applyRange _ i (by decide) hi (touch_advanceTo _ _ (by decide) hs)
    · exact hs
  · exact hs

@[simp] theorem touch_visitDone (s : State) (hm : subMask 52617418848 m = true) (hs : Touch m s0 s) :
    Touch m s0 (visitDone s) := by
  refine Touch.lift hm hs ?_
  clear hs hm
  have hs : Touch 52617418848 s s := .refl _ _
  unfold visitDone
  (try dsimp only)
  repeat' (first | with_reducible assumption | (simp +contextual +decide (maxDischargeDepth := 99) [hs, hasBit, subMask]; done) | (simp +contextual +decide (maxDischargeDepth := 99) [hs, hk, hasBit, subMask]; done) | split | refine touch_foldl _ _ _ ?_ (fun _ _ hk => ?_))

@[simp] theorem touch_entryCommit (s : State) (e : Nat) (x : Nat) (hm : subMask 52617418752 m = true) (hs : Touch m s0 s) :
    Touch m s0 (entryCommit s e x) := by
  refine Touch.lift hm hs ?_
  clear hs hm
  have hs : Touch 52617418752 s s := .refl _ _
  unfold entryCommit
  (try dsimp only)
  repeat' (first | with_reducible assumption | (simp +contextual +decide (maxDischargeDepth := 99) [hs, hasBit, subMask]; done) | (simp +contextual +decide (maxDischargeDepth := 99) [hs, hk, hasBit, subMask]; done) | split | refine touch_foldl _ _ _ ?_ (fun _ _ hk => ?_))

@[simp] theorem touch_mfeAct (old : State) (s : State) (a : Nat) (v : Nat) (held : Nat) (hm : subMask 52617418768 m = true) (hs : Touch m s0 s) :
    Touch m s0 (mfeAct old s a v held) := by
  refine Touch.lift hm hs ?_
  clear hs hm
  have hs : Touch 52617418768 s s := .refl _ _
  unfold mfeAct
  repeat' split
  all_goals simp +contextual +decide (maxDischargeDepth := 99) [hs, hasBit, subMask]

@[simp] theorem touch_restartAll (s : State) (hm : subMask 4096 m = true) (hs : Touch m s0 s) :
    Touch m s0 (restartAll s) := by
  refine Touch.lift hm hs ?_
  clear hs hm
  have hs : Touch 4096 s s := .refl _ _
  simp +contextual +decide (maxDischargeDepth := 99) [restartAll, hs, hasBit, subMask]

@[simp] theorem touch_mfeMode (wasOn : Bool) (s : State) (hm : subMask 52617418768 m = true) (hs : Touch m s0 s) :
    Touch m s0 (mfeMode wasOn s) := by
  refine Touch.lift hm hs ?_
  clear hs hm
  have hs : Touch 52617418768 s s := .refl _ _
  simp +decide (maxDischargeDepth := 99) [mfeMode, hs, hasBit, subMask]

@[simp] theorem touch_execModulatorOverload (m0 : Fin 13) (s : State) (hm : subMask 1073747968 m = true) (hs : Touch m s0 s) :
    TouchBy m s0 (execModulatorOverload m0 s) := by
  refine Touch.liftBy hm hs ?_
  clear hs hm
  have hs : Touch 1073747968 s s := .refl _ _
  simp +contextual +decide (maxDischargeDepth := 99) [execModulatorOverload, hs, hasBit, subMask]

@[simp] theorem touch_execModulatorResetEnd (m0 : Fin 13) (s : State) (hm : subMask 6240 m = true) (hs : Touch m s0 s) :
    TouchBy m s0 (execModulatorResetEnd m0 s) := by
  refine Touch.liftBy hm hs ?_
  clear hs hm
  have hs : Touch 6240 s s := .refl _ _
  simp +contextual +decide (maxDischargeDepth := 99) [execModulatorResetEnd, hs, hasBit, subMask]

@[simp] theorem touch_execPllMUnlock (s : State) (hm : subMask 52625805312 m = true) (hs : Touch m s0 s) :
    TouchBy m s0 (execPllMUnlock s) := by
  refine Touch.liftBy hm hs ?_
  clear hs hm
  have hs : Touch 52625805312 s s := .refl _ _
  simp +decide (maxDischargeDepth := 99) [execPllMUnlock, hs, hasBit, subMask]

@[simp] theorem touch_execPllMRelock (s : State) (hm : subMask 51552063488 m = true) (hs : Touch m s0 s) :
    TouchBy m s0 (execPllMRelock s) := by
  refine Touch.liftBy hm hs ?_
  clear hs hm
  have hs : Touch 51552063488 s s := .refl _ _
  simp +decide (maxDischargeDepth := 99) [execPllMRelock, hs, hasBit, subMask]

@[simp] theorem touch_execScanVisitEnd (s : State) (hm : subMask 52617418848 m = true) (hs : Touch m s0 s) :
    TouchBy m s0 (execScanVisitEnd s) := by
  refine Touch.liftBy hm hs ?_
  clear hs hm
  have hs : Touch 52617418848 s s := .refl _ _
  simp +decide (maxDischargeDepth := 99) [execScanVisitEnd, hs, hasBit, subMask]

@[simp] theorem touch_execSettleCountEnd (ch : Fin 64) (s : State) (hm : subMask 52617418848 m = true) (hs : Touch m s0 s) :
    TouchBy m s0 (execSettleCountEnd ch s) := by
  refine Touch.liftBy hm hs ?_
  clear hs hm
  have hs : Touch 52617418848 s s := .refl _ _
  simp +decide (maxDischargeDepth := 99) [execSettleCountEnd, hs, hasBit, subMask]

@[simp] theorem touch_keepSets (s : State) (a : Nat) (n : Nat) (hm : subMask 4096 m = true) (hs : Touch m s0 s) :
    Touch m s0 (keepSets s a n) := by
  refine Touch.lift hm hs ?_
  clear hs hm
  have hs : Touch 4096 s s := .refl _ _
  simp +decide (maxDischargeDepth := 99) [keepSets, hs, hasBit, subMask]

@[simp] theorem touch_setStaging (s : State) (b : Bytes) (hm : subMask 549755813888 m = true) (hs : Touch m s0 s) :
    Touch m s0 (setStaging s b) := by
  refine Touch.lift hm hs ?_
  clear hs hm
  have hs : Touch 549755813888 s s := .refl _ _
  simp +contextual +decide (maxDischargeDepth := 99) [setStaging, hs, hasBit, subMask]

@[simp] theorem touch_linsetRejected (s : State) (v : Nat) (hm : subMask 2147483648 m = true) (hs : Touch m s0 s) :
    Touch m s0 (linsetRejected s v) := by
  refine Touch.lift hm hs ?_
  clear hs hm
  have hs : Touch 2147483648 s s := .refl _ _
  simp +decide (maxDischargeDepth := 99) [linsetRejected, hs, hasBit, subMask]

@[simp] theorem touch_linsetAct (s : State) (v : Nat) (hm : subMask 551903301632 m = true) (hs : Touch m s0 s) :
    Touch m s0 (linsetAct s v) := by
  refine Touch.lift hm hs ?_
  clear hs hm
  have hs : Touch 551903301632 s s := .refl _ _
  simp +contextual +decide (maxDischargeDepth := 99) [linsetAct, hs, hasBit, subMask]

@[simp] theorem touch_linComplete (s : State) (hm : subMask 53691027458 m = true) (hs : Touch m s0 s) :
    Touch m s0 (linComplete s) := by
  refine Touch.lift hm hs ?_
  clear hs hm
  have hs : Touch 53691027458 s s := .refl _ _
  unfold linComplete
  repeat' split
  all_goals simp +contextual +decide (maxDischargeDepth := 99) [hs, hasBit, subMask]

@[simp] theorem touch_fitSet (s : State) (ordx : Nat) (ordt : Nat) (tsrc : Nat) (tref : Nat) (pts : List FitPoint) (hm : subMask 549755813888 m = true) (hs : Touch m s0 s) :
    Touch m s0 (fitSet s ordx ordt tsrc tref pts).1 := by
  refine Touch.lift hm hs ?_
  clear hs hm
  have hs : Touch 549755813888 s s := .refl _ _
  unfold fitSet
  (try dsimp only)
  repeat' (first | with_reducible assumption | (simp +contextual +decide (maxDischargeDepth := 99) [hs, hasBit, subMask]; done) | (simp +contextual +decide (maxDischargeDepth := 99) [hs, hk, hasBit, subMask]; done) | split | refine touch_foldl _ _ _ ?_ (fun _ _ hk => ?_))

@[simp] theorem touch_putRaw (s : State) (m0 : Nat) (t : Nat) (w : ConvWord) (hm : subMask 4096 m = true) (hs : Touch m s0 s) :
    Touch m s0 (putRaw s m0 t w) := by
  refine Touch.lift hm hs ?_
  clear hs hm
  have hs : Touch 4096 s s := .refl _ _
  simp +decide (maxDischargeDepth := 99) [putRaw, hs, hasBit, subMask]

@[simp] theorem touch_recordSample (s : State) (p : State) (c0 : Nat) (o : Nat) (x : Nat) (low : Bool) (txBlank : Bool) (blank : Bool) (path : PathSel) (y : Tagged) (hm : subMask 603446841344 m = true) (hs : Touch m s0 s) :
    Touch m s0 (recordSample s p c0 o x low txBlank blank path y) := by
  refine Touch.lift hm hs ?_
  clear hs hm
  have hs : Touch 603446841344 s s := .refl _ _
  simp +decide (maxDischargeDepth := 99) [recordSample, hs, hasBit, subMask]

@[simp] theorem touch_gridSample (s : State) (c0 : Nat) (o : Nat) (hm : subMask 603446841344 m = true) (hs : Touch m s0 s) :
    Touch m s0 (gridSample s c0 o) := by
  refine Touch.lift hm hs ?_
  clear hs hm
  have hs : Touch 603446841344 s s := .refl _ _
  simp +decide (maxDischargeDepth := 99) [gridSample, hs, hasBit, subMask]

@[simp] theorem touch_setTap (s : State) (c0 : Nat) (x : Tap) (hm : subMask 4096 m = true) (hs : Touch m s0 s) :
    Touch m s0 (setTap s c0 x) := by
  refine Touch.lift hm hs ?_
  clear hs hm
  have hs : Touch 4096 s s := .refl _ _
  simp +decide (maxDischargeDepth := 99) [setTap, hs, hasBit, subMask]

@[simp] theorem touch_tapSample (s : State) (c0 : Nat) (o : Nat) (hm : subMask 51543543808 m = true) (hs : Touch m s0 s) :
    Touch m s0 (tapSample s c0 o) := by
  refine Touch.lift hm hs ?_
  clear hs hm
  have hs : Touch 51543543808 s s := .refl _ _
  simp +decide (maxDischargeDepth := 99) [tapSample, hs, hasBit, subMask]

theorem stageOf_lt {w i : Nat} (h : stageOf w = some i) : i < 2 := by
  unfold stageOf at h
  split at h
  · cases h; decide
  · split at h
    · cases h; decide
    · cases h

@[simp] theorem touch_auxSample (s : State) (v : Visit) (o : Nat) (hm : subMask 604520716288 m = true) (hs : Touch m s0 s) :
    Touch m s0 (auxSample s v o) := by
  refine Touch.lift hm hs ?_
  clear hs hm
  have hs : Touch 604520716288 s s := .refl _ _
  unfold auxSample
  dsimp only
  split
  · simp +decide (maxDischargeDepth := 99) [hs, hasBit, subMask]
  · rename_i i hi
    have h2 := stageOf_lt hi
    split <;> simp +decide (maxDischargeDepth := 99) [hs, h2, hasBit, subMask]

@[simp] theorem touch_gridWord (s : State) (c0 : Nat) (t : Nat) (w : GridWord) (hm : subMask 603446841440 m = true) (hs : Touch m s0 s) :
    Touch m s0 (gridWord s c0 t w) := by
  refine Touch.lift hm hs ?_
  clear hs hm
  have hs : Touch 603446841440 s s := .refl _ _
  simp +decide (maxDischargeDepth := 99) [gridWord, hs, hasBit, subMask]

@[simp] theorem touch_auxWord (s : State) (t : Nat) (w : ConvWord) (hm : subMask 604520716384 m = true) (hs : Touch m s0 s) :
    Touch m s0 (auxWord s t w) := by
  refine Touch.lift hm hs ?_
  clear hs hm
  have hs : Touch 604520716384 s s := .refl _ _
  unfold auxWord
  (try dsimp only)
  repeat' (first | with_reducible assumption | (simp +contextual +decide (maxDischargeDepth := 99) [hs, hasBit, subMask]; done) | (simp +contextual +decide (maxDischargeDepth := 99) [hs, hk, hasBit, subMask]; done) | split | refine touch_foldl _ _ _ ?_ (fun _ _ hk => ?_))

@[simp] theorem touch_runWords {α : Type} (f : State → Nat → α → State) (step : Nat) (l : List α) (t : Nat) (s : State) (hs : Touch m s0 s)
    (hf : ∀ s t w, Touch m s0 s → Touch m s0 (f s t w)) : Touch m s0 (runWords f step l t s) := by
  induction l generalizing t s with
  | nil => exact hs
  | cons w l ih => exact ih _ _ (hf _ _ _ hs)

@[simp] theorem touch_takeGrid (s : State) (r : GridRun) (hm : subMask 603446841440 m = true) (hs : Touch m s0 s) :
    Touch m s0 (takeGrid s r) := by
  refine Touch.lift hm hs ?_
  clear hs hm
  have hs : Touch 603446841440 s s := .refl _ _
  simp +contextual +decide (maxDischargeDepth := 99) [takeGrid, hs, hasBit, subMask]

@[simp] theorem touch_takeAux (s : State) (r : AuxRun) (hm : subMask 604520716384 m = true) (hs : Touch m s0 s) :
    Touch m s0 (takeAux s r) := by
  refine Touch.lift hm hs ?_
  clear hs hm
  have hs : Touch 604520716384 s s := .refl _ _
  simp +contextual +decide (maxDischargeDepth := 99) [takeAux, hs, hasBit, subMask]

@[simp] theorem touch_galStoreSeg (s : State) (j : Nat) (c0 : Nat) (hm : subMask 51543539714 m = true) (hs : Touch m s0 s) :
    Touch m s0 (galStoreSeg s j c0) := by
  refine Touch.lift hm hs ?_
  clear hs hm
  have hs : Touch 51543539714 s s := .refl _ _
  simp +contextual +decide (maxDischargeDepth := 99) [galStoreSeg, hs, hasBit, subMask]

@[simp] theorem touch_galSync (s : State) (hm : subMask 51543539714 m = true) (hs : Touch m s0 s) : Touch m s0 (galSync s) := by
  refine Touch.lift hm hs ?_
  clear hs hm
  have hs : Touch 51543539714 s s := .refl _ _
  simp +contextual +decide (maxDischargeDepth := 99) [galSync, hs, hasBit, subMask]

@[simp] theorem touch_modGal (s : State) (f : Gallery → Gallery) (hm : subMask 4096 m = true) (hs : Touch m s0 s) :
    Touch m s0 (modGal s f) := by
  refine Touch.lift hm hs ?_
  clear hs hm
  have hs : Touch 4096 s s := .refl _ _
  simp +decide (maxDischargeDepth := 99) [modGal, hs, hasBit, subMask]

@[simp] theorem touch_galArm (s : State) (hm : subMask 53695221762 m = true) (hs : Touch m s0 s) :
    Touch m s0 (galArm s) := by
  refine Touch.lift hm hs ?_
  clear hs hm
  have hs : Touch 53695221762 s s := .refl _ _
  simp +contextual +decide (maxDischargeDepth := 99) [galArm, hs, hasBit, subMask]

@[simp] theorem touch_galTrigger (s : State) (t : Nat) (hm : subMask 53691027474 m = true) (hs : Touch m s0 s) :
    Touch m s0 (galTrigger s t) := by
  refine Touch.lift hm hs ?_
  clear hs hm
  have hs : Touch 53691027474 s s := .refl _ _
  simp +contextual +decide (maxDischargeDepth := 99) [galTrigger, hs, hasBit, subMask]

@[simp] theorem touch_galEnd (s : State) (failed : Bool) (aborted : Bool) (hm : subMask 53691158546 m = true) (hs : Touch m s0 s) :
    Touch m s0 (galEnd s failed aborted) := by
  refine Touch.lift hm hs ?_
  clear hs hm
  have hs : Touch 53691158546 s s := .refl _ _
  simp +decide (maxDischargeDepth := 99) [galEnd, hs, hasBit, subMask]

@[simp] theorem touch_galGranted (s : State) (hm : subMask 53691027458 m = true) (hs : Touch m s0 s) :
    Touch m s0 (galGranted s) := by
  refine Touch.lift hm hs ?_
  clear hs hm
  have hs : Touch 53691027458 s s := .refl _ _
  simp +contextual +decide (maxDischargeDepth := 99) [galGranted, hs, hasBit, subMask]

@[simp] theorem touch_galRefused (s : State) (hm : subMask 53691027458 m = true) (hs : Touch m s0 s) :
    Touch m s0 (galRefused s) := by
  refine Touch.lift hm hs ?_
  clear hs hm
  have hs : Touch 53691027458 s s := .refl _ _
  simp +contextual +decide (maxDischargeDepth := 99) [galRefused, hs, hasBit, subMask]

@[simp] theorem touch_galFailed (s : State) (hm : subMask 53691158546 m = true) (hs : Touch m s0 s) : Touch m s0 (galFailed s) := by
  refine Touch.lift hm hs ?_
  clear hs hm
  have hs : Touch 53691158546 s s := .refl _ _
  simp +decide (maxDischargeDepth := 99) [galFailed, hs, hasBit, subMask]

@[simp] theorem touch_takeStreams (s : State) (w : Streams) (hm : subMask 604520716386 m = true) (hs : Touch m s0 s) :
    Touch m s0 (takeStreams s w) := by
  refine Touch.lift hm hs ?_
  clear hs hm
  have hs : Touch 604520716386 s s := .refl _ _
  simp +contextual +decide (maxDischargeDepth := 99) [takeStreams, hs, hasBit, subMask]

@[simp] theorem touch_setDetSlot (s : State) (d : Nat) (x : DetSlot) (hm : subMask 4096 m = true) (hs : Touch m s0 s) :
    Touch m s0 (setDetSlot s d x) := by
  refine Touch.lift hm hs ?_
  clear hs hm
  have hs : Touch 4096 s s := .refl _ _
  simp +contextual +decide (maxDischargeDepth := 99) [setDetSlot, hs, hasBit, subMask]

@[simp] theorem touch_detDone (s : State) (d : Nat) (r : DetSlot) (ts : Nat) (hm : subMask 603446980626 m = true) (hs : Touch m s0 s) :
    Touch m s0 (detDone s d r ts) := by
  refine Touch.lift hm hs ?_
  clear hs hm
  have hs : Touch 603446980626 s s := .refl _ _
  simp +contextual +decide (maxDischargeDepth := 99) [detDone, hs, hasBit, subMask]

@[simp] theorem touch_detWindow (s : State) (d : Nat) (v : DetWin) (hm : subMask 603446980626 m = true) (hs : Touch m s0 s) :
    Touch m s0 (detWindow s d v) := by
  refine Touch.lift hm hs ?_
  clear hs hm
  have hs : Touch 603446980626 s s := .refl _ _
  simp +decide (maxDischargeDepth := 99) [detWindow, hs, hasBit, subMask]

@[simp] theorem touch_detRun (s : State) (d : Nat) (from_ : Nat) (till : Nat) (hm : subMask 603446980626 m = true) (hs : Touch m s0 s) :
    Touch m s0 (detRun s d from_ till) := by
  refine Touch.lift hm hs ?_
  clear hs hm
  have hs : Touch 603446980626 s s := .refl _ _
  unfold detRun
  (try dsimp only)
  repeat' (first | with_reducible assumption | (simp +contextual +decide (maxDischargeDepth := 99) [hs, hasBit, subMask]; done) | (simp +contextual +decide (maxDischargeDepth := 99) [hs, hk, hasBit, subMask]; done) | split | refine touch_foldl _ _ _ ?_ (fun _ _ hk => ?_))

@[simp] theorem touch_detectorResult (s : State) (d : Nat) (from_ : Nat) (words : List GridWord) (aux : List ConvWord) (till : Nat) (hm : subMask 604520724594 m = true) (hs : Touch m s0 s) :
    Touch m s0 (detectorResult s d from_ words aux till) := by
  refine Touch.lift hm hs ?_
  clear hs hm
  have hs : Touch 604520724594 s s := .refl _ _
  simp +decide (maxDischargeDepth := 99) [detectorResult, hs, hasBit, subMask]

@[simp] theorem touch_keepPhasor (s : State) (c0 : Nat) (e : Nat × Nat × Nat) (hm : subMask 4096 m = true) (hs : Touch m s0 s) :
    Touch m s0 (keepPhasor s c0 e) := by
  refine Touch.lift hm hs ?_
  clear hs hm
  have hs : Touch 4096 s s := .refl _ _
  simp +decide (maxDischargeDepth := 99) [keepPhasor, hs, hasBit, subMask]

@[simp] theorem touch_phasorSend (s : State) (tr : Nat) (hm : subMask 51543674880 m = true) (hs : Touch m s0 s) :
    Touch m s0 (phasorSend s tr) := by
  refine Touch.lift hm hs ?_
  clear hs hm
  have hs : Touch 51543674880 s s := .refl _ _
  simp +contextual +decide (maxDischargeDepth := 99) [phasorSend, hs, hasBit, subMask]

@[simp] theorem touch_phasorReport (s : State) (hm : subMask 51543674976 m = true) (hs : Touch m s0 s) : Touch m s0 (phasorReport s) := by
  refine Touch.lift hm hs ?_
  clear hs hm
  have hs : Touch 51543674976 s s := .refl _ _
  simp +contextual +decide (maxDischargeDepth := 99) [phasorReport, hs, hasBit, subMask]

@[simp] theorem touch_phasorStart (s : State) (hm : subMask 4096 m = true) (hs : Touch m s0 s) : Touch m s0 (phasorStart s) := by
  refine Touch.lift hm hs ?_
  clear hs hm
  have hs : Touch 4096 s s := .refl _ _
  simp +decide (maxDischargeDepth := 99) [phasorStart, hs, hasBit, subMask]

@[simp] theorem touch_dchOn (s : State) (hm : subMask 4096 m = true) (hs : Touch m s0 s) : Touch m s0 (dchOn s) := by
  refine Touch.lift hm hs ?_
  clear hs hm
  have hs : Touch 4096 s s := .refl _ _
  simp +decide (maxDischargeDepth := 99) [dchOn, hs, hasBit, subMask]

@[simp] theorem touch_measMode (wasOn : Bool) (s : State) (hm : subMask 52617418768 m = true) (hs : Touch m s0 s) :
    Touch m s0 (measMode wasOn s) := by
  refine Touch.lift hm hs ?_
  clear hs hm
  have hs : Touch 52617418768 s s := .refl _ _
  simp +decide (maxDischargeDepth := 99) [measMode, hs, hasBit, subMask]

@[simp] theorem touch_aggMove (s : State) (ts : Nat) (hm : subMask 2147487744 m = true) (hs : Touch m s0 s) :
    Touch m s0 (aggMove s ts) := by
  refine Touch.lift hm hs ?_
  clear hs hm
  have hs : Touch 2147487744 s s := .refl _ _
  simp +contextual +decide (maxDischargeDepth := 99) [aggMove, hs, hasBit, subMask]

@[simp] theorem touch_tenMinute (s : State) (hm : subMask 4192 m = true) (hs : Touch m s0 s) :
    Touch m s0 (tenMinute s) := by
  refine Touch.lift hm hs ?_
  clear hs hm
  have hs : Touch 4192 s s := .refl _ _
  simp +contextual +decide (maxDischargeDepth := 99) [tenMinute, hs, hasBit, subMask]

@[simp] theorem touch_pqPacket (s : State) (c : Nat) (level : Nat) (start : Nat) (p : PqVals) (hm : subMask 51543670784 m = true) (hs : Touch m s0 s) :
    Touch m s0 (pqPacket s c level start p) := by
  refine Touch.lift hm hs ?_
  clear hs hm
  have hs : Touch 51543670784 s s := .refl _ _
  simp +decide (maxDischargeDepth := 99) [pqPacket, hs, hasBit, subMask]

@[simp] theorem touch_setAgg (s : State) (c0 : Nat) (a : Agg) (hm : subMask 4096 m = true) (hs : Touch m s0 s) :
    Touch m s0 (setAgg s c0 a) := by
  refine Touch.lift hm hs ?_
  clear hs hm
  have hs : Touch 4096 s s := .refl _ _
  simp +decide (maxDischargeDepth := 99) [setAgg, hs, hasBit, subMask]

@[simp] theorem touch_aggDone (s : State) (c0 : Nat) (k : Nat) (start : Nat) (q0 : PqVals) (hm : subMask 51543674880 m = true) (hs : Touch m s0 s) :
    Touch m s0 (aggDone s c0 k start q0) := by
  refine Touch.lift hm hs ?_
  clear hs hm
  have hs : Touch 51543674880 s s := .refl _ _
  simp +decide (maxDischargeDepth := 99) [aggDone, hs, hasBit, subMask]

@[simp] theorem touch_baseDone (s : State) (c0 : Nat) (start : Nat) (stop : Nat) (x : Spans) (e15 : Bool) (e10m : Bool) (e2h : Bool) (hm : subMask 51543674880 m = true) (hs : Touch m s0 s) :
    Touch m s0 (baseDone s c0 start stop x e15 e10m e2h) := by
  refine Touch.lift hm hs ?_
  clear hs hm
  have hs : Touch 51543674880 s s := .refl _ _
  simp +decide (maxDischargeDepth := 99) [baseDone, hs, hasBit, subMask]

@[simp] theorem touch_aggClear (s : State) (e15 : Bool) (e10m : Bool) (e2h : Bool) (hm : subMask 4096 m = true) (hs : Touch m s0 s) :
    Touch m s0 (aggClear s e15 e10m e2h) := by
  refine Touch.lift hm hs ?_
  clear hs hm
  have hs : Touch 4096 s s := .refl _ _
  simp +decide (maxDischargeDepth := 99) [aggClear, hs, hasBit, subMask]

@[simp] theorem touch_supraRun (s : State) (c0 : Nat) (from_ : Nat) (hm : subMask 4096 m = true) (hs : Touch m s0 s) :
    Touch m s0 (supraRun s c0 from_) := by
  refine Touch.lift hm hs ?_
  clear hs hm
  have hs : Touch 4096 s s := .refl _ _
  simp +contextual +decide (maxDischargeDepth := 99) [supraRun, hs, hasBit, subMask]

@[simp] theorem touch_supraDone (s : State) (c0 : Nat) (start : Nat) (stop : Nat) (next : Nat) (hm : subMask 51543674880 m = true) (hs : Touch m s0 s) :
    Touch m s0 (supraDone s c0 start stop next) := by
  refine Touch.lift hm hs ?_
  clear hs hm
  have hs : Touch 51543674880 s s := .refl _ _
  simp +decide (maxDischargeDepth := 99) [supraDone, hs, hasBit, subMask]

@[simp] theorem touch_baseInterval (s : State) (hm : subMask 51543674976 m = true) (hs : Touch m s0 s) : Touch m s0 (baseInterval s) := by
  refine Touch.lift hm hs ?_
  clear hs hm
  have hs : Touch 51543674976 s s := .refl _ _
  simp +contextual +decide (maxDischargeDepth := 99) [baseInterval, hs, hasBit, subMask]

@[simp] theorem touch_pqEvent (s : State) (ch : Nat) (kind : Nat) (edge : Nat) (ts : Nat) (dur : Nat) (extreme : Nat) (hm : subMask 51543670784 m = true) (hs : Touch m s0 s) :
    Touch m s0 (pqEvent s ch kind edge ts dur extreme) := by
  refine Touch.lift hm hs ?_
  clear hs hm
  have hs : Touch 51543670784 s s := .refl _ _
  simp +decide (maxDischargeDepth := 99) [pqEvent, hs, hasBit, subMask]

@[simp] theorem touch_pqKind (s : State) (c0 : Nat) (kind : Nat) (starts : Bool) (ends : Bool) (ts : Nat) (urms : Nat) (hm : subMask 51543674880 m = true) (hs : Touch m s0 s) :
    Touch m s0 (pqKind s c0 kind starts ends ts urms) := by
  refine Touch.lift hm hs ?_
  clear hs hm
  have hs : Touch 51543674880 s s := .refl _ _
  unfold pqKind
  (try dsimp only)
  repeat' (first | with_reducible assumption | (simp +contextual +decide (maxDischargeDepth := 99) [hs, hasBit, subMask]; done) | (simp +contextual +decide (maxDischargeDepth := 99) [hs, hk, hasBit, subMask]; done) | split | refine touch_foldl _ _ _ ?_ (fun _ _ hk => ?_))

@[simp] theorem touch_pqLeft (s : State) (hm : subMask 4096 m = true) (hs : Touch m s0 s) : Touch m s0 (pqLeft s) := by
  refine Touch.lift hm hs ?_
  clear hs hm
  have hs : Touch 4096 s s := .refl _ _
  simp +decide (maxDischargeDepth := 99) [pqLeft, hs, hasBit, subMask]

@[simp] theorem touch_dipSwell (s : State) (c0 : Nat) (urms : Nat) (ts : Nat) (hm : subMask 51543674880 m = true) (hs : Touch m s0 s) :
    Touch m s0 (dipSwell s c0 urms ts) := by
  refine Touch.lift hm hs ?_
  clear hs hm
  have hs : Touch 51543674880 s s := .refl _ _
  simp +decide (maxDischargeDepth := 99) [dipSwell, hs, hasBit, subMask]

@[simp] theorem touch_urmsAt (s : State) (c0 : Nat) (e : Nat) (hm : subMask 51543674880 m = true) (hs : Touch m s0 s) :
    Touch m s0 (urmsAt s c0 e) := by
  refine Touch.lift hm hs ?_
  clear hs hm
  have hs : Touch 51543674880 s s := .refl _ _
  unfold urmsAt
  (try dsimp only)
  repeat' (first | with_reducible assumption | (simp +contextual +decide (maxDischargeDepth := 99) [hs, hasBit, subMask]; done) | (simp +contextual +decide (maxDischargeDepth := 99) [hs, hk, hasBit, subMask]; done) | split | refine touch_foldl _ _ _ ?_ (fun _ _ hk => ?_))

@[simp] theorem touch_urmsRun (s : State) (c0 : Nat) (from_ : Nat) (hm : subMask 51543674880 m = true) (hs : Touch m s0 s) :
    Touch m s0 (urmsRun s c0 from_) := by
  refine Touch.lift hm hs ?_
  clear hs hm
  have hs : Touch 51543674880 s s := .refl _ _
  unfold urmsRun
  (try dsimp only)
  repeat' (first | with_reducible assumption | (simp +contextual +decide (maxDischargeDepth := 99) [hs, hasBit, subMask]; done) | (simp +contextual +decide (maxDischargeDepth := 99) [hs, hk, hasBit, subMask]; done) | split | refine touch_foldl _ _ _ ?_ (fun _ _ hk => ?_))

@[simp] theorem touch_chanChanged (old : State) (s : State) (c0 : Nat) (hm : subMask 4096 m = true) (hs : Touch m s0 s) :
    Touch m s0 (chanChanged old s c0) := by
  refine Touch.lift hm hs ?_
  clear hs hm
  have hs : Touch 4096 s s := .refl _ _
  simp +decide (maxDischargeDepth := 99) [chanChanged, hs, hasBit, subMask]

@[simp] theorem touch_firChanged (s : State) (b : Nat) (hm : subMask 4096 m = true) (hs : Touch m s0 s) : Touch m s0 (firChanged s b) := by
  refine Touch.lift hm hs ?_
  clear hs hm
  have hs : Touch 4096 s s := .refl _ _
  simp +contextual +decide (maxDischargeDepth := 99) [firChanged, hs, hasBit, subMask]

@[simp] theorem touch_detChanged (old : State) (s : State) (d : Nat) (hm : subMask 4096 m = true) (hs : Touch m s0 s) :
    Touch m s0 (detChanged old s d) := by
  refine Touch.lift hm hs ?_
  clear hs hm
  have hs : Touch 4096 s s := .refl _ _
  simp +decide (maxDischargeDepth := 99) [detChanged, hs, hasBit, subMask]

@[simp] theorem touch_dchAct (old : State) (s : State) (a : Nat) (v : Nat) (hm : subMask 603451166738 m = true) (hs : Touch m s0 s) :
    Touch m s0 (dchAct old s a v) := by
  refine Touch.lift hm hs ?_
  clear hs hm
  have hs : Touch 603451166738 s s := .refl _ _
  unfold dchAct
  (try dsimp only)
  repeat' (first | with_reducible assumption | (simp +contextual +decide (maxDischargeDepth := 99) [hs, hasBit, subMask]; done) | (simp +contextual +decide (maxDischargeDepth := 99) [hs, hk, hasBit, subMask]; done) | split | refine touch_foldl _ _ _ ?_ (fun _ _ hk => ?_))

@[simp] theorem touch_dropForce (s : State) (hm : subMask 2147487744 m = true) (hs : Touch m s0 s) :
    Touch m s0 (dropForce s) := by
  refine Touch.lift hm hs ?_
  clear hs hm
  have hs : Touch 2147487744 s s := .refl _ _
  unfold dropForce
  rw [show List.range 4 = [0, 1, 2, 3] from rfl]
  simp only [List.foldl]
  simp +contextual +decide (maxDischargeDepth := 99) [hs, hasBit, subMask]

@[simp] theorem touch_tiaWords (s : State) (i : Nat) (run : AuxRun) (satNow : Bool) (till : Nat) (hm : subMask 604520716386 m = true)
    (hi : i < 2) (hs : Touch m s0 s) : Touch m s0 (tiaWords s i run satNow till) := by
  refine Touch.lift hm hs ?_
  clear hs hm
  have hs : Touch 604520716386 s s := .refl _ _
  unfold tiaWords
  dsimp only
  split
  · exact touch_putFlag _ _ _ (okf_tia_sat i (by decide) hi) (by simp +decide (maxDischargeDepth := 99) [hs, hasBit, subMask])
  · simp +decide (maxDischargeDepth := 99) [hs, hasBit, subMask]

@[simp] theorem touch_execTiaRangeChange (stage : Fin 2) (from_ : MeshTime) (words : List (BitVec 24)) (ovl : List Nat) (sat : List Nat)
    (satNow : Bool) (till : MeshTime) (s : State) (hm : subMask 604520716386 m = true) (hs : Touch m s0 s) :
    TouchBy m s0 (execTiaRangeChange stage from_ words ovl sat satNow till s) := by
  refine Touch.liftBy hm hs ?_
  clear hs hm
  have hs : Touch 604520716386 s s := .refl _ _
  unfold execTiaRangeChange
  split
  · simpa using touch_tiaWords s stage _ satNow till.toNat (by decide) stage.isLt hs
  · simpa using hs

@[simp] theorem touch_execGainPathSwitch (_n : Fin 4) (streams : Streams) (s : State) (hm : subMask 604520716386 m = true) (hs : Touch m s0 s) :
    TouchBy m s0 (execGainPathSwitch _n streams s) := by
  refine Touch.liftBy hm hs ?_
  clear hs hm
  have hs : Touch 604520716386 s s := .refl _ _
  simp +decide (maxDischargeDepth := 99) [execGainPathSwitch, hs, hasBit, subMask]

@[simp] theorem touch_execDetectorResult (det : Fin 64) (from_ : MeshTime) (words : List GridWord) (aux : List ConvWord) (till : MeshTime) (s : State) (hm : subMask 604520724594 m = true) (hs : Touch m s0 s) :
    TouchBy m s0 (execDetectorResult det from_ words aux till s) := by
  refine Touch.liftBy hm hs ?_
  clear hs hm
  have hs : Touch 604520724594 s s := .refl _ _
  simp +decide (maxDischargeDepth := 99) [execDetectorResult, hs, hasBit, subMask]

@[simp] theorem touch_takeRuns (s : State) (runs : List GridRun) (hm : subMask 604520716386 m = true) (hs : Touch m s0 s) :
    Touch m s0 (takeRuns s runs) := by
  refine Touch.lift hm hs ?_
  clear hs hm
  have hs : Touch 604520716386 s s := .refl _ _
  simp +contextual +decide (maxDischargeDepth := 99) [takeRuns, hs, hasBit, subMask]

@[simp] theorem touch_execPhasorReport (volts : List GridRun) (currents : List GridRun) (s : State) (hm : subMask 604520716386 m = true) (hs : Touch m s0 s) :
    TouchBy m s0 (execPhasorReport volts currents s) := by
  refine Touch.liftBy hm hs ?_
  clear hs hm
  have hs : Touch 604520716386 s s := .refl _ _
  simp +decide (maxDischargeDepth := 99) [execPhasorReport, hs, hasBit, subMask]

@[simp] theorem touch_execBaseIntervalEnd (streams : Streams) (s : State) (hm : subMask 604520716386 m = true) (hs : Touch m s0 s) :
    TouchBy m s0 (execBaseIntervalEnd streams s) := by
  refine Touch.liftBy hm hs ?_
  clear hs hm
  have hs : Touch 604520716386 s s := .refl _ _
  simp +decide (maxDischargeDepth := 99) [execBaseIntervalEnd, hs, hasBit, subMask]

@[simp] theorem touch_execTenMinuteTick (s : State) (hm : subMask 4192 m = true) (hs : Touch m s0 s) :
    TouchBy m s0 (execTenMinuteTick s) := by
  refine Touch.liftBy hm hs ?_
  clear hs hm
  have hs : Touch 4192 s s := .refl _ _
  simp +decide (maxDischargeDepth := 99) [execTenMinuteTick, hs, hasBit, subMask]

@[simp] theorem touch_execPqDipSwellEdge (ch : Fin 4) (from_ : MeshTime) (words : List GridWord) (aux : List ConvWord) (s : State) (hm : subMask 604520716386 m = true) (hs : Touch m s0 s) :
    TouchBy m s0 (execPqDipSwellEdge ch from_ words aux s) := by
  refine Touch.liftBy hm hs ?_
  clear hs hm
  have hs : Touch 604520716386 s s := .refl _ _
  simp +decide (maxDischargeDepth := 99) [execPqDipSwellEdge, hs, hasBit, subMask]

@[simp] theorem touch_execSupraWindowEnd (ch : Fin 9) (from_ : MeshTime) (words : List GridWord) (s : State) (hm : subMask 604520716386 m = true) (hs : Touch m s0 s) :
    TouchBy m s0 (execSupraWindowEnd ch from_ words s) := by
  refine Touch.liftBy hm hs ?_
  clear hs hm
  have hs : Touch 604520716386 s s := .refl _ _
  simp +decide (maxDischargeDepth := 99) [execSupraWindowEnd, hs, hasBit, subMask]

@[simp] theorem touch_execGalleryDone (streams : Streams) (s : State) (hm : subMask 604520716402 m = true) (hs : Touch m s0 s) :
    TouchBy m s0 (execGalleryDone streams s) := by
  refine Touch.liftBy hm hs ?_
  clear hs hm
  have hs : Touch 604520716402 s s := .refl _ _
  simp +decide (maxDischargeDepth := 99) [execGalleryDone, hs, hasBit, subMask]

end Sys2Proof.Machine
end

