-- ==== Sys2Proof/Laws/TouchCtl.lean ====
section
/-! SUPPORT. `Touch` through local control, sequencers of power and ownership: one lemma per operation. -/

set_option linter.all false

namespace Sys2Proof.Machine

variable {m : Nat} {s0 : State}

@[simp] theorem touch_setAct (s : State) (i : Nat) (a : Act) (hm : subMask 8192 m = true) (hs : Touch m s0 s) :
    Touch m s0 (setAct s i a) := by
  refine Touch.lift hm hs ?_
  clear hs hm
  have hs : Touch 8192 s s := .refl _ _
  simp +contextual +decide (maxDischargeDepth := 99) [setAct, hs, hasBit, subMask]

@[simp] theorem touch_setRule (s : State) (i : Nat) (r : Rule) (hm : subMask 8192 m = true) (hs : Touch m s0 s) :
    Touch m s0 (setRule s i r) := by
  refine Touch.lift hm hs ?_
  clear hs hm
  have hs : Touch 8192 s s := .refl _ _
  simp +contextual +decide (maxDischargeDepth := 99) [setRule, hs, hasBit, subMask]

@[simp] theorem touch_setSeq (s : State) (i : Nat) (q : Seq) (hm : subMask 8192 m = true) (hs : Touch m s0 s) :
    Touch m s0 (setSeq s i q) := by
  refine Touch.lift hm hs ?_
  clear hs hm
  have hs : Touch 8192 s s := .refl _ _
  simp +contextual +decide (maxDischargeDepth := 99) [setSeq, hs, hasBit, subMask]

@[simp] theorem touch_setLock (s : State) (i : Nat) (l : Lock) (hm : subMask 8192 m = true) (hs : Touch m s0 s) :
    Touch m s0 (setLock s i l) := by
  refine Touch.lift hm hs ?_
  clear hs hm
  have hs : Touch 8192 s s := .refl _ _
  simp +contextual +decide (maxDischargeDepth := 99) [setLock, hs, hasBit, subMask]

@[simp] theorem touch_actPacket (s : State) (i : Nat) (cause : Nat) (v : Nat) (o : Owner) (hm : subMask 51543670784 m = true) (hs : Touch m s0 s) :
    Touch m s0 (actPacket s i cause v o) := by
  refine Touch.lift hm hs ?_
  clear hs hm
  have hs : Touch 51543670784 s s := .refl _ _
  simp +decide (maxDischargeDepth := 99) [actPacket, hs, hasBit, subMask]

@[simp] theorem touch_seqPacket (s : State) (k : Nat) (hm : subMask 51543670784 m = true) (hs : Touch m s0 s) :
    Touch m s0 (seqPacket s k) := by
  refine Touch.lift hm hs ?_
  clear hs hm
  have hs : Touch 51543670784 s s := .refl _ _
  simp +decide (maxDischargeDepth := 99) [seqPacket, hs, hasBit, subMask]

@[simp] theorem touch_lockPacket (s : State) (l : Nat) (kind : Nat) (o : Owner) (hm : subMask 51543670784 m = true) (hs : Touch m s0 s) :
    Touch m s0 (lockPacket s l kind o) := by
  refine Touch.lift hm hs ?_
  clear hs hm
  have hs : Touch 51543670784 s s := .refl _ _
  simp +decide (maxDischargeDepth := 99) [lockPacket, hs, hasBit, subMask]

@[simp] theorem touch_rulePacket (s : State) (r : Nat) (kind : Nat) (status : Nat) (hm : subMask 51543670784 m = true) (hs : Touch m s0 s) :
    Touch m s0 (rulePacket s r kind status) := by
  refine Touch.lift hm hs ?_
  clear hs hm
  have hs : Touch 51543670784 s s := .refl _ _
  simp +decide (maxDischargeDepth := 99) [rulePacket, hs, hasBit, subMask]

@[simp] theorem touch_commandPacket (s : State) (cause : Nat) (orig : Nat) (hm : subMask 51543670784 m = true) (hs : Touch m s0 s) :
    Touch m s0 (commandPacket s cause orig) := by
  refine Touch.lift hm hs ?_
  clear hs hm
  have hs : Touch 51543670784 s s := .refl _ _
  simp +decide (maxDischargeDepth := 99) [commandPacket, hs, hasBit, subMask]

@[simp] theorem touch_raiseLce (s : State) (e : Nat) (hm : subMask 51543678976 m = true) (hs : Touch m s0 s) :
    Touch m s0 (raiseLce s e) := by
  refine Touch.lift hm hs ?_
  clear hs hm
  have hs : Touch 51543678976 s s := .refl _ _
  simp +contextual +decide (maxDischargeDepth := 99) [raiseLce, hs, hasBit, subMask]

@[simp] theorem touch_sendTrigger (s : State) (dest : Nat) (code : Nat) (hm : subMask 4302962688 m = true) (hs : Touch m s0 s) :
    Touch m s0 (sendTrigger s dest code) := by
  refine Touch.lift hm hs ?_
  clear hs hm
  have hs : Touch 4302962688 s s := .refl _ _
  simp +decide (maxDischargeDepth := 99) [sendTrigger, hs, hasBit, subMask]

@[simp] theorem touch_freeLock (s : State) (l : Nat) (kind : Nat) (hm : subMask 51543678976 m = true) (hs : Touch m s0 s) :
    Touch m s0 (freeLock s l kind) := by
  refine Touch.lift hm hs ?_
  clear hs hm
  have hs : Touch 51543678976 s s := .refl _ _
  simp +decide (maxDischargeDepth := 99) [freeLock, hs, hasBit, subMask]

@[simp] theorem touch_grantLock (s : State) (l : Nat) (o : Owner) (lease : Nat) (implicit : Bool) (hm : subMask 51543678976 m = true) (hs : Touch m s0 s) :
    Touch m s0 (grantLock s l o lease implicit) := by
  refine Touch.lift hm hs ?_
  clear hs hm
  have hs : Touch 51543678976 s s := .refl _ _
  simp +decide (maxDischargeDepth := 99) [grantLock, hs, hasBit, subMask]

@[simp] theorem touch_countLocked (s : State) (st : Nat) (hm : subMask 4294967296 m = true) (hs : Touch m s0 s) :
    Touch m s0 (countLocked s st) := by
  refine Touch.lift hm hs ?_
  clear hs hm
  have hs : Touch 4294967296 s s := .refl _ _
  simp +decide (maxDischargeDepth := 99) [countLocked, hs, hasBit, subMask]

@[simp] theorem touch_clearPrior (s : State) (l : Nat) (hm : subMask 8192 m = true) (hs : Touch m s0 s) :
    Touch m s0 (clearPrior s l) := by
  refine Touch.lift hm hs ?_
  clear hs hm
  have hs : Touch 8192 s s := .refl _ _
  simp +decide (maxDischargeDepth := 99) [clearPrior, hs, hasBit, subMask]

@[simp] theorem touch_acquire (s : State) (o : Owner) (l : Nat) (lease : Nat) (wait : Nat) (tag : Nat) (priv : Bool) (before : List OpResult) (after : List LceOp) (hm : subMask 55838646272 m = true) (hs : Touch m s0 s) :
    Touch m s0 (acquire s o l lease wait tag priv before after).1 := by
  refine Touch.lift hm hs ?_
  clear hs hm
  have hs : Touch 55838646272 s s := .refl _ _
  unfold acquire
  (try dsimp only)
  repeat' (first | with_reducible assumption | (simp +contextual +decide (maxDischargeDepth := 99) [hs, hasBit, subMask]; done) | (simp +contextual +decide (maxDischargeDepth := 99) [hs, hk, hasBit, subMask]; done) | split | refine touch_foldl _ _ _ ?_ (fun _ _ hk => ?_))

@[simp] theorem touch_release (s : State) (o : Owner) (l : Nat) (hm : subMask 55838646272 m = true) (hs : Touch m s0 s) :
    Touch m s0 (release s o l).1 := by
  refine Touch.lift hm hs ?_
  clear hs hm
  have hs : Touch 55838646272 s s := .refl _ _
  unfold release
  (try dsimp only)
  repeat' (first | with_reducible assumption | (simp +contextual +decide (maxDischargeDepth := 99) [hs, hasBit, subMask]; done) | (simp +contextual +decide (maxDischargeDepth := 99) [hs, hk, hasBit, subMask]; done) | split | refine touch_foldl _ _ _ ?_ (fun _ _ hk => ?_))

@[simp] theorem touch_writeAct (s : State) (o : Owner) (exempt : Bool) (i : Nat) (v : Nat) (src : WriteSrc) (hm : subMask 4294975488 m = true) (hs : Touch m s0 s) :
    Touch m s0 (writeAct s o exempt i v src).1 := by
  refine Touch.lift hm hs ?_
  clear hs hm
  have hs : Touch 4294975488 s s := .refl _ _
  unfold writeAct
  (try dsimp only)
  repeat' (first | with_reducible assumption | (simp +contextual +decide (maxDischargeDepth := 99) [hs, hasBit, subMask]; done) | (simp +contextual +decide (maxDischargeDepth := 99) [hs, hk, hasBit, subMask]; done) | split | refine touch_foldl _ _ _ ?_ (fun _ _ hk => ?_))

@[simp] theorem touch_startSeq (s : State) (o : Owner) (k : Nat) (hm : subMask 55838646272 m = true) (hs : Touch m s0 s) :
    Touch m s0 (startSeq s o k).1 := by
  refine Touch.lift hm hs ?_
  clear hs hm
  have hs : Touch 55838646272 s s := .refl _ _
  unfold startSeq
  (try dsimp only)
  repeat' (first | with_reducible assumption | (simp +contextual +decide (maxDischargeDepth := 99) [hs, hasBit, subMask]; done) | (simp +contextual +decide (maxDischargeDepth := 99) [hs, hk, hasBit, subMask]; done) | split | refine touch_foldl _ _ _ ?_ (fun _ _ hk => ?_))

@[simp] theorem touch_abortSeq (s : State) (k : Nat) (cause : Nat) (loss : Bool) (hm : subMask 4294975488 m = true) (hs : Touch m s0 s) :
    Touch m s0 (abortSeq s k cause loss) := by
  refine Touch.lift hm hs ?_
  clear hs hm
  have hs : Touch 4294975488 s s := .refl _ _
  simp +decide (maxDischargeDepth := 99) [abortSeq, hs, hasBit, subMask]

@[simp] theorem touch_abortBy (s : State) (o : Owner) (k : Nat) (hm : subMask 4294975488 m = true) (hs : Touch m s0 s) :
    Touch m s0 (abortBy s o k).1 := by
  refine Touch.lift hm hs ?_
  clear hs hm
  have hs : Touch 4294975488 s s := .refl _ _
  unfold abortBy
  (try dsimp only)
  repeat' (first | with_reducible assumption | (simp +contextual +decide (maxDischargeDepth := 99) [hs, hasBit, subMask]; done) | (simp +contextual +decide (maxDischargeDepth := 99) [hs, hk, hasBit, subMask]; done) | split | refine touch_foldl _ _ _ ?_ (fun _ _ hk => ?_))

@[simp] theorem touch_endSeq (s : State) (k : Nat) (st : Nat) (hm : subMask 51543678976 m = true) (hs : Touch m s0 s) :
    Touch m s0 (endSeq s k st) := by
  refine Touch.lift hm hs ?_
  clear hs hm
  have hs : Touch 51543678976 s s := .refl _ _
  simp +decide (maxDischargeDepth := 99) [endSeq, hs, hasBit, subMask]

@[simp] theorem touch_runOp (s : State) (o : Owner) (tag : Nat) (priv : Bool) (before : List OpResult) (after : List LceOp) (p : LceOp) (hm : subMask 55838646272 m = true) (hs : Touch m s0 s) :
    Touch m s0 (runOp s o tag priv before after p).1 := by
  refine Touch.lift hm hs ?_
  clear hs hm
  have hs : Touch 55838646272 s s := .refl _ _
  unfold runOp
  (try dsimp only)
  repeat' (first | with_reducible assumption | (simp +contextual +decide (maxDischargeDepth := 99) [hs, hasBit, subMask]; done) | (simp +contextual +decide (maxDischargeDepth := 99) [hs, hk, hasBit, subMask]; done) | split | refine touch_foldl _ _ _ ?_ (fun _ _ hk => ?_))

@[simp] theorem touch_runOps (s : State) (o : Owner) (tag : Nat) (priv : Bool) (before : List OpResult) (x5 : List LceOp) (hm : subMask 55838646272 m = true) (hs : Touch m s0 s) :
    Touch m s0 (runOps s o tag priv before x5).1 := by
  refine Touch.lift hm hs ?_
  clear hs hm
  have hs : Touch 55838646272 s s := .refl _ _
  suffices key : ∀ b0, Touch 55838646272 b0 s → Touch 55838646272 b0 (runOps s o tag priv before x5).1 from key _ hs
  clear hs
  intro b0 hs
  induction x5 generalizing s before with
  | nil => exact hs
  | cons a t ih =>
    unfold runOps
    have h2 := touch_runOp s o tag priv before t a (m := 55838646272) (by decide) hs
    split <;> rename_i h3 <;> rw [h3] at h2
    · exact h2
    · split
      · exact ih _ _ h2
      · exact h2

@[simp] theorem touch_runRequest (s : State) (o : Owner) (tag : Nat) (priv : Bool) (ops : List LceOp) (hm : subMask 55838646272 m = true) (hs : Touch m s0 s) :
    Touch m s0 (runRequest s o tag priv ops).1 := by
  refine Touch.lift hm hs ?_
  clear hs hm
  have hs : Touch 55838646272 s s := .refl _ _
  unfold runRequest
  (try dsimp only)
  repeat' (first | with_reducible assumption | (simp +contextual +decide (maxDischargeDepth := 99) [hs, hasBit, subMask]; done) | (simp +contextual +decide (maxDischargeDepth := 99) [hs, hk, hasBit, subMask]; done) | split | refine touch_foldl _ _ _ ?_ (fun _ _ hk => ?_))

@[simp] theorem touch_reply (s : State) (o : Owner) (tag : Nat) (rs : List OpResult) (final : Bool) (hm : subMask 8192 m = true) (hs : Touch m s0 s) :
    Touch m s0 (reply s o tag rs final) := by
  refine Touch.lift hm hs ?_
  clear hs hm
  have hs : Touch 8192 s s := .refl _ _
  simp +contextual +decide (maxDischargeDepth := 99) [reply, hs, hasBit, subMask]

@[simp] theorem touch_commandRx (s : State) (orig : Nat) (priv : Bool) (body : Bytes) (hm : subMask 55838646274 m = true) (hs : Touch m s0 s) :
    Touch m s0 (commandRx s orig priv body) := by
  refine Touch.lift hm hs ?_
  clear hs hm
  have hs : Touch 55838646274 s s := .refl _ _
  unfold commandRx
  (try dsimp only)
  repeat' (first | with_reducible assumption | (simp +contextual +decide (maxDischargeDepth := 99) [hs, hasBit, subMask]; done) | (simp +contextual +decide (maxDischargeDepth := 99) [hs, hk, hasBit, subMask]; done) | split | refine touch_foldl _ _ _ ?_ (fun _ _ hk => ?_))

@[simp] theorem touch_passReply (s : State) (orig : Nat) (priv : Bool) (body : Bytes) (hm : subMask 34362884096 m = true) (hs : Touch m s0 s) :
    Touch m s0 (passReply s orig priv body) := by
  refine Touch.lift hm hs ?_
  clear hs hm
  have hs : Touch 34362884096 s s := .refl _ _
  simp +decide (maxDischargeDepth := 99) [passReply, hs, hasBit, subMask]

@[simp] theorem touch_doWork (s : State) (x1 : LceWork) (hm : subMask 55838646272 m = true) (hs : Touch m s0 s) :
    Touch m s0 (doWork s x1) := by
  refine Touch.lift hm hs ?_
  clear hs hm
  have hs : Touch 55838646272 s s := .refl _ _
  unfold doWork
  (try dsimp only)
  repeat' (first | with_reducible assumption | (simp +contextual +decide (maxDischargeDepth := 99) [hs, hasBit, subMask]; done) | (simp +contextual +decide (maxDischargeDepth := 99) [hs, hk, hasBit, subMask]; done) | split | refine touch_foldl _ _ _ ?_ (fun _ _ hk => ?_))

@[simp] theorem touch_waiterTimeouts (s : State) (hm : subMask 4294975488 m = true) (hs : Touch m s0 s) :
    Touch m s0 (waiterTimeouts s) := by
  refine Touch.lift hm hs ?_
  clear hs hm
  have hs : Touch 4294975488 s s := .refl _ _
  simp +contextual +decide (maxDischargeDepth := 99) [waiterTimeouts, hs, hasBit, subMask]

@[simp] theorem touch_ownerReset (s : State) (cls : Nat) (id : Nat) (hm : subMask 8192 m = true) (hs : Touch m s0 s) :
    Touch m s0 (ownerReset s cls id) := by
  refine Touch.lift hm hs ?_
  clear hs hm
  have hs : Touch 8192 s s := .refl _ _
  simp +contextual +decide (maxDischargeDepth := 99) [ownerReset, hs, hasBit, subMask]

@[simp] theorem touch_bumpHost (s : State) (n : Nat) (hm : subMask 8192 m = true) (hs : Touch m s0 s) :
    Touch m s0 (bumpHost s n) := by
  refine Touch.lift hm hs ?_
  clear hs hm
  have hs : Touch 8192 s s := .refl _ _
  simp +contextual +decide (maxDischargeDepth := 99) [bumpHost, hs, hasBit, subMask]

@[simp] theorem touch_renewRules (s : State) (hm : subMask 8192 m = true) (hs : Touch m s0 s) :
    Touch m s0 (renewRules s) := by
  refine Touch.lift hm hs ?_
  clear hs hm
  have hs : Touch 8192 s s := .refl _ _
  simp +contextual +decide (maxDischargeDepth := 99) [renewRules, hs, hasBit, subMask]

@[simp] theorem touch_loseLock (s : State) (l : Nat) (kind : Nat) (hm : subMask 55838646272 m = true) (hs : Touch m s0 s) :
    Touch m s0 (loseLock s l kind) := by
  refine Touch.lift hm hs ?_
  clear hs hm
  have hs : Touch 55838646272 s s := .refl _ _
  simp +contextual +decide (maxDischargeDepth := 99) [loseLock, hs, hasBit, subMask]

@[simp] theorem touch_lockLosses (s : State) (hm : subMask 55838646272 m = true) (hs : Touch m s0 s) :
    Touch m s0 (lockLosses s) := by
  refine Touch.lift hm hs ?_
  clear hs hm
  have hs : Touch 55838646272 s s := .refl _ _
  unfold lockLosses
  (try dsimp only)
  repeat' (first | with_reducible assumption | (simp +contextual +decide (maxDischargeDepth := 99) [hs, hasBit, subMask]; done) | (simp +contextual +decide (maxDischargeDepth := 99) [hs, hk, hasBit, subMask]; done) | split | refine touch_foldl _ _ _ ?_ (fun _ _ hk => ?_))

@[simp] theorem touch_cleanups (s : State) (hm : subMask 51543678976 m = true) (hs : Touch m s0 s) :
    Touch m s0 (cleanups s) := by
  refine Touch.lift hm hs ?_
  clear hs hm
  have hs : Touch 51543678976 s s := .refl _ _
  simp +contextual +decide (maxDischargeDepth := 99) [cleanups, hs, hasBit, subMask]

@[simp] theorem touch_grantWaiters (s : State) (hm : subMask 51543678976 m = true) (hs : Touch m s0 s) :
    Touch m s0 (grantWaiters s) := by
  refine Touch.lift hm hs ?_
  clear hs hm
  have hs : Touch 51543678976 s s := .refl _ _
  unfold grantWaiters
  (try dsimp only)
  repeat' (first | with_reducible assumption | (simp +contextual +decide (maxDischargeDepth := 99) [hs, hasBit, subMask]; done) | (simp +contextual +decide (maxDischargeDepth := 99) [hs, hk, hasBit, subMask]; done) | split | refine touch_foldl _ _ _ ?_ (fun _ _ hk => ?_))

@[simp] theorem touch_evalCond (s : State) (i : Nat) (hm : subMask 55838646272 m = true) (hs : Touch m s0 s) :
    Touch m s0 (evalCond s i) := by
  refine Touch.lift hm hs ?_
  clear hs hm
  have hs : Touch 55838646272 s s := .refl _ _
  simp +decide (maxDischargeDepth := 99) [evalCond, hs, hasBit, subMask]

@[simp] theorem touch_ruleAction (s : State) (i : Nat) (rise : Bool) (hm : subMask 57990328338 m = true) (hs : Touch m s0 s) :
    Touch m s0 (ruleAction s i rise).1 := by
  refine Touch.lift hm hs ?_
  clear hs hm
  have hs : Touch 57990328338 s s := .refl _ _
  unfold ruleAction
  (try dsimp only)
  repeat' (first | with_reducible assumption | (simp +contextual +decide (maxDischargeDepth := 99) [hs, hasBit, subMask]; done) | (simp +contextual +decide (maxDischargeDepth := 99) [hs, hk, hasBit, subMask]; done) | split | refine touch_foldl _ _ _ ?_ (fun _ _ hk => ?_))

@[simp] theorem touch_actRule (s : State) (i : Nat) (up : Bool) (hm : subMask 57990328338 m = true) (hs : Touch m s0 s) :
    Touch m s0 (actRule s i up) := by
  refine Touch.lift hm hs ?_
  clear hs hm
  have hs : Touch 57990328338 s s := .refl _ _
  simp +decide (maxDischargeDepth := 99) [actRule, hs, hasBit, subMask]

@[simp] theorem touch_runRules (s : State) (hm : subMask 57990328338 m = true) (hs : Touch m s0 s) :
    Touch m s0 (runRules s) := by
  refine Touch.lift hm hs ?_
  clear hs hm
  have hs : Touch 57990328338 s s := .refl _ _
  simp +contextual +decide (maxDischargeDepth := 99) [runRules, hs, hasBit, subMask]

@[simp] theorem touch_seqExec (s : State) (k : Nat) (q0 : Seq) (body : Bool) (hm : subMask 57990328338 m = true) (hs : Touch m s0 s) :
    Touch m s0 (seqExec s k q0 body).1 := by
  refine Touch.lift hm hs ?_
  clear hs hm
  have hs : Touch 57990328338 s s := .refl _ _
  unfold seqExec
  (try dsimp only)
  repeat' (first | with_reducible assumption | (simp +contextual +decide (maxDischargeDepth := 99) [hs, hasBit, subMask]; done) | (simp +contextual +decide (maxDischargeDepth := 99) [hs, hk, hasBit, subMask]; done) | split | refine touch_foldl _ _ _ ?_ (fun _ _ hk => ?_))

@[simp] theorem touch_seqOne (s : State) (k : Nat) (hm : subMask 57990328338 m = true) (hs : Touch m s0 s) :
    Touch m s0 (seqOne s k).1 := by
  refine Touch.lift hm hs ?_
  clear hs hm
  have hs : Touch 57990328338 s s := .refl _ _
  unfold seqOne
  (try dsimp only)
  repeat' (first | with_reducible assumption | (simp +contextual +decide (maxDischargeDepth := 99) [hs, hasBit, subMask]; done) | (simp +contextual +decide (maxDischargeDepth := 99) [hs, hk, hasBit, subMask]; done) | split | refine touch_foldl _ _ _ ?_ (fun _ _ hk => ?_))

@[simp] theorem touch_seqSteps (s : State) (k : Nat) (x2 : Nat) (hm : subMask 57990328338 m = true) (hs : Touch m s0 s) :
    Touch m s0 (seqSteps s k x2) := by
  refine Touch.lift hm hs ?_
  clear hs hm
  have hs : Touch 57990328338 s s := .refl _ _
  suffices key : ∀ b0, Touch 57990328338 b0 s → Touch 57990328338 b0 (seqSteps s k x2) from key _ hs
  clear hs
  intro b0 hs
  induction x2 generalizing s with
  | zero => exact hs
  | succ n ih =>
    unfold seqSteps
    have h2 := touch_seqOne s k (m := 57990328338) (by decide) hs
    split <;> rename_i h3 <;> rw [h3] at h2 <;> first | exact ih _ h2 | exact h2

@[simp] theorem touch_seqAdvance (s : State) (k : Nat) (hm : subMask 57990328338 m = true) (hs : Touch m s0 s) :
    Touch m s0 (seqAdvance s k) := by
  refine Touch.lift hm hs ?_
  clear hs hm
  have hs : Touch 57990328338 s s := .refl _ _
  simp +decide (maxDischargeDepth := 99) [seqAdvance, hs, hasBit, subMask]

@[simp] theorem touch_applyAct (s : State) (i : Nat) (v : Nat) (cause : Nat) (written : Bool) (o : Owner) (hm : subMask 51543678976 m = true) (hs : Touch m s0 s) :
    Touch m s0 (applyAct s i v cause written o) := by
  refine Touch.lift hm hs ?_
  clear hs hm
  have hs : Touch 51543678976 s s := .refl _ _
  simp +decide (maxDischargeDepth := 99) [applyAct, hs, hasBit, subMask]

@[simp] theorem touch_settleAct (s : State) (p : List Nat) (forced : List Nat) (fates : List Fate) (i : Nat) (hm : subMask 55838646272 m = true) (hs : Touch m s0 s) :
    Touch m s0 (settleAct s p forced fates i) := by
  refine Touch.lift hm hs ?_
  clear hs hm
  have hs : Touch 55838646272 s s := .refl _ _
  unfold settleAct
  (try dsimp only)
  repeat' (first | with_reducible assumption | (simp +contextual +decide (maxDischargeDepth := 99) [hs, hasBit, subMask]; done) | (simp +contextual +decide (maxDischargeDepth := 99) [hs, hk, hasBit, subMask]; done) | split | refine touch_foldl _ _ _ ?_ (fun _ _ hk => ?_))

@[simp] theorem touch_endPulses (s : State) (hm : subMask 51543678976 m = true) (hs : Touch m s0 s) :
    Touch m s0 (endPulses s) := by
  refine Touch.lift hm hs ?_
  clear hs hm
  have hs : Touch 51543678976 s s := .refl _ _
  unfold endPulses
  (try dsimp only)
  repeat' (first | with_reducible assumption | (simp +contextual +decide (maxDischargeDepth := 99) [hs, hasBit, subMask]; done) | (simp +contextual +decide (maxDischargeDepth := 99) [hs, hk, hasBit, subMask]; done) | split | refine touch_foldl _ _ _ ?_ (fun _ _ hk => ?_))

@[simp] theorem touch_sendReply (s : State) (fates : List Fate) (r : LceReply) (hm : subMask 4298776576 m = true) (hs : Touch m s0 s) :
    Touch m s0 (sendReply s fates r) := by
  refine Touch.lift hm hs ?_
  clear hs hm
  have hs : Touch 4298776576 s s := .refl _ _
  unfold sendReply
  repeat' split
  all_goals simp +contextual +decide (maxDischargeDepth := 99) [hs, hasBit, subMask]

@[simp] theorem touch_flushReplies (s : State) (fates : List Fate) (hm : subMask 4298776576 m = true) (hs : Touch m s0 s) :
    Touch m s0 (flushReplies s fates) := by
  refine Touch.lift hm hs ?_
  clear hs hm
  have hs : Touch 4298776576 s s := .refl _ _
  simp +contextual +decide (maxDischargeDepth := 99) [flushReplies, hs, hasBit, subMask]

@[simp] theorem touch_settleWaiters (s : State) (fates : List Fate) (hm : subMask 8192 m = true) (hs : Touch m s0 s) :
    Touch m s0 (settleWaiters s fates) := by
  refine Touch.lift hm hs ?_
  clear hs hm
  have hs : Touch 8192 s s := .refl _ _
  simp +decide (maxDischargeDepth := 99) [settleWaiters, hs, hasBit, subMask]

@[simp] theorem touch_latchRecords (s : State) (hm : subMask 8192 m = true) (hs : Touch m s0 s) : Touch m s0 (latchRecords s) := by
  refine Touch.lift hm hs ?_
  clear hs hm
  have hs : Touch 8192 s s := .refl _ _
  simp +decide (maxDischargeDepth := 99) [latchRecords, hs, hasBit, subMask]

@[simp] theorem touch_resolve (s : State) (hm : subMask 55838646272 m = true) (hs : Touch m s0 s) :
    Touch m s0 (resolve s) := by
  refine Touch.lift hm hs ?_
  clear hs hm
  have hs : Touch 55838646272 s s := .refl _ _
  simp +contextual +decide (maxDischargeDepth := 99) [resolve, hs, hasBit, subMask]

@[simp] theorem touch_takeInit (s : State) (i : Nat) (hm : subMask 51543678976 m = true) (hs : Touch m s0 s) :
    Touch m s0 (takeInit s i) := by
  refine Touch.lift hm hs ?_
  clear hs hm
  have hs : Touch 51543678976 s s := .refl _ _
  simp +decide (maxDischargeDepth := 99) [takeInit, hs, hasBit, subMask]

@[simp] theorem touch_recordChanged (s : State) (i : Nat) (b : Bytes) (hm : subMask 51543678976 m = true) (hs : Touch m s0 s) :
    Touch m s0 (recordChanged s i b) := by
  refine Touch.lift hm hs ?_
  clear hs hm
  have hs : Touch 51543678976 s s := .refl _ _
  simp +decide (maxDischargeDepth := 99) [recordChanged, hs, hasBit, subMask]

@[simp] theorem touch_installOne (s : State) (t : Nat) (i : Nat) (b : Bytes) (hm : subMask 51543678978 m = true) (hs : Touch m s0 s) :
    Touch m s0 (installOne s t i b) := by
  refine Touch.lift hm hs ?_
  clear hs hm
  have hs : Touch 51543678978 s s := .refl _ _
  unfold installOne
  (try dsimp only)
  repeat' (first | with_reducible assumption | (simp +contextual +decide (maxDischargeDepth := 99) [hs, hasBit, subMask]; done) | (simp +contextual +decide (maxDischargeDepth := 99) [hs, hk, hasBit, subMask]; done) | split | refine touch_foldl _ _ _ ?_ (fun _ _ hk => ?_))

@[simp] theorem touch_installCommit (s : State) (hm : subMask 55838646274 m = true) (hs : Touch m s0 s) :
    Touch m s0 (installCommit s) := by
  refine Touch.lift hm hs ?_
  clear hs hm
  have hs : Touch 55838646274 s s := .refl _ _
  unfold installCommit
  repeat' split
  all_goals simp +contextual +decide (maxDischargeDepth := 99) [hs, hasBit, subMask]

@[simp] theorem touch_tickBegin (s : State) (hm : subMask 55838646370 m = true) (hs : Touch m s0 s) :
    Touch m s0 (tickBegin s) := by
  refine Touch.lift hm hs ?_
  clear hs hm
  have hs : Touch 55838646370 s s := .refl _ _
  simp +contextual +decide (maxDischargeDepth := 99) [tickBegin, hs, hasBit, subMask]

@[simp] theorem touch_tickInputs (s : State) (hm : subMask 55838646272 m = true) (hs : Touch m s0 s) :
    Touch m s0 (tickInputs s) := by
  refine Touch.lift hm hs ?_
  clear hs hm
  have hs : Touch 55838646272 s s := .refl _ _
  simp +contextual +decide (maxDischargeDepth := 99) [tickInputs, hs, hasBit, subMask]

@[simp] theorem touch_hostReplies (s : State) (hm : subMask 4298776576 m = true) (hs : Touch m s0 s) :
    Touch m s0 (hostReplies s) := by
  refine Touch.lift hm hs ?_
  clear hs hm
  have hs : Touch 4298776576 s s := .refl _ _
  unfold hostReplies
  (try dsimp only)
  repeat' (first | with_reducible assumption | (simp +contextual +decide (maxDischargeDepth := 99) [hs, hasBit, subMask]; done) | (simp +contextual +decide (maxDischargeDepth := 99) [hs, hk, hasBit, subMask]; done) | split | refine touch_foldl _ _ _ ?_ (fun _ _ hk => ?_))

@[simp] theorem touch_controlTick (s : State) (hm : subMask 57990328434 m = true) (hs : Touch m s0 s) :
    Touch m s0 (controlTick s) := by
  refine Touch.lift hm hs ?_
  clear hs hm
  have hs : Touch 57990328434 s s := .refl _ _
  simp +contextual +decide (maxDischargeDepth := 99) [controlTick, hs, hasBit, subMask]

@[simp] theorem touch_holdPins (s : State) (hm : subMask 8192 m = true) (hs : Touch m s0 s) : Touch m s0 (holdPins s) := by
  refine Touch.lift hm hs ?_
  clear hs hm
  have hs : Touch 8192 s s := .refl _ _
  simp +decide (maxDischargeDepth := 99) [holdPins, hs, hasBit, subMask]

@[simp] theorem touch_stageEntry (s : State) (b : Bytes) (hm : subMask 549755813888 m = true) (hs : Touch m s0 s) :
    Touch m s0 (stageEntry s b) := by
  refine Touch.lift hm hs ?_
  clear hs hm
  have hs : Touch 549755813888 s s := .refl _ _
  simp +contextual +decide (maxDischargeDepth := 99) [stageEntry, hs, hasBit, subMask]

@[simp] theorem touch_tblLoad (s : State) (t : Nat) (i : Nat) (hm : subMask 549755813888 m = true) (hs : Touch m s0 s) :
    Touch m s0 (tblLoad s t i) := by
  refine Touch.lift hm hs ?_
  clear hs hm
  have hs : Touch 549755813888 s s := .refl _ _
  unfold tblLoad
  repeat' split
  all_goals simp +contextual +decide (maxDischargeDepth := 99) [hs, hasBit, subMask]

@[simp] theorem touch_lceRejected (s : State) (a : Nat) (v : Nat) (hm : subMask 4294967296 m = true) (hs : Touch m s0 s) :
    Touch m s0 (lceRejected s a v) := by
  refine Touch.lift hm hs ?_
  clear hs hm
  have hs : Touch 4294967296 s s := .refl _ _
  simp +decide (maxDischargeDepth := 99) [lceRejected, hs, hasBit, subMask]

@[simp] theorem touch_lceAct (s : State) (a : Nat) (v : Nat) (hm : subMask 554050789376 m = true) (hs : Touch m s0 s) :
    Touch m s0 (lceAct s a v) := by
  refine Touch.lift hm hs ?_
  clear hs hm
  have hs : Touch 554050789376 s s := .refl _ _
  unfold lceAct
  repeat' split
  all_goals simp +contextual +decide (maxDischargeDepth := 99) [hs, hasBit, subMask]

@[simp] theorem touch_allInit (s : State) (hm : subMask 51543678976 m = true) (hs : Touch m s0 s) :
    Touch m s0 (allInit s) := by
  refine Touch.lift hm hs ?_
  clear hs hm
  have hs : Touch 51543678976 s s := .refl _ _
  simp +contextual +decide (maxDischargeDepth := 99) [allInit, hs, hasBit, subMask]

@[simp] theorem touch_bumpGen (s : State) (hm : subMask 4294967296 m = true) (hs : Touch m s0 s) :
    Touch m s0 (bumpGen s) := by
  refine Touch.lift hm hs ?_
  clear hs hm
  have hs : Touch 4294967296 s s := .refl _ _
  simp +decide (maxDischargeDepth := 99) [bumpGen, hs, hasBit, subMask]

@[simp] theorem touch_dropTest (s : State) (hm : subMask 4294967296 m = true) (hs : Touch m s0 s) :
    Touch m s0 (dropTest s) := by
  refine Touch.lift hm hs ?_
  clear hs hm
  have hs : Touch 4294967296 s s := .refl _ _
  simp +decide (maxDischargeDepth := 99) [dropTest, hs, hasBit, subMask]

@[simp] theorem touch_lceHalt (s : State) (hm : subMask 51543678976 m = true) (hs : Touch m s0 s) :
    Touch m s0 (lceHalt s) := by
  refine Touch.lift hm hs ?_
  clear hs hm
  have hs : Touch 51543678976 s s := .refl _ _
  simp +contextual +decide (maxDischargeDepth := 99) [lceHalt, hs, hasBit, subMask]

@[simp] theorem touch_freeAll (s : State) (bump : Bool) (hm : subMask 51543678976 m = true) (hs : Touch m s0 s) :
    Touch m s0 (freeAll s bump) := by
  refine Touch.lift hm hs ?_
  clear hs hm
  have hs : Touch 51543678976 s s := .refl _ _
  simp +contextual +decide (maxDischargeDepth := 99) [freeAll, hs, hasBit, subMask]

@[simp] theorem touch_restartRules (s : State) (hm : subMask 8192 m = true) (hs : Touch m s0 s) :
    Touch m s0 (restartRules s) := by
  refine Touch.lift hm hs ?_
  clear hs hm
  have hs : Touch 8192 s s := .refl _ _
  simp +contextual +decide (maxDischargeDepth := 99) [restartRules, hs, hasBit, subMask]

@[simp] theorem touch_startTicks (s : State) (hm : subMask 8192 m = true) (hs : Touch m s0 s) : Touch m s0 (startTicks s) := by
  refine Touch.lift hm hs ?_
  clear hs hm
  have hs : Touch 8192 s s := .refl _ _
  simp +decide (maxDischargeDepth := 99) [startTicks, hs, hasBit, subMask]

@[simp] theorem touch_lceMode (old : Mode) (new : Mode) (s : State) (hm : subMask 55838646272 m = true) (hs : Touch m s0 s) :
    Touch m s0 (lceMode old new s) := by
  refine Touch.lift hm hs ?_
  clear hs hm
  have hs : Touch 55838646272 s s := .refl _ _
  unfold lceMode
  repeat' split
  all_goals simp +contextual +decide (maxDischargeDepth := 99) [hs, hasBit, subMask]

@[simp] theorem touch_beginTrans (s : State) (target : Mode) (kind : TransKind) (hm : subMask 8 m = true) (hs : Touch m s0 s) :
    Touch m s0 (beginTrans s target kind) := by
  refine Touch.lift hm hs ?_
  clear hs hm
  have hs : Touch 8 s s := .refl _ _
  simp +contextual +decide (maxDischargeDepth := 99) [beginTrans, hs, hasBit, subMask]

@[simp] theorem touch_takeBack (s : State) (n : Nat) (f : LeaveFor) (hm : subMask 272 m = true) (hs : Touch m s0 s) :
    Touch m s0 (takeBack s n f) := by
  refine Touch.lift hm hs ?_
  clear hs hm
  have hs : Touch 272 s s := .refl _ _
  unfold takeBack
  (try dsimp only)
  repeat' (first | with_reducible assumption | (simp +contextual +decide (maxDischargeDepth := 99) [hs, hasBit, subMask]; done) | (simp +contextual +decide (maxDischargeDepth := 99) [hs, hk, hasBit, subMask]; done) | split | refine touch_foldl _ _ _ ?_ (fun _ _ hk => ?_))

@[simp] theorem touch_cutLine (s : State) (n : Nat) (hm : subMask 400 m = true) (hs : Touch m s0 s) :
    Touch m s0 (cutLine s n) := by
  refine Touch.lift hm hs ?_
  clear hs hm
  have hs : Touch 400 s s := .refl _ _
  unfold cutLine
  repeat' split
  all_goals simp +contextual +decide (maxDischargeDepth := 99) [hs, hasBit, subMask]

@[simp] theorem touch_cutRadio (s : State) (hm : subMask 1296 m = true) (hs : Touch m s0 s) :
    Touch m s0 (cutRadio s) := by
  refine Touch.lift hm hs ?_
  clear hs hm
  have hs : Touch 1296 s s := .refl _ _
  unfold cutRadio
  repeat' split
  all_goals simp +contextual +decide (maxDischargeDepth := 99) [hs, hasBit, subMask]

@[simp] theorem touch_busyReply (s : State) (q0 : ModeReq) (hm : subMask 3276800 m = true) (hs : Touch m s0 s) :
    Touch m s0 (busyReply s q0) := by
  refine Touch.lift hm hs ?_
  clear hs hm
  have hs : Touch 3276800 s s := .refl _ _
  unfold busyReply
  (try dsimp only)
  repeat' (first | with_reducible assumption | (simp +contextual +decide (maxDischargeDepth := 99) [hs, hasBit, subMask]; done) | (simp +contextual +decide (maxDischargeDepth := 99) [hs, hk, hasBit, subMask]; done) | split | refine touch_foldl _ _ _ ?_ (fun _ _ hk => ?_))

/-- The blocks of the registers that a displaced selection gives back. -/
theorem undoKey_block {k : Nat} (h : undoKey k = true) (h7 : hasBit m 30 = true) (h8 : hasBit m 31 = true) (h9 : hasBit m 32 = true)
    (h13 : hasBit m 36 = true) (h16 : hasBit m 39 = true) : hasBit m (keyBit k) = true := by
  have hb : k / 2097152 = 7 ∨ k / 2097152 = 8 ∨ k / 2097152 = 9 ∨ k / 2097152 = 13 ∨ 16 ≤ k / 2097152 := by
    unfold undoKey at h
    simp [fieldKey, F.ERF_STAT_OWN_OUT, F.ERF_STAT_GATE, F.ERF_STAT_SYNCED, F.ERF_EPOCH_EPOCH, F.ERF_TAKEOVER_TAKEOVERS,
      F.ERF_TAKEOVER_DEMOTIONS] at h
    omega
  unfold keyBit
  rcases hb with e | e | e | e | e
  · rw [e]; exact h7
  · rw [e]; exact h8
  · rw [e]; exact h9
  · rw [e]; exact h13
  · rw [Nat.min_eq_left e]; exact h16

theorem assocFind_fold_ne (l r : List (Nat × Nat)) (k : Nat) (h : ∀ e ∈ l, e.1 ≠ k) :
    assocFind? (l.foldl (fun m e => assocSet m e.1 e.2) r) k = assocFind? r k := by
  induction l generalizing r with
  | nil => rfl
  | cons a l ih =>
    rw [List.foldl_cons, ih _ fun e he => h e (List.mem_cons_of_mem _ he)]
    exact assocFind_set_ne _ _ _ _ fun e => h a (List.mem_cons_self ..) e.symm

theorem assocFind_filter_in (l : List (Nat × Nat)) (f : Nat → Bool) (k : Nat) (h : f k = true) :
    assocFind? (l.filter (fun e => f e.1)) k = assocFind? l k := by
  induction l with
  | nil => rfl
  | cons a l ih =>
    obtain ⟨j, v⟩ := a
    rw [List.filter_cons]
    dsimp only
    split
    · simp only [assocFind?, ih]
    · rename_i hj
      have : j ≠ k := fun e => hj (e ▸ h)
      simp only [assocFind?, if_neg this, ih]

@[simp] theorem touch_undoSel (s : State) (x : Undo) (hm : subMask 677535185170 m = true) (hs : Touch m s0 s) : Touch m s0 (undoSel s x) := by
  refine Touch.lift hm hs ?_
  clear hs hm
  have hs : Touch 677535185170 s s := .refl _ _
  have hr : EqRegs 677535185170 ((x.regs.filter (fun e => undoKey e.1)).foldl (fun m e => assocSet m e.1 e.2)
      (s.regs.filter (fun e => !undoKey e.1))) s.regs := fun k hk => by
    have hu : undoKey k = false := by
      cases h : undoKey k with
      | false => rfl
      | true =>
        have := undoKey_block (m := 677535185170) h (by decide) (by decide) (by decide) (by decide) (by decide)
        rw [this] at hk; cases hk
    rw [assocFind_fold_ne, assocFind_filter_in _ (fun j => !undoKey j) _ (by simp [hu])]
    intro e he h
    have := (List.mem_filter.mp he).2
    rw [h, hu] at this
    cases this
  unfold undoSel
  refine touch_foldl _ _ _ ?_ fun _ _ hk => by simp +decide (maxDischargeDepth := 99) [hk, hasBit, subMask]
  simp +decide (maxDischargeDepth := 99) [hs, hasBit, hr]

@[simp] theorem touch_displace (s : State) (hm : subMask 677535185178 m = true) (hs : Touch m s0 s) : Touch m s0 (displace s) := by
  refine Touch.lift hm hs ?_
  clear hs hm
  have hs : Touch 677535185178 s s := .refl _ _
  unfold displace
  (try dsimp only)
  repeat' (first | with_reducible assumption | (simp +contextual +decide (maxDischargeDepth := 99) [hs, hasBit, subMask]; done) | (simp +contextual +decide (maxDischargeDepth := 99) [hs, hk, hasBit, subMask]; done) | split | refine touch_foldl _ _ _ ?_ (fun _ _ hk => ?_))

@[simp] theorem touch_overtake (s : State) (rank : Nat) (hm : subMask 3276808 m = true) (hs : Touch m s0 s) :
    Touch m s0 (overtake s rank) := by
  refine Touch.lift hm hs ?_
  clear hs hm
  have hs : Touch 3276808 s s := .refl _ _
  unfold overtake
  (try dsimp only)
  repeat' (first | with_reducible assumption | (simp +contextual +decide (maxDischargeDepth := 99) [hs, hasBit, subMask]; done) | (simp +contextual +decide (maxDischargeDepth := 99) [hs, hk, hasBit, subMask]; done) | split | refine touch_foldl _ _ _ ?_ (fun _ _ hk => ?_))

@[simp] theorem touch_noteUndo (s : State) (x : Undo) (hm : subMask 8 m = true) (hs : Touch m s0 s) : Touch m s0 (noteUndo s x) := by
  refine Touch.lift hm hs ?_
  clear hs hm
  have hs : Touch 8 s s := .refl _ _
  simp +decide (maxDischargeDepth := 99) [noteUndo, hs, hasBit, subMask]

@[simp] theorem touch_stopSending (s : State) (hm : subMask 1424 m = true) (hs : Touch m s0 s) :
    Touch m s0 (stopSending s) := by
  refine Touch.lift hm hs ?_
  clear hs hm
  have hs : Touch 1424 s s := .refl _ _
  simp +contextual +decide (maxDischargeDepth := 99) [stopSending, hs, hasBit, subMask]

@[simp] theorem touch_galleryDrop (s : State) (hm : subMask 53691027474 m = true) (hs : Touch m s0 s) :
    Touch m s0 (galleryDrop s) := by
  refine Touch.lift hm hs ?_
  clear hs hm
  have hs : Touch 53691027474 s s := .refl _ _
  simp +decide (maxDischargeDepth := 99) [galleryDrop, hs, hasBit, subMask]

@[simp] theorem touch_beginSafehold (s : State) (rank : Nat) (hm : subMask 8 m = true) (hs : Touch m s0 s) :
    Touch m s0 (beginSafehold s rank) := by
  refine Touch.lift hm hs ?_
  clear hs hm
  have hs : Touch 8 s s := .refl _ _
  simp +decide (maxDischargeDepth := 99) [beginSafehold, hs, hasBit, subMask]

@[simp] theorem touch_enterSafehold (s : State) (rank : Nat) (hm : subMask 59059877914 m = true) (hs : Touch m s0 s) :
    Touch m s0 (enterSafehold s rank) := by
  refine Touch.lift hm hs ?_
  clear hs hm
  have hs : Touch 59059877914 s s := .refl _ _
  simp +decide (maxDischargeDepth := 99) [enterSafehold, hs, hasBit, subMask]

@[simp] theorem touch_afterDemotion (s : State) (t : Trans) (hm : subMask 16384 m = true) (hs : Touch m s0 s) :
    Touch m s0 (afterDemotion s t) := by
  refine Touch.lift hm hs ?_
  clear hs hm
  have hs : Touch 16384 s s := .refl _ _
  simp +decide (maxDischargeDepth := 99) [afterDemotion, hs, hasBit, subMask]

@[simp] theorem touch_safeCause (s : State) (cause : Field) (hm : subMask 677543573786 m = true) (hf : okField 8388608 cause = true) (hs : Touch m s0 s) :
    Touch m s0 (safeCause s cause) := by
  refine Touch.lift hm hs ?_
  clear hs hm
  have hs : Touch 677543573786 s s := .refl _ _
  have hf2 : okField 677543573786 cause = true := okField_mono (by decide) hf
  unfold safeCause
  dsimp only
  split
  · simp +contextual +decide (maxDischargeDepth := 99) [hs, hf2, hasBit, subMask]
  · split
    all_goals (repeat' split)
    all_goals simp +contextual +decide (maxDischargeDepth := 99) [hs, hf2, hasBit, subMask]

@[simp] theorem touch_portReset (s : State) (n : Nat) (hm : subMask 34362892288 m = true) (hs : Touch m s0 s) :
    Touch m s0 (portReset s n) := by
  refine Touch.lift hm hs ?_
  clear hs hm
  have hs : Touch 34362892288 s s := .refl _ _
  simp +contextual +decide (maxDischargeDepth := 99) [portReset, hs, hasBit, subMask]

@[simp] theorem touch_portsReset (s : State) (hm : subMask 34362892288 m = true) (hs : Touch m s0 s) :
    Touch m s0 (portsReset s) := by
  refine Touch.lift hm hs ?_
  clear hs hm
  have hs : Touch 34362892288 s s := .refl _ _
  simp +contextual +decide (maxDischargeDepth := 99) [portsReset, hs, hasBit, subMask]

@[simp] theorem touch_coreReset (s : State) (hm : subMask 1099506950160 m = true) (hs : Touch m s0 s) :
    Touch m s0 (coreReset s) := by
  refine Touch.lift hm hs ?_
  clear hs hm
  have hs : Touch 1099506950160 s s := .refl _ _
  simp +contextual +decide (maxDischargeDepth := 99) [coreReset, hs, hasBit, subMask]

@[simp] theorem touch_assertReset (s : State) (power : Bool) (aonLost : Bool) (cause : Nat) (hm : subMask 4398042251258 m = true) (hs : Touch m s0 s) :
    Touch m s0 (assertReset s power aonLost cause) := by
  refine Touch.lift hm hs ?_
  clear hs hm
  have hs : Touch 4398042251258 s s := .refl _ _
  simp +contextual +decide (maxDischargeDepth := 99) [assertReset, hs, hasBit, subMask]

@[simp] theorem touch_powerOnReset (s : State) (aonLost : Bool) (cause : Nat) (hm : subMask 4398042251258 m = true) (hs : Touch m s0 s) :
    Touch m s0 (powerOnReset s aonLost cause) := by
  refine Touch.lift hm hs ?_
  clear hs hm
  have hs : Touch 4398042251258 s s := .refl _ _
  simp +decide (maxDischargeDepth := 99) [powerOnReset, hs, hasBit, subMask]

@[simp] theorem touch_systemReset (s : State) (cause : Nat) (hm : subMask 4398042251258 m = true) (hs : Touch m s0 s) :
    Touch m s0 (systemReset s cause) := by
  refine Touch.lift hm hs ?_
  clear hs hm
  have hs : Touch 4398042251258 s s := .refl _ _
  simp +decide (maxDischargeDepth := 99) [systemReset, hs, hasBit, subMask]

@[simp] theorem touch_releaseOwn (s : State) (hm : subMask 104156125200 m = true) (hs : Touch m s0 s) :
    Touch m s0 (releaseOwn s) := by
  refine Touch.lift hm hs ?_
  clear hs hm
  have hs : Touch 104156125200 s s := .refl _ _
  simp +contextual +decide (maxDischargeDepth := 99) [releaseOwn, hs, hasBit, subMask]

@[simp] theorem touch_ownClaim (s : State) (hm : subMask 68719493120 m = true) (hs : Touch m s0 s) :
    Touch m s0 (ownClaim s) := by
  refine Touch.lift hm hs ?_
  clear hs hm
  have hs : Touch 68719493120 s s := .refl _ _
  simp +contextual +decide (maxDischargeDepth := 99) [ownClaim, hs, hasBit, subMask]

@[simp] theorem touch_openGate (s : State) (hm : subMask 104156125200 m = true) (hs : Touch m s0 s) :
    Touch m s0 (openGate s) := by
  refine Touch.lift hm hs ?_
  clear hs hm
  have hs : Touch 104156125200 s s := .refl _ _
  simp +contextual +decide (maxDischargeDepth := 99) [openGate, hs, hasBit, subMask]

@[simp] theorem touch_ownSeen (s : State) (dt : Nat) (hm : subMask 677543573786 m = true) (hs : Touch m s0 s) :
    Touch m s0 (ownSeen s dt) := by
  refine Touch.lift hm hs ?_
  clear hs hm
  have hs : Touch 677543573786 s s := .refl _ _
  simp +decide (maxDischargeDepth := 99) [ownSeen, hs, hasBit, subMask]

@[simp] theorem touch_ownInChange (s : State) (level : Bool) (dt : Nat) (hm : subMask 677543573786 m = true) (hs : Touch m s0 s) :
    Touch m s0 (ownInChange s level dt) := by
  refine Touch.lift hm hs ?_
  clear hs hm
  have hs : Touch 677543573786 s s := .refl _ _
  simp +decide (maxDischargeDepth := 99) [ownInChange, hs, hasBit, subMask]

@[simp] theorem touch_dropLink (s : State) (n : Nat) (ctx : Nat) (hm : subMask 131328 m = true) (hs : Touch m s0 s) :
    Touch m s0 (dropLink s n ctx) := by
  refine Touch.lift hm hs ?_
  clear hs hm
  have hs : Touch 131328 s s := .refl _ _
  exact touch_modLink _ _ _ (by decide) (touch_foldl _ _ _ hs (fun _ _ hk => touch_setQueue _ _ _ (by decide) hk))

@[simp] theorem touch_dropKeyed (s : State) (i : Nat) (hm : subMask 131328 m = true) (hs : Touch m s0 s) : Touch m s0 (dropKeyed s i) := by
  refine Touch.lift hm hs ?_
  clear hs hm
  have hs : Touch 131328 s s := .refl _ _
  simp +contextual +decide (maxDischargeDepth := 99) [dropKeyed, hs, hasBit, subMask]

@[simp] theorem touch_checkCounter (s : State) (i : Nat) (hm : subMask 34363015424 m = true) (hs : Touch m s0 s) :
    Touch m s0 (checkCounter s i) := by
  refine Touch.lift hm hs ?_
  clear hs hm
  have hs : Touch 34363015424 s s := .refl _ _
  simp +contextual +decide (maxDischargeDepth := 99) [checkCounter, hs, hasBit, subMask]

@[simp] theorem touch_checkGroup (s : State) (hm : subMask 34362884352 m = true) (hs : Touch m s0 s) :
    Touch m s0 (checkGroup s) := by
  refine Touch.lift hm hs ?_
  clear hs hm
  have hs : Touch 34362884352 s s := .refl _ _
  simp +contextual +decide (maxDischargeDepth := 99) [checkGroup, hs, hasBit, subMask]

@[simp] theorem touch_promoteCtx (s : State) (i : Nat) (hm : subMask 51543671042 m = true) (hs : Touch m s0 s) :
    Touch m s0 (promoteCtx s i) := by
  refine Touch.lift hm hs ?_
  clear hs hm
  have hs : Touch 51543671042 s s := .refl _ _
  simp +decide (maxDischargeDepth := 99) [promoteCtx, hs, hasBit, subMask]

@[simp] theorem touch_recordEpoch (s : State) (hm : subMask 16400 m = true) (hs : Touch m s0 s) :
    Touch m s0 (recordEpoch s) := by
  refine Touch.lift hm hs ?_
  clear hs hm
  have hs : Touch 16400 s s := .refl _ _
  simp +contextual +decide (maxDischargeDepth := 99) [recordEpoch, hs, hasBit, subMask]

@[simp] theorem touch_promote (s : State) (hm : subMask 677535185178 m = true) (hs : Touch m s0 s) :
    Touch m s0 (promote s) := by
  refine Touch.lift hm hs ?_
  clear hs hm
  have hs : Touch 677535185178 s s := .refl _ _
  simp +contextual +decide (maxDischargeDepth := 99) [promote, hs, hasBit, subMask]

@[simp] theorem touch_demote (s : State) (epoch : Nat) (hm : subMask 677535186330 m = true) (hs : Touch m s0 s) :
    Touch m s0 (demote s epoch) := by
  refine Touch.lift hm hs ?_
  clear hs hm
  have hs : Touch 677535186330 s s := .refl _ _
  simp +decide (maxDischargeDepth := 99) [demote, hs, hasBit, subMask]

@[simp] theorem touch_seeHigher (s : State) (epoch : Nat) (hm : subMask 677535186330 m = true) (hs : Touch m s0 s) :
    Touch m s0 (seeHigher s epoch) := by
  refine Touch.lift hm hs ?_
  clear hs hm
  have hs : Touch 677535186330 s s := .refl _ _
  simp +contextual +decide (maxDischargeDepth := 99) [seeHigher, hs, hasBit, subMask]

@[simp] theorem touch_commitMir (s : State) (r : MirRec) (hm : subMask 655360 m = true) (hs : Touch m s0 s) : Touch m s0 (commitMir s r) := by
  refine Touch.lift hm hs ?_
  clear hs hm
  have hs : Touch 655360 s s := .refl _ _
  simp +decide (maxDischargeDepth := 99) [commitMir, hs, hasBit, subMask]

@[simp] theorem touch_commitBlock (s : State) (w : Nat × Nat) (hm : subMask 2250566926336 m = true) (hs : Touch m s0 s) :
    Touch m s0 (commitBlock s w) := by
  refine Touch.lift hm hs ?_
  clear hs hm
  have hs : Touch 2250566926336 s s := .refl _ _
  unfold commitBlock
  (try dsimp only)
  repeat' (first | with_reducible assumption | (simp +contextual +decide (maxDischargeDepth := 99) [hs, hasBit, subMask]; done) | (simp +contextual +decide (maxDischargeDepth := 99) [hs, hk, hasBit, subMask]; done) | split | refine touch_foldl _ _ _ ?_ (fun _ _ hk => ?_))

@[simp] theorem touch_collectFrom (s : State) (a : Shadow) (hm : subMask 2250566926336 m = true) (hs : Touch m s0 s) :
    Touch m s0 (collectFrom s a) := by
  refine Touch.lift hm hs ?_
  clear hs hm
  have hs : Touch 2250566926336 s s := .refl _ _
  simp +contextual +decide (maxDischargeDepth := 99) [collectFrom, hs, hasBit, subMask]

@[simp] theorem touch_collect (s : State) (hm : subMask 2250566926336 m = true) (hs : Touch m s0 s) :
    Touch m s0 (collect s) := by
  refine Touch.lift hm hs ?_
  clear hs hm
  have hs : Touch 2250566926336 s s := .refl _ _
  unfold collect
  repeat' split
  all_goals simp +contextual +decide (maxDischargeDepth := 99) [hs, hasBit, subMask]

@[simp] theorem touch_mirSlot (s : State) (hm : subMask 2199023255552 m = true) (hs : Touch m s0 s) : Touch m s0 (mirSlot s) := by
  refine Touch.lift hm hs ?_
  clear hs hm
  have hs : Touch 2199023255552 s s := .refl _ _
  simp +decide (maxDischargeDepth := 99) [mirSlot, hs, hasBit, subMask]

end Sys2Proof.Machine
end

