-- ==== Sys2Proof/Laws/TouchMesh.lean ====
section
/-! SUPPORT. `Touch` through frames, routing, joining, medium access: one lemma per operation. -/

set_option linter.all false

namespace Sys2Proof.Machine

variable {m : Nat} {s0 : State}

@[simp] theorem touch_putSlot (s : State) (bank : Nat) (port : Nat) (e : Nat) (w : Nat) (hm : subMask 256 m = true) (hs : Touch m s0 s) :
    Touch m s0 (putSlot s bank port e w) := by
  refine Touch.lift hm hs ?_
  clear hs hm
  have hs : Touch 256 s s := .refl _ _
  simp +contextual +decide (maxDischargeDepth := 99) [putSlot, hs, hasBit, subMask]

@[simp] theorem touch_sendTo (s : State) (ctx : Nat) (cls : Nat) (sec : Bool) (priv : Bool) (content : Bytes) (hm : subMask 655360 m = true) (hs : Touch m s0 s) :
    Touch m s0 (sendTo s ctx cls sec priv content) := by
  refine Touch.lift hm hs ?_
  clear hs hm
  have hs : Touch 655360 s s := .refl _ _
  simp +decide (maxDischargeDepth := 99) [sendTo, hs, hasBit, subMask]

@[simp] theorem touch_reachLink (s : State) (n : Nat) (ctx : Nat) (x3 : Nat) (hm : subMask 51543670784 m = true) (hs : Touch m s0 s) :
    Touch m s0 (reachLink s n ctx x3) := by
  refine Touch.lift hm hs ?_
  clear hs hm
  have hs : Touch 51543670784 s s := .refl _ _
  suffices key : ∀ b0, Touch 51543670784 b0 s → Touch 51543670784 b0 (reachLink s n ctx x3) from key _ hs
  clear hs
  intro b0 hs
  induction x3 generalizing s n ctx with
  | zero => exact hs
  | succ n ih =>
    unfold reachLink
    (try dsimp only)
    repeat' (first | with_reducible assumption | (simp +contextual +decide (maxDischargeDepth := 99) [hs, ih, hasBit, subMask]; done) | split | (refine ih _ ?_) | (refine ih _ _ ?_) | (refine ih _ _ _ ?_) | refine touch_foldl _ _ _ ?_ (fun _ _ hk => ?_))

@[simp] theorem touch_readNext (s : State) (n : Nat) (ctx : Nat) (hm : subMask 51543670784 m = true) (hs : Touch m s0 s) :
    Touch m s0 (readNext s n ctx) := by
  refine Touch.lift hm hs ?_
  clear hs hm
  have hs : Touch 51543670784 s s := .refl _ _
  simp +decide (maxDischargeDepth := 99) [readNext, hs, hasBit, subMask]

@[simp] theorem touch_randBytes (s : State) (n : Nat) (hm : subMask 4194304 m = true) (hs : Touch m s0 s) :
    Touch m s0 (randBytes s n).2 := by
  refine Touch.lift hm hs ?_
  clear hs hm
  have hs : Touch 4194304 s s := .refl _ _
  simp +decide (maxDischargeDepth := 99) [randBytes, hs, hasBit, subMask]

@[simp] theorem touch_joinSend (s : State) (ctx : Nat) (type : Nat) (sec : Bool) (fields : Bytes) (hm : subMask 655360 m = true) (hs : Touch m s0 s) :
    Touch m s0 (joinSend s ctx type sec fields) := by
  refine Touch.lift hm hs ?_
  clear hs hm
  have hs : Touch 655360 s s := .refl _ _
  simp +contextual +decide (maxDischargeDepth := 99) [joinSend, hs, hasBit, subMask]

@[simp] theorem touch_rekeyStart (s : State) (ctx : Nat) (hm : subMask 4882432 m = true) (hs : Touch m s0 s) :
    Touch m s0 (rekeyStart s ctx) := by
  refine Touch.lift hm hs ?_
  clear hs hm
  have hs : Touch 4882432 s s := .refl _ _
  simp +contextual +decide (maxDischargeDepth := 99) [rekeyStart, hs, hasBit, subMask]

@[simp] theorem touch_rekeyAuto (s : State) (ctx : Nat) (hm : subMask 4882432 m = true) (hs : Touch m s0 s) :
    Touch m s0 (rekeyAuto s ctx) := by
  refine Touch.lift hm hs ?_
  clear hs hm
  have hs : Touch 4882432 s s := .refl _ _
  simp +decide (maxDischargeDepth := 99) [rekeyAuto, hs, hasBit, subMask]

@[simp] theorem touch_driverPower (s : State) (n : Nat) (hm : subMask 1099478073344 m = true) (hs : Touch m s0 s) :
    Touch m s0 (driverPower s n) := by
  refine Touch.lift hm hs ?_
  clear hs hm
  have hs : Touch 1099478073344 s s := .refl _ _
  simp +decide (maxDischargeDepth := 99) [driverPower, hs, hasBit, subMask]

@[simp] theorem touch_postLeave (s : State) (n : Nat) (f : LeaveFor) (cfg : Nat) (hm : subMask 16 m = true) (hs : Touch m s0 s) :
    Touch m s0 (postLeave s n f cfg) := by
  refine Touch.lift hm hs ?_
  clear hs hm
  have hs : Touch 16 s s := .refl _ _
  simp +decide (maxDischargeDepth := 99) [postLeave, hs, hasBit, subMask]

@[simp] theorem touch_allocLeave (s : State) (n : Nat) (a : Alloc) (hm : subMask 272 m = true) (hs : Touch m s0 s) :
    Touch m s0 (allocLeave s n a) := by
  refine Touch.lift hm hs ?_
  clear hs hm
  have hs : Touch 272 s s := .refl _ _
  simp +decide (maxDischargeDepth := 99) [allocLeave, hs, hasBit, subMask]

@[simp] theorem touch_accessLeave (s : State) (n : Nat) (x : AccessTx) (hm : subMask 16 m = true) (hs : Touch m s0 s) :
    Touch m s0 (accessLeave s n x) := by
  refine Touch.lift hm hs ?_
  clear hs hm
  have hs : Touch 16 s s := .refl _ _
  unfold accessLeave
  repeat' split
  all_goals simp +contextual +decide (maxDischargeDepth := 99) [hs, hasBit, subMask]

@[simp] theorem touch_beaconLeave (s : State) (n : Nat) (hm : subMask 16 m = true) (hs : Touch m s0 s) :
    Touch m s0 (beaconLeave s n) := by
  refine Touch.lift hm hs ?_
  clear hs hm
  have hs : Touch 16 s s := .refl _ _
  simp +decide (maxDischargeDepth := 99) [beaconLeave, hs, hasBit, subMask]

@[simp] theorem touch_leavePoints (s : State) (n : Nat) (hm : subMask 272 m = true) (hs : Touch m s0 s) :
    Touch m s0 (leavePoints s n) := by
  refine Touch.lift hm hs ?_
  clear hs hm
  have hs : Touch 272 s s := .refl _ _
  simp +contextual +decide (maxDischargeDepth := 99) [leavePoints, hs, hasBit, subMask]

@[simp] theorem touch_unusedAlloc (s : State) (n : Nat) (hm : subMask 128 m = true) (hs : Touch m s0 s) :
    Touch m s0 (unusedAlloc s n) := by
  refine Touch.lift hm hs ?_
  clear hs hm
  have hs : Touch 128 s s := .refl _ _
  unfold unusedAlloc
  repeat' split
  all_goals simp +contextual +decide (maxDischargeDepth := 99) [hs, hasBit, subMask]

@[simp] theorem touch_sweepDrive (s : State) (n : Nat) (hm : subMask 1099482267776 m = true) (hs : Touch m s0 s) :
    Touch m s0 (sweepDrive s n) := by
  refine Touch.lift hm hs ?_
  clear hs hm
  have hs : Touch 1099482267776 s s := .refl _ _
  simp +decide (maxDischargeDepth := 99) [sweepDrive, hs, hasBit, subMask]

@[simp] theorem touch_txGate (s : State) (n : Nat) (hm : subMask 1099478073344 m = true) (hs : Touch m s0 s) :
    Touch m s0 (txGate s n) := by
  refine Touch.lift hm hs ?_
  clear hs hm
  have hs : Touch 1099478073344 s s := .refl _ _
  simp +decide (maxDischargeDepth := 99) [txGate, hs, hasBit, subMask]

@[simp] theorem touch_noteGates (s : State) (hm : subMask 4096 m = true) (hs : Touch m s0 s) : Touch m s0 (noteGates s) := by
  refine Touch.lift hm hs ?_
  clear hs hm
  have hs : Touch 4096 s s := .refl _ _
  simp +decide (maxDischargeDepth := 99) [noteGates, hs, hasBit, subMask]

@[simp] theorem touch_linePhaseSlot (s : State) (hm : subMask 1099485417872 m = true) (hs : Touch m s0 s) :
    Touch m s0 (linePhaseSlot s) := by
  refine Touch.lift hm hs ?_
  clear hs hm
  have hs : Touch 1099485417872 s s := .refl _ _
  simp +contextual +decide (maxDischargeDepth := 99) [linePhaseSlot, hs, hasBit, subMask]

@[simp] theorem touch_takeGroupFc (s : State) (hm : subMask 34362884352 m = true) (hs : Touch m s0 s) :
    Touch m s0 (takeGroupFc s) := by
  refine Touch.lift hm hs ?_
  clear hs hm
  have hs : Touch 34362884352 s s := .refl _ _
  simp +contextual +decide (maxDischargeDepth := 99) [takeGroupFc, hs, hasBit, subMask]

@[simp] theorem touch_accessAdd (s : State) (port : Nat) (ctx : Nat) (dst : Nat) (bcast : Bool) (cls : Nat) (sec : Bool) (body : Bytes) (hm : subMask 256 m = true) (hs : Touch m s0 s) :
    Touch m s0 (accessAdd s port ctx dst bcast cls sec body) := by
  refine Touch.lift hm hs ?_
  clear hs hm
  have hs : Touch 256 s s := .refl _ _
  simp +contextual +decide (maxDischargeDepth := 99) [accessAdd, hs, hasBit, subMask]

@[simp] theorem touch_raPick (s : State) (k : Nat) (hm : subMask 4194560 m = true) (hs : Touch m s0 s) :
    Touch m s0 (raPick s k) := by
  refine Touch.lift hm hs ?_
  clear hs hm
  have hs : Touch 4194560 s s := .refl _ _
  unfold raPick
  (try dsimp only)
  repeat' (first | with_reducible assumption | (simp +contextual +decide (maxDischargeDepth := 99) [hs, hasBit, subMask]; done) | (simp +contextual +decide (maxDischargeDepth := 99) [hs, hk, hasBit, subMask]; done) | split | refine touch_foldl _ _ _ ?_ (fun _ _ hk => ?_))

@[simp] theorem touch_raPickAll (s : State) (hm : subMask 4194560 m = true) (hs : Touch m s0 s) :
    Touch m s0 (raPickAll s) := by
  refine Touch.lift hm hs ?_
  clear hs hm
  have hs : Touch 4194560 s s := .refl _ _
  simp +contextual +decide (maxDischargeDepth := 99) [raPickAll, hs, hasBit, subMask]

@[simp] theorem touch_raBoundary (s : State) (hm : subMask 4194560 m = true) (hs : Touch m s0 s) :
    Touch m s0 (raBoundary s) := by
  refine Touch.lift hm hs ?_
  clear hs hm
  have hs : Touch 4194560 s s := .refl _ _
  simp +contextual +decide (maxDischargeDepth := 99) [raBoundary, hs, hasBit, subMask]

@[simp] theorem touch_setDrops (s : State) (ctx : Nat) (k : Nat) (hm : subMask 51543539714 m = true) (hs : Touch m s0 s) :
    Touch m s0 (setDrops s ctx k) := by
  refine Touch.lift hm hs ?_
  clear hs hm
  have hs : Touch 51543539714 s s := .refl _ _
  simp +decide (maxDischargeDepth := 99) [setDrops, hs, hasBit, subMask]

@[simp] theorem touch_moveQ (s : State) (ctx : Nat) (acked : Bool) (hm : subMask 51543539714 m = true) (hs : Touch m s0 s) :
    Touch m s0 (moveQ s ctx acked) := by
  refine Touch.lift hm hs ?_
  clear hs hm
  have hs : Touch 51543539714 s s := .refl _ _
  simp +decide (maxDischargeDepth := 99) [moveQ, hs, hasBit, subMask]

@[simp] theorem touch_linkCostOf (s : State) (c0 : Nat) (hm : subMask 51543539714 m = true) (hs : Touch m s0 s) :
    Touch m s0 (linkCostOf s c0) := by
  refine Touch.lift hm hs ?_
  clear hs hm
  have hs : Touch 51543539714 s s := .refl _ _
  simp +decide (maxDischargeDepth := 99) [linkCostOf, hs, hasBit, subMask]

@[simp] theorem touch_linkCosts (s : State) (hm : subMask 51543539714 m = true) (hs : Touch m s0 s) :
    Touch m s0 (linkCosts s) := by
  refine Touch.lift hm hs ?_
  clear hs hm
  have hs : Touch 51543539714 s s := .refl _ _
  simp +contextual +decide (maxDischargeDepth := 99) [linkCosts, hs, hasBit, subMask]

@[simp] theorem touch_noteChange (s : State) (dest : Nat) (dseq : Nat) (cost : Nat) (hops : Nat) (withdraw : Bool) (moved : Bool) (hm : subMask 512 m = true) (hs : Touch m s0 s) :
    Touch m s0 (noteChange s dest dseq cost hops withdraw moved) := by
  refine Touch.lift hm hs ?_
  clear hs hm
  have hs : Touch 512 s s := .refl _ _
  simp +contextual +decide (maxDischargeDepth := 99) [noteChange, hs, hasBit, subMask]

@[simp] theorem touch_ftDrop (s : State) (dest : Nat) (hm : subMask 51543540226 m = true) (hs : Touch m s0 s) :
    Touch m s0 (ftDrop s dest) := by
  refine Touch.lift hm hs ?_
  clear hs hm
  have hs : Touch 51543540226 s s := .refl _ _
  simp +decide (maxDischargeDepth := 99) [ftDrop, hs, hasBit, subMask]

@[simp] theorem touch_takeRoute (s : State) (kind : Nat) (dest : Nat) (ctx : Nat) (dseq : Nat) (cost : Nat) (hops : Nat) (moved : Bool) (hm : subMask 51543540226 m = true) (hs : Touch m s0 s) :
    Touch m s0 (takeRoute s kind dest ctx dseq cost hops moved) := by
  refine Touch.lift hm hs ?_
  clear hs hm
  have hs : Touch 51543540226 s s := .refl _ _
  unfold takeRoute
  (try dsimp only)
  repeat' (first | with_reducible assumption | (simp +contextual +decide (maxDischargeDepth := 99) [hs, hasBit, subMask]; done) | (simp +contextual +decide (maxDischargeDepth := 99) [hs, hk, hasBit, subMask]; done) | split | refine touch_foldl _ _ _ ?_ (fun _ _ hk => ?_))

@[simp] theorem touch_offer (s : State) (kind : Nat) (dest : Nat) (ctx : Nat) (dseq : Nat) (cost : Nat) (hops : Nat) (moved : Bool)
    (hm : subMask 51543540226 m = true) (hs : Touch m s0 s) : Touch m s0 (offer s kind dest ctx dseq cost hops moved) := by
  refine Touch.lift hm hs ?_
  clear hs hm
  have hs : Touch 51543540226 s s := .refl _ _
  unfold offer
  have hr : Touch 51543540226 s (readMem s (ftAddr dest) 8) := touch_readMem s (ftAddr dest) 8 (by decide) hs
  revert hr
  generalize readMem s (ftAddr dest) 8 = t
  intro hr
  have hp : ∀ v, Touch 51543540226 s (memPut t (ftAddr dest) 8 v) := fun v => touch_memPut _ _ _ _ (by decide) hr
  have ht : ∀ x, Touch 51543540226 s (takeRoute t kind dest ctx dseq x hops moved) := fun x => touch_takeRoute _ _ _ _ _ _ _ _ (by decide) hr
  dsimp only
  repeat' split
  all_goals first | exact hs | exact hr | exact hp _ | exact ht _

@[simp] theorem touch_ageRoute (s : State) (dest : Nat) (hm : subMask 51543540226 m = true) (hs : Touch m s0 s) :
    Touch m s0 (ageRoute s dest) := by
  refine Touch.lift hm hs ?_
  clear hs hm
  have hs : Touch 51543540226 s s := .refl _ _
  unfold ageRoute
  (try dsimp only)
  repeat' (first | with_reducible assumption | (simp +contextual +decide (maxDischargeDepth := 99) [hs, hasBit, subMask]; done) | (simp +contextual +decide (maxDischargeDepth := 99) [hs, hk, hasBit, subMask]; done) | split | refine touch_foldl _ _ _ ?_ (fun _ _ hk => ?_))

@[simp] theorem touch_floodKeep (s : State) (c : Bytes) (hm : subMask 512 m = true) (hs : Touch m s0 s) :
    Touch m s0 (floodKeep s c) := by
  refine Touch.lift hm hs ?_
  clear hs hm
  have hs : Touch 512 s s := .refl _ _
  simp +contextual +decide (maxDischargeDepth := 99) [floodKeep, hs, hasBit, subMask]

@[simp] theorem touch_floodAll (s : State) (c : Bytes) (hm : subMask 256 m = true) (hs : Touch m s0 s) :
    Touch m s0 (floodAll s c) := by
  refine Touch.lift hm hs ?_
  clear hs hm
  have hs : Touch 256 s s := .refl _ _
  simp +contextual +decide (maxDischargeDepth := 99) [floodAll, hs, hasBit, subMask]

@[simp] theorem touch_floodChildren (s : State) (cls : Nat) (priv : Bool) (c : Bytes) (hm : subMask 655360 m = true) (hs : Touch m s0 s) :
    Touch m s0 (floodChildren s cls priv c) := by
  refine Touch.lift hm hs ?_
  clear hs hm
  have hs : Touch 655360 s s := .refl _ _
  simp +contextual +decide (maxDischargeDepth := 99) [floodChildren, hs, hasBit, subMask]

@[simp] theorem touch_nextMseq (s : State) (hm : subMask 512 m = true) (hs : Touch m s0 s) :
    Touch m s0 (nextMseq s).2 := by
  refine Touch.lift hm hs ?_
  clear hs hm
  have hs : Touch 512 s s := .refl _ _
  simp +contextual +decide (maxDischargeDepth := 99) [nextMseq, hs, hasBit, subMask]

@[simp] theorem touch_rreqStart (s : State) (target : Nat) (host : Bool) (hm : subMask 268436224 m = true) (hs : Touch m s0 s) :
    Touch m s0 (rreqStart s target host) := by
  refine Touch.lift hm hs ?_
  clear hs hm
  have hs : Touch 268436224 s s := .refl _ _
  simp +contextual +decide (maxDischargeDepth := 99) [rreqStart, hs, hasBit, subMask]

@[simp] theorem touch_autoRreq (s : State) (target : Nat) (hm : subMask 268436224 m = true) (hs : Touch m s0 s) :
    Touch m s0 (autoRreq s target) := by
  refine Touch.lift hm hs ?_
  clear hs hm
  have hs : Touch 268436224 s s := .refl _ _
  simp +decide (maxDischargeDepth := 99) [autoRreq, hs, hasBit, subMask]

@[simp] theorem touch_commitTo (s : State) (w : Nat) (cls : Nat) (priv : Bool) (c : Bytes) (hm : subMask 655360 m = true) (hs : Touch m s0 s) :
    Touch m s0 (commitTo s w cls priv c) := by
  refine Touch.lift hm hs ?_
  clear hs hm
  have hs : Touch 655360 s s := .refl _ _
  simp +decide (maxDischargeDepth := 99) [commitTo, hs, hasBit, subMask]

@[simp] theorem touch_lookupReads (s : State) (final : Nat) (hm : subMask 51543539712 m = true) (hs : Touch m s0 s) :
    Touch m s0 (lookupReads s final) := by
  refine Touch.lift hm hs ?_
  clear hs hm
  have hs : Touch 51543539712 s s := .refl _ _
  unfold lookupReads
  (try dsimp only)
  repeat' (first | with_reducible assumption | (simp +contextual +decide (maxDischargeDepth := 99) [hs, hasBit, subMask]; done) | (simp +contextual +decide (maxDischargeDepth := 99) [hs, hk, hasBit, subMask]; done) | split | refine touch_foldl _ _ _ ?_ (fun _ _ hk => ?_))

@[simp] theorem touch_forwardRaw (s : State) (y : Option Nat) (cls : Nat) (priv : Bool) (c : Bytes) (hm : subMask 51812106240 m = true) (hs : Touch m s0 s) :
    Touch m s0 (forwardRaw s y cls priv c).1 := by
  refine Touch.lift hm hs ?_
  clear hs hm
  have hs : Touch 51812106240 s s := .refl _ _
  unfold forwardRaw
  (try dsimp only)
  repeat' (first | with_reducible assumption | (simp +contextual +decide (maxDischargeDepth := 99) [hs, hasBit, subMask]; done) | (simp +contextual +decide (maxDischargeDepth := 99) [hs, hk, hasBit, subMask]; done) | split | refine touch_foldl _ _ _ ?_ (fun _ _ hk => ?_))

@[simp] theorem touch_forward (s : State) (y : Option Nat) (cls : Nat) (priv : Bool) (c : Bytes) (hm : subMask 51812107008 m = true) (hs : Touch m s0 s) :
    Touch m s0 (forward s y cls priv c) := by
  refine Touch.lift hm hs ?_
  clear hs hm
  have hs : Touch 51812107008 s s := .refl _ _
  simp +contextual +decide (maxDischargeDepth := 99) [forward, hs, hasBit, subMask]

@[simp] theorem touch_originate (s : State) (final : Nat) (cls : Nat) (priv : Bool) (limit : Nat) (body : Bytes) (hm : subMask 51812107008 m = true) (hs : Touch m s0 s) :
    Touch m s0 (originate s final cls priv limit body) := by
  refine Touch.lift hm hs ?_
  clear hs hm
  have hs : Touch 51812107008 s s := .refl _ _
  simp +decide (maxDischargeDepth := 99) [originate, hs, hasBit, subMask]

@[simp] theorem touch_routeEvent (s : State) (target : Nat) (st : Nat) (hm : subMask 34362884096 m = true) (hs : Touch m s0 s) :
    Touch m s0 (routeEvent s target st) := by
  refine Touch.lift hm hs ?_
  clear hs hm
  have hs : Touch 34362884096 s s := .refl _ _
  simp +decide (maxDischargeDepth := 99) [routeEvent, hs, hasBit, subMask]

@[simp] theorem touch_rreqEnd (s : State) (target : Nat) (st : Nat) (ended : Rreq → Bool) (hm : subMask 34631320064 m = true) (hs : Touch m s0 s) :
    Touch m s0 (rreqEnd s target st ended) := by
  refine Touch.lift hm hs ?_
  clear hs hm
  have hs : Touch 34631320064 s s := .refl _ _
  simp +decide (maxDischargeDepth := 99) [rreqEnd, hs, hasBit, subMask]

@[simp] theorem touch_rreqRx (s : State) (y : Nat) (c : Bytes) (hm : subMask 51811975938 m = true) (hs : Touch m s0 s) :
    Touch m s0 (rreqRx s y c) := by
  refine Touch.lift hm hs ?_
  clear hs hm
  have hs : Touch 51811975938 s s := .refl _ _
  simp +contextual +decide (maxDischargeDepth := 99) [rreqRx, hs, hasBit, subMask]

@[simp] theorem touch_rrepRx (s : State) (y : Nat) (priv : Bool) (c : Bytes) (hm : subMask 51812107010 m = true) (hs : Touch m s0 s) :
    Touch m s0 (rrepRx s y priv c) := by
  refine Touch.lift hm hs ?_
  clear hs hm
  have hs : Touch 51812107010 s s := .refl _ _
  simp +decide (maxDischargeDepth := 99) [rrepRx, hs, hasBit, subMask]

@[simp] theorem touch_rrepSend (s : State) (hm : subMask 51812107008 m = true) (hs : Touch m s0 s) :
    Touch m s0 (rrepSend s) := by
  refine Touch.lift hm hs ?_
  clear hs hm
  have hs : Touch 51812107008 s s := .refl _ _
  simp +contextual +decide (maxDischargeDepth := 99) [rrepSend, hs, hasBit, subMask]

@[simp] theorem touch_rerrRx (s : State) (y : Nat) (priv : Bool) (c : Bytes) (hm : subMask 51812107010 m = true) (hs : Touch m s0 s) :
    Touch m s0 (rerrRx s y priv c) := by
  refine Touch.lift hm hs ?_
  clear hs hm
  have hs : Touch 51812107010 s s := .refl _ _
  unfold rerrRx
  repeat' split
  all_goals simp +contextual +decide (maxDischargeDepth := 99) [hs, hasBit, subMask]

@[simp] theorem touch_advSend (s : State) (ctx : Nat) (flags : Nat) (es : List Change) (hm : subMask 51543670784 m = true) (hs : Touch m s0 s) :
    Touch m s0 (advSend s ctx flags es) := by
  refine Touch.lift hm hs ?_
  clear hs hm
  have hs : Touch 51543670784 s s := .refl _ _
  simp +contextual +decide (maxDischargeDepth := 99) [advSend, hs, hasBit, subMask]

@[simp] theorem touch_advertFull (s : State) (attach : Bool) (hm : subMask 51543671296 m = true) (hs : Touch m s0 s) :
    Touch m s0 (advertFull s attach) := by
  refine Touch.lift hm hs ?_
  clear hs hm
  have hs : Touch 51543671296 s s := .refl _ _
  unfold advertFull
  repeat' split
  all_goals simp +contextual +decide (maxDischargeDepth := 99) [hs, hasBit, subMask]

@[simp] theorem touch_advertChanges (s : State) (hm : subMask 51543671296 m = true) (hs : Touch m s0 s) :
    Touch m s0 (advertChanges s) := by
  refine Touch.lift hm hs ?_
  clear hs hm
  have hs : Touch 51543671296 s s := .refl _ _
  unfold advertChanges
  repeat' split
  all_goals simp +contextual +decide (maxDischargeDepth := 99) [hs, hasBit, subMask]

@[simp] theorem touch_advertDetach (s : State) (ctx : Nat) (hm : subMask 51543670784 m = true) (hs : Touch m s0 s) :
    Touch m s0 (advertDetach s ctx) := by
  refine Touch.lift hm hs ?_
  clear hs hm
  have hs : Touch 51543670784 s s := .refl _ _
  simp +decide (maxDischargeDepth := 99) [advertDetach, hs, hasBit, subMask]

@[simp] theorem touch_advertEntry (s : State) (y : Nat) (attach : Bool) (e : Bytes) (hm : subMask 51543540226 m = true) (hs : Touch m s0 s) :
    Touch m s0 (advertEntry s y attach e) := by
  refine Touch.lift hm hs ?_
  clear hs hm
  have hs : Touch 51543540226 s s := .refl _ _
  unfold advertEntry
  (try dsimp only)
  repeat' (first | with_reducible assumption | (simp +contextual +decide (maxDischargeDepth := 99) [hs, hasBit, subMask]; done) | (simp +contextual +decide (maxDischargeDepth := 99) [hs, hk, hasBit, subMask]; done) | split | refine touch_foldl _ _ _ ?_ (fun _ _ hk => ?_))

@[simp] theorem touch_advertRx (s : State) (y : Nat) (c : Bytes) (hm : subMask 51543540226 m = true) (hs : Touch m s0 s) :
    Touch m s0 (advertRx s y c) := by
  refine Touch.lift hm hs ?_
  clear hs hm
  have hs : Touch 51543540226 s s := .refl _ _
  unfold advertRx
  (try dsimp only)
  repeat' (first | with_reducible assumption | (simp +contextual +decide (maxDischargeDepth := 99) [hs, hasBit, subMask]; done) | (simp +contextual +decide (maxDischargeDepth := 99) [hs, hk, hasBit, subMask]; done) | split | refine touch_foldl _ _ _ ?_ (fun _ _ hk => ?_))

@[simp] theorem touch_heldFlag (s : State) (hm : subMask 134217728 m = true) (hs : Touch m s0 s) : Touch m s0 (heldFlag s) := by
  refine Touch.lift hm hs ?_
  clear hs hm
  have hs : Touch 134217728 s s := .refl _ _
  simp +decide (maxDischargeDepth := 99) [heldFlag, hs, hasBit, subMask]

@[simp] theorem touch_deleteCtx (s : State) (ctx : Nat) (hm : subMask 51677922050 m = true) (hs : Touch m s0 s) :
    Touch m s0 (deleteCtx s ctx) := by
  refine Touch.lift hm hs ?_
  clear hs hm
  have hs : Touch 51677922050 s s := .refl _ _
  simp +contextual +decide (maxDischargeDepth := 99) [deleteCtx, hs, hasBit, subMask]

@[simp] theorem touch_ageCtx (s : State) (ctx : Nat) (hm : subMask 51677922050 m = true) (hs : Touch m s0 s) :
    Touch m s0 (ageCtx s ctx) := by
  refine Touch.lift hm hs ?_
  clear hs hm
  have hs : Touch 51677922050 s s := .refl _ _
  simp +decide (maxDischargeDepth := 99) [ageCtx, hs, hasBit, subMask]

@[simp] theorem touch_writeUp (s : State) (ctx : Nat) (hm : subMask 51543539714 m = true) (hs : Touch m s0 s) :
    Touch m s0 (writeUp s ctx) := by
  refine Touch.lift hm hs ?_
  clear hs hm
  have hs : Touch 51543539714 s s := .refl _ _
  simp +decide (maxDischargeDepth := 99) [writeUp, hs, hasBit, subMask]

@[simp] theorem touch_advanceLsn (s : State) (ctx : Nat) (hm : subMask 51543539714 m = true) (hs : Touch m s0 s) :
    Touch m s0 (advanceLsn s ctx) := by
  refine Touch.lift hm hs ?_
  clear hs hm
  have hs : Touch 51543539714 s s := .refl _ _
  simp +decide (maxDischargeDepth := 99) [advanceLsn, hs, hasBit, subMask]

@[simp] theorem touch_ctlReplace (s : State) (ctx : Nat) (ty : Nat) (bodies : List Bytes) (hm : subMask 51543539970 m = true) (hs : Touch m s0 s) :
    Touch m s0 (ctlReplace s ctx ty bodies) := by
  refine Touch.lift hm hs ?_
  clear hs hm
  have hs : Touch 51543539970 s s := .refl _ _
  simp +decide (maxDischargeDepth := 99) [ctlReplace, hs, hasBit, subMask]

@[simp] theorem touch_delayAgain (s : State) (ctx : Nat) (hm : subMask 51543539970 m = true) (hs : Touch m s0 s) : Touch m s0 (delayAgain s ctx) := by
  refine Touch.lift hm hs ?_
  clear hs hm
  have hs : Touch 51543539970 s s := .refl _ _
  simp +decide (maxDischargeDepth := 99) [delayAgain, hs, hasBit, subMask]

@[simp] theorem touch_delayStart (s : State) (ctx : Nat) (hm : subMask 51543539970 m = true) (hs : Touch m s0 s) :
    Touch m s0 (delayStart s ctx) := by
  refine Touch.lift hm hs ?_
  clear hs hm
  have hs : Touch 51543539970 s s := .refl _ _
  simp +decide (maxDischargeDepth := 99) [delayStart, hs, hasBit, subMask]

@[simp] theorem touch_pathUpdate (s : State) (hm : subMask 51811975170 m = true) (hs : Touch m s0 s) :
    Touch m s0 (pathUpdate s) := by
  refine Touch.lift hm hs ?_
  clear hs hm
  have hs : Touch 51811975170 s s := .refl _ _
  unfold pathUpdate
  (try dsimp only)
  repeat' (first | with_reducible assumption | (simp +contextual +decide (maxDischargeDepth := 99) [hs, hasBit, subMask]; done) | (simp +contextual +decide (maxDischargeDepth := 99) [hs, hk, hasBit, subMask]; done) | split | refine touch_foldl _ _ _ ?_ (fun _ _ hk => ?_))

@[simp] theorem touch_upstreamOf (s : State) (hm : subMask 256 m = true) (hs : Touch m s0 s) : Touch m s0 (upstreamOf s) := by
  refine Touch.lift hm hs ?_
  clear hs hm
  have hs : Touch 256 s s := .refl _ _
  simp +decide (maxDischargeDepth := 99) [upstreamOf, hs, hasBit, subMask]

@[simp] theorem touch_setParent (s : State) (ctx : Nat) (hm : subMask 51963102018 m = true) (hs : Touch m s0 s) :
    Touch m s0 (setParent s ctx) := by
  refine Touch.lift hm hs ?_
  clear hs hm
  have hs : Touch 51963102018 s s := .refl _ _
  unfold setParent
  (try dsimp only)
  repeat' (first | with_reducible assumption | (simp +contextual +decide (maxDischargeDepth := 99) [hs, hasBit, subMask]; done) | (simp +contextual +decide (maxDischargeDepth := 99) [hs, hk, hasBit, subMask]; done) | split | refine touch_foldl _ _ _ ?_ (fun _ _ hk => ?_))

@[simp] theorem touch_countChange (s : State) (old : Option Nat) (ctx : Nat) (hm : subMask 268435456 m = true) (hs : Touch m s0 s) :
    Touch m s0 (countChange s old ctx) := by
  refine Touch.lift hm hs ?_
  clear hs hm
  have hs : Touch 268435456 s s := .refl _ _
  simp +decide (maxDischargeDepth := 99) [countChange, hs, hasBit, subMask]

@[simp] theorem touch_changeParent (s : State) (ctx : Nat) (hm : subMask 51963102018 m = true) (hs : Touch m s0 s) :
    Touch m s0 (changeParent s ctx) := by
  refine Touch.lift hm hs ?_
  clear hs hm
  have hs : Touch 51963102018 s s := .refl _ _
  unfold changeParent
  (try dsimp only)
  repeat' (first | with_reducible assumption | (simp +contextual +decide (maxDischargeDepth := 99) [hs, hasBit, subMask]; done) | (simp +contextual +decide (maxDischargeDepth := 99) [hs, hk, hasBit, subMask]; done) | split | refine touch_foldl _ _ _ ?_ (fun _ _ hk => ?_))

@[simp] theorem touch_epochRaised (s : State) (ctx : Nat) (hm : subMask 51543539970 m = true) (hs : Touch m s0 s) :
    Touch m s0 (epochRaised s ctx) := by
  refine Touch.lift hm hs ?_
  clear hs hm
  have hs : Touch 51543539970 s s := .refl _ _
  simp +decide (maxDischargeDepth := 99) [epochRaised, hs, hasBit, subMask]

@[simp] theorem touch_resumeParent (s : State) (hm : subMask 134217984 m = true) (hs : Touch m s0 s) : Touch m s0 (resumeParent s) := by
  refine Touch.lift hm hs ?_
  clear hs hm
  have hs : Touch 134217984 s s := .refl _ _
  simp +decide (maxDischargeDepth := 99) [resumeParent, hs, hasBit, subMask]

@[simp] theorem touch_signOp (s : State) (hm : subMask 32768 m = true) (hs : Touch m s0 s) :
    Touch m s0 (signOp s) := by
  refine Touch.lift hm hs ?_
  clear hs hm
  have hs : Touch 32768 s s := .refl _ _
  simp +contextual +decide (maxDischargeDepth := 99) [signOp, hs, hasBit, subMask]

@[simp] theorem touch_secAsk (s : State) (j : SecJob) (hm : subMask 32768 m = true) (hs : Touch m s0 s) : Touch m s0 (secAsk s j) := by
  refine Touch.lift hm hs ?_
  clear hs hm
  have hs : Touch 32768 s s := .refl _ _
  simp +decide (maxDischargeDepth := 99) [secAsk, hs, hasBit, subMask]

@[simp] theorem touch_queueSig (s : State) (j : SecJob) (hm : subMask 32784 m = true) (hs : Touch m s0 s) : Touch m s0 (queueSig s j) := by
  refine Touch.lift hm hs ?_
  clear hs hm
  have hs : Touch 32784 s s := .refl _ _
  simp +decide (maxDischargeDepth := 99) [queueSig, hs, hasBit, subMask]

@[simp] theorem touch_signAsk (s : State) (j : SecJob) (hm : subMask 32784 m = true) (hs : Touch m s0 s) : Touch m s0 (signAsk s j) := by
  refine Touch.lift hm hs ?_
  clear hs hm
  have hs : Touch 32784 s s := .refl _ _
  simp +decide (maxDischargeDepth := 99) [signAsk, hs, hasBit, subMask]

@[simp] theorem touch_putKey (s : State) (ctx : Nat) (k : Bytes) (hm : subMask 51543539714 m = true) (hs : Touch m s0 s) :
    Touch m s0 (putKey s ctx k) := by
  refine Touch.lift hm hs ?_
  clear hs hm
  have hs : Touch 51543539714 s s := .refl _ _
  simp +decide (maxDischargeDepth := 99) [putKey, hs, hasBit, subMask]

@[simp] theorem touch_newCtx (s : State) (i : Nat) (port : Nat) (addr : Nat) (ext : Nat) (epoch : Nat) (hm : subMask 51543539970 m = true) (hs : Touch m s0 s) :
    Touch m s0 (newCtx s i port addr ext epoch) := by
  refine Touch.lift hm hs ?_
  clear hs hm
  have hs : Touch 51543539970 s s := .refl _ _
  simp +contextual +decide (maxDischargeDepth := 99) [newCtx, hs, hasBit, subMask]

@[simp] theorem touch_linkSeg (s : State) (ctx : Nat) (ty : Nat) (c0 : Bytes) (hm : subMask 256 m = true) (hs : Touch m s0 s) :
    Touch m s0 (linkSeg s ctx ty c0).1 := by
  refine Touch.lift hm hs ?_
  clear hs hm
  have hs : Touch 256 s s := .refl _ _
  simp +decide (maxDischargeDepth := 99) [linkSeg, hs, hasBit, subMask]

@[simp] theorem touch_deny (s : State) (port : Nat) (dst : Nat) (ext : Nat) (cause : Nat) (ctx : Option Nat) (hm : subMask 269091072 m = true) (hs : Touch m s0 s) :
    Touch m s0 (deny s port dst ext cause ctx) := by
  refine Touch.lift hm hs ?_
  clear hs hm
  have hs : Touch 269091072 s s := .refl _ _
  unfold deny
  repeat' split
  all_goals simp +contextual +decide (maxDischargeDepth := 99) [hs, hasBit, subMask]

@[simp] theorem touch_setJoin (s : State) (j : Join) (hm : subMask 512 m = true) (hs : Touch m s0 s) :
    Touch m s0 (setJoin s j) := by
  refine Touch.lift hm hs ?_
  clear hs hm
  have hs : Touch 512 s s := .refl _ _
  simp +contextual +decide (maxDischargeDepth := 99) [setJoin, hs, hasBit, subMask]

@[simp] theorem touch_sendOffer (s : State) (j : Join) (hm : subMask 256 m = true) (hs : Touch m s0 s) :
    Touch m s0 (sendOffer s j) := by
  refine Touch.lift hm hs ?_
  clear hs hm
  have hs : Touch 256 s s := .refl _ _
  simp +decide (maxDischargeDepth := 99) [sendOffer, hs, hasBit, subMask]

@[simp] theorem touch_joinReq (s : State) (port : Nat) (src : Nat) (c : Bytes) (hm : subMask 51816301314 m = true) (hs : Touch m s0 s) :
    Touch m s0 (joinReq s port src c) := by
  refine Touch.lift hm hs ?_
  clear hs hm
  have hs : Touch 51816301314 s s := .refl _ _
  unfold joinReq
  (try dsimp only)
  repeat' (first | with_reducible assumption | (simp +contextual +decide (maxDischargeDepth := 99) [hs, hasBit, subMask]; done) | (simp +contextual +decide (maxDischargeDepth := 99) [hs, hk, hasBit, subMask]; done) | split | refine touch_foldl _ _ _ ?_ (fun _ _ hk => ?_))

@[simp] theorem touch_assignShort (s : State) (ext : Nat) (hm : subMask 512 m = true) (hs : Touch m s0 s) :
    Touch m s0 (assignShort s ext).2 := by
  refine Touch.lift hm hs ?_
  clear hs hm
  have hs : Touch 512 s s := .refl _ _
  unfold assignShort
  repeat' split
  all_goals simp +contextual +decide (maxDischargeDepth := 99) [hs, hasBit, subMask]

@[simp] theorem touch_grantFor (s : State) (ext : Nat) (role : Nat) (prev : Nat) (hm : subMask 4194816 m = true) (hs : Touch m s0 s) :
    Touch m s0 (grantFor s ext role prev).2 := by
  refine Touch.lift hm hs ?_
  clear hs hm
  have hs : Touch 4194816 s s := .refl _ _
  unfold grantFor
  (try dsimp only)
  repeat' (first | with_reducible assumption | (simp +contextual +decide (maxDischargeDepth := 99) [hs, hasBit, subMask]; done) | (simp +contextual +decide (maxDischargeDepth := 99) [hs, hk, hasBit, subMask]; done) | split | refine touch_foldl _ _ _ ?_ (fun _ _ hk => ?_))

@[simp] theorem touch_granted (s : State) (ext : Nat) (short : Nat) (bslot : Nat) (status : Nat) (hm : subMask 269091584 m = true) (hs : Touch m s0 s) :
    Touch m s0 (granted s ext short bslot status) := by
  refine Touch.lift hm hs ?_
  clear hs hm
  have hs : Touch 269091584 s s := .refl _ _
  unfold granted
  repeat' split
  all_goals simp +contextual +decide (maxDischargeDepth := 99) [hs, hasBit, subMask]

@[simp] theorem touch_addrReq (s : State) (c : Bytes) (hm : subMask 51816301312 m = true) (hs : Touch m s0 s) :
    Touch m s0 (addrReq s c) := by
  refine Touch.lift hm hs ?_
  clear hs hm
  have hs : Touch 51816301312 s s := .refl _ _
  simp +decide (maxDischargeDepth := 99) [addrReq, hs, hasBit, subMask]

@[simp] theorem touch_addrGrant (s : State) (c : Bytes) (hm : subMask 269091584 m = true) (hs : Touch m s0 s) :
    Touch m s0 (addrGrant s c) := by
  refine Touch.lift hm hs ?_
  clear hs hm
  have hs : Touch 269091584 s s := .refl _ _
  simp +decide (maxDischargeDepth := 99) [addrGrant, hs, hasBit, subMask]

@[simp] theorem touch_askAddress (s : State) (j : Join) (hm : subMask 51816301312 m = true) (hs : Touch m s0 s) :
    Touch m s0 (askAddress s j) := by
  refine Touch.lift hm hs ?_
  clear hs hm
  have hs : Touch 51816301312 s s := .refl _ _
  simp +decide (maxDischargeDepth := 99) [askAddress, hs, hasBit, subMask]

@[simp] theorem touch_proofDeny (s : State) (j : Join) (cause : Nat) (hm : subMask 269091584 m = true) (hs : Touch m s0 s) :
    Touch m s0 (proofDeny s j cause) := by
  refine Touch.lift hm hs ?_
  clear hs hm
  have hs : Touch 269091584 s s := .refl _ _
  simp +decide (maxDischargeDepth := 99) [proofDeny, hs, hasBit, subMask]

@[simp] theorem touch_parentProved (s : State) (ctx : Nat) (j : Join) (epk : Bytes) (k : Bytes) (hm : subMask 51816334082 m = true) (hs : Touch m s0 s) :
    Touch m s0 (parentProved s ctx j epk k) := by
  refine Touch.lift hm hs ?_
  clear hs hm
  have hs : Touch 51816334082 s s := .refl _ _
  simp +decide (maxDischargeDepth := 99) [parentProved, hs, hasBit, subMask]

@[simp] theorem touch_parentReply (s : State) (ctx : Nat) (j : Join) (priv : Bytes) (m0 : Bytes) (hm : subMask 51816334082 m = true) (hs : Touch m s0 s) :
    Touch m s0 (parentReply s ctx j priv m0) := by
  refine Touch.lift hm hs ?_
  clear hs hm
  have hs : Touch 51816334082 s s := .refl _ _
  unfold parentReply
  (try dsimp only)
  repeat' (first | with_reducible assumption | (simp +contextual +decide (maxDischargeDepth := 99) [hs, hasBit, subMask]; done) | (simp +contextual +decide (maxDischargeDepth := 99) [hs, hk, hasBit, subMask]; done) | split | refine touch_foldl _ _ _ ?_ (fun _ _ hk => ?_))

@[simp] theorem touch_parentProofSend (s : State) (ctx : Nat) (m0 : Bytes) (hm : subMask 51816334082 m = true) (hs : Touch m s0 s) :
    Touch m s0 (parentProofSend s ctx m0) := by
  refine Touch.lift hm hs ?_
  clear hs hm
  have hs : Touch 51816334082 s s := .refl _ _
  unfold parentProofSend
  (try dsimp only)
  repeat' (first | with_reducible assumption | (simp +contextual +decide (maxDischargeDepth := 99) [hs, hasBit, subMask]; done) | (simp +contextual +decide (maxDischargeDepth := 99) [hs, hk, hasBit, subMask]; done) | split | refine touch_foldl _ _ _ ?_ (fun _ _ hk => ?_))

@[simp] theorem touch_joinChecked (s : State) (ctx : Nat) (m0 : Bytes) (hm : subMask 8859058960 m = true) (hs : Touch m s0 s) :
    Touch m s0 (joinChecked s ctx m0) := by
  refine Touch.lift hm hs ?_
  clear hs hm
  have hs : Touch 8859058960 s s := .refl _ _
  unfold joinChecked
  (try dsimp only)
  repeat' (first | with_reducible assumption | (simp +contextual +decide (maxDischargeDepth := 99) [hs, hasBit, subMask]; done) | (simp +contextual +decide (maxDischargeDepth := 99) [hs, hk, hasBit, subMask]; done) | split | refine touch_foldl _ _ _ ?_ (fun _ _ hk => ?_))

@[simp] theorem touch_joinProof (s : State) (ctx : Nat) (c0 : Bytes) (hm : subMask 33280 m = true) (hs : Touch m s0 s) :
    Touch m s0 (joinProof s ctx c0) := by
  refine Touch.lift hm hs ?_
  clear hs hm
  have hs : Touch 33280 s s := .refl _ _
  unfold joinProof
  (try dsimp only)
  repeat' (first | with_reducible assumption | (simp +contextual +decide (maxDischargeDepth := 99) [hs, hasBit, subMask]; done) | (simp +contextual +decide (maxDischargeDepth := 99) [hs, hk, hasBit, subMask]; done) | split | refine touch_foldl _ _ _ ?_ (fun _ _ hk => ?_))

@[simp] theorem touch_allocSend (s : State) (port : Nat) (ctx : Nat) (old : List Nat) (entries : List Nat) (ends : Bool) (hm : subMask 51681952002 m = true) (hs : Touch m s0 s) :
    Touch m s0 (allocSend s port ctx old entries ends) := by
  refine Touch.lift hm hs ?_
  clear hs hm
  have hs : Touch 51681952002 s s := .refl _ _
  simp +contextual +decide (maxDischargeDepth := 99) [allocSend, hs, hasBit, subMask]

@[simp] theorem touch_autoAlloc (s : State) (ctx : Nat) (hm : subMask 51681952514 m = true) (hs : Touch m s0 s) :
    Touch m s0 (autoAlloc s ctx) := by
  refine Touch.lift hm hs ?_
  clear hs hm
  have hs : Touch 51681952514 s s := .refl _ _
  unfold autoAlloc
  (try dsimp only)
  repeat' (first | with_reducible assumption | (simp +contextual +decide (maxDischargeDepth := 99) [hs, hasBit, subMask]; done) | (simp +contextual +decide (maxDischargeDepth := 99) [hs, hk, hasBit, subMask]; done) | split | refine touch_foldl _ _ _ ?_ (fun _ _ hk => ?_))

@[simp] theorem touch_gkeySend (s : State) (ctx : Nat) (hm : subMask 655360 m = true) (hs : Touch m s0 s) :
    Touch m s0 (gkeySend s ctx) := by
  refine Touch.lift hm hs ?_
  clear hs hm
  have hs : Touch 655360 s s := .refl _ _
  unfold gkeySend
  repeat' split
  all_goals simp +contextual +decide (maxDischargeDepth := 99) [hs, hasBit, subMask]

@[simp] theorem touch_gkeyChildren (s : State) (hm : subMask 655360 m = true) (hs : Touch m s0 s) :
    Touch m s0 (gkeyChildren s) := by
  refine Touch.lift hm hs ?_
  clear hs hm
  have hs : Touch 655360 s s := .refl _ _
  simp +contextual +decide (maxDischargeDepth := 99) [gkeyChildren, hs, hasBit, subMask]

@[simp] theorem touch_gkeyRx (s : State) (ctx : Nat) (c : Bytes) (hm : subMask 688128 m = true) (hs : Touch m s0 s) :
    Touch m s0 (gkeyRx s ctx c) := by
  refine Touch.lift hm hs ?_
  clear hs hm
  have hs : Touch 688128 s s := .refl _ _
  simp +contextual +decide (maxDischargeDepth := 99) [gkeyRx, hs, hasBit, subMask]

@[simp] theorem touch_gkeyInstall (s : State) (id : Nat) (k : Bytes) (hm : subMask 51543572738 m = true) (hs : Touch m s0 s) :
    Touch m s0 (gkeyInstall s id k) := by
  refine Touch.lift hm hs ?_
  clear hs hm
  have hs : Touch 51543572738 s s := .refl _ _
  simp +contextual +decide (maxDischargeDepth := 99) [gkeyInstall, hs, hasBit, subMask]

@[simp] theorem touch_gkeyBoundary (s : State) (hm : subMask 60133507330 m = true) (hs : Touch m s0 s) :
    Touch m s0 (gkeyBoundary s) := by
  refine Touch.lift hm hs ?_
  clear hs hm
  have hs : Touch 60133507330 s s := .refl _ _
  unfold gkeyBoundary
  repeat' split
  all_goals simp +contextual +decide (maxDischargeDepth := 99) [hs, hasBit, subMask]

@[simp] theorem touch_gkeyTake (s : State) (id : Nat) (k : Bytes) (hm : subMask 51543572738 m = true) (hs : Touch m s0 s) :
    Touch m s0 (gkeyTake s id k) := by
  refine Touch.lift hm hs ?_
  clear hs hm
  have hs : Touch 51543572738 s s := .refl _ _
  simp +decide (maxDischargeDepth := 99) [gkeyTake, hs, hasBit, subMask]

@[simp] theorem touch_joinGone (s : State) (ctx : Nat) (hm : subMask 512 m = true) (hs : Touch m s0 s) :
    Touch m s0 (joinGone s ctx) := by
  refine Touch.lift hm hs ?_
  clear hs hm
  have hs : Touch 512 s s := .refl _ _
  simp +contextual +decide (maxDischargeDepth := 99) [joinGone, hs, hasBit, subMask]

@[simp] theorem touch_movePort (s : State) (o : Nat) (n : Nat) (hm : subMask 51677888770 m = true) (hs : Touch m s0 s) :
    Touch m s0 (movePort s o n) := by
  refine Touch.lift hm hs ?_
  clear hs hm
  have hs : Touch 51677888770 s s := .refl _ _
  simp +decide (maxDischargeDepth := 99) [movePort, hs, hasBit, subMask]

@[simp] theorem touch_mergeOld (s : State) (j : Join) (hm : subMask 51677922050 m = true) (hs : Touch m s0 s) :
    Touch m s0 (mergeOld s j).1 := by
  refine Touch.lift hm hs ?_
  clear hs hm
  have hs : Touch 51677922050 s s := .refl _ _
  unfold mergeOld
  repeat' split
  all_goals simp +contextual +decide (maxDischargeDepth := 99) [hs, hasBit, subMask]

@[simp] theorem touch_joinEstablish (s : State) (ctx : Nat) (hm : subMask 51950551810 m = true) (hs : Touch m s0 s) :
    Touch m s0 (joinEstablish s ctx) := by
  refine Touch.lift hm hs ?_
  clear hs hm
  have hs : Touch 51950551810 s s := .refl _ _
  unfold joinEstablish
  (try dsimp only)
  repeat' (first | with_reducible assumption | (simp +contextual +decide (maxDischargeDepth := 99) [hs, hasBit, subMask]; done) | (simp +contextual +decide (maxDischargeDepth := 99) [hs, hk, hasBit, subMask]; done) | split | refine touch_foldl _ _ _ ?_ (fun _ _ hk => ?_))

@[simp] theorem touch_joinAcked (s : State) (ctx : Nat) (seg : Nat) (hm : subMask 51950551810 m = true) (hs : Touch m s0 s) :
    Touch m s0 (joinAcked s ctx seg) := by
  refine Touch.lift hm hs ?_
  clear hs hm
  have hs : Touch 51950551810 s s := .refl _ _
  unfold joinAcked
  (try dsimp only)
  repeat' (first | with_reducible assumption | (simp +contextual +decide (maxDischargeDepth := 99) [hs, hasBit, subMask]; done) | (simp +contextual +decide (maxDischargeDepth := 99) [hs, hk, hasBit, subMask]; done) | split | refine touch_foldl _ _ _ ?_ (fun _ _ hk => ?_))

@[simp] theorem touch_joinExpire (s : State) (ctx : Nat) (hm : subMask 51946357506 m = true) (hs : Touch m s0 s) :
    Touch m s0 (joinExpire s ctx) := by
  refine Touch.lift hm hs ?_
  clear hs hm
  have hs : Touch 51946357506 s s := .refl _ _
  unfold joinExpire
  repeat' split
  all_goals simp +contextual +decide (maxDischargeDepth := 99) [hs, hasBit, subMask]

@[simp] theorem touch_setJoiner (s : State) (j : Option Joiner) (hm : subMask 512 m = true) (hs : Touch m s0 s) :
    Touch m s0 (setJoiner s j) := by
  refine Touch.lift hm hs ?_
  clear hs hm
  have hs : Touch 512 s s := .refl _ _
  simp +contextual +decide (maxDischargeDepth := 99) [setJoiner, hs, hasBit, subMask]

@[simp] theorem touch_lateralDone (s : State) (j : Joiner) (cause : Nat) (hm : subMask 3145728 m = true) (hs : Touch m s0 s) :
    Touch m s0 (lateralDone s j cause) := by
  refine Touch.lift hm hs ?_
  clear hs hm
  have hs : Touch 3145728 s s := .refl _ _
  unfold lateralDone
  repeat' split
  all_goals simp +contextual +decide (maxDischargeDepth := 99) [hs, hasBit, subMask]

@[simp] theorem touch_chooseTemp (s : State) (hm : subMask 4194304 m = true) (hs : Touch m s0 s) :
    Touch m s0 (chooseTemp s).2 := by
  refine Touch.lift hm hs ?_
  clear hs hm
  have hs : Touch 4194304 s s := .refl _ _
  simp +decide (maxDischargeDepth := 99) [chooseTemp, hs, hasBit, subMask]

@[simp] theorem touch_joinSendReq (s : State) (j : Joiner) (hm : subMask 256 m = true) (hs : Touch m s0 s) :
    Touch m s0 (joinSendReq s j) := by
  refine Touch.lift hm hs ?_
  clear hs hm
  have hs : Touch 256 s s := .refl _ _
  simp +decide (maxDischargeDepth := 99) [joinSendReq, hs, hasBit, subMask]

@[simp] theorem touch_joinBegin (s : State) (b : Neighbour) (rejoin : Bool) (peer : Bool) (host : Option (Nat × Nat)) (hm : subMask 51547734786 m = true) (hs : Touch m s0 s) :
    Touch m s0 (joinBegin s b rejoin peer host) := by
  refine Touch.lift hm hs ?_
  clear hs hm
  have hs : Touch 51547734786 s s := .refl _ _
  unfold joinBegin
  (try dsimp only)
  repeat' (first | with_reducible assumption | (simp +contextual +decide (maxDischargeDepth := 99) [hs, hasBit, subMask]; done) | (simp +contextual +decide (maxDischargeDepth := 99) [hs, hk, hasBit, subMask]; done) | split | refine touch_foldl _ _ _ ?_ (fun _ _ hk => ?_))

@[simp] theorem touch_joinAbandon (s : State) (j : Joiner) (hm : subMask 51677922050 m = true) (hs : Touch m s0 s) :
    Touch m s0 (joinAbandon s j) := by
  refine Touch.lift hm hs ?_
  clear hs hm
  have hs : Touch 51677922050 s s := .refl _ _
  simp +decide (maxDischargeDepth := 99) [joinAbandon, hs, hasBit, subMask]

@[simp] theorem touch_searchOpen (s : State) (hm : subMask 784 m = true) (hs : Touch m s0 s) : Touch m s0 (searchOpen s) := by
  refine Touch.lift hm hs ?_
  clear hs hm
  have hs : Touch 784 s s := .refl _ _
  simp +decide (maxDischargeDepth := 99) [searchOpen, hs, hasBit, subMask]

@[simp] theorem touch_searchOver (s : State) (hm : subMask 16 m = true) (hs : Touch m s0 s) : Touch m s0 (searchOver s) := by
  refine Touch.lift hm hs ?_
  clear hs hm
  have hs : Touch 16 s s := .refl _ _
  simp +decide (maxDischargeDepth := 99) [searchOver, hs, hasBit, subMask]

@[simp] theorem touch_searchStart (s : State) (hm : subMask 784 m = true) (hs : Touch m s0 s) :
    Touch m s0 (searchStart s) := by
  refine Touch.lift hm hs ?_
  clear hs hm
  have hs : Touch 784 s s := .refl _ _
  simp +contextual +decide (maxDischargeDepth := 99) [searchStart, hs, hasBit, subMask]

@[simp] theorem touch_joinLook (s : State) (hm : subMask 784 m = true) (hs : Touch m s0 s) : Touch m s0 (joinLook s) := by
  refine Touch.lift hm hs ?_
  clear hs hm
  have hs : Touch 784 s s := .refl _ _
  simp +decide (maxDischargeDepth := 99) [joinLook, hs, hasBit, subMask]

@[simp] theorem touch_orphanPick (s : State) (hm : subMask 51547734802 m = true) (hs : Touch m s0 s) : Touch m s0 (orphanPick s) := by
  refine Touch.lift hm hs ?_
  clear hs hm
  have hs : Touch 51547734802 s s := .refl _ _
  unfold orphanPick
  (try dsimp only)
  repeat' (first | with_reducible assumption | (simp +contextual +decide (maxDischargeDepth := 99) [hs, hasBit, subMask]; done) | (simp +contextual +decide (maxDischargeDepth := 99) [hs, hk, hasBit, subMask]; done) | split | refine touch_foldl _ _ _ ?_ (fun _ _ hk => ?_))

@[simp] theorem touch_takeParent (s : State) (b : Neighbour) (hm : subMask 51967296322 m = true) (hs : Touch m s0 s) :
    Touch m s0 (takeParent s b) := by
  refine Touch.lift hm hs ?_
  clear hs hm
  have hs : Touch 51967296322 s s := .refl _ _
  unfold takeParent
  (try dsimp only)
  repeat' (first | with_reducible assumption | (simp +contextual +decide (maxDischargeDepth := 99) [hs, hasBit, subMask]; done) | (simp +contextual +decide (maxDischargeDepth := 99) [hs, hk, hasBit, subMask]; done) | split | refine touch_foldl _ _ _ ?_ (fun _ _ hk => ?_))

@[simp] theorem touch_nextCandidate (s : State) (hm : subMask 51967296338 m = true) (hs : Touch m s0 s) : Touch m s0 (nextCandidate s) := by
  refine Touch.lift hm hs ?_
  clear hs hm
  have hs : Touch 51967296338 s s := .refl _ _
  unfold nextCandidate
  (try dsimp only)
  repeat' (first | with_reducible assumption | (simp +contextual +decide (maxDischargeDepth := 99) [hs, hasBit, subMask]; done) | (simp +contextual +decide (maxDischargeDepth := 99) [hs, hk, hasBit, subMask]; done) | split | refine touch_foldl _ _ _ ?_ (fun _ _ hk => ?_))

@[simp] theorem touch_joinSearch (s : State) (hm : subMask 51967296338 m = true) (hs : Touch m s0 s) :
    Touch m s0 (joinSearch s) := by
  refine Touch.lift hm hs ?_
  clear hs hm
  have hs : Touch 51967296338 s s := .refl _ _
  unfold joinSearch
  (try dsimp only)
  repeat' (first | with_reducible assumption | (simp +contextual +decide (maxDischargeDepth := 99) [hs, hasBit, subMask]; done) | (simp +contextual +decide (maxDischargeDepth := 99) [hs, hk, hasBit, subMask]; done) | split | refine touch_foldl _ _ _ ?_ (fun _ _ hk => ?_))

@[simp] theorem touch_joinAuto (s : State) (hm : subMask 51967296338 m = true) (hs : Touch m s0 s) : Touch m s0 (joinAuto s) := by
  refine Touch.lift hm hs ?_
  clear hs hm
  have hs : Touch 51967296338 s s := .refl _ _
  simp +decide (maxDischargeDepth := 99) [joinAuto, hs, hasBit, subMask]

@[simp] theorem touch_joinFail (s : State) (j : Joiner) (cause : Nat) (till : Option Nat) (hm : subMask 51967329106 m = true) (hs : Touch m s0 s) :
    Touch m s0 (joinFail s j cause till) := by
  refine Touch.lift hm hs ?_
  clear hs hm
  have hs : Touch 51967329106 s s := .refl _ _
  simp +decide (maxDischargeDepth := 99) [joinFail, hs, hasBit, subMask]

@[simp] theorem touch_joinProofSend (s : State) (hm : subMask 4882944 m = true) (hs : Touch m s0 s) : Touch m s0 (joinProofSend s) := by
  refine Touch.lift hm hs ?_
  clear hs hm
  have hs : Touch 4882944 s s := .refl _ _
  unfold joinProofSend
  (try dsimp only)
  repeat' (first | with_reducible assumption | (simp +contextual +decide (maxDischargeDepth := 99) [hs, hasBit, subMask]; done) | (simp +contextual +decide (maxDischargeDepth := 99) [hs, hk, hasBit, subMask]; done) | split | refine touch_foldl _ _ _ ?_ (fun _ _ hk => ?_))

@[simp] theorem touch_joinerGoOn (s : State) (hm : subMask 32784 m = true) (hs : Touch m s0 s) : Touch m s0 (joinerGoOn s) := by
  refine Touch.lift hm hs ?_
  clear hs hm
  have hs : Touch 32784 s s := .refl _ _
  unfold joinerGoOn
  (try dsimp only)
  repeat' (first | with_reducible assumption | (simp +contextual +decide (maxDischargeDepth := 99) [hs, hasBit, subMask]; done) | (simp +contextual +decide (maxDischargeDepth := 99) [hs, hk, hasBit, subMask]; done) | split | refine touch_foldl _ _ _ ?_ (fun _ _ hk => ?_))

@[simp] theorem touch_joinOffer (s : State) (port : Nat) (src : Nat) (c : Bytes) (hm : subMask 33296 m = true) (hs : Touch m s0 s) :
    Touch m s0 (joinOffer s port src c) := by
  refine Touch.lift hm hs ?_
  clear hs hm
  have hs : Touch 33296 s s := .refl _ _
  unfold joinOffer
  (try dsimp only)
  repeat' (first | with_reducible assumption | (simp +contextual +decide (maxDischargeDepth := 99) [hs, hasBit, subMask]; done) | (simp +contextual +decide (maxDischargeDepth := 99) [hs, hk, hasBit, subMask]; done) | split | refine touch_foldl _ _ _ ?_ (fun _ _ hk => ?_))

@[simp] theorem touch_parentTaken (s : State) (ctx : Nat) (j : Joiner) (m0 : Bytes) (k : Bytes) (hm : subMask 51543572994 m = true) (hs : Touch m s0 s) :
    Touch m s0 (parentTaken s ctx j m0 k) := by
  refine Touch.lift hm hs ?_
  clear hs hm
  have hs : Touch 51543572994 s s := .refl _ _
  simp +decide (maxDischargeDepth := 99) [parentTaken, hs, hasBit, subMask]

@[simp] theorem touch_parentSettled (s : State) (ctx : Nat) (j : Joiner) (m0 : Bytes) (hm : subMask 51967329106 m = true) (hs : Touch m s0 s) :
    Touch m s0 (parentSettled s ctx j m0) := by
  refine Touch.lift hm hs ?_
  clear hs hm
  have hs : Touch 51967329106 s s := .refl _ _
  unfold parentSettled
  (try dsimp only)
  repeat' (first | with_reducible assumption | (simp +contextual +decide (maxDischargeDepth := 99) [hs, hasBit, subMask]; done) | (simp +contextual +decide (maxDischargeDepth := 99) [hs, hk, hasBit, subMask]; done) | split | refine touch_foldl _ _ _ ?_ (fun _ _ hk => ?_))

@[simp] theorem touch_parentChecked (s : State) (ctx : Nat) (m0 : Bytes) (hm : subMask 60557263698 m = true) (hs : Touch m s0 s) :
    Touch m s0 (parentChecked s ctx m0) := by
  refine Touch.lift hm hs ?_
  clear hs hm
  have hs : Touch 60557263698 s s := .refl _ _
  unfold parentChecked
  (try dsimp only)
  repeat' (first | with_reducible assumption | (simp +contextual +decide (maxDischargeDepth := 99) [hs, hasBit, subMask]; done) | (simp +contextual +decide (maxDischargeDepth := 99) [hs, hk, hasBit, subMask]; done) | split | refine touch_foldl _ _ _ ?_ (fun _ _ hk => ?_))

@[simp] theorem touch_parentProof (s : State) (ctx : Nat) (c0 : Bytes) (hm : subMask 33280 m = true) (hs : Touch m s0 s) :
    Touch m s0 (parentProof s ctx c0) := by
  refine Touch.lift hm hs ?_
  clear hs hm
  have hs : Touch 33280 s s := .refl _ _
  unfold parentProof
  (try dsimp only)
  repeat' (first | with_reducible assumption | (simp +contextual +decide (maxDischargeDepth := 99) [hs, hasBit, subMask]; done) | (simp +contextual +decide (maxDischargeDepth := 99) [hs, hk, hasBit, subMask]; done) | split | refine touch_foldl _ _ _ ?_ (fun _ _ hk => ?_))

@[simp] theorem touch_dropOthers (s : State) (ctx : Nat) (hm : subMask 51677922050 m = true) (hs : Touch m s0 s) :
    Touch m s0 (dropOthers s ctx) := by
  refine Touch.lift hm hs ?_
  clear hs hm
  have hs : Touch 51677922050 s s := .refl _ _
  unfold dropOthers
  (try dsimp only)
  repeat' (first | with_reducible assumption | (simp +contextual +decide (maxDischargeDepth := 99) [hs, hasBit, subMask]; done) | (simp +contextual +decide (maxDischargeDepth := 99) [hs, hk, hasBit, subMask]; done) | split | refine touch_foldl _ _ _ ?_ (fun _ _ hk => ?_))

@[simp] theorem touch_provsUntil (s : State) (ctx : Nat) (u : Nat) (hm : subMask 512 m = true) (hs : Touch m s0 s) :
    Touch m s0 (provsUntil s ctx u) := by
  refine Touch.lift hm hs ?_
  clear hs hm
  have hs : Touch 512 s s := .refl _ _
  simp +contextual +decide (maxDischargeDepth := 99) [provsUntil, hs, hasBit, subMask]

@[simp] theorem touch_acceptLateral (s : State) (j : Joiner) (ctx : Nat) (hm : subMask 51543540226 m = true) (hs : Touch m s0 s) :
    Touch m s0 (acceptLateral s j ctx) := by
  refine Touch.lift hm hs ?_
  clear hs hm
  have hs : Touch 51543540226 s s := .refl _ _
  simp +decide (maxDischargeDepth := 99) [acceptLateral, hs, hasBit, subMask]

@[simp] theorem touch_takeAccept (s : State) (j : Joiner) (ctx : Nat) (c : Bytes) (hm : subMask 1099381506818 m = true) (hs : Touch m s0 s) :
    Touch m s0 (takeAccept s j ctx c) := by
  refine Touch.lift hm hs ?_
  clear hs hm
  have hs : Touch 1099381506818 s s := .refl _ _
  simp +contextual +decide (maxDischargeDepth := 99) [takeAccept, hs, hasBit, subMask]

@[simp] theorem touch_acceptParent (s : State) (j : Joiner) (ctx : Nat) (old : Option Nat) (hm : subMask 51967296322 m = true) (hs : Touch m s0 s) :
    Touch m s0 (acceptParent s j ctx old) := by
  refine Touch.lift hm hs ?_
  clear hs hm
  have hs : Touch 51967296322 s s := .refl _ _
  unfold acceptParent
  repeat' split
  all_goals simp +contextual +decide (maxDischargeDepth := 99) [hs, hasBit, subMask]

@[simp] theorem touch_joinAccept (s : State) (ctx : Nat) (c : Bytes) (hm : subMask 1099402478402 m = true) (hs : Touch m s0 s) :
    Touch m s0 (joinAccept s ctx c) := by
  refine Touch.lift hm hs ?_
  clear hs hm
  have hs : Touch 1099402478402 s s := .refl _ _
  unfold joinAccept
  repeat' split
  all_goals simp +contextual +decide (maxDischargeDepth := 99) [hs, hasBit, subMask]

@[simp] theorem touch_joinDenied (s : State) (port : Nat) (src : Nat) (c : Bytes) (hm : subMask 51967329106 m = true) (hs : Touch m s0 s) :
    Touch m s0 (joinDenied s port src c) := by
  refine Touch.lift hm hs ?_
  clear hs hm
  have hs : Touch 51967329106 s s := .refl _ _
  unfold joinDenied
  repeat' split
  all_goals simp +contextual +decide (maxDischargeDepth := 99) [hs, hasBit, subMask]

@[simp] theorem touch_rekeyHold (s : State) (ctx : Nat) (c0 : Bytes) (hm : subMask 32768 m = true) (hs : Touch m s0 s) :
    Touch m s0 (rekeyHold s ctx c0) := by
  refine Touch.lift hm hs ?_
  clear hs hm
  have hs : Touch 32768 s s := .refl _ _
  simp +decide (maxDischargeDepth := 99) [rekeyHold, hs, hasBit, subMask]

@[simp] theorem touch_rekeyTake (s : State) (ctx : Nat) (body : Bytes) (k : Bytes) (hm : subMask 51543670786 m = true) (hs : Touch m s0 s) :
    Touch m s0 (rekeyTake s ctx body k) := by
  refine Touch.lift hm hs ?_
  clear hs hm
  have hs : Touch 51543670786 s s := .refl _ _
  simp +decide (maxDischargeDepth := 99) [rekeyTake, hs, hasBit, subMask]

@[simp] theorem touch_rekeyReply (s : State) (ctx : Nat) (c0 : Bytes) (priv : Bytes) (n : Nat) (hm : subMask 51543670786 m = true) (hs : Touch m s0 s) :
    Touch m s0 (rekeyReply s ctx c0 priv n) := by
  refine Touch.lift hm hs ?_
  clear hs hm
  have hs : Touch 51543670786 s s := .refl _ _
  unfold rekeyReply
  (try dsimp only)
  repeat' (first | with_reducible assumption | (simp +contextual +decide (maxDischargeDepth := 99) [hs, hasBit, subMask]; done) | (simp +contextual +decide (maxDischargeDepth := 99) [hs, hk, hasBit, subMask]; done) | split | refine touch_foldl _ _ _ ?_ (fun _ _ hk => ?_))

@[simp] theorem touch_rekeyAnswer (s : State) (ctx : Nat) (c0 : Bytes) (hm : subMask 51547897858 m = true) (hs : Touch m s0 s) :
    Touch m s0 (rekeyAnswer s ctx c0) := by
  refine Touch.lift hm hs ?_
  clear hs hm
  have hs : Touch 51547897858 s s := .refl _ _
  simp +decide (maxDischargeDepth := 99) [rekeyAnswer, hs, hasBit, subMask]

@[simp] theorem touch_rekeyReqRx (s : State) (ctx : Nat) (c : Bytes) (hm : subMask 51547897858 m = true) (hs : Touch m s0 s) :
    Touch m s0 (rekeyReqRx s ctx c) := by
  refine Touch.lift hm hs ?_
  clear hs hm
  have hs : Touch 51547897858 s s := .refl _ _
  simp +contextual +decide (maxDischargeDepth := 99) [rekeyReqRx, hs, hasBit, subMask]

@[simp] theorem touch_rekeyHeldRun (s : State) (hm : subMask 51547897858 m = true) (hs : Touch m s0 s) : Touch m s0 (rekeyHeldRun s) := by
  refine Touch.lift hm hs ?_
  clear hs hm
  have hs : Touch 51547897858 s s := .refl _ _
  simp +contextual +decide (maxDischargeDepth := 99) [rekeyHeldRun, hs, hasBit, subMask]

@[simp] theorem touch_rekeyRespRx (s : State) (ctx : Nat) (c : Bytes) (hm : subMask 51543572738 m = true) (hs : Touch m s0 s) :
    Touch m s0 (rekeyRespRx s ctx c) := by
  refine Touch.lift hm hs ?_
  clear hs hm
  have hs : Touch 51543572738 s s := .refl _ _
  unfold rekeyRespRx
  repeat' split
  all_goals simp +contextual +decide (maxDischargeDepth := 99) [hs, hasBit, subMask]

@[simp] theorem touch_renewalRx (s : State) (ctx : Nat) (type : Nat) (c : Bytes) (hm : subMask 51547898114 m = true) (hs : Touch m s0 s) :
    Touch m s0 (renewalRx s ctx type c) := by
  refine Touch.lift hm hs ?_
  clear hs hm
  have hs : Touch 51547898114 s s := .refl _ _
  unfold renewalRx
  have h2 := touch_linkSeg s ctx type c (by decide) hs
  revert h2
  generalize linkSeg s ctx type c = r
  intro h2
  obtain ⟨t, o⟩ := r
  cases o with
  | none => exact h2
  | some w => dsimp only at h2 ⊢; split <;> simp +decide (maxDischargeDepth := 99) [hasBit, subMask, h2]

@[simp] theorem touch_rekeyFrame (s : State) (ctx : Nat) (under2 : Bool) (hm : subMask 60133474562 m = true) (hs : Touch m s0 s) :
    Touch m s0 (rekeyFrame s ctx under2) := by
  refine Touch.lift hm hs ?_
  clear hs hm
  have hs : Touch 60133474562 s s := .refl _ _
  simp +contextual +decide (maxDischargeDepth := 99) [rekeyFrame, hs, hasBit, subMask]

@[simp] theorem touch_micFailed (s : State) (n : Nat) (f : RxFrame) (ctx : Option Nat) (hm : subMask 1099381473282 m = true) (hs : Touch m s0 s) :
    Touch m s0 (micFailed s n f ctx) := by
  refine Touch.lift hm hs ?_
  clear hs hm
  have hs : Touch 1099381473282 s s := .refl _ _
  unfold micFailed
  (try dsimp only)
  repeat' (first | with_reducible assumption | (simp +contextual +decide (maxDischargeDepth := 99) [hs, hasBit, subMask]; done) | (simp +contextual +decide (maxDischargeDepth := 99) [hs, hk, hasBit, subMask]; done) | split | refine touch_foldl _ _ _ ?_ (fun _ _ hk => ?_))

@[simp] theorem touch_adoptEpoch (s : State) (ctx : Option Nat) (ep : Option Nat) (hm : subMask 51677757698 m = true) (hs : Touch m s0 s) :
    Touch m s0 (adoptEpoch s ctx ep) := by
  refine Touch.lift hm hs ?_
  clear hs hm
  have hs : Touch 51677757698 s s := .refl _ _
  unfold adoptEpoch
  repeat' split
  all_goals simp +contextual +decide (maxDischargeDepth := 99) [hs, hasBit, subMask]

@[simp] theorem touch_lastChecks (s : State) (f : RxFrame) (ctx : Option Nat) (hm : subMask 1099377410048 m = true) (hs : Touch m s0 s) :
    Touch m s0 (lastChecks s f ctx).1 := by
  refine Touch.lift hm hs ?_
  clear hs hm
  have hs : Touch 1099377410048 s s := .refl _ _
  unfold lastChecks
  repeat' split
  all_goals simp +contextual +decide (maxDischargeDepth := 99) [hs, hasBit, subMask]

@[simp] theorem touch_acceptOrder (s : State) (f : RxFrame) (hm : subMask 1099381473538 m = true) (hs : Touch m s0 s) :
    Touch m s0 (acceptOrder s f).1 := by
  refine Touch.lift hm hs ?_
  clear hs hm
  have hs : Touch 1099381473538 s s := .refl _ _
  unfold acceptOrder
  (try dsimp only)
  repeat' (first | with_reducible assumption | (simp +contextual +decide (maxDischargeDepth := 99) [hs, hasBit, subMask]; done) | (simp +contextual +decide (maxDischargeDepth := 99) [hs, hk, hasBit, subMask]; done) | split | refine touch_foldl _ _ _ ?_ (fun _ _ hk => ?_))

@[simp] theorem touch_keepRssi (s : State) (f : RxFrame) (c0 : Nat) (hm : subMask 51543539714 m = true) (hs : Touch m s0 s) :
    Touch m s0 (keepRssi s f c0) := by
  refine Touch.lift hm hs ?_
  clear hs hm
  have hs : Touch 51543539714 s s := .refl _ _
  simp +decide (maxDischargeDepth := 99) [keepRssi, hs, hasBit, subMask]

@[simp] theorem touch_acceptCounters (s : State) (f : RxFrame) (c : Nat) (hm : subMask 60133474562 m = true) (hs : Touch m s0 s) :
    Touch m s0 (acceptCounters s f c) := by
  refine Touch.lift hm hs ?_
  clear hs hm
  have hs : Touch 60133474562 s s := .refl _ _
  simp +decide (maxDischargeDepth := 99) [acceptCounters, hs, hasBit, subMask]

@[simp] theorem touch_noteNeighbour (s : State) (f : RxFrame) (accepted : Bool) (hm : subMask 256 m = true) (hs : Touch m s0 s) :
    Touch m s0 (noteNeighbour s f accepted) := by
  refine Touch.lift hm hs ?_
  clear hs hm
  have hs : Touch 256 s s := .refl _ _
  simp +contextual +decide (maxDischargeDepth := 99) [noteNeighbour, hs, hasBit, subMask]

@[simp] theorem touch_parentFound (s : State) (addr : Nat) (hm : subMask 34362884096 m = true) (hs : Touch m s0 s) :
    Touch m s0 (parentFound s addr) := by
  refine Touch.lift hm hs ?_
  clear hs hm
  have hs : Touch 34362884096 s s := .refl _ _
  simp +decide (maxDischargeDepth := 99) [parentFound, hs, hasBit, subMask]

@[simp] theorem touch_pollDecide (s : State) (c : Nat) (p : Bytes) (hm : subMask 4194560 m = true) (hs : Touch m s0 s) :
    Touch m s0 (pollDecide s c p) := by
  refine Touch.lift hm hs ?_
  clear hs hm
  have hs : Touch 4194560 s s := .refl _ _
  simp +decide (maxDischargeDepth := 99) [pollDecide, hs, hasBit, subMask]

@[simp] theorem touch_reacqWake (s : State) (c0 : Nat) (hm : subMask 256 m = true) (hs : Touch m s0 s) : Touch m s0 (reacqWake s c0) := by
  refine Touch.lift hm hs ?_
  clear hs hm
  have hs : Touch 256 s s := .refl _ _
  simp +decide (maxDischargeDepth := 99) [reacqWake, hs, hasBit, subMask]

@[simp] theorem touch_parentBeacon (s : State) (f : RxFrame) (c : Nat) (hm : subMask 34518105584 m = true) (hs : Touch m s0 s) :
    Touch m s0 (parentBeacon s f c) := by
  refine Touch.lift hm hs ?_
  clear hs hm
  have hs : Touch 34518105584 s s := .refl _ _
  simp +contextual +decide (maxDischargeDepth := 99) [parentBeacon, hs, hasBit, subMask]

@[simp] theorem touch_beaconHeard (s : State) (f : RxFrame) (accepted : Bool) (hm : subMask 16777536 m = true) (hs : Touch m s0 s) :
    Touch m s0 (beaconHeard s f accepted) := by
  refine Touch.lift hm hs ?_
  clear hs hm
  have hs : Touch 16777536 s s := .refl _ _
  simp +decide (maxDischargeDepth := 99) [beaconHeard, hs, hasBit, subMask]

@[simp] theorem touch_beaconRx (s : State) (f : RxFrame) (ctx : Option Nat) (hm : subMask 51698761202 m = true) (hs : Touch m s0 s) :
    Touch m s0 (beaconRx s f ctx) := by
  refine Touch.lift hm hs ?_
  clear hs hm
  have hs : Touch 51698761202 s s := .refl _ _
  unfold beaconRx
  repeat' split
  all_goals simp +contextual +decide (maxDischargeDepth := 99) [hs, hasBit, subMask]

@[simp] theorem touch_delayReqRx (s : State) (c : Nat) (t2 : Nat) (hm : subMask 51543539970 m = true) (hs : Touch m s0 s) :
    Touch m s0 (delayReqRx s c t2) := by
  refine Touch.lift hm hs ?_
  clear hs hm
  have hs : Touch 51543539970 s s := .refl _ _
  simp +decide (maxDischargeDepth := 99) [delayReqRx, hs, hasBit, subMask]

@[simp] theorem touch_delayRespRx (s : State) (c : Nat) (b : Bytes) (t4 : Nat) (hm : subMask 51543539970 m = true) (hs : Touch m s0 s) :
    Touch m s0 (delayRespRx s c b t4) := by
  refine Touch.lift hm hs ?_
  clear hs hm
  have hs : Touch 51543539970 s s := .refl _ _
  unfold delayRespRx
  repeat' split
  all_goals simp +contextual +decide (maxDischargeDepth := 99) [hs, hasBit, subMask]

@[simp] theorem touch_allocRx (s : State) (c : Nat) (b : Bytes) (hm : subMask 256 m = true) (hs : Touch m s0 s) :
    Touch m s0 (allocRx s c b) := by
  refine Touch.lift hm hs ?_
  clear hs hm
  have hs : Touch 256 s s := .refl _ _
  simp +contextual +decide (maxDischargeDepth := 99) [allocRx, hs, hasBit, subMask]

@[simp] theorem touch_pollRx (s : State) (c : Nat) (b : Bytes) (hm : subMask 256 m = true) (hs : Touch m s0 s) :
    Touch m s0 (pollRx s c b) := by
  refine Touch.lift hm hs ?_
  clear hs hm
  have hs : Touch 256 s s := .refl _ _
  simp +decide (maxDischargeDepth := 99) [pollRx, hs, hasBit, subMask]

@[simp] theorem touch_macControl (s : State) (f : RxFrame) (c : Nat) (hm : subMask 1099381342466 m = true) (hs : Touch m s0 s) :
    Touch m s0 (macControl s f c) := by
  refine Touch.lift hm hs ?_
  clear hs hm
  have hs : Touch 1099381342466 s s := .refl _ _
  unfold macControl
  (try dsimp only)
  repeat' (first | with_reducible assumption | (simp +contextual +decide (maxDischargeDepth := 99) [hs, hasBit, subMask]; done) | (simp +contextual +decide (maxDischargeDepth := 99) [hs, hk, hasBit, subMask]; done) | split | refine touch_foldl _ _ _ ?_ (fun _ _ hk => ?_))

@[simp] theorem touch_toRxQueue (s : State) (f : RxFrame) (ctx : Option Nat) (hm : subMask 655360 m = true) (hs : Touch m s0 s) :
    Touch m s0 (toRxQueue s f ctx) := by
  refine Touch.lift hm hs ?_
  clear hs hm
  have hs : Touch 655360 s s := .refl _ _
  simp +decide (maxDischargeDepth := 99) [toRxQueue, hs, hasBit, subMask]

@[simp] theorem touch_deliverFrame (s : State) (f : RxFrame) (ctx : Option Nat) (hm : subMask 1099469585906 m = true) (hs : Touch m s0 s) :
    Touch m s0 (deliverFrame s f ctx) := by
  refine Touch.lift hm hs ?_
  clear hs hm
  have hs : Touch 1099469585906 s s := .refl _ _
  unfold deliverFrame
  repeat' split
  all_goals simp +contextual +decide (maxDischargeDepth := 99) [hs, hasBit, subMask]

@[simp] theorem touch_noteSrc (s : State) (src : Nat) (hm : subMask 256 m = true) (hs : Touch m s0 s) : Touch m s0 (noteSrc s src) := by
  refine Touch.lift hm hs ?_
  clear hs hm
  have hs : Touch 256 s s := .refl _ _
  simp +decide (maxDischargeDepth := 99) [noteSrc, hs, hasBit, subMask]

@[simp] theorem touch_ctxReads (s : State) (port : Nat) (addr : Nat) (hm : subMask 51543539712 m = true) (hs : Touch m s0 s) :
    Touch m s0 (ctxReads s port addr) := by
  refine Touch.lift hm hs ?_
  clear hs hm
  have hs : Touch 51543539712 s s := .refl _ _
  simp +contextual +decide (maxDischargeDepth := 99) [ctxReads, hs, hasBit, subMask]

@[simp] theorem touch_sfmFrame (s : State) (f : RxFrame) (hm : subMask 1099469585906 m = true) (hs : Touch m s0 s) :
    Touch m s0 (sfmFrame s f).1 := by
  refine Touch.lift hm hs ?_
  clear hs hm
  have hs : Touch 1099469585906 s s := .refl _ _
  unfold sfmFrame
  (try dsimp only)
  repeat' (first | with_reducible assumption | (simp +contextual +decide (maxDischargeDepth := 99) [hs, hasBit, subMask]; done) | (simp +contextual +decide (maxDischargeDepth := 99) [hs, hk, hasBit, subMask]; done) | split | refine touch_foldl _ _ _ ?_ (fun _ _ hk => ?_))

@[simp] theorem touch_dropItem (s : State) (n : Nat) (ctx : Nat) (hm : subMask 131328 m = true) (hs : Touch m s0 s) :
    Touch m s0 (dropItem s n ctx) := by
  refine Touch.lift hm hs ?_
  clear hs hm
  have hs : Touch 131328 s s := .refl _ _
  unfold dropItem
  repeat' split
  all_goals simp +contextual +decide (maxDischargeDepth := 99) [hs, hasBit, subMask]

@[simp] theorem touch_linkNext (s : State) (ctx : Nat) (hm : subMask 256 m = true) (hs : Touch m s0 s) :
    Touch m s0 (linkNext s ctx) := by
  refine Touch.lift hm hs ?_
  clear hs hm
  have hs : Touch 256 s s := .refl _ _
  simp +decide (maxDischargeDepth := 99) [linkNext, hs, hasBit, subMask]

@[simp] theorem touch_allocAcked (s : State) (ctx : Nat) (b : Bytes) (hm : subMask 256 m = true) (hs : Touch m s0 s) :
    Touch m s0 (allocAcked s ctx b) := by
  refine Touch.lift hm hs ?_
  clear hs hm
  have hs : Touch 256 s s := .refl _ _
  simp +contextual +decide (maxDischargeDepth := 99) [allocAcked, hs, hasBit, subMask]

@[simp] theorem touch_ackedTry (s : State) (n : Nat) (ctx : Nat) (lmid : Nat) (mapx : Nat) (it : TxItem) (hm : subMask 1099452809986 m = true) (hs : Touch m s0 s) :
    Touch m s0 (ackedTry s n ctx lmid mapx it) := by
  refine Touch.lift hm hs ?_
  clear hs hm
  have hs : Touch 1099452809986 s s := .refl _ _
  simp +decide (maxDischargeDepth := 99) [ackedTry, hs, hasBit, subMask]

@[simp] theorem touch_missedTry (s : State) (n : Nat) (ctx : Nat) (lmid : Nat) (hm : subMask 1099448582402 m = true) (hs : Touch m s0 s) :
    Touch m s0 (missedTry s n ctx lmid) := by
  refine Touch.lift hm hs ?_
  clear hs hm
  have hs : Touch 1099448582402 s s := .refl _ _
  simp +decide (maxDischargeDepth := 99) [missedTry, hs, hasBit, subMask]

@[simp] theorem touch_linkOutcome (s : State) (n : Nat) (ctx : Nat) (lmid : Nat) (mapx : Nat) (acked : Bool) (hm : subMask 1099452809986 m = true) (hs : Touch m s0 s) :
    Touch m s0 (linkOutcome s n ctx lmid mapx acked) := by
  refine Touch.lift hm hs ?_
  clear hs hm
  have hs : Touch 1099452809986 s s := .refl _ _
  unfold linkOutcome
  (try dsimp only)
  repeat' (first | with_reducible assumption | (simp +contextual +decide (maxDischargeDepth := 99) [hs, hasBit, subMask]; done) | (simp +contextual +decide (maxDischargeDepth := 99) [hs, hk, hasBit, subMask]; done) | split | refine touch_foldl _ _ _ ?_ (fun _ _ hk => ?_))

@[simp] theorem touch_accessDropped (s : State) (x : AccessTx) (hm : subMask 51543539714 m = true) (hs : Touch m s0 s) :
    Touch m s0 (accessDropped s x) := by
  refine Touch.lift hm hs ?_
  clear hs hm
  have hs : Touch 51543539714 s s := .refl _ _
  simp +decide (maxDischargeDepth := 99) [accessDropped, hs, hasBit, subMask]

@[simp] theorem touch_accessTold (s : State) (x : AccessTx) (hm : subMask 768 m = true) (hs : Touch m s0 s) :
    Touch m s0 (accessTold s x) := by
  refine Touch.lift hm hs ?_
  clear hs hm
  have hs : Touch 768 s s := .refl _ _
  simp +decide (maxDischargeDepth := 99) [accessTold, hs, hasBit, subMask]

@[simp] theorem touch_accessDone (s : State) (k : Nat) (acked : Bool) (hm : subMask 1099385537282 m = true) (hs : Touch m s0 s) :
    Touch m s0 (accessDone s k acked) := by
  refine Touch.lift hm hs ?_
  clear hs hm
  have hs : Touch 1099385537282 s s := .refl _ _
  unfold accessDone
  (try dsimp only)
  repeat' (first | with_reducible assumption | (simp +contextual +decide (maxDischargeDepth := 99) [hs, hasBit, subMask]; done) | (simp +contextual +decide (maxDischargeDepth := 99) [hs, hk, hasBit, subMask]; done) | split | refine touch_foldl _ _ _ ?_ (fun _ _ hk => ?_))

@[simp] theorem touch_orphanResume (s : State) (ctx : Nat) (hm : subMask 51963102018 m = true) (hs : Touch m s0 s) :
    Touch m s0 (orphanResume s ctx) := by
  refine Touch.lift hm hs ?_
  clear hs hm
  have hs : Touch 51963102018 s s := .refl _ _
  simp +contextual +decide (maxDischargeDepth := 99) [orphanResume, hs, hasBit, subMask]

@[simp] theorem touch_accessEcho (s : State) (n : Nat) (ctx : Nat) (mapx : Nat) (acked : Bool) (hm : subMask 51610648834 m = true) (hs : Touch m s0 s) :
    Touch m s0 (accessEcho s n ctx mapx acked) := by
  refine Touch.lift hm hs ?_
  clear hs hm
  have hs : Touch 51610648834 s s := .refl _ _
  simp +decide (maxDischargeDepth := 99) [accessEcho, hs, hasBit, subMask]

@[simp] theorem touch_accessOutcome (s : State) (n : Nat) (mapx : Nat) (acked : Bool) (hm : subMask 1099469554498 m = true) (hs : Touch m s0 s) :
    Touch m s0 (accessOutcome s n mapx acked) := by
  refine Touch.lift hm hs ?_
  clear hs hm
  have hs : Touch 1099469554498 s s := .refl _ _
  unfold accessOutcome
  (try dsimp only)
  repeat' (first | with_reducible assumption | (simp +contextual +decide (maxDischargeDepth := 99) [hs, hasBit, subMask]; done) | (simp +contextual +decide (maxDischargeDepth := 99) [hs, hk, hasBit, subMask]; done) | split | refine touch_foldl _ _ _ ?_ (fun _ _ hk => ?_))

end Sys2Proof.Machine
end

