-- ==== Sys2Proof/Laws/TouchAir.lean ====
section
/-! SUPPORT. `Touch` through transmission, the pair link, reception, superframes, delivery: one lemma per operation. -/

set_option linter.all false

namespace Sys2Proof.Machine

variable {m : Nat} {s0 : State}

@[simp] theorem touch_takeGrant (s : State) (n : Nat) (f : LeaveFor) (hm : subMask 16 m = true) (hs : Touch m s0 s) :
    Touch m s0 (takeGrant s n f).1 := by
  refine Touch.lift hm hs ?_
  clear hs hm
  have hs : Touch 16 s s := .refl _ _
  unfold takeGrant
  (try dsimp only)
  repeat' (first | with_reducible assumption | (simp +contextual +decide (maxDischargeDepth := 99) [hs, hasBit, subMask]; done) | (simp +contextual +decide (maxDischargeDepth := 99) [hs, hk, hasBit, subMask]; done) | split | refine touch_foldl _ _ _ ?_ (fun _ _ hk => ?_))

@[simp] theorem touch_backToReady (s : State) (n : Nat) (ctx : Nat) (hm : subMask 272 m = true) (hs : Touch m s0 s) :
    Touch m s0 (backToReady s n ctx) := by
  refine Touch.lift hm hs ?_
  clear hs hm
  have hs : Touch 272 s s := .refl _ _
  simp +decide (maxDischargeDepth := 99) [backToReady, hs, hasBit, subMask]

@[simp] theorem touch_deferLink (s : State) (ctx : Nat) (hm : subMask 256 m = true) (hs : Touch m s0 s) : Touch m s0 (deferLink s ctx) := by
  refine Touch.lift hm hs ?_
  clear hs hm
  have hs : Touch 256 s s := .refl _ _
  simp +decide (maxDischargeDepth := 99) [deferLink, hs, hasBit, subMask]

@[simp] theorem touch_startDrive (s : State) (n : Nat) (vld : Nat) (t : LineTx) (hm : subMask 2198993895552 m = true) (hs : Touch m s0 s) :
    Touch m s0 (startDrive s n vld t) := by
  refine Touch.lift hm hs ?_
  clear hs hm
  have hs : Touch 2198993895552 s s := .refl _ _
  simp +decide (maxDischargeDepth := 99) [startDrive, hs, hasBit, subMask]

@[simp] theorem touch_startLine (s : State) (n : Nat) (vld : Nat) (t : LineTx) (hm : subMask 2198993895552 m = true) (hs : Touch m s0 s) :
    Touch m s0 (startLine s n vld t) := by
  refine Touch.lift hm hs ?_
  clear hs hm
  have hs : Touch 2198993895552 s s := .refl _ _
  simp +decide (maxDischargeDepth := 99) [startLine, hs, hasBit, subMask]

@[simp] theorem touch_limitHit (s : State) (n : Nat) (hm : subMask 1099444519040 m = true) (hs : Touch m s0 s) :
    Touch m s0 (limitHit s n) := by
  refine Touch.lift hm hs ?_
  clear hs hm
  have hs : Touch 1099444519040 s s := .refl _ _
  unfold limitHit
  repeat' split
  all_goals simp +contextual +decide (maxDischargeDepth := 99) [hs, hasBit, subMask]

@[simp] theorem touch_endLine (s : State) (n : Nat) (t : LineTx) (hm : subMask 1099481219216 m = true) (hs : Touch m s0 s) :
    Touch m s0 (endLine s n t) := by
  refine Touch.lift hm hs ?_
  clear hs hm
  have hs : Touch 1099481219216 s s := .refl _ _
  simp +decide (maxDischargeDepth := 99) [endLine, hs, hasBit, subMask]

@[simp] theorem touch_lineMissed (s : State) (n : Nat) (t : LineTx) (hm : subMask 1099469587394 m = true) (hs : Touch m s0 s) :
    Touch m s0 (lineMissed s n t) := by
  refine Touch.lift hm hs ?_
  clear hs hm
  have hs : Touch 1099469587394 s s := .refl _ _
  simp +decide (maxDischargeDepth := 99) [lineMissed, hs, hasBit, subMask]

@[simp] theorem touch_lineOver (s : State) (n : Nat) (t : LineTx) (hm : subMask 1099385537410 m = true) (hs : Touch m s0 s) :
    Touch m s0 (lineOver s n t) := by
  refine Touch.lift hm hs ?_
  clear hs hm
  have hs : Touch 1099385537410 s s := .refl _ _
  unfold lineOver
  (try dsimp only)
  repeat' (first | with_reducible assumption | (simp +contextual +decide (maxDischargeDepth := 99) [hs, hasBit, subMask]; done) | (simp +contextual +decide (maxDischargeDepth := 99) [hs, hk, hasBit, subMask]; done) | split | refine touch_foldl _ _ _ ?_ (fun _ _ hk => ?_))

@[simp] theorem touch_endEarly (s : State) (n : Nat) (t : LineTx) (own : List TxWin) (hm : subMask 1099485413520 m = true) (hs : Touch m s0 s) :
    Touch m s0 (endEarly s n t own) := by
  refine Touch.lift hm hs ?_
  clear hs hm
  have hs : Touch 1099485413520 s s := .refl _ _
  simp +decide (maxDischargeDepth := 99) [endEarly, hs, hasBit, subMask]

@[simp] theorem touch_stopLine (s : State) (n : Nat) (t : LineTx) (own : List TxWin) (hm : subMask 1099485413776 m = true) (hs : Touch m s0 s) :
    Touch m s0 (stopLine s n t own) := by
  refine Touch.lift hm hs ?_
  clear hs hm
  have hs : Touch 1099485413776 s s := .refl _ _
  simp +decide (maxDischargeDepth := 99) [stopLine, hs, hasBit, subMask]

@[simp] theorem touch_abortLine (s : State) (n : Nat) (t : LineTx) (own : List TxWin) (hm : subMask 1099503141842 m = true) (hs : Touch m s0 s) :
    Touch m s0 (abortLine s n t own) := by
  refine Touch.lift hm hs ?_
  clear hs hm
  have hs : Touch 1099503141842 s s := .refl _ _
  simp +decide (maxDischargeDepth := 99) [abortLine, hs, hasBit, subMask]

@[simp] theorem touch_lineFinish (s : State) (n : Nat) (t : LineTx) (own : List TxWin) (hm : subMask 1099486200722 m = true) (hs : Touch m s0 s) :
    Touch m s0 (lineFinish s n t own) := by
  refine Touch.lift hm hs ?_
  clear hs hm
  have hs : Touch 1099486200722 s s := .refl _ _
  simp +decide (maxDischargeDepth := 99) [lineFinish, hs, hasBit, subMask]

@[simp] theorem touch_nextSymbol (s : State) (n : Nat) (t : LineTx) (hm : subMask 1099478073472 m = true) (hs : Touch m s0 s) :
    Touch m s0 (nextSymbol s n t) := by
  refine Touch.lift hm hs ?_
  clear hs hm
  have hs : Touch 1099478073472 s s := .refl _ _
  simp +decide (maxDischargeDepth := 99) [nextSymbol, hs, hasBit, subMask]

@[simp] theorem touch_symbolSent (s : State) (n : Nat) (t : LineTx) (own : List TxWin) (hm : subMask 1099503141874 m = true) (hs : Touch m s0 s) :
    Touch m s0 (symbolSent s n t own) := by
  refine Touch.lift hm hs ?_
  clear hs hm
  have hs : Touch 1099503141874 s s := .refl _ _
  simp +decide (maxDischargeDepth := 99) [symbolSent, hs, hasBit, subMask]

@[simp] theorem touch_tailOver (s : State) (n : Nat) (hm : subMask 1099486200722 m = true) (hs : Touch m s0 s) :
    Touch m s0 (tailOver s n) := by
  refine Touch.lift hm hs ?_
  clear hs hm
  have hs : Touch 1099486200722 s s := .refl _ _
  unfold tailOver
  (try dsimp only)
  repeat' (first | with_reducible assumption | (simp +contextual +decide (maxDischargeDepth := 99) [hs, hasBit, subMask]; done) | (simp +contextual +decide (maxDischargeDepth := 99) [hs, hk, hasBit, subMask]; done) | split | refine touch_foldl _ _ _ ?_ (fun _ _ hk => ?_))

@[simp] theorem touch_tailsOver (s : State) (hm : subMask 1099486200722 m = true) (hs : Touch m s0 s) : Touch m s0 (tailsOver s) := by
  refine Touch.lift hm hs ?_
  clear hs hm
  have hs : Touch 1099486200722 s s := .refl _ _
  simp +contextual +decide (maxDischargeDepth := 99) [tailsOver, hs, hasBit, subMask]

@[simp] theorem touch_gainStep (s : State) (n : Nat) (peak : Nat) (clip : Bool) (hm : subMask 1099478073472 m = true) (hs : Touch m s0 s) :
    Touch m s0 (gainStep s n peak clip) := by
  refine Touch.lift hm hs ?_
  clear hs hm
  have hs : Touch 1099478073472 s s := .refl _ _
  unfold gainStep
  (try dsimp only)
  repeat' (first | with_reducible assumption | (simp +contextual +decide (maxDischargeDepth := 99) [hs, hasBit, subMask]; done) | (simp +contextual +decide (maxDischargeDepth := 99) [hs, hk, hasBit, subMask]; done) | split | refine touch_foldl _ _ _ ?_ (fun _ _ hk => ?_))

@[simp] theorem touch_symbolHeard (s : State) (n : Nat) (peak : Nat) (x : List RxSample) (hm : subMask 1099478073472 m = true) (hs : Touch m s0 s) :
    Touch m s0 (symbolHeard s n peak x) := by
  refine Touch.lift hm hs ?_
  clear hs hm
  have hs : Touch 1099478073472 s s := .refl _ _
  simp +decide (maxDischargeDepth := 99) [symbolHeard, hs, hasBit, subMask]

@[simp] theorem touch_lineEnd (s : State) (n : Nat) (own : List TxWin) (hm : subMask 1099486200818 m = true) (hs : Touch m s0 s) :
    Touch m s0 (lineEnd s n own) := by
  refine Touch.lift hm hs ?_
  clear hs hm
  have hs : Touch 1099486200818 s s := .refl _ _
  unfold lineEnd
  (try dsimp only)
  repeat' (first | with_reducible assumption | (simp +contextual +decide (maxDischargeDepth := 99) [hs, hasBit, subMask]; done) | (simp +contextual +decide (maxDischargeDepth := 99) [hs, hk, hasBit, subMask]; done) | split | refine touch_foldl _ _ _ ?_ (fun _ _ hk => ?_))

@[simp] theorem touch_placeCarrier (s : State) (ctx : Nat) (it : TxItem) (hm : subMask 256 m = true) (hs : Touch m s0 s) :
    Touch m s0 (placeCarrier s ctx it) := by
  refine Touch.lift hm hs ?_
  clear hs hm
  have hs : Touch 256 s s := .refl _ _
  simp +decide (maxDischargeDepth := 99) [placeCarrier, hs, hasBit, subMask]

@[simp] theorem touch_countTry (s : State) (ctx : Nat) (slot : Nat) (it : TxItem) (mode : Nat) (hm : subMask 51547898114 m = true) (hs : Touch m s0 s) :
    Touch m s0 (countTry s ctx slot it mode) := by
  refine Touch.lift hm hs ?_
  clear hs hm
  have hs : Touch 51547898114 s s := .refl _ _
  simp +decide (maxDischargeDepth := 99) [countTry, hs, hasBit, subMask]

@[simp] theorem touch_tooBig (s : State) (n : Nat) (ctx : Nat) (it : TxItem) (hm : subMask 1099381473538 m = true) (hs : Touch m s0 s) :
    Touch m s0 (tooBig s n ctx it) := by
  refine Touch.lift hm hs ?_
  clear hs hm
  have hs : Touch 1099381473538 s s := .refl _ _
  simp +decide (maxDischargeDepth := 99) [tooBig, hs, hasBit, subMask]

@[simp] theorem touch_sendLine (s : State) (n : Nat) (vld : Nat) (a : Alloc) (it : TxItem) (granted : Nat) (hm : subMask 2198997991826 m = true) (hs : Touch m s0 s) :
    Touch m s0 (sendLine s n vld a it granted) := by
  refine Touch.lift hm hs ?_
  clear hs hm
  have hs : Touch 2198997991826 s s := .refl _ _
  unfold sendLine
  (try dsimp only)
  repeat' (first | with_reducible assumption | (simp +contextual +decide (maxDischargeDepth := 99) [hs, hasBit, subMask]; done) | (simp +contextual +decide (maxDischargeDepth := 99) [hs, hk, hasBit, subMask]; done) | split | refine touch_foldl _ _ _ ?_ (fun _ _ hk => ?_))

@[simp] theorem touch_takeTestFc (s : State) (n : Nat) (hm : subMask 256 m = true) (hs : Touch m s0 s) :
    Touch m s0 (takeTestFc s n).2 := by
  refine Touch.lift hm hs ?_
  clear hs hm
  have hs : Touch 256 s s := .refl _ _
  simp +contextual +decide (maxDischargeDepth := 99) [takeTestFc, hs, hasBit, subMask]

@[simp] theorem touch_testLine (s : State) (n : Nat) (slot : Nat) (vld : Nat) (hm : subMask 2198993895824 m = true) (hs : Touch m s0 s) :
    Touch m s0 (testLine s n slot vld) := by
  refine Touch.lift hm hs ?_
  clear hs hm
  have hs : Touch 2198993895824 s s := .refl _ _
  unfold testLine
  (try dsimp only)
  repeat' (first | with_reducible assumption | (simp +contextual +decide (maxDischargeDepth := 99) [hs, hasBit, subMask]; done) | (simp +contextual +decide (maxDischargeDepth := 99) [hs, hk, hasBit, subMask]; done) | split | refine touch_foldl _ _ _ ?_ (fun _ _ hk => ?_))

@[simp] theorem touch_frameStart (s : State) (n : Nat) (slot : Nat) (vld : Nat) (hm : subMask 2198997992434 m = true) (hs : Touch m s0 s) :
    Touch m s0 (frameStart s n slot vld) := by
  refine Touch.lift hm hs ?_
  clear hs hm
  have hs : Touch 2198997992434 s s := .refl _ _
  unfold frameStart
  (try dsimp only)
  repeat' (first | with_reducible assumption | (simp +contextual +decide (maxDischargeDepth := 99) [hs, hasBit, subMask]; done) | (simp +contextual +decide (maxDischargeDepth := 99) [hs, hk, hasBit, subMask]; done) | split | refine touch_foldl _ _ _ ?_ (fun _ _ hk => ?_))

@[simp] theorem touch_beaconLine (s : State) (n : Nat) (vld : Nat) (hm : subMask 2198997828594 m = true) (hs : Touch m s0 s) :
    Touch m s0 (beaconLine s n vld) := by
  refine Touch.lift hm hs ?_
  clear hs hm
  have hs : Touch 2198997828594 s s := .refl _ _
  simp +decide (maxDischargeDepth := 99) [beaconLine, hs, hasBit, subMask]

@[simp] theorem touch_accessPayload (s : State) (x : AccessTx) (elem : Bytes) (hm : subMask 51543671042 m = true) (hs : Touch m s0 s) :
    Touch m s0 (accessPayload s x elem).2.2 := by
  refine Touch.lift hm hs ?_
  clear hs hm
  have hs : Touch 51543671042 s s := .refl _ _
  unfold accessPayload
  (try dsimp only)
  repeat' (first | with_reducible assumption | (simp +contextual +decide (maxDischargeDepth := 99) [hs, hasBit, subMask]; done) | (simp +contextual +decide (maxDischargeDepth := 99) [hs, hk, hasBit, subMask]; done) | split | refine touch_foldl _ _ _ ?_ (fun _ _ hk => ?_))

@[simp] theorem touch_setAccess (s : State) (k : Nat) (x : AccessTx) (hm : subMask 256 m = true) (hs : Touch m s0 s) :
    Touch m s0 (setAccess s k x) := by
  refine Touch.lift hm hs ?_
  clear hs hm
  have hs : Touch 256 s s := .refl _ _
  simp +contextual +decide (maxDischargeDepth := 99) [setAccess, hs, hasBit, subMask]

@[simp] theorem touch_dropAccess (s : State) (k : Nat) (hm : subMask 256 m = true) (hs : Touch m s0 s) :
    Touch m s0 (dropAccess s k) := by
  refine Touch.lift hm hs ?_
  clear hs hm
  have hs : Touch 256 s s := .refl _ _
  simp +contextual +decide (maxDischargeDepth := 99) [dropAccess, hs, hasBit, subMask]

@[simp] theorem touch_accessLine (s : State) (n : Nat) (vld : Nat) (hm : subMask 2198997959666 m = true) (hs : Touch m s0 s) :
    Touch m s0 (accessLine s n vld) := by
  refine Touch.lift hm hs ?_
  clear hs hm
  have hs : Touch 2198997959666 s s := .refl _ _
  unfold accessLine
  repeat' split
  all_goals simp +contextual +decide (maxDischargeDepth := 99) [hs, hasBit, subMask]

@[simp] theorem touch_lineAck (s : State) (n : Nat) (ws : List (List RxSample)) (hm : subMask 1099469587426 m = true) (hs : Touch m s0 s) :
    Touch m s0 (lineAck s n ws) := by
  refine Touch.lift hm hs ?_
  clear hs hm
  have hs : Touch 1099469587426 s s := .refl _ _
  unfold lineAck
  (try dsimp only)
  repeat' (first | with_reducible assumption | (simp +contextual +decide (maxDischargeDepth := 99) [hs, hasBit, subMask]; done) | (simp +contextual +decide (maxDischargeDepth := 99) [hs, hk, hasBit, subMask]; done) | split | refine touch_foldl _ _ _ ?_ (fun _ _ hk => ?_))

@[simp] theorem touch_lineTail (s : State) (n : Nat) (vld : Nat) (hm : subMask 2198993895648 m = true) (hs : Touch m s0 s) :
    Touch m s0 (lineTail s n vld) := by
  refine Touch.lift hm hs ?_
  clear hs hm
  have hs : Touch 2198993895648 s s := .refl _ _
  unfold lineTail
  (try dsimp only)
  repeat' (first | with_reducible assumption | (simp +contextual +decide (maxDischargeDepth := 99) [hs, hasBit, subMask]; done) | (simp +contextual +decide (maxDischargeDepth := 99) [hs, hk, hasBit, subMask]; done) | split | refine touch_foldl _ _ _ ?_ (fun _ _ hk => ?_))

@[simp] theorem touch_startRadio (s : State) (o : RadioOut) (leave : Bool) (hm : subMask 536871936 m = true) (hs : Touch m s0 s) :
    Touch m s0 (startRadio s o leave) := by
  refine Touch.lift hm hs ?_
  clear hs hm
  have hs : Touch 536871936 s s := .refl _ _
  simp +decide (maxDischargeDepth := 99) [startRadio, hs, hasBit, subMask]

@[simp] theorem touch_radioGrant (s : State) (f : LeaveFor) (hm : subMask 16 m = true) (hs : Touch m s0 s) :
    Touch m s0 (radioGrant s f).1 := by
  refine Touch.lift hm hs ?_
  clear hs hm
  have hs : Touch 16 s s := .refl _ _
  unfold radioGrant
  (try dsimp only)
  repeat' (first | with_reducible assumption | (simp +contextual +decide (maxDischargeDepth := 99) [hs, hasBit, subMask]; done) | (simp +contextual +decide (maxDischargeDepth := 99) [hs, hk, hasBit, subMask]; done) | split | refine touch_foldl _ _ _ ?_ (fun _ _ hk => ?_))

@[simp] theorem touch_sendRadio (s : State) (a : Alloc) (it : TxItem) (hm : subMask 1099385701650 m = true) (hs : Touch m s0 s) :
    Touch m s0 (sendRadio s a it) := by
  refine Touch.lift hm hs ?_
  clear hs hm
  have hs : Touch 1099385701650 s s := .refl _ _
  simp +decide (maxDischargeDepth := 99) [sendRadio, hs, hasBit, subMask]

@[simp] theorem touch_testRadioSend (s : State) (slot : Nat) (alen : Nat) (x3 : Option Nat) (hm : subMask 536872208 m = true) (hs : Touch m s0 s) :
    Touch m s0 (testRadioSend s slot alen x3) := by
  refine Touch.lift hm hs ?_
  clear hs hm
  have hs : Touch 536872208 s s := .refl _ _
  unfold testRadioSend
  (try dsimp only)
  repeat' (first | with_reducible assumption | (simp +contextual +decide (maxDischargeDepth := 99) [hs, hasBit, subMask]; done) | (simp +contextual +decide (maxDischargeDepth := 99) [hs, hk, hasBit, subMask]; done) | split | refine touch_foldl _ _ _ ?_ (fun _ _ hk => ?_))

@[simp] theorem touch_testRadio (s : State) (slot : Nat) (hm : subMask 536872208 m = true) (hs : Touch m s0 s) :
    Touch m s0 (testRadio s slot) := by
  refine Touch.lift hm hs ?_
  clear hs hm
  have hs : Touch 536872208 s s := .refl _ _
  unfold testRadio
  (try dsimp only)
  repeat' (first | with_reducible assumption | (simp +contextual +decide (maxDischargeDepth := 99) [hs, hasBit, subMask]; done) | (simp +contextual +decide (maxDischargeDepth := 99) [hs, hk, hasBit, subMask]; done) | split | refine touch_foldl _ _ _ ?_ (fun _ _ hk => ?_))

@[simp] theorem touch_radioStart (s : State) (slot : Nat) (hm : subMask 1099385701746 m = true) (hs : Touch m s0 s) :
    Touch m s0 (radioStart s slot) := by
  refine Touch.lift hm hs ?_
  clear hs hm
  have hs : Touch 1099385701746 s s := .refl _ _
  unfold radioStart
  (try dsimp only)
  repeat' (first | with_reducible assumption | (simp +contextual +decide (maxDischargeDepth := 99) [hs, hasBit, subMask]; done) | (simp +contextual +decide (maxDischargeDepth := 99) [hs, hk, hasBit, subMask]; done) | split | refine touch_foldl _ _ _ ?_ (fun _ _ hk => ?_))

@[simp] theorem touch_beaconRadio (s : State) (hm : subMask 34899756400 m = true) (hs : Touch m s0 s) :
    Touch m s0 (beaconRadio s) := by
  refine Touch.lift hm hs ?_
  clear hs hm
  have hs : Touch 34899756400 s s := .refl _ _
  simp +decide (maxDischargeDepth := 99) [beaconRadio, hs, hasBit, subMask]

@[simp] theorem touch_accessRadio (s : State) (hm : subMask 52080543090 m = true) (hs : Touch m s0 s) :
    Touch m s0 (accessRadio s) := by
  refine Touch.lift hm hs ?_
  clear hs hm
  have hs : Touch 52080543090 s s := .refl _ _
  unfold accessRadio
  repeat' split
  all_goals simp +contextual +decide (maxDischargeDepth := 99) [hs, hasBit, subMask]

@[simp] theorem touch_paFall (s : State) (hm : subMask 4195328 m = true) (hs : Touch m s0 s) : Touch m s0 (paFall s) := by
  refine Touch.lift hm hs ?_
  clear hs hm
  have hs : Touch 4195328 s s := .refl _ _
  simp +decide (maxDischargeDepth := 99) [paFall, hs, hasBit, subMask]

@[simp] theorem touch_radioEnd (s : State) (hm : subMask 1099385538418 m = true) (hs : Touch m s0 s) :
    Touch m s0 (radioEnd s) := by
  refine Touch.lift hm hs ?_
  clear hs hm
  have hs : Touch 1099385538418 s s := .refl _ _
  unfold radioEnd
  (try dsimp only)
  repeat' (first | with_reducible assumption | (simp +contextual +decide (maxDischargeDepth := 99) [hs, hasBit, subMask]; done) | (simp +contextual +decide (maxDischargeDepth := 99) [hs, hk, hasBit, subMask]; done) | split | refine touch_foldl _ _ _ ?_ (fun _ _ hk => ?_))

@[simp] theorem touch_radioTail (s : State) (hm : subMask 1120 m = true) (hs : Touch m s0 s) :
    Touch m s0 (radioTail s) := by
  refine Touch.lift hm hs ?_
  clear hs hm
  have hs : Touch 1120 s s := .refl _ _
  unfold radioTail
  repeat' split
  all_goals simp +contextual +decide (maxDischargeDepth := 99) [hs, hasBit, subMask]

@[simp] theorem touch_radioChecks (s : State) (air : RadioAir) (scan : Bool) (win : Nat → Bool) (span : RadioSig → Nat × Nat) (hm : subMask 536871008 m = true) (hs : Touch m s0 s) :
    Touch m s0 (radioChecks s air scan win span).1 := by
  refine Touch.lift hm hs ?_
  clear hs hm
  have hs : Touch 536871008 s s := .refl _ _
  unfold radioChecks
  (try dsimp only)
  repeat' (first | with_reducible assumption | (simp +contextual +decide (maxDischargeDepth := 99) [hs, hasBit, subMask]; done) | (simp +contextual +decide (maxDischargeDepth := 99) [hs, hk, hasBit, subMask]; done) | split | refine touch_foldl _ _ _ ?_ (fun _ _ hk => ?_))

@[simp] theorem touch_radioAck (s : State) (air : RadioAir) (hm : subMask 1099469588322 m = true) (hs : Touch m s0 s) :
    Touch m s0 (radioAck s air) := by
  refine Touch.lift hm hs ?_
  clear hs hm
  have hs : Touch 1099469588322 s s := .refl _ _
  unfold radioAck
  (try dsimp only)
  repeat' (first | with_reducible assumption | (simp +contextual +decide (maxDischargeDepth := 99) [hs, hasBit, subMask]; done) | (simp +contextual +decide (maxDischargeDepth := 99) [hs, hk, hasBit, subMask]; done) | split | refine touch_foldl _ _ _ ?_ (fun _ _ hk => ?_))

@[simp] theorem touch_putFrame (s : State) (b : Bytes) (hm : subMask 16384 m = true) (hs : Touch m s0 s) : Touch m s0 (putFrame s b) := by
  refine Touch.lift hm hs ?_
  clear hs hm
  have hs : Touch 16384 s s := .refl _ _
  simp +decide (maxDischargeDepth := 99) [putFrame, hs, hasBit, subMask]

@[simp] theorem touch_ringWrite (s : State) (at_ : Nat) (b : Bytes) (hm : subMask 51543539714 m = true) (hs : Touch m s0 s) :
    Touch m s0 (ringWrite s at_ b) := by
  refine Touch.lift hm hs ?_
  clear hs hm
  have hs : Touch 51543539714 s s := .refl _ _
  simp +decide (maxDischargeDepth := 99) [ringWrite, hs, hasBit, subMask]

@[simp] theorem touch_ringRead (s : State) (f : SentFrame) (hm : subMask 51543539712 m = true) (hs : Touch m s0 s) :
    Touch m s0 (ringRead s f) := by
  refine Touch.lift hm hs ?_
  clear hs hm
  have hs : Touch 51543539712 s s := .refl _ _
  simp +contextual +decide (maxDischargeDepth := 99) [ringRead, hs, hasBit, subMask]

@[simp] theorem touch_startResync (s : State) (hm : subMask 2267742879744 m = true) (hs : Touch m s0 s) :
    Touch m s0 (startResync s) := by
  refine Touch.lift hm hs ?_
  clear hs hm
  have hs : Touch 2267742879744 s s := .refl _ _
  simp +contextual +decide (maxDischargeDepth := 99) [startResync, hs, hasBit, subMask]

@[simp] theorem touch_pieceRead (s : State) (x1 : Piece) (hm : subMask 51543539712 m = true) (hs : Touch m s0 s) :
    Touch m s0 (pieceRead s x1) := by
  refine Touch.lift hm hs ?_
  clear hs hm
  have hs : Touch 51543539712 s s := .refl _ _
  unfold pieceRead
  (try dsimp only)
  repeat' (first | with_reducible assumption | (simp +contextual +decide (maxDischargeDepth := 99) [hs, hasBit, subMask]; done) | (simp +contextual +decide (maxDischargeDepth := 99) [hs, hk, hasBit, subMask]; done) | split | refine touch_foldl _ _ _ ?_ (fun _ _ hk => ?_))

@[simp] theorem touch_sendFrame (s : State) (b : Bytes) (rec_ : Bool) (hm : subMask 51543556098 m = true) (hs : Touch m s0 s) :
    Touch m s0 (sendFrame s b rec_) := by
  refine Touch.lift hm hs ?_
  clear hs hm
  have hs : Touch 51543556098 s s := .refl _ _
  simp +decide (maxDischargeDepth := 99) [sendFrame, hs, hasBit, subMask]

@[simp] theorem touch_sendChunk (s : State) (p : Piece) (rest : List Piece) (hm : subMask 120263032834 m = true) (hs : Touch m s0 s) :
    Touch m s0 (sendChunk s p rest) := by
  refine Touch.lift hm hs ?_
  clear hs hm
  have hs : Touch 120263032834 s s := .refl _ _
  simp +decide (maxDischargeDepth := 99) [sendChunk, hs, hasBit, subMask]

@[simp] theorem touch_sendRecord (s : State) (hm : subMask 2319286419458 m = true) (hs : Touch m s0 s) : Touch m s0 (sendRecord s) := by
  refine Touch.lift hm hs ?_
  clear hs hm
  have hs : Touch 2319286419458 s s := .refl _ _
  unfold sendRecord
  have h1 : Touch 2319286419458 s ({ s with erf := { s.erf with chunkTurn := !s.erf.copyLeft.isEmpty } } : State) := by
    simp +decide [hs, hasBit]
  revert h1
  generalize ({ s with erf := { s.erf with chunkTurn := !s.erf.copyLeft.isEmpty } } : State) = s1
  intro h1
  dsimp only
  split
  · exact h1
  · split
    · exact h1
    · have h2 := touch_takeQ s1 12 (m := 2319286419458) (by decide) h1
      revert h2
      generalize takeQ s1 12 = r
      intro h2
      obtain ⟨t, x⟩ := r
      rcases x with _ | p | _
      · exact h2
      · exact touch_sendFrame _ _ _ (by decide) h2
      · exact touch_startResync _ (by decide) h2

@[simp] theorem touch_sendAgain (s : State) (f : SentFrame) (rest : List SentFrame) (hm : subMask 2319286419456 m = true) (hs : Touch m s0 s) :
    Touch m s0 (sendAgain s f rest) := by
  refine Touch.lift hm hs ?_
  clear hs hm
  have hs : Touch 2319286419456 s s := .refl _ _
  simp +decide (maxDischargeDepth := 99) [sendAgain, hs, hasBit, subMask]

@[simp] theorem touch_frameTx (s : State) (hm : subMask 2319286419458 m = true) (hs : Touch m s0 s) :
    Touch m s0 (frameTx s) := by
  refine Touch.lift hm hs ?_
  clear hs hm
  have hs : Touch 2319286419458 s s := .refl _ _
  unfold frameTx
  (try dsimp only)
  repeat' (first | with_reducible assumption | (simp +contextual +decide (maxDischargeDepth := 99) [hs, hasBit, subMask]; done) | (simp +contextual +decide (maxDischargeDepth := 99) [hs, hk, hasBit, subMask]; done) | split | refine touch_foldl _ _ _ ?_ (fun _ _ hk => ?_))

@[simp] theorem touch_takeNak (s : State) (n : Nat) (hm : subMask 2267742879744 m = true) (hs : Touch m s0 s) :
    Touch m s0 (takeNak s n) := by
  refine Touch.lift hm hs ?_
  clear hs hm
  have hs : Touch 2267742879744 s s := .refl _ _
  simp +contextual +decide (maxDischargeDepth := 99) [takeNak, hs, hasBit, subMask]

@[simp] theorem touch_takeAck (s : State) (n : Nat) (hm : subMask 16384 m = true) (hs : Touch m s0 s) :
    Touch m s0 (takeAck s n) := by
  refine Touch.lift hm hs ?_
  clear hs hm
  have hs : Touch 16384 s s := .refl _ _
  simp +contextual +decide (maxDischargeDepth := 99) [takeAck, hs, hasBit, subMask]

@[simp] theorem touch_mirrorOff (s : State) (hm : subMask 2199023271936 m = true) (hs : Touch m s0 s) : Touch m s0 (mirrorOff s) := by
  refine Touch.lift hm hs ?_
  clear hs hm
  have hs : Touch 2199023271936 s s := .refl _ _
  simp +decide (maxDischargeDepth := 99) [mirrorOff, hs, hasBit, subMask]

@[simp] theorem touch_heartbeatTx (s : State) (hm : subMask 68719493120 m = true) (hs : Touch m s0 s) :
    Touch m s0 (heartbeatTx s) := by
  refine Touch.lift hm hs ?_
  clear hs hm
  have hs : Touch 68719493120 s s := .refl _ _
  simp +contextual +decide (maxDischargeDepth := 99) [heartbeatTx, hs, hasBit, subMask]

@[simp] theorem touch_peerDead (s : State) (hm : subMask 2876558440730 m = true) (hs : Touch m s0 s) :
    Touch m s0 (peerDead s) := by
  refine Touch.lift hm hs ?_
  clear hs hm
  have hs : Touch 2876558440730 s s := .refl _ _
  simp +contextual +decide (maxDischargeDepth := 99) [peerDead, hs, hasBit, subMask]

@[simp] theorem touch_takeRootTime (s : State) (h : Heartbeat) (hm : subMask 16809456 m = true) (hs : Touch m s0 s) :
    Touch m s0 (takeRootTime s h) := by
  refine Touch.lift hm hs ?_
  clear hs hm
  have hs : Touch 16809456 s s := .refl _ _
  simp +contextual +decide (maxDischargeDepth := 99) [takeRootTime, hs, hasBit, subMask]

@[simp] theorem touch_takeLanes (s : State) (lanes : Nat) (hm : subMask 103082360832 m = true) (hs : Touch m s0 s) :
    Touch m s0 (takeLanes s lanes) := by
  refine Touch.lift hm hs ?_
  clear hs hm
  have hs : Touch 103082360832 s s := .refl _ _
  simp +decide (maxDischargeDepth := 99) [takeLanes, hs, hasBit, subMask]

@[simp] theorem touch_takePrimary (s : State) (h : Heartbeat) (hm : subMask 677535186330 m = true) (hs : Touch m s0 s) :
    Touch m s0 (takePrimary s h) := by
  refine Touch.lift hm hs ?_
  clear hs hm
  have hs : Touch 677535186330 s s := .refl _ _
  simp +contextual +decide (maxDischargeDepth := 99) [takePrimary, hs, hasBit, subMask]

@[simp] theorem touch_peerHeard (s : State) (h : Heartbeat) (hm : subMask 103082377216 m = true) (hs : Touch m s0 s) :
    Touch m s0 (peerHeard s h) := by
  refine Touch.lift hm hs ?_
  clear hs hm
  have hs : Touch 103082377216 s s := .refl _ _
  simp +contextual +decide (maxDischargeDepth := 99) [peerHeard, hs, hasBit, subMask]

@[simp] theorem touch_firstHeard (s : State) (h : Heartbeat) (first : Bool) (hm : subMask 68719476736 m = true) (hs : Touch m s0 s) :
    Touch m s0 (firstHeard s h first) := by
  refine Touch.lift hm hs ?_
  clear hs hm
  have hs : Touch 68719476736 s s := .refl _ _
  simp +decide (maxDischargeDepth := 99) [firstHeard, hs, hasBit, subMask]

@[simp] theorem touch_copyHeard (s : State) (h : Heartbeat) (hm : subMask 68719493120 m = true) (hs : Touch m s0 s) :
    Touch m s0 (copyHeard s h) := by
  refine Touch.lift hm hs ?_
  clear hs hm
  have hs : Touch 68719493120 s s := .refl _ _
  simp +contextual +decide (maxDischargeDepth := 99) [copyHeard, hs, hasBit, subMask]

@[simp] theorem touch_primaryHears (s : State) (h : Heartbeat) (resync : Bool) (hm : subMask 2267742879744 m = true) (hs : Touch m s0 s) :
    Touch m s0 (primaryHears s h resync) := by
  refine Touch.lift hm hs ?_
  clear hs hm
  have hs : Touch 2267742879744 s s := .refl _ _
  simp +decide (maxDischargeDepth := 99) [primaryHears, hs, hasBit, subMask]

@[simp] theorem touch_heartbeatRx (s : State) (h : Heartbeat) (hm : subMask 2876575219194 m = true) (hs : Touch m s0 s) :
    Touch m s0 (heartbeatRx s h) := by
  refine Touch.lift hm hs ?_
  clear hs hm
  have hs : Touch 2876575219194 s s := .refl _ _
  simp +decide (maxDischargeDepth := 99) [heartbeatRx, hs, hasBit, subMask]

@[simp] theorem touch_dropLanes (s : State) (x1 : Nat) (hm : subMask 68719476736 m = true) (hs : Touch m s0 s) :
    Touch m s0 (dropLanes s x1) := by
  refine Touch.lift hm hs ?_
  clear hs hm
  have hs : Touch 68719476736 s s := .refl _ _
  suffices key : ∀ b0, Touch 68719476736 b0 s → Touch 68719476736 b0 (dropLanes s x1) from key _ hs
  clear hs
  intro b0 hs
  induction x1 generalizing s with
  | zero => exact hs
  | succ n ih =>
    unfold dropLanes
    (try dsimp only)
    repeat' (first | with_reducible assumption | (simp +contextual +decide (maxDischargeDepth := 99) [hs, ih, hasBit, subMask]; done) | split | (refine ih _ ?_) | (refine ih _ _ ?_) | (refine ih _ _ _ ?_) | refine touch_foldl _ _ _ ?_ (fun _ _ hk => ?_))

@[simp] theorem touch_hearLane (s : State) (k : Nat) (g : List (BitVec 10)) (hm : subMask 68719493120 m = true) (hs : Touch m s0 s) :
    Touch m s0 (hearLane s k g).1 := by
  refine Touch.lift hm hs ?_
  clear hs hm
  have hs : Touch 68719493120 s s := .refl _ _
  simp +decide (maxDischargeDepth := 99) [hearLane, hs, hasBit, subMask]

@[simp] theorem touch_erfRejected (s : State) (a : Nat) (v : Nat) (hm : subMask 68719476736 m = true) (hs : Touch m s0 s) :
    Touch m s0 (erfRejected s a v) := by
  refine Touch.lift hm hs ?_
  clear hs hm
  have hs : Touch 68719476736 s s := .refl _ _
  simp +decide (maxDischargeDepth := 99) [erfRejected, hs, hasBit, subMask]

@[simp] theorem touch_formPair (s : State) (v : Verdicts) (hm : subMask 4243456 m = true) (hs : Touch m s0 s) :
    Touch m s0 (formPair s v) := by
  refine Touch.lift hm hs ?_
  clear hs hm
  have hs : Touch 4243456 s s := .refl _ _
  simp +decide (maxDischargeDepth := 99) [formPair, hs, hasBit, subMask]

@[simp] theorem touch_erfAct (old : State) (s : State) (a : Nat) (v : Nat) (vd : Verdicts) (hm : subMask 2876562667802 m = true) (hs : Touch m s0 s) :
    Touch m s0 (erfAct old s a v vd) := by
  refine Touch.lift hm hs ?_
  clear hs hm
  have hs : Touch 2876562667802 s s := .refl _ _
  simp +decide (maxDischargeDepth := 99) [erfAct, hs, hasBit, subMask]

@[simp] theorem touch_execHeartbeatTx (s : State) (hm : subMask 68719493120 m = true) (hs : Touch m s0 s) :
    TouchBy m s0 (execHeartbeatTx s) := by
  refine Touch.liftBy hm hs ?_
  clear hs hm
  have hs : Touch 68719493120 s s := .refl _ _
  simp +decide (maxDischargeDepth := 99) [execHeartbeatTx, hs, hasBit, subMask]

@[simp] theorem touch_execPeerDead (s : State) (hm : subMask 2876558440826 m = true) (hs : Touch m s0 s) :
    TouchBy m s0 (execPeerDead s) := by
  refine Touch.liftBy hm hs ?_
  clear hs hm
  have hs : Touch 2876558440826 s s := .refl _ _
  simp +decide (maxDischargeDepth := 99) [execPeerDead, hs, hasBit, subMask]

@[simp] theorem touch_execErfFrameTx (s : State) (hm : subMask 2319286419458 m = true) (hs : Touch m s0 s) :
    TouchBy m s0 (execErfFrameTx s) := by
  refine Touch.liftBy hm hs ?_
  clear hs hm
  have hs : Touch 2319286419458 s s := .refl _ _
  simp +decide (maxDischargeDepth := 99) [execErfFrameTx, hs, hasBit, subMask]

@[simp] theorem touch_execAckseqStall (s : State) (hm : subMask 2267742879744 m = true) (hs : Touch m s0 s) :
    TouchBy m s0 (execAckseqStall s) := by
  refine Touch.liftBy hm hs ?_
  clear hs hm
  have hs : Touch 2267742879744 s s := .refl _ _
  simp +decide (maxDischargeDepth := 99) [execAckseqStall, hs, hasBit, subMask]

@[simp] theorem touch_execLaneSyncChange (lane : Fin 2) (groups : List (BitVec 10)) (s : State) (hm : subMask 68719493120 m = true) (hs : Touch m s0 s) :
    TouchBy m s0 (execLaneSyncChange lane groups s) := by
  refine Touch.liftBy hm hs ?_
  clear hs hm
  have hs : Touch 68719493120 s s := .refl _ _
  simp +decide (maxDischargeDepth := 99) [execLaneSyncChange, hs, hasBit, subMask]

@[simp] theorem touch_execEpochRecord (s : State) (hm : subMask 81936 m = true) (hs : Touch m s0 s) :
    TouchBy m s0 (execEpochRecord s) := by
  refine Touch.liftBy hm hs ?_
  clear hs hm
  have hs : Touch 81936 s s := .refl _ _
  simp +contextual +decide (maxDischargeDepth := 99) [execEpochRecord, hs, hasBit, subMask]

@[simp] theorem touch_execNoPrimaryTimeout (s : State) (hm : subMask 677535185274 m = true) (hs : Touch m s0 s) :
    TouchBy m s0 (execNoPrimaryTimeout s) := by
  refine Touch.liftBy hm hs ?_
  clear hs hm
  have hs : Touch 677535185274 s s := .refl _ _
  simp +decide (maxDischargeDepth := 99) [execNoPrimaryTimeout, hs, hasBit, subMask]

@[simp] theorem touch_execOwnInChange (level : Bool) (dt : Nat) (s : State) (hm : subMask 677543573786 m = true) (hs : Touch m s0 s) :
    TouchBy m s0 (execOwnInChange level dt s) := by
  refine Touch.liftBy hm hs ?_
  clear hs hm
  have hs : Touch 677543573786 s s := .refl _ _
  simp +decide (maxDischargeDepth := 99) [execOwnInChange, hs, hasBit, subMask]

@[simp] theorem touch_execOwnClaim (s : State) (hm : subMask 68719493120 m = true) (hs : Touch m s0 s) :
    TouchBy m s0 (execOwnClaim s) := by
  refine Touch.liftBy hm hs ?_
  clear hs hm
  have hs : Touch 68719493120 s s := .refl _ _
  simp +decide (maxDischargeDepth := 99) [execOwnClaim, hs, hasBit, subMask]

@[simp] theorem touch_execGateOpen (s : State) (hm : subMask 104156125200 m = true) (hs : Touch m s0 s) :
    TouchBy m s0 (execGateOpen s) := by
  refine Touch.liftBy hm hs ?_
  clear hs hm
  have hs : Touch 104156125200 s s := .refl _ _
  simp +decide (maxDischargeDepth := 99) [execGateOpen, hs, hasBit, subMask]

@[simp] theorem touch_execLceStallRelease (s : State) (hm : subMask 104156125200 m = true) (hs : Touch m s0 s) :
    TouchBy m s0 (execLceStallRelease s) := by
  refine Touch.liftBy hm hs ?_
  clear hs hm
  have hs : Touch 104156125200 s s := .refl _ _
  simp +decide (maxDischargeDepth := 99) [execLceStallRelease, hs, hasBit, subMask]

@[simp] theorem touch_lastRx (s : State) (n : Nat) (h : FrameHdr) (hm : subMask 1099444518912 m = true) (hs : Touch m s0 s) :
    Touch m s0 (lastRx s n h) := by
  refine Touch.lift hm hs ?_
  clear hs hm
  have hs : Touch 1099444518912 s s := .refl _ _
  simp +decide (maxDischargeDepth := 99) [lastRx, hs, hasBit, subMask]

@[simp] theorem touch_lineAcked (s : State) (n : Nat) (f : RxFrame) (c0 : Option Nat) (len : Nat) (hm : subMask 51610648962 m = true) (hs : Touch m s0 s) :
    Touch m s0 (lineAcked s n f c0 len) := by
  refine Touch.lift hm hs ?_
  clear hs hm
  have hs : Touch 51610648962 s s := .refl _ _
  unfold lineAcked
  (try dsimp only)
  repeat' (first | with_reducible assumption | (simp +contextual +decide (maxDischargeDepth := 99) [hs, hasBit, subMask]; done) | (simp +contextual +decide (maxDischargeDepth := 99) [hs, hk, hasBit, subMask]; done) | split | refine touch_foldl _ _ _ ?_ (fun _ _ hk => ?_))

@[simp] theorem touch_linePass (s : State) (n : Nat) (a : Acq) (f : RxFrame) (hm : subMask 1099469585914 m = true) (hs : Touch m s0 s) :
    Touch m s0 (linePass s n a f) := by
  refine Touch.lift hm hs ?_
  clear hs hm
  have hs : Touch 1099469585914 s s := .refl _ _
  unfold linePass
  (try dsimp only)
  repeat' (first | with_reducible assumption | (simp +contextual +decide (maxDischargeDepth := 99) [hs, hasBit, subMask]; done) | (simp +contextual +decide (maxDischargeDepth := 99) [hs, hk, hasBit, subMask]; done) | split | refine touch_foldl _ _ _ ?_ (fun _ _ hk => ?_))

@[simp] theorem touch_mapReads (s : State) (c0 : Option Nat) (hm : subMask 51543539712 m = true) (hs : Touch m s0 s) :
    Touch m s0 (mapReads s c0) := by
  refine Touch.lift hm hs ?_
  clear hs hm
  have hs : Touch 51543539712 s s := .refl _ _
  unfold mapReads
  (try dsimp only)
  repeat' (first | with_reducible assumption | (simp +contextual +decide (maxDischargeDepth := 99) [hs, hasBit, subMask]; done) | (simp +contextual +decide (maxDischargeDepth := 99) [hs, hk, hasBit, subMask]; done) | split | refine touch_foldl _ _ _ ?_ (fun _ _ hk => ?_))

@[simp] theorem touch_acquireFrame (s : State) (n : Nat) (slot : Nat) (t : Nat) (e : Nat × List Nat × List Nat × Nat) (x : List RxSample) (hm : subMask 1099444519136 m = true) (hs : Touch m s0 s) :
    Touch m s0 (acquireFrame s n slot t e x) := by
  refine Touch.lift hm hs ?_
  clear hs hm
  have hs : Touch 1099444519136 s s := .refl _ _
  simp +decide (maxDischargeDepth := 99) [acquireFrame, hs, hasBit, subMask]

@[simp] theorem touch_preambleAt (s : State) (n : Nat) (slot : Nat) (start : Nat) (x : List RxSample) (hm : subMask 1099448713440 m = true) (hs : Touch m s0 s) :
    Touch m s0 (preambleAt s n slot start x) := by
  refine Touch.lift hm hs ?_
  clear hs hm
  have hs : Touch 1099448713440 s s := .refl _ _
  unfold preambleAt
  generalize preambleFound s n slot start x = l
  split
  · exact hs
  · split <;> simp +decide (maxDischargeDepth := 99) [hasBit, subMask, hs]

@[simp] theorem touch_acqDrop (s : State) (n : Nat) (a : Acq) (hm : subMask 128 m = true) (hs : Touch m s0 s) :
    Touch m s0 (acqDrop s n a) := by
  refine Touch.lift hm hs ?_
  clear hs hm
  have hs : Touch 128 s s := .refl _ _
  simp +decide (maxDischargeDepth := 99) [acqDrop, hs, hasBit, subMask]

@[simp] theorem touch_acqLeave (s : State) (n : Nat) (hm : subMask 128 m = true) (hs : Touch m s0 s) : Touch m s0 (acqLeave s n) := by
  refine Touch.lift hm hs ?_
  clear hs hm
  have hs : Touch 128 s s := .refl _ _
  simp +decide (maxDischargeDepth := 99) [acqLeave, hs, hasBit, subMask]

@[simp] theorem touch_frameSymbols (s : State) (n : Nat) (a : Acq) (j : Nat) (ys : List RxSym) (hm : subMask 128 m = true) (hs : Touch m s0 s) :
    Touch m s0 (frameSymbols s n a j ys) := by
  refine Touch.lift hm hs ?_
  clear hs hm
  have hs : Touch 128 s s := .refl _ _
  simp +contextual +decide (maxDischargeDepth := 99) [frameSymbols, hs, hasBit, subMask]

@[simp] theorem touch_erasedCounts (s : State) (n : Nat) (ys : List RxSym) (hm : subMask 1099444518912 m = true) (hs : Touch m s0 s) :
    Touch m s0 (erasedCounts s n ys) := by
  refine Touch.lift hm hs ?_
  clear hs hm
  have hs : Touch 1099444518912 s s := .refl _ _
  simp +contextual +decide (maxDischargeDepth := 99) [erasedCounts, hs, hasBit, subMask]

@[simp] theorem touch_linePayload (s : State) (n : Nat) (a : Acq) (rx : LineRx) (h0 : FrameHdr) (map : Bytes) (hm : subMask 1099444519136 m = true) (hs : Touch m s0 s) :
    Touch m s0 (linePayload s n a rx h0 map).1 := by
  refine Touch.lift hm hs ?_
  clear hs hm
  have hs : Touch 1099444519136 s s := .refl _ _
  simp +decide (maxDischargeDepth := 99) [linePayload, hs, hasBit, subMask]

@[simp] theorem touch_lineBench (s : State) (n : Nat) (a : Acq) (rx : LineRx) (h0 : FrameHdr) (hm : subMask 1099444519136 m = true) (hs : Touch m s0 s) :
    Touch m s0 (lineBench s n a rx h0) := by
  refine Touch.lift hm hs ?_
  clear hs hm
  have hs : Touch 1099444519136 s s := .refl _ _
  unfold lineBench
  split
  · simp +decide (maxDischargeDepth := 99) [hasBit, subMask, hs]
  · have h2 := touch_linePayload s n a rx h0 (openMap a.mask) (by decide) hs
    revert h2
    generalize linePayload s n a rx h0 (openMap a.mask) = r
    intro h2
    obtain ⟨t, o⟩ := r
    dsimp only at h2 ⊢
    cases o <;> simp +decide (maxDischargeDepth := 99) [hasBit, subMask, h2]

@[simp] theorem touch_lineBody (s : State) (n : Nat) (a : Acq) (rx : LineRx) (h0 : FrameHdr) (c0 : Option Nat) (map : Option Bytes) (hm : subMask 1099469585914 m = true) (hs : Touch m s0 s) :
    Touch m s0 (lineBody s n a rx h0 c0 map) := by
  refine Touch.lift hm hs ?_
  clear hs hm
  have hs : Touch 1099469585914 s s := .refl _ _
  unfold lineBody
  split
  · simp +decide (maxDischargeDepth := 99) [hasBit, subMask, hs]
  · cases map with
    | none => simp +decide (maxDischargeDepth := 99) [hasBit, subMask, hs]
    | some w =>
      dsimp only
      have h2 := touch_linePayload s n a rx h0 w (by decide) hs
      revert h2
      generalize linePayload s n a rx h0 w = r
      intro h2
      obtain ⟨t, o⟩ := r
      dsimp only at h2 ⊢
      cases o <;> simp +decide (maxDischargeDepth := 99) [hasBit, subMask, h2]

@[simp] theorem touch_lineRx (s : State) (n : Nat) (rx : LineRx) (hm : subMask 1099469585914 m = true) (hs : Touch m s0 s) :
    Touch m s0 (lineRx s n rx) := by
  refine Touch.lift hm hs ?_
  clear hs hm
  have hs : Touch 1099469585914 s s := .refl _ _
  unfold lineRx
  (try dsimp only)
  repeat' (first | with_reducible assumption | (simp +contextual +decide (maxDischargeDepth := 99) [hs, hasBit, subMask]; done) | (simp +contextual +decide (maxDischargeDepth := 99) [hs, hk, hasBit, subMask]; done) | split | refine touch_foldl _ _ _ ?_ (fun _ _ hk => ?_))

@[simp] theorem touch_radioTake (s : State) (f : RxFrame) (hm : subMask 1099469585914 m = true) (hs : Touch m s0 s) :
    Touch m s0 (radioTake s f) := by
  refine Touch.lift hm hs ?_
  clear hs hm
  have hs : Touch 1099469585914 s s := .refl _ _
  unfold radioTake
  (try dsimp only)
  repeat' (first | with_reducible assumption | (simp +contextual +decide (maxDischargeDepth := 99) [hs, hasBit, subMask]; done) | (simp +contextual +decide (maxDischargeDepth := 99) [hs, hk, hasBit, subMask]; done) | split | refine touch_foldl _ _ _ ?_ (fun _ _ hk => ?_))

@[simp] theorem touch_radioRx (s : State) (rx : RadioRx) (hm : subMask 1099469585914 m = true) (hs : Touch m s0 s) :
    Touch m s0 (radioRx s rx) := by
  refine Touch.lift hm hs ?_
  clear hs hm
  have hs : Touch 1099469585914 s s := .refl _ _
  unfold radioRx
  split
  · exact hs
  · have h2 := touch_radioChecks s rx.air (radioScans s) (radioOpen s rx.slot.val) (radioSpan s rx.slot.val (radioScans s)) (by decide) hs
    revert h2
    dsimp only
    generalize radioChecks s rx.air (radioScans s) (radioOpen s rx.slot.val) (radioSpan s rx.slot.val (radioScans s)) = r
    intro h2
    obtain ⟨t, o⟩ := r
    dsimp only at h2 ⊢
    cases o with
    | none => exact h2
    | some gp =>
      obtain ⟨g, p⟩ := gp
      dsimp only
      repeat' split
      all_goals simp +decide (maxDischargeDepth := 99) [hasBit, subMask, h2]

@[simp] theorem touch_wakeWindow (s : State) (hm : subMask 256 m = true) (hs : Touch m s0 s) :
    Touch m s0 (wakeWindow s) := by
  refine Touch.lift hm hs ?_
  clear hs hm
  have hs : Touch 256 s s := .refl _ _
  unfold wakeWindow
  repeat' split
  all_goals simp +contextual +decide (maxDischargeDepth := 99) [hs, hasBit, subMask]

@[simp] theorem touch_roostSleep (s : State) (hm : subMask 1099478073824 m = true) (hs : Touch m s0 s) :
    Touch m s0 (roostSleep s) := by
  refine Touch.lift hm hs ?_
  clear hs hm
  have hs : Touch 1099478073824 s s := .refl _ _
  simp +contextual +decide (maxDischargeDepth := 99) [roostSleep, hs, hasBit, subMask]

@[simp] theorem touch_orphanEntry (s : State) (addr : Nat) (hm : subMask 34497103696 m = true) (hs : Touch m s0 s) :
    Touch m s0 (orphanEntry s addr) := by
  refine Touch.lift hm hs ?_
  clear hs hm
  have hs : Touch 34497103696 s s := .refl _ _
  simp +contextual +decide (maxDischargeDepth := 99) [orphanEntry, hs, hasBit, subMask]

@[simp] theorem touch_beaconMissed (s : State) (hm : subMask 34497103728 m = true) (hs : Touch m s0 s) :
    Touch m s0 (beaconMissed s) := by
  refine Touch.lift hm hs ?_
  clear hs hm
  have hs : Touch 34497103728 s s := .refl _ _
  unfold beaconMissed
  repeat' split
  all_goals simp +contextual +decide (maxDischargeDepth := 99) [hs, hasBit, subMask]

@[simp] theorem touch_reacqEnd (s : State) (hm : subMask 134218768 m = true) (hs : Touch m s0 s) :
    Touch m s0 (reacqEnd s) := by
  refine Touch.lift hm hs ?_
  clear hs hm
  have hs : Touch 134218768 s s := .refl _ _
  unfold reacqEnd
  repeat' split
  all_goals simp +contextual +decide (maxDischargeDepth := 99) [hs, hasBit, subMask]

@[simp] theorem touch_orphanEnd (s : State) (hm : subMask 51547734802 m = true) (hs : Touch m s0 s) :
    Touch m s0 (orphanEnd s) := by
  refine Touch.lift hm hs ?_
  clear hs hm
  have hs : Touch 51547734802 s s := .refl _ _
  unfold orphanEnd
  (try dsimp only)
  repeat' (first | with_reducible assumption | (simp +contextual +decide (maxDischargeDepth := 99) [hs, hasBit, subMask]; done) | (simp +contextual +decide (maxDischargeDepth := 99) [hs, hk, hasBit, subMask]; done) | split | refine touch_foldl _ _ _ ?_ (fun _ _ hk => ?_))

@[simp] theorem touch_vldCut (s : State) (n : Nat) (hm : subMask 128 m = true) (hs : Touch m s0 s) : Touch m s0 (vldCut s n) := by
  refine Touch.lift hm hs ?_
  clear hs hm
  have hs : Touch 128 s s := .refl _ _
  unfold vldCut
  (try dsimp only)
  repeat' (first | with_reducible assumption | (simp +contextual +decide (maxDischargeDepth := 99) [hs, hasBit, subMask]; done) | (simp +contextual +decide (maxDischargeDepth := 99) [hs, hk, hasBit, subMask]; done) | split | refine touch_foldl _ _ _ ?_ (fun _ _ hk => ?_))

@[simp] theorem touch_execVldFault (mv : BitVec 15) (s : State) (hm : subMask 3350112108672 m = true) (hs : Touch m s0 s) :
    TouchBy m s0 (execVldFault mv s) := by
  refine Touch.liftBy hm hs ?_
  clear hs hm
  have hs : Touch 3350112108672 s s := .refl _ _
  simp +contextual +decide (maxDischargeDepth := 99) [execVldFault, hs, hasBit, subMask]

@[simp] theorem touch_execVldFaultClear (mv : BitVec 15) (s : State) (hm : subMask 1099545182208 m = true) (hs : Touch m s0 s) :
    TouchBy m s0 (execVldFaultClear mv s) := by
  refine Touch.liftBy hm hs ?_
  clear hs hm
  have hs : Touch 1099545182208 s s := .refl _ _
  simp +decide (maxDischargeDepth := 99) [execVldFaultClear, hs, hasBit, subMask]

@[simp] theorem touch_execCurrentLimit (port : Fin 4) (s : State) (hm : subMask 1099444519040 m = true) (hs : Touch m s0 s) :
    TouchBy m s0 (execCurrentLimit port s) := by
  refine Touch.liftBy hm hs ?_
  clear hs hm
  have hs : Touch 1099444519040 s s := .refl _ _
  simp +decide (maxDischargeDepth := 99) [execCurrentLimit, hs, hasBit, subMask]

@[simp] theorem touch_execSymbolBoundary (port : Fin 4) (at_ : MeshTime) (peak : BitVec 8) (samples : List RxSample) (own : List TxWin) (s : State) (hm : subMask 3298526397426 m = true) (hs : Touch m s0 s) :
    TouchBy m s0 (execSymbolBoundary port at_ peak samples own s) := by
  refine Touch.liftBy hm hs ?_
  clear hs hm
  have hs : Touch 3298526397426 s s := .refl _ _
  unfold execSymbolBoundary
  (try dsimp only)
  repeat' (first | with_reducible assumption | (simp +contextual +decide (maxDischargeDepth := 99) [hs, hasBit, subMask]; done) | (simp +contextual +decide (maxDischargeDepth := 99) [hs, hk, hasBit, subMask]; done) | split | refine touch_foldl _ _ _ ?_ (fun _ _ hk => ?_))

@[simp] theorem touch_execPreambleDetect (port : Fin 4) (run : RxRun) (s : State) (hm : subMask 1099448713440 m = true) (hs : Touch m s0 s) :
    TouchBy m s0 (execPreambleDetect port run s) := by
  refine Touch.liftBy hm hs ?_
  clear hs hm
  have hs : Touch 1099448713440 s s := .refl _ _
  simp +decide (maxDischargeDepth := 99) [execPreambleDetect, hs, hasBit, subMask]

@[simp] theorem touch_execFrameTxStart (port : Fin 4) (slot : Fin 128) (vld : BitVec 15) (s : State) (hm : subMask 4398021247986 m = true) (hs : Touch m s0 s) :
    TouchBy m s0 (execFrameTxStart port slot vld s) := by
  refine Touch.liftBy hm hs ?_
  clear hs hm
  have hs : Touch 4398021247986 s s := .refl _ _
  simp +decide (maxDischargeDepth := 99) [execFrameTxStart, hs, hasBit, subMask]

@[simp] theorem touch_execFrameTxEnd (port : Fin 4) (own : List TxWin) (s : State) (hm : subMask 3298509587442 m = true) (hs : Touch m s0 s) :
    TouchBy m s0 (execFrameTxEnd port own s) := by
  refine Touch.liftBy hm hs ?_
  clear hs hm
  have hs : Touch 3298509587442 s s := .refl _ _
  simp +decide (maxDischargeDepth := 99) [execFrameTxEnd, hs, hasBit, subMask]

@[simp] theorem touch_execAckTailTx (port : Fin 4) (vld : BitVec 15) (s : State) (hm : subMask 4398021214432 m = true) (hs : Touch m s0 s) :
    TouchBy m s0 (execAckTailTx port vld s) := by
  refine Touch.liftBy hm hs ?_
  clear hs hm
  have hs : Touch 4398021214432 s s := .refl _ _
  simp +decide (maxDischargeDepth := 99) [execAckTailTx, hs, hasBit, subMask]

@[simp] theorem touch_execAckTailRx (port : Fin 4) (first second : List RxSample) (s : State) (hm : subMask 3298492842978 m = true) (hs : Touch m s0 s) :
    TouchBy m s0 (execAckTailRx port first second s) := by
  refine Touch.liftBy hm hs ?_
  clear hs hm
  have hs : Touch 3298492842978 s s := .refl _ _
  simp +decide (maxDischargeDepth := 99) [execAckTailRx, hs, hasBit, subMask]

@[simp] theorem touch_execBeaconTx (port : Fin 5) (vld : BitVec 15) (s : State) (hm : subMask 4398021216242 m = true) (hs : Touch m s0 s) :
    TouchBy m s0 (execBeaconTx port vld s) := by
  refine Touch.liftBy hm hs ?_
  clear hs hm
  have hs : Touch 4398021216242 s s := .refl _ _
  simp +decide (maxDischargeDepth := 99) [execBeaconTx, hs, hasBit, subMask]

@[simp] theorem touch_execRandomAccessTx (port : Fin 5) (vld : BitVec 15) (s : State) (hm : subMask 4398021216242 m = true) (hs : Touch m s0 s) :
    TouchBy m s0 (execRandomAccessTx port vld s) := by
  refine Touch.liftBy hm hs ?_
  clear hs hm
  have hs : Touch 4398021216242 s s := .refl _ _
  simp +decide (maxDischargeDepth := 99) [execRandomAccessTx, hs, hasBit, subMask]

@[simp] theorem touch_execRandomAccessBackoffEnd (port : Fin 5) (s : State) (hm : subMask 4194560 m = true) (hs : Touch m s0 s) :
    TouchBy m s0 (execRandomAccessBackoffEnd port s) := by
  refine Touch.liftBy hm hs ?_
  clear hs hm
  have hs : Touch 4194560 s s := .refl _ _
  simp +contextual +decide (maxDischargeDepth := 99) [execRandomAccessBackoffEnd, hs, hasBit, subMask]

@[simp] theorem touch_execLineFrameRx (port : Fin 4) (rx : LineRx) (s : State) (hm : subMask 3298492841466 m = true) (hs : Touch m s0 s) :
    TouchBy m s0 (execLineFrameRx port rx s) := by
  refine Touch.liftBy hm hs ?_
  clear hs hm
  have hs : Touch 3298492841466 s s := .refl _ _
  simp +decide (maxDischargeDepth := 99) [execLineFrameRx, hs, hasBit, subMask]

@[simp] theorem touch_execRadioFrameRx (rx : RadioRx) (s : State) (hm : subMask 3298492841466 m = true) (hs : Touch m s0 s) :
    TouchBy m s0 (execRadioFrameRx rx s) := by
  refine Touch.liftBy hm hs ?_
  clear hs hm
  have hs : Touch 3298492841466 s s := .refl _ _
  simp +decide (maxDischargeDepth := 99) [execRadioFrameRx, hs, hasBit, subMask]

@[simp] theorem touch_execRadioFrameTxStart (slot : Fin 128) (s : State) (hm : subMask 3298408957298 m = true) (hs : Touch m s0 s) :
    TouchBy m s0 (execRadioFrameTxStart slot s) := by
  refine Touch.liftBy hm hs ?_
  clear hs hm
  have hs : Touch 3298408957298 s s := .refl _ _
  simp +decide (maxDischargeDepth := 99) [execRadioFrameTxStart, hs, hasBit, subMask]

@[simp] theorem touch_execRadioFrameTxEnd (s : State) (hm : subMask 3298408925042 m = true) (hs : Touch m s0 s) :
    TouchBy m s0 (execRadioFrameTxEnd s) := by
  refine Touch.liftBy hm hs ?_
  clear hs hm
  have hs : Touch 3298408925042 s s := .refl _ _
  simp +decide (maxDischargeDepth := 99) [execRadioFrameTxEnd, hs, hasBit, subMask]

@[simp] theorem touch_execRadioAckTx (s : State) (hm : subMask 2250566927456 m = true) (hs : Touch m s0 s) :
    TouchBy m s0 (execRadioAckTx s) := by
  refine Touch.liftBy hm hs ?_
  clear hs hm
  have hs : Touch 2250566927456 s s := .refl _ _
  simp +decide (maxDischargeDepth := 99) [execRadioAckTx, hs, hasBit, subMask]

@[simp] theorem touch_execRadioAckRx (air : RadioAir) (s : State) (hm : subMask 3298492843874 m = true) (hs : Touch m s0 s) :
    TouchBy m s0 (execRadioAckRx air s) := by
  refine Touch.liftBy hm hs ?_
  clear hs hm
  have hs : Touch 3298492843874 s s := .refl _ _
  simp +decide (maxDischargeDepth := 99) [execRadioAckRx, hs, hasBit, subMask]

@[simp] theorem touch_execReportRx (ctx : BitVec 12) (elem : Bytes) (s : State) (hm : subMask 2250638229762 m = true) (hs : Touch m s0 s) :
    TouchBy m s0 (execReportRx ctx elem s) := by
  refine Touch.liftBy hm hs ?_
  clear hs hm
  have hs : Touch 2250638229762 s s := .refl _ _
  simp +decide (maxDischargeDepth := 99) [execReportRx, hs, hasBit, subMask]

@[simp] theorem touch_execProposeRx (ctx : BitVec 12) (elem : Bytes) (s : State) (hm : subMask 2250634035458 m = true) (hs : Touch m s0 s) :
    TouchBy m s0 (execProposeRx ctx elem s) := by
  refine Touch.liftBy hm hs ?_
  clear hs hm
  have hs : Touch 2250634035458 s s := .refl _ _
  simp +decide (maxDischargeDepth := 99) [execProposeRx, hs, hasBit, subMask]

@[simp] theorem touch_execSweepPointDone (port : Fin 4) (p : Fin 16) (from_ : MeshTime) (v : List RxSample) (i : List (BitVec 32)) (s : State) (hm : subMask 1099485413520 m = true) (hs : Touch m s0 s) :
    TouchBy m s0 (execSweepPointDone port p from_ v i s) := by
  refine Touch.liftBy hm hs ?_
  clear hs hm
  have hs : Touch 1099485413520 s s := .refl _ _
  simp +decide (maxDischargeDepth := 99) [execSweepPointDone, hs, hasBit, subMask]

@[simp] theorem touch_execCarrierRx (ctx : BitVec 12) (elem : Bytes) (s : State) (hm : subMask 2250638229762 m = true) (hs : Touch m s0 s) :
    TouchBy m s0 (execCarrierRx ctx elem s) := by
  refine Touch.liftBy hm hs ?_
  clear hs hm
  have hs : Touch 2250638229762 s s := .refl _ _
  simp +decide (maxDischargeDepth := 99) [execCarrierRx, hs, hasBit, subMask]

@[simp] theorem touch_execAllocRx (ctx : BitVec 12) (body : Bytes) (s : State) (hm : subMask 2250566926592 m = true) (hs : Touch m s0 s) :
    TouchBy m s0 (execAllocRx ctx body s) := by
  refine Touch.liftBy hm hs ?_
  clear hs hm
  have hs : Touch 2250566926592 s s := .refl _ _
  simp +decide (maxDischargeDepth := 99) [execAllocRx, hs, hasBit, subMask]

@[simp] theorem touch_execPollRx (ctx : BitVec 12) (body : Bytes) (s : State) (hm : subMask 2250566926592 m = true) (hs : Touch m s0 s) :
    TouchBy m s0 (execPollRx ctx body s) := by
  refine Touch.liftBy hm hs ?_
  clear hs hm
  have hs : Touch 2250566926592 s s := .refl _ _
  simp +decide (maxDischargeDepth := 99) [execPollRx, hs, hasBit, subMask]

@[simp] theorem touch_execDelayExchangeDue (ctx : BitVec 12) (s : State) (hm : subMask 51543539970 m = true) (hs : Touch m s0 s) :
    TouchBy m s0 (execDelayExchangeDue ctx s) := by
  refine Touch.liftBy hm hs ?_
  clear hs hm
  have hs : Touch 51543539970 s s := .refl _ _
  simp +decide (maxDischargeDepth := 99) [execDelayExchangeDue, hs, hasBit, subMask]

@[simp] theorem touch_execDelayReqRx (ctx : BitVec 12) (t2 : MeshTime) (s : State) (hm : subMask 2250566926594 m = true) (hs : Touch m s0 s) :
    TouchBy m s0 (execDelayReqRx ctx t2 s) := by
  refine Touch.liftBy hm hs ?_
  clear hs hm
  have hs : Touch 2250566926594 s s := .refl _ _
  simp +decide (maxDischargeDepth := 99) [execDelayReqRx, hs, hasBit, subMask]

@[simp] theorem touch_execDelayRespRx (ctx : BitVec 12) (body : Bytes) (t4 : MeshTime) (s : State) (hm : subMask 2250566926594 m = true) (hs : Touch m s0 s) :
    TouchBy m s0 (execDelayRespRx ctx body t4 s) := by
  refine Touch.liftBy hm hs ?_
  clear hs hm
  have hs : Touch 2250566926594 s s := .refl _ _
  simp +decide (maxDischargeDepth := 99) [execDelayRespRx, hs, hasBit, subMask]

@[simp] theorem touch_execDelayRespTimeout (ctx : BitVec 12) (s : State) (hm : subMask 51543539970 m = true) (hs : Touch m s0 s) :
    TouchBy m s0 (execDelayRespTimeout ctx s) := by
  refine Touch.liftBy hm hs ?_
  clear hs hm
  have hs : Touch 51543539970 s s := .refl _ _
  unfold execDelayRespTimeout
  repeat' split
  all_goals simp +contextual +decide (maxDischargeDepth := 99) [hs, hasBit, subMask]

@[simp] theorem touch_execBeaconMiss (s : State) (hm : subMask 2250701145968 m = true) (hs : Touch m s0 s) :
    TouchBy m s0 (execBeaconMiss s) := by
  refine Touch.liftBy hm hs ?_
  clear hs hm
  have hs : Touch 2250701145968 s s := .refl _ _
  simp +decide (maxDischargeDepth := 99) [execBeaconMiss, hs, hasBit, subMask]

@[simp] theorem touch_execRfReacqEnd (s : State) (hm : subMask 2250701145104 m = true) (hs : Touch m s0 s) :
    TouchBy m s0 (execRfReacqEnd s) := by
  refine Touch.liftBy hm hs ?_
  clear hs hm
  have hs : Touch 2250701145104 s s := .refl _ _
  simp +decide (maxDischargeDepth := 99) [execRfReacqEnd, hs, hasBit, subMask]

@[simp] theorem touch_execOrphanSearchEnd (s : State) (hm : subMask 2250571121426 m = true) (hs : Touch m s0 s) :
    TouchBy m s0 (execOrphanSearchEnd s) := by
  refine Touch.liftBy hm hs ?_
  clear hs hm
  have hs : Touch 2250571121426 s s := .refl _ _
  simp +decide (maxDischargeDepth := 99) [execOrphanSearchEnd, hs, hasBit, subMask]

@[simp] theorem touch_execUpstreamLostEnd (s : State) (hm : subMask 256 m = true) (hs : Touch m s0 s) :
    TouchBy m s0 (execUpstreamLostEnd s) := by
  refine Touch.liftBy hm hs ?_
  clear hs hm
  have hs : Touch 256 s s := .refl _ _
  simp +contextual +decide (maxDischargeDepth := 99) [execUpstreamLostEnd, hs, hasBit, subMask]

@[simp] theorem touch_execRoostWakeWindow (s : State) (hm : subMask 256 m = true) (hs : Touch m s0 s) :
    TouchBy m s0 (execRoostWakeWindow s) := by
  refine Touch.liftBy hm hs ?_
  clear hs hm
  have hs : Touch 256 s s := .refl _ _
  simp +decide (maxDischargeDepth := 99) [execRoostWakeWindow, hs, hasBit, subMask]

@[simp] theorem touch_execRoostSleep (s : State) (hm : subMask 1099478073824 m = true) (hs : Touch m s0 s) :
    TouchBy m s0 (execRoostSleep s) := by
  refine Touch.liftBy hm hs ?_
  clear hs hm
  have hs : Touch 1099478073824 s s := .refl _ _
  simp +decide (maxDischargeDepth := 99) [execRoostSleep, hs, hasBit, subMask]

@[simp] theorem touch_dropPackets (s : State) (n : Nat) (c0 : Nat) (hm : subMask 51543671042 m = true) (hs : Touch m s0 s) :
    Touch m s0 (dropPackets s n c0) := by
  refine Touch.lift hm hs ?_
  clear hs hm
  have hs : Touch 51543671042 s s := .refl _ _
  simp +decide (maxDischargeDepth := 99) [dropPackets, hs, hasBit, subMask]

@[simp] theorem touch_dropFreed (s : State) (n : Nat) (before : List Nat) (hm : subMask 51543671042 m = true) (hs : Touch m s0 s) :
    Touch m s0 (dropFreed s n before) := by
  refine Touch.lift hm hs ?_
  clear hs hm
  have hs : Touch 51543671042 s s := .refl _ _
  simp +contextual +decide (maxDischargeDepth := 99) [dropFreed, hs, hasBit, subMask]

@[simp] theorem touch_swapBanks (s : State) (hm : subMask 51682083586 m = true) (hs : Touch m s0 s) :
    Touch m s0 (swapBanks s) := by
  refine Touch.lift hm hs ?_
  clear hs hm
  have hs : Touch 51682083586 s s := .refl _ _
  simp +contextual +decide (maxDischargeDepth := 99) [swapBanks, hs, hasBit, subMask]

@[simp] theorem touch_endProvs (s : State) (ctx : Nat) (hm : subMask 512 m = true) (hs : Touch m s0 s) :
    Touch m s0 (endProvs s ctx) := by
  refine Touch.lift hm hs ?_
  clear hs hm
  have hs : Touch 512 s s := .refl _ _
  simp +contextual +decide (maxDischargeDepth := 99) [endProvs, hs, hasBit, subMask]

@[simp] theorem touch_heldEffect (s : State) (h : AllocHeld) (hm : subMask 51682083586 m = true) (hs : Touch m s0 s) :
    Touch m s0 (heldEffect s h) := by
  refine Touch.lift hm hs ?_
  clear hs hm
  have hs : Touch 51682083586 s s := .refl _ _
  simp +contextual +decide (maxDischargeDepth := 99) [heldEffect, hs, hasBit, subMask]

@[simp] theorem touch_installAlloc (s : State) (x : AllocRx) (hm : subMask 51543671554 m = true) (hs : Touch m s0 s) :
    Touch m s0 (installAlloc s x) := by
  refine Touch.lift hm hs ?_
  clear hs hm
  have hs : Touch 51543671554 s s := .refl _ _
  simp +contextual +decide (maxDischargeDepth := 99) [installAlloc, hs, hasBit, subMask]

@[simp] theorem touch_allocEffect (s : State) (hm : subMask 51682083586 m = true) (hs : Touch m s0 s) :
    Touch m s0 (allocEffect s) := by
  refine Touch.lift hm hs ?_
  clear hs hm
  have hs : Touch 51682083586 s s := .refl _ _
  simp +contextual +decide (maxDischargeDepth := 99) [allocEffect, hs, hasBit, subMask]

@[simp] theorem touch_freeAutos (s : State) (hm : subMask 51677889282 m = true) (hs : Touch m s0 s) :
    Touch m s0 (freeAutos s) := by
  refine Touch.lift hm hs ?_
  clear hs hm
  have hs : Touch 51677889282 s s := .refl _ _
  unfold freeAutos
  dsimp only
  generalize h3 : List.foldl _ _ _ = t
  have h2 : Touch 51677889282 s t := by
    rw [← h3]
    repeat' (first | with_reducible assumption | (simp +contextual +decide (maxDischargeDepth := 99) [hs, hasBit, subMask];done) | (simp +contextual +decide (maxDischargeDepth := 99) [hs, hk, hasBit, subMask];done) | split | refine touch_foldl _ _ _ ?_ (fun _ _ hk => ?_))
  simp +contextual +decide (maxDischargeDepth := 99) [h2, hasBit, subMask]

@[simp] theorem touch_provsExpire (s : State) (hm : subMask 51677922050 m = true) (hs : Touch m s0 s) :
    Touch m s0 (provsExpire s) := by
  refine Touch.lift hm hs ?_
  clear hs hm
  have hs : Touch 51677922050 s s := .refl _ _
  simp +contextual +decide (maxDischargeDepth := 99) [provsExpire, hs, hasBit, subMask]

@[simp] theorem touch_countDown (s : State) (hm : subMask 768 m = true) (hs : Touch m s0 s) :
    Touch m s0 (countDown s) := by
  refine Touch.lift hm hs ?_
  clear hs hm
  have hs : Touch 768 s s := .refl _ _
  simp +contextual +decide (maxDischargeDepth := 99) [countDown, hs, hasBit, subMask]

@[simp] theorem touch_sfmShadows (s : State) (hm : subMask 256 m = true) (hs : Touch m s0 s) :
    Touch m s0 (sfmShadows s) := by
  refine Touch.lift hm hs ?_
  clear hs hm
  have hs : Touch 256 s s := .refl _ _
  simp +contextual +decide (maxDischargeDepth := 99) [sfmShadows, hs, hasBit, subMask]

@[simp] theorem touch_parentChoice (s : State) (hm : subMask 51967296322 m = true) (hs : Touch m s0 s) :
    Touch m s0 (parentChoice s) := by
  refine Touch.lift hm hs ?_
  clear hs hm
  have hs : Touch 51967296322 s s := .refl _ _
  unfold parentChoice
  repeat' split
  all_goals simp +contextual +decide (maxDischargeDepth := 99) [hs, hasBit, subMask]

@[simp] theorem touch_mrtBoundary (s : State) (hm : subMask 51967296322 m = true) (hs : Touch m s0 s) :
    Touch m s0 (mrtBoundary s) := by
  refine Touch.lift hm hs ?_
  clear hs hm
  have hs : Touch 51967296322 s s := .refl _ _
  simp +decide (maxDischargeDepth := 99) [mrtBoundary, hs, hasBit, subMask]

@[simp] theorem touch_superframeBoundary (s : State) (hm : subMask 60624404466 m = true) (hs : Touch m s0 s) :
    Touch m s0 (superframeBoundary s) := by
  refine Touch.lift hm hs ?_
  clear hs hm
  have hs : Touch 60624404466 s s := .refl _ _
  simp +decide (maxDischargeDepth := 99) [superframeBoundary, hs, hasBit, subMask]

@[simp] theorem touch_execSuperframeBoundary (s : State) (hm : subMask 2259647660018 m = true) (hs : Touch m s0 s) :
    TouchBy m s0 (execSuperframeBoundary s) := by
  refine Touch.liftBy hm hs ?_
  clear hs hm
  have hs : Touch 2259647660018 s s := .refl _ _
  simp +decide (maxDischargeDepth := 99) [execSuperframeBoundary, hs, hasBit, subMask]

@[simp] theorem touch_meshRx (s : State) (p : QPkt) (hm : subMask 34362884096 m = true) (hs : Touch m s0 s) :
    Touch m s0 (meshRx s p) := by
  refine Touch.lift hm hs ?_
  clear hs hm
  have hs : Touch 34362884096 s s := .refl _ _
  simp +decide (maxDischargeDepth := 99) [meshRx, hs, hasBit, subMask]

@[simp] theorem touch_drainHostOut (s : State) (x1 : Nat) (hm : subMask 51543670784 m = true) (hs : Touch m s0 s) :
    Touch m s0 (drainHostOut s x1) := by
  refine Touch.lift hm hs ?_
  clear hs hm
  have hs : Touch 51543670784 s s := .refl _ _
  suffices key : ∀ b0, Touch 51543670784 b0 s → Touch 51543670784 b0 (drainHostOut s x1) from key _ hs
  clear hs
  intro b0 hs
  induction x1 generalizing s with
  | zero => exact hs
  | succ n ih =>
    unfold drainHostOut
    split
    · exact hs
    · split
      · exact hs
      · split
        · split
          · exact hs
          · exact ih _ (by simp +contextual +decide (maxDischargeDepth := 99) [hs, hasBit, subMask])
        · have h2 := touch_takeQ s 11 (m := 51543670784) (by decide) hs
          revert h2
          generalize takeQ s 11 = r
          intro h2
          obtain ⟨s2, it⟩ := r
          apply ih
          dsimp only at h2 ⊢
          split <;> simp +contextual +decide (maxDischargeDepth := 99) [h2, hasBit, subMask]

@[simp] theorem touch_takeHostOut (s : State) (hm : subMask 51543670784 m = true) (hs : Touch m s0 s) :
    Touch m s0 (takeHostOut s) := by
  refine Touch.lift hm hs ?_
  clear hs hm
  have hs : Touch 51543670784 s s := .refl _ _
  simp +decide (maxDischargeDepth := 99) [takeHostOut, hs, hasBit, subMask]

@[simp] theorem touch_toHostOut (s : State) (p : QPkt) (hm : subMask 51543670784 m = true) (hs : Touch m s0 s) :
    Touch m s0 (toHostOut s p) := by
  refine Touch.lift hm hs ?_
  clear hs hm
  have hs : Touch 51543670784 s s := .refl _ _
  simp +decide (maxDischargeDepth := 99) [toHostOut, hs, hasBit, subMask]

@[simp] theorem touch_toConsumer (s : State) (p : QPkt) (hm : subMask 55838646274 m = true) (hs : Touch m s0 s) :
    Touch m s0 (toConsumer s p) := by
  refine Touch.lift hm hs ?_
  clear hs hm
  have hs : Touch 55838646274 s s := .refl _ _
  simp +decide (maxDischargeDepth := 99) [toConsumer, hs, hasBit, subMask]

@[simp] theorem touch_setHeld (s : State) (cls : Nat) (l : List QPkt) (hm : subMask 512 m = true) (hs : Touch m s0 s) :
    Touch m s0 (setHeld s cls l) := by
  refine Touch.lift hm hs ?_
  clear hs hm
  have hs : Touch 512 s s := .refl _ _
  simp +contextual +decide (maxDischargeDepth := 99) [setHeld, hs, hasBit, subMask]

@[simp] theorem touch_deliverHeld (s : State) (p : QPkt) (hm : subMask 55838679554 m = true) (hs : Touch m s0 s) :
    Touch m s0 (deliverHeld s p) := by
  refine Touch.lift hm hs ?_
  clear hs hm
  have hs : Touch 55838679554 s s := .refl _ _
  simp +decide (maxDischargeDepth := 99) [deliverHeld, hs, hasBit, subMask]

@[simp] theorem touch_flushHeld (s : State) (cls : Nat) (hm : subMask 55838646786 m = true) (hs : Touch m s0 s) :
    Touch m s0 (flushHeld s cls) := by
  refine Touch.lift hm hs ?_
  clear hs hm
  have hs : Touch 55838646786 s s := .refl _ _
  simp +contextual +decide (maxDischargeDepth := 99) [flushHeld, hs, hasBit, subMask]

@[simp] theorem touch_setOpSeq (s : State) (l : List Nat) (hm : subMask 51543638018 m = true) (hs : Touch m s0 s) :
    Touch m s0 (setOpSeq s l) := by
  refine Touch.lift hm hs ?_
  clear hs hm
  have hs : Touch 51543638018 s s := .refl _ _
  simp +decide (maxDischargeDepth := 99) [setOpSeq, hs, hasBit, subMask]

@[simp] theorem touch_sigVerified (s : State) (cls : Nat) (hm : subMask 64697115138 m = true) (hs : Touch m s0 s) :
    Touch m s0 (sigVerified s cls) := by
  refine Touch.lift hm hs ?_
  clear hs hm
  have hs : Touch 64697115138 s s := .refl _ _
  unfold sigVerified
  (try dsimp only)
  repeat' (first | with_reducible assumption | (simp +contextual +decide (maxDischargeDepth := 99) [hs, hasBit, subMask]; done) | (simp +contextual +decide (maxDischargeDepth := 99) [hs, hk, hasBit, subMask]; done) | split | refine touch_foldl _ _ _ ?_ (fun _ _ hk => ?_))

@[simp] theorem touch_noConsumer (s : State) (hm : subMask 268435456 m = true) (hs : Touch m s0 s) :
    Touch m s0 (noConsumer s) := by
  refine Touch.lift hm hs ?_
  clear hs hm
  have hs : Touch 268435456 s s := .refl _ _
  simp +decide (maxDischargeDepth := 99) [noConsumer, hs, hasBit, subMask]

@[simp] theorem touch_deliverRouting (s : State) (y : Option Nat) (priv : Bool) (c : Bytes) (hm : subMask 51812107010 m = true) (hs : Touch m s0 s) :
    Touch m s0 (deliverRouting s y priv c) := by
  refine Touch.lift hm hs ?_
  clear hs hm
  have hs : Touch 51812107010 s s := .refl _ _
  unfold deliverRouting
  repeat' split
  all_goals simp +contextual +decide (maxDischargeDepth := 99) [hs, hasBit, subMask]

@[simp] theorem touch_deliverJoin (s : State) (p : QPkt) (c0 : Bytes) (sec : Bool) (hm : subMask 1099402478418 m = true) (hs : Touch m s0 s) :
    Touch m s0 (deliverJoin s p c0 sec) := by
  refine Touch.lift hm hs ?_
  clear hs hm
  have hs : Touch 1099402478418 s s := .refl _ _
  unfold deliverJoin
  (try dsimp only)
  repeat' (first | with_reducible assumption | (simp +contextual +decide (maxDischargeDepth := 99) [hs, hasBit, subMask]; done) | (simp +contextual +decide (maxDischargeDepth := 99) [hs, hk, hasBit, subMask]; done) | split | refine touch_foldl _ _ _ ?_ (fun _ _ hk => ?_))

@[simp] theorem touch_deliver (s : State) (p : QPkt) (cls : Nat) (sec : Bool) (c0 : Bytes) (hm : subMask 1099402486610 m = true) (hs : Touch m s0 s) :
    Touch m s0 (deliver s p cls sec c0) := by
  refine Touch.lift hm hs ?_
  clear hs hm
  have hs : Touch 1099402486610 s s := .refl _ _
  unfold deliver
  (try dsimp only)
  repeat' (first | with_reducible assumption | (simp +contextual +decide (maxDischargeDepth := 99) [hs, hasBit, subMask]; done) | (simp +contextual +decide (maxDischargeDepth := 99) [hs, hk, hasBit, subMask]; done) | split | refine touch_foldl _ _ _ ?_ (fun _ _ hk => ?_))

@[simp] theorem touch_floodRx (s : State) (p : QPkt) (cls : Nat) (c : Bytes) (hm : subMask 1099402486610 m = true) (hs : Touch m s0 s) :
    Touch m s0 (floodRx s p cls c) := by
  refine Touch.lift hm hs ?_
  clear hs hm
  have hs : Touch 1099402486610 s s := .refl _ _
  unfold floodRx
  repeat' split
  all_goals simp +contextual +decide (maxDischargeDepth := 99) [hs, hasBit, subMask]

@[simp] theorem touch_floodOrigin (s : State) (p : QPkt) (hm : subMask 655872 m = true) (hs : Touch m s0 s) :
    Touch m s0 (floodOrigin s p) := by
  refine Touch.lift hm hs ?_
  clear hs hm
  have hs : Touch 655872 s s := .refl _ _
  simp +decide (maxDischargeDepth := 99) [floodOrigin, hs, hasBit, subMask]

@[simp] theorem touch_hostInTaken (s : State) (p : QPkt) (tag : Option (Nat × Nat)) (hm : subMask 1099402486610 m = true) (hs : Touch m s0 s) :
    Touch m s0 (hostInTaken s p tag) := by
  refine Touch.lift hm hs ?_
  clear hs hm
  have hs : Touch 1099402486610 s s := .refl _ _
  simp +decide (maxDischargeDepth := 99) [hostInTaken, hs, hasBit, subMask]

@[simp] theorem touch_hostInFront (s : State) (hm : subMask 1099402486610 m = true) (hs : Touch m s0 s) : Touch m s0 (hostInFront s) := by
  refine Touch.lift hm hs ?_
  clear hs hm
  have hs : Touch 1099402486610 s s := .refl _ _
  unfold hostInFront
  have h2 := touch_takeE s 10 (m := 1099402486610) (by decide) hs
  revert h2
  generalize takeE s 10 = r
  intro h2
  obtain ⟨t, x⟩ := r
  dsimp only at h2 ⊢
  cases x with
  | none => exact touch_answerSend _ _ _ (by decide) h2
  | some e =>
    dsimp only
    split
    · exact touch_hostInTaken _ _ _ (by decide) h2
    · split
      · exact touch_foldl _ _ _ h2 fun _ _ hk => touch_answerSend _ _ _ (by decide) hk
      · exact h2

@[simp] theorem touch_rxTaken (s : State) (p : QPkt) (hm : subMask 1099402486610 m = true) (hs : Touch m s0 s) :
    Touch m s0 (rxTaken s p) := by
  refine Touch.lift hm hs ?_
  clear hs hm
  have hs : Touch 1099402486610 s s := .refl _ _
  simp +decide (maxDischargeDepth := 99) [rxTaken, hs, hasBit, subMask]

@[simp] theorem touch_mrtHandle (s : State) (q0 : Nat) (hm : subMask 1099402486610 m = true) (hs : Touch m s0 s) : Touch m s0 (mrtHandle s q0) := by
  refine Touch.lift hm hs ?_
  clear hs hm
  have hs : Touch 1099402486610 s s := .refl _ _
  unfold mrtHandle
  split
  · exact hs
  · split
    · simp +decide [hs]
    · have h2 := touch_takeQ s q0 (m := 1099402486610) (by decide) hs
      revert h2
      generalize takeQ s q0 = r
      intro h2
      obtain ⟨t, x⟩ := r
      rcases x with _ | p | _
      · exact h2
      · exact touch_rxTaken _ _ (by decide) h2
      · exact h2

@[simp] theorem touch_operatorVerified (s : State) (remote : Bool) (hm : subMask 64697115138 m = true) (hs : Touch m s0 s) :
    Touch m s0 (operatorVerified s remote) := by
  refine Touch.lift hm hs ?_
  clear hs hm
  have hs : Touch 64697115138 s s := .refl _ _
  unfold operatorVerified
  (try dsimp only)
  repeat' (first | with_reducible assumption | (simp +contextual +decide (maxDischargeDepth := 99) [hs, hasBit, subMask]; done) | (simp +contextual +decide (maxDischargeDepth := 99) [hs, hk, hasBit, subMask]; done) | split | refine touch_foldl _ _ _ ?_ (fun _ _ hk => ?_))

@[simp] theorem touch_execAdvertRx (ctx : BitVec 12) (body : Bytes) (s : State) (hm : subMask 2250835362306 m = true) (hs : Touch m s0 s) :
    TouchBy m s0 (execAdvertRx ctx body s) := by
  refine Touch.liftBy hm hs ?_
  clear hs hm
  have hs : Touch 2250835362306 s s := .refl _ _
  simp +decide (maxDischargeDepth := 99) [execAdvertRx, hs, hasBit, subMask]

@[simp] theorem touch_execRreqRx (ctx : BitVec 12) (body : Bytes) (s : State) (hm : subMask 2250835362562 m = true) (hs : Touch m s0 s) :
    TouchBy m s0 (execRreqRx ctx body s) := by
  refine Touch.liftBy hm hs ?_
  clear hs hm
  have hs : Touch 2250835362562 s s := .refl _ _
  simp +decide (maxDischargeDepth := 99) [execRreqRx, hs, hasBit, subMask]

@[simp] theorem touch_execRrepRx (ctx : BitVec 12) (body : Bytes) (s : State) (hm : subMask 2250835362562 m = true) (hs : Touch m s0 s) :
    TouchBy m s0 (execRrepRx ctx body s) := by
  refine Touch.liftBy hm hs ?_
  clear hs hm
  have hs : Touch 2250835362562 s s := .refl _ _
  simp +decide (maxDischargeDepth := 99) [execRrepRx, hs, hasBit, subMask]

@[simp] theorem touch_execRerrRx (ctx : BitVec 12) (body : Bytes) (s : State) (hm : subMask 2250835362562 m = true) (hs : Touch m s0 s) :
    TouchBy m s0 (execRerrRx ctx body s) := by
  refine Touch.liftBy hm hs ?_
  clear hs hm
  have hs : Touch 2250835362562 s s := .refl _ _
  simp +decide (maxDischargeDepth := 99) [execRerrRx, hs, hasBit, subMask]

@[simp] theorem touch_execAdvertPeriodic (s : State) (hm : subMask 2250566926848 m = true) (hs : Touch m s0 s) :
    TouchBy m s0 (execAdvertPeriodic s) := by
  refine Touch.liftBy hm hs ?_
  clear hs hm
  have hs : Touch 2250566926848 s s := .refl _ _
  simp +decide (maxDischargeDepth := 99) [execAdvertPeriodic, hs, hasBit, subMask]

@[simp] theorem touch_execRouteAgerVisit (dest : BitVec 16) (s : State) (hm : subMask 2250566926850 m = true) (hs : Touch m s0 s) :
    TouchBy m s0 (execRouteAgerVisit dest s) := by
  refine Touch.liftBy hm hs ?_
  clear hs hm
  have hs : Touch 2250566926850 s s := .refl _ _
  simp +decide (maxDischargeDepth := 99) [execRouteAgerVisit, hs, hasBit, subMask]

@[simp] theorem touch_execContextAgerVisit (ctx : BitVec 12) (s : State) (hm : subMask 2250701177602 m = true) (hs : Touch m s0 s) :
    TouchBy m s0 (execContextAgerVisit ctx s) := by
  refine Touch.liftBy hm hs ?_
  clear hs hm
  have hs : Touch 2250701177602 s s := .refl _ _
  simp +decide (maxDischargeDepth := 99) [execContextAgerVisit, hs, hasBit, subMask]

@[simp] theorem touch_execRreqTimeout (target : BitVec 16) (s : State) (hm : subMask 2250835362304 m = true) (hs : Touch m s0 s) :
    TouchBy m s0 (execRreqTimeout target s) := by
  refine Touch.liftBy hm hs ?_
  clear hs hm
  have hs : Touch 2250835362304 s s := .refl _ _
  simp +decide (maxDischargeDepth := 99) [execRreqTimeout, hs, hasBit, subMask]

@[simp] theorem touch_execJoinSearchEnd (s : State) (hm : subMask 2250990551890 m = true) (hs : Touch m s0 s) :
    TouchBy m s0 (execJoinSearchEnd s) := by
  refine Touch.liftBy hm hs ?_
  clear hs hm
  have hs : Touch 2250990551890 s s := .refl _ _
  simp +decide (maxDischargeDepth := 99) [execJoinSearchEnd, hs, hasBit, subMask]

@[simp] theorem touch_execJoinReqRx (port : Fin 5) (src : BitVec 16) (body : Bytes) (s : State) (hm : subMask 2250839556866 m = true) (hs : Touch m s0 s) :
    TouchBy m s0 (execJoinReqRx port src body s) := by
  refine Touch.liftBy hm hs ?_
  clear hs hm
  have hs : Touch 2250839556866 s s := .refl _ _
  simp +decide (maxDischargeDepth := 99) [execJoinReqRx, hs, hasBit, subMask]

@[simp] theorem touch_execAddrReqRx (body : Bytes) (s : State) (hm : subMask 2250839556864 m = true) (hs : Touch m s0 s) :
    TouchBy m s0 (execAddrReqRx body s) := by
  refine Touch.liftBy hm hs ?_
  clear hs hm
  have hs : Touch 2250839556864 s s := .refl _ _
  simp +decide (maxDischargeDepth := 99) [execAddrReqRx, hs, hasBit, subMask]

@[simp] theorem touch_execAddrGrantRx (body : Bytes) (s : State) (hm : subMask 2250835362560 m = true) (hs : Touch m s0 s) :
    TouchBy m s0 (execAddrGrantRx body s) := by
  refine Touch.liftBy hm hs ?_
  clear hs hm
  have hs : Touch 2250835362560 s s := .refl _ _
  simp +decide (maxDischargeDepth := 99) [execAddrGrantRx, hs, hasBit, subMask]

@[simp] theorem touch_execJoinAcceptRx (ctx : BitVec 12) (body : Bytes) (s : State) (hm : subMask 3298425733954 m = true) (hs : Touch m s0 s) :
    TouchBy m s0 (execJoinAcceptRx ctx body s) := by
  refine Touch.liftBy hm hs ?_
  clear hs hm
  have hs : Touch 3298425733954 s s := .refl _ _
  simp +decide (maxDischargeDepth := 99) [execJoinAcceptRx, hs, hasBit, subMask]

@[simp] theorem touch_execJoinDenyRx (port : Fin 5) (src : BitVec 16) (body : Bytes) (s : State) (hm : subMask 2250990584658 m = true) (hs : Touch m s0 s) :
    TouchBy m s0 (execJoinDenyRx port src body s) := by
  refine Touch.liftBy hm hs ?_
  clear hs hm
  have hs : Touch 2250990584658 s s := .refl _ _
  simp +decide (maxDischargeDepth := 99) [execJoinDenyRx, hs, hasBit, subMask]

@[simp] theorem touch_execJoinOfferTimeout (s : State) (hm : subMask 2250566927104 m = true) (hs : Touch m s0 s) :
    TouchBy m s0 (execJoinOfferTimeout s) := by
  refine Touch.liftBy hm hs ?_
  clear hs hm
  have hs : Touch 2250566927104 s s := .refl _ _
  unfold execJoinOfferTimeout
  repeat' split
  all_goals simp +contextual +decide (maxDischargeDepth := 99) [hs, hasBit, subMask]

@[simp] theorem touch_execJoinLifeExpiry (ctx : BitVec 12) (s : State) (hm : subMask 2250969613058 m = true) (hs : Touch m s0 s) :
    TouchBy m s0 (execJoinLifeExpiry ctx s) := by
  refine Touch.liftBy hm hs ?_
  clear hs hm
  have hs : Touch 2250969613058 s s := .refl _ _
  unfold execJoinLifeExpiry
  repeat' split
  all_goals simp +contextual +decide (maxDischargeDepth := 99) [hs, hasBit, subMask]

@[simp] theorem touch_execJoinAcceptTimeout (s : State) (hm : subMask 2250990584658 m = true) (hs : Touch m s0 s) :
    TouchBy m s0 (execJoinAcceptTimeout s) := by
  refine Touch.liftBy hm hs ?_
  clear hs hm
  have hs : Touch 2250990584658 s s := .refl _ _
  unfold execJoinAcceptTimeout
  repeat' split
  all_goals simp +contextual +decide (maxDischargeDepth := 99) [hs, hasBit, subMask]

end Sys2Proof.Machine
end

