-- ==== Sys2Proof/Laws/TouchStore.lean ====
section
/-! SUPPORT. `Touch` through memory, security, flash, power leave, modes: one lemma per operation. -/

set_option linter.all false

namespace Sys2Proof.Machine

variable {m : Nat} {s0 : State}

@[simp] theorem touch_loadBody (s : State) (slot : Nat) (hm : subMask 51543539714 m = true) (hs : Touch m s0 s) :
    Touch m s0 (loadBody s slot) := by
  refine Touch.lift hm hs ?_
  clear hs hm
  have hs : Touch 51543539714 s s := .refl _ _
  simp +decide (maxDischargeDepth := 99) [loadBody, hs, hasBit, subMask]

@[simp] theorem touch_recordSlot (s : State) (slot : Nat) (cause : Nat) (hm : subMask 8589934592 m = true) (hs : Touch m s0 s) :
    Touch m s0 (recordSlot s slot cause) := by
  refine Touch.lift hm hs ?_
  clear hs hm
  have hs : Touch 8589934592 s s := .refl _ _
  unfold recordSlot
  repeat' split
  all_goals simp +contextual +decide (maxDischargeDepth := 99) [hs, hasBit, subMask]

@[simp] theorem touch_coreReload (s : State) (hm : subMask 1099507212306 m = true) (hs : Touch m s0 s) :
    Touch m s0 (coreReload s) := by
  refine Touch.lift hm hs ?_
  clear hs hm
  have hs : Touch 1099507212306 s s := .refl _ _
  simp +contextual +decide (maxDischargeDepth := 99) [coreReload, hs, hasBit, subMask]

@[simp] theorem touch_imageFailed (s : State) (hm : subMask 1099506950168 m = true) (hs : Touch m s0 s) : Touch m s0 (imageFailed s) := by
  refine Touch.lift hm hs ?_
  clear hs hm
  have hs : Touch 1099506950168 s s := .refl _ _
  simp +decide (maxDischargeDepth := 99) [imageFailed, hs, hasBit, subMask]

@[simp] theorem touch_criticalPoison (s : State) (readOk : Bool) (hm : subMask 4398042251258 m = true) (hs : Touch m s0 s) :
    Touch m s0 (criticalPoison s readOk) := by
  refine Touch.lift hm hs ?_
  clear hs hm
  have hs : Touch 4398042251258 s s := .refl _ _
  unfold criticalPoison
  (try dsimp only)
  repeat' (first | with_reducible assumption | (simp +contextual +decide (maxDischargeDepth := 99) [hs, hasBit, subMask]; done) | (simp +contextual +decide (maxDischargeDepth := 99) [hs, hk, hasBit, subMask]; done) | split | refine touch_foldl _ _ _ ?_ (fun _ _ hk => ?_))

@[simp] theorem touch_scrubNext (s : State) (word : Nat) (inQueue : Bool) (hm : subMask 17179869184 m = true) (hs : Touch m s0 s) :
    Touch m s0 (scrubNext s word inQueue) := by
  refine Touch.lift hm hs ?_
  clear hs hm
  have hs : Touch 17179869184 s s := .refl _ _
  unfold scrubNext
  (try dsimp only)
  repeat' (first | with_reducible assumption | (simp +contextual +decide (maxDischargeDepth := 99) [hs, hasBit, subMask]; done) | (simp +contextual +decide (maxDischargeDepth := 99) [hs, hk, hasBit, subMask]; done) | split | refine touch_foldl _ _ _ ?_ (fun _ _ hk => ?_))

@[simp] theorem touch_putData (s : State) (w : Nat) (d : Nat) (hm : subMask 2 m = true) (hs : Touch m s0 s) : Touch m s0 (putData s w d) := by
  refine Touch.lift hm hs ?_
  clear hs hm
  have hs : Touch 2 s s := .refl _ _
  simp +decide (maxDischargeDepth := 99) [putData, hs, hasBit, subMask]

@[simp] theorem touch_scrubBuf (s : State) (w : Nat) (errs : List (Fin 275)) (hm : subMask 51543539712 m = true) (hs : Touch m s0 s) :
    Touch m s0 (scrubBuf s w errs) := by
  refine Touch.lift hm hs ?_
  clear hs hm
  have hs : Touch 51543539712 s s := .refl _ _
  simp +decide (maxDischargeDepth := 99) [scrubBuf, hs, hasBit, subMask]

@[simp] theorem touch_scrubMain (s : State) (w : Nat) (errs : List (Fin 275)) (readOk : Bool) (hm : subMask 4398042251258 m = true) (hs : Touch m s0 s) :
    Touch m s0 (scrubMain s w errs readOk) := by
  refine Touch.lift hm hs ?_
  clear hs hm
  have hs : Touch 4398042251258 s s := .refl _ _
  simp +decide (maxDischargeDepth := 99) [scrubMain, hs, hasBit, subMask]

@[simp] theorem touch_putQData (s : State) (q0 : Nat) (k : Nat) (j : Nat) (d : Nat) (hm : subMask 131072 m = true) (hs : Touch m s0 s) :
    Touch m s0 (putQData s q0 k j d) := by
  refine Touch.lift hm hs ?_
  clear hs hm
  have hs : Touch 131072 s s := .refl _ _
  simp +decide (maxDischargeDepth := 99) [putQData, hs, hasBit, subMask]

@[simp] theorem touch_scrubQueue (s : State) (x : Nat × Nat × Nat × Nat) (errs : List (Fin 275)) (hm : subMask 51543670784 m = true) (hs : Touch m s0 s) :
    Touch m s0 (scrubQueue s x errs) := by
  refine Touch.lift hm hs ?_
  clear hs hm
  have hs : Touch 51543670784 s s := .refl _ _
  unfold scrubQueue
  (try dsimp only)
  repeat' (first | with_reducible assumption | (simp +contextual +decide (maxDischargeDepth := 99) [hs, hasBit, subMask]; done) | (simp +contextual +decide (maxDischargeDepth := 99) [hs, hk, hasBit, subMask]; done) | split | refine touch_foldl _ _ _ ?_ (fun _ _ hk => ?_))

@[simp] theorem touch_scrubRead (s : State) (errs : List (Fin 275)) (readOk : Bool) (hm : subMask 4398042251258 m = true) (hs : Touch m s0 s) :
    Touch m s0 (scrubRead s errs readOk) := by
  refine Touch.lift hm hs ?_
  clear hs hm
  have hs : Touch 4398042251258 s s := .refl _ _
  unfold scrubRead
  (try dsimp only)
  repeat' (first | with_reducible assumption | (simp +contextual +decide (maxDischargeDepth := 99) [hs, hasBit, subMask]; done) | (simp +contextual +decide (maxDischargeDepth := 99) [hs, hk, hasBit, subMask]; done) | split | refine touch_foldl _ _ _ ?_ (fun _ _ hk => ?_))

@[simp] theorem touch_execScrubRead (errs : List (Fin 275)) (readOk : Bool) (s : State) (hm : subMask 4398042251258 m = true) (hs : Touch m s0 s) :
    TouchBy m s0 (execScrubRead errs readOk s) := by
  refine Touch.liftBy hm hs ?_
  clear hs hm
  have hs : Touch 4398042251258 s s := .refl _ _
  simp +decide (maxDischargeDepth := 99) [execScrubRead, hs, hasBit, subMask]

@[simp] theorem touch_hostInCopy (s : State) (lce : Bool) (hm : subMask 4298768384 m = true) (hs : Touch m s0 s) :
    Touch m s0 (hostInCopy s lce) := by
  refine Touch.lift hm hs ?_
  clear hs hm
  have hs : Touch 4298768384 s s := .refl _ _
  unfold hostInCopy
  repeat' split
  all_goals simp +contextual +decide (maxDischargeDepth := 99) [hs, hasBit, subMask]

@[simp] theorem touch_execBankRequest (bank : Fin 16) (req : Fin 12) (words : Fin 8) (dt : Nat) (s : State) (hm : subMask 262144 m = true) (hs : Touch m s0 s) :
    TouchBy m s0 (execBankRequest bank req words dt s) := by
  refine Touch.liftBy hm hs ?_
  clear hs hm
  have hs : Touch 262144 s s := .refl _ _
  simp +decide (maxDischargeDepth := 99) [execBankRequest, hs, hasBit, subMask]

@[simp] theorem touch_execBankWithdraw (bank : Fin 16) (req : Fin 12) (dt : Nat) (s : State) (hm : subMask 262144 m = true) (hs : Touch m s0 s) :
    TouchBy m s0 (execBankWithdraw bank req dt s) := by
  refine Touch.liftBy hm hs ?_
  clear hs hm
  have hs : Touch 262144 s s := .refl _ _
  simp +decide (maxDischargeDepth := 99) [execBankWithdraw, hs, hasBit, subMask]

@[simp] theorem touch_execBurstComplete (bank : Fin 16) (s : State) (hm : subMask 262144 m = true) (hs : Touch m s0 s) :
    TouchBy m s0 (execBurstComplete bank s) := by
  refine Touch.liftBy hm hs ?_
  clear hs hm
  have hs : Touch 262144 s s := .refl _ _
  simp +decide (maxDischargeDepth := 99) [execBurstComplete, hs, hasBit, subMask]

@[simp] theorem touch_fixMark (s : State) (w : Nat) (hm : subMask 1048576 m = true) (hs : Touch m s0 s) : Touch m s0 (fixMark s w) := by
  refine Touch.lift hm hs ?_
  clear hs hm
  have hs : Touch 1048576 s s := .refl _ _
  unfold fixMark
  (try dsimp only)
  repeat' (first | with_reducible assumption | (simp +contextual +decide (maxDischargeDepth := 99) [hs, hasBit, subMask]; done) | (simp +contextual +decide (maxDischargeDepth := 99) [hs, hk, hasBit, subMask]; done) | split | refine touch_foldl _ _ _ ?_ (fun _ _ hk => ?_))

@[simp] theorem touch_writeBack (s : State) (hm : subMask 1835008 m = true) (hs : Touch m s0 s) : Touch m s0 (writeBack s) := by
  refine Touch.lift hm hs ?_
  clear hs hm
  have hs : Touch 1835008 s s := .refl _ _
  unfold writeBack
  (try dsimp only)
  repeat' (first | with_reducible assumption | (simp +contextual +decide (maxDischargeDepth := 99) [hs, hasBit, subMask]; done) | (simp +contextual +decide (maxDischargeDepth := 99) [hs, hk, hasBit, subMask]; done) | split | refine touch_foldl _ _ _ ?_ (fun _ _ hk => ?_))

@[simp] theorem touch_execEccWriteback (s : State) (hm : subMask 1835008 m = true) (hs : Touch m s0 s) :
    TouchBy m s0 (execEccWriteback s) := by
  refine Touch.liftBy hm hs ?_
  clear hs hm
  have hs : Touch 1835008 s s := .refl _ _
  simp +contextual +decide (maxDischargeDepth := 99) [execEccWriteback, hs, hasBit, subMask]

@[simp] theorem touch_certInstall (s : State) (c0 : Bytes) (hm : subMask 8589967360 m = true) (hs : Touch m s0 s) :
    Touch m s0 (certInstall s c0).1 := by
  refine Touch.lift hm hs ?_
  clear hs hm
  have hs : Touch 8589967360 s s := .refl _ _
  unfold certInstall
  (try dsimp only)
  repeat' (first | with_reducible assumption | (simp +contextual +decide (maxDischargeDepth := 99) [hs, hasBit, subMask]; done) | (simp +contextual +decide (maxDischargeDepth := 99) [hs, hk, hasBit, subMask]; done) | split | refine touch_foldl _ _ _ ?_ (fun _ _ hk => ?_))

@[simp] theorem touch_nodekeyGen (s : State) (hm : subMask 4227072 m = true) (hs : Touch m s0 s) :
    Touch m s0 (nodekeyGen s).1 := by
  refine Touch.lift hm hs ?_
  clear hs hm
  have hs : Touch 4227072 s s := .refl _ _
  simp +contextual +decide (maxDischargeDepth := 99) [nodekeyGen, hs, hasBit, subMask]

@[simp] theorem touch_keyInstall (s : State) (kind : Nat) (index : Nat) (domain : Nat) (pub : Bytes) (hm : subMask 51543638018 m = true) (hs : Touch m s0 s) :
    Touch m s0 (keyInstall s kind index domain pub).1 := by
  refine Touch.lift hm hs ?_
  clear hs hm
  have hs : Touch 51543638018 s s := .refl _ _
  unfold keyInstall
  repeat' split
  all_goals simp +contextual +decide (maxDischargeDepth := 99) [hs, hasBit, subMask]

@[simp] theorem touch_gkeySet (s : State) (id : Nat) (effect : Nat) (key : Bytes) (hm : subMask 51543703810 m = true) (hs : Touch m s0 s) :
    Touch m s0 (gkeySet s id effect key).1 := by
  refine Touch.lift hm hs ?_
  clear hs hm
  have hs : Touch 51543703810 s s := .refl _ _
  unfold gkeySet
  (try dsimp only)
  repeat' (first | with_reducible assumption | (simp +contextual +decide (maxDischargeDepth := 99) [hs, hasBit, subMask]; done) | (simp +contextual +decide (maxDischargeDepth := 99) [hs, hk, hasBit, subMask]; done) | split | refine touch_foldl _ _ _ ?_ (fun _ _ hk => ?_))

@[simp] theorem touch_burnFuses (s : State) (field : Nat) (data : Bytes) (level : Nat) (ok : Bool) (hm : subMask 42957012993 m = true) (hs : Touch m s0 s) :
    Touch m s0 (burnFuses s field data level ok) := by
  refine Touch.lift hm hs ?_
  clear hs hm
  have hs : Touch 42957012993 s s := .refl _ _
  simp +contextual +decide (maxDischargeDepth := 99) [burnFuses, hs, hasBit, subMask]

@[simp] theorem touch_burnNow (s : State) (hm : subMask 47252635665 m = true) (hs : Touch m s0 s) :
    Touch m s0 (burnNow s) := by
  refine Touch.lift hm hs ?_
  clear hs hm
  have hs : Touch 47252635665 s s := .refl _ _
  unfold burnNow
  repeat' split
  all_goals simp +contextual +decide (maxDischargeDepth := 99) [hs, hasBit, subMask]

@[simp] theorem touch_burnRefused (s : State) (hm : subMask 4298768384 m = true) (hs : Touch m s0 s) :
    Touch m s0 (burnRefused s) := by
  refine Touch.lift hm hs ?_
  clear hs hm
  have hs : Touch 4298768384 s s := .refl _ _
  unfold burnRefused
  repeat' split
  all_goals simp +contextual +decide (maxDischargeDepth := 99) [hs, hasBit, subMask]

@[simp] theorem touch_burnAsk (s : State) (hm : subMask 47252635665 m = true) (hs : Touch m s0 s) :
    Touch m s0 (burnAsk s) := by
  refine Touch.lift hm hs ?_
  clear hs hm
  have hs : Touch 47252635665 s s := .refl _ _
  simp +decide (maxDischargeDepth := 99) [burnAsk, hs, hasBit, subMask]

@[simp] theorem touch_sessionOpening (s : State) (n : Nat) (epk : Bytes) (hm : subMask 5242880 m = true) (hs : Touch m s0 s) :
    Touch m s0 (sessionOpening s n epk).1 := by
  refine Touch.lift hm hs ?_
  clear hs hm
  have hs : Touch 5242880 s s := .refl _ _
  simp +decide (maxDischargeDepth := 99) [sessionOpening, hs, hasBit, subMask]

@[simp] theorem touch_sessionProving (s : State) (n : Nat) (idx : Nat) (sig : Bytes) (hm : subMask 8590983168 m = true) (hs : Touch m s0 s) :
    Touch m s0 (sessionProving s n idx sig).1 := by
  refine Touch.lift hm hs ?_
  clear hs hm
  have hs : Touch 8590983168 s s := .refl _ _
  unfold sessionProving
  (try dsimp only)
  repeat' (first | with_reducible assumption | (simp +contextual +decide (maxDischargeDepth := 99) [hs, hasBit, subMask]; done) | (simp +contextual +decide (maxDischargeDepth := 99) [hs, hk, hasBit, subMask]; done) | split | refine touch_foldl _ _ _ ?_ (fun _ _ hk => ?_))

@[simp] theorem touch_sessionEnd (s : State) (n : Nat) (hm : subMask 1048576 m = true) (hs : Touch m s0 s) :
    Touch m s0 (sessionEnd s n) := by
  refine Touch.lift hm hs ?_
  clear hs hm
  have hs : Touch 1048576 s s := .refl _ _
  simp +decide (maxDischargeDepth := 99) [sessionEnd, hs, hasBit, subMask]

@[simp] theorem touch_putImage (s : State) (c0 : CfgRec) (hm : subMask 51543539714 m = true) (hs : Touch m s0 s) :
    Touch m s0 (putImage s c0) := by
  refine Touch.lift hm hs ?_
  clear hs hm
  have hs : Touch 51543539714 s s := .refl _ _
  simp +decide (maxDischargeDepth := 99) [putImage, hs, hasBit, subMask]

@[simp] theorem touch_calCommit (s : State) (hm : subMask 32768 m = true) (hs : Touch m s0 s) : Touch m s0 (calCommit s) := by
  refine Touch.lift hm hs ?_
  clear hs hm
  have hs : Touch 32768 s s := .refl _ _
  simp +decide (maxDischargeDepth := 99) [calCommit, hs, hasBit, subMask]

@[simp] theorem touch_cfgCommit (s : State) (hm : subMask 32768 m = true) (hs : Touch m s0 s) : Touch m s0 (cfgCommit s) := by
  refine Touch.lift hm hs ?_
  clear hs hm
  have hs : Touch 32768 s s := .refl _ _
  simp +decide (maxDischargeDepth := 99) [cfgCommit, hs, hasBit, subMask]

@[simp] theorem touch_commitCfg (s : State) (c : CfgRec) (hm : subMask 51543638026 m = true) (hs : Touch m s0 s) :
    Touch m s0 (commitCfg s c) := by
  refine Touch.lift hm hs ?_
  clear hs hm
  have hs : Touch 51543638026 s s := .refl _ _
  simp +contextual +decide (maxDischargeDepth := 99) [commitCfg, hs, hasBit, subMask]

@[simp] theorem touch_saveCfg (s : State) (hm : subMask 51547832330 m = true) (hs : Touch m s0 s) : Touch m s0 (saveCfg s) := by
  refine Touch.lift hm hs ?_
  clear hs hm
  have hs : Touch 51547832330 s s := .refl _ _
  simp +decide (maxDischargeDepth := 99) [saveCfg, hs, hasBit, subMask]

@[simp] theorem touch_attest (s : State) (challenge : Bytes) (hm : subMask 51543572480 m = true) (hs : Touch m s0 s) :
    Touch m s0 (attest s challenge).1 := by
  refine Touch.lift hm hs ?_
  clear hs hm
  have hs : Touch 51543572480 s s := .refl _ _
  simp +contextual +decide (maxDischargeDepth := 99) [attest, hs, hasBit, subMask]

@[simp] theorem touch_attestNow (s : State) (hm : subMask 55838670848 m = true) (hs : Touch m s0 s) : Touch m s0 (attestNow s) := by
  refine Touch.lift hm hs ?_
  clear hs hm
  have hs : Touch 55838670848 s s := .refl _ _
  unfold attestNow
  (try dsimp only)
  repeat' (first | with_reducible assumption | (simp +contextual +decide (maxDischargeDepth := 99) [hs, hasBit, subMask]; done) | (simp +contextual +decide (maxDischargeDepth := 99) [hs, hk, hasBit, subMask]; done) | split | refine touch_foldl _ _ _ ?_ (fun _ _ hk => ?_))

@[simp] theorem touch_runSigs (s : State) (n : Nat) (hm : subMask 32768 m = true) (hs : Touch m s0 s) : Touch m s0 (runSigs s n) := by
  refine Touch.lift hm hs ?_
  clear hs hm
  have hs : Touch 32768 s s := .refl _ _
  simp +decide (maxDischargeDepth := 99) [runSigs, hs, hasBit, subMask]

@[simp] theorem touch_burstGranted (s : State) (hm : subMask 32768 m = true) (hs : Touch m s0 s) : Touch m s0 (burstGranted s) := by
  refine Touch.lift hm hs ?_
  clear hs hm
  have hs : Touch 32768 s s := .refl _ _
  simp +decide (maxDischargeDepth := 99) [burstGranted, hs, hasBit, subMask]

@[simp] theorem touch_pacedSlot (s : State) (hm : subMask 32768 m = true) (hs : Touch m s0 s) : Touch m s0 (pacedSlot s) := by
  refine Touch.lift hm hs ?_
  clear hs hm
  have hs : Touch 32768 s s := .refl _ _
  simp +decide (maxDischargeDepth := 99) [pacedSlot, hs, hasBit, subMask]

@[simp] theorem touch_burstDegraded (s : State) (hm : subMask 32768 m = true) (hs : Touch m s0 s) : Touch m s0 (burstDegraded s) := by
  refine Touch.lift hm hs ?_
  clear hs hm
  have hs : Touch 32768 s s := .refl _ _
  simp +decide (maxDischargeDepth := 99) [burstDegraded, hs, hasBit, subMask]

@[simp] theorem touch_burstFailed (s : State) (hm : subMask 38658539520 m = true) (hs : Touch m s0 s) : Touch m s0 (burstFailed s) := by
  refine Touch.lift hm hs ?_
  clear hs hm
  have hs : Touch 38658539520 s s := .refl _ _
  simp +decide (maxDischargeDepth := 99) [burstFailed, hs, hasBit, subMask]

@[simp] theorem touch_execRekeyReqRx (ctx : BitVec 12) (body : Bytes) (s : State) (hm : subMask 2250571153666 m = true) (hs : Touch m s0 s) :
    TouchBy m s0 (execRekeyReqRx ctx body s) := by
  refine Touch.liftBy hm hs ?_
  clear hs hm
  have hs : Touch 2250571153666 s s := .refl _ _
  simp +decide (maxDischargeDepth := 99) [execRekeyReqRx, hs, hasBit, subMask]

@[simp] theorem touch_execRekeyRespRx (ctx : BitVec 12) (body : Bytes) (s : State) (hm : subMask 2250571153666 m = true) (hs : Touch m s0 s) :
    TouchBy m s0 (execRekeyRespRx ctx body s) := by
  refine Touch.liftBy hm hs ?_
  clear hs hm
  have hs : Touch 2250571153666 s s := .refl _ _
  simp +decide (maxDischargeDepth := 99) [execRekeyRespRx, hs, hasBit, subMask]

@[simp] theorem touch_execRekeyRetry (ctx : BitVec 12) (s : State) (hm : subMask 2250571153408 m = true) (hs : Touch m s0 s) :
    TouchBy m s0 (execRekeyRetry ctx s) := by
  refine Touch.liftBy hm hs ?_
  clear hs hm
  have hs : Touch 2250571153408 s s := .refl _ _
  simp +decide (maxDischargeDepth := 99) [execRekeyRetry, hs, hasBit, subMask]

@[simp] theorem touch_execGkeyRx (ctx : BitVec 12) (body : Bytes) (s : State) (hm : subMask 2250571153666 m = true) (hs : Touch m s0 s) :
    TouchBy m s0 (execGkeyRx ctx body s) := by
  refine Touch.liftBy hm hs ?_
  clear hs hm
  have hs : Touch 2250571153666 s s := .refl _ _
  simp +decide (maxDischargeDepth := 99) [execGkeyRx, hs, hasBit, subMask]

@[simp] theorem touch_execTrngHealthFail (x0 : Unit) (s : State) (hm : subMask 42952851456 m = true) (hs : Touch m s0 s) :
    TouchBy m s0 (execTrngHealthFail x0 s) := by
  refine Touch.liftBy hm hs ?_
  clear hs hm
  have hs : Touch 42952851456 s s := .refl _ _
  simp +decide (maxDischargeDepth := 99) [execTrngHealthFail, hs, hasBit, subMask]

@[simp] theorem touch_trngStarts (s : State) (hm : subMask 60557263698 m = true) (hs : Touch m s0 s) : Touch m s0 (trngStarts s) := by
  refine Touch.lift hm hs ?_
  clear hs hm
  have hs : Touch 60557263698 s s := .refl _ _
  simp +decide (maxDischargeDepth := 99) [trngStarts, hs, hasBit, subMask]

@[simp] theorem touch_execSessionIdleExpiry (port : HostPort) (s : State) (hm : subMask 1048576 m = true) (hs : Touch m s0 s) :
    TouchBy m s0 (execSessionIdleExpiry port s) := by
  refine Touch.liftBy hm hs ?_
  clear hs hm
  have hs : Touch 1048576 s s := .refl _ _
  simp +decide (maxDischargeDepth := 99) [execSessionIdleExpiry, hs, hasBit, subMask]

@[simp] theorem touch_flashErase (s : State) (off : Nat) (len : Nat) (hm : subMask 4 m = true) (hs : Touch m s0 s) :
    Touch m s0 (flashErase s off len) := by
  refine Touch.lift hm hs ?_
  clear hs hm
  have hs : Touch 4 s s := .refl _ _
  simp +contextual +decide (maxDischargeDepth := 99) [flashErase, hs, hasBit, subMask]

@[simp] theorem touch_flashBegin (s : State) (f : FlashOp) (hm : subMask 2097168 m = true) (hs : Touch m s0 s) :
    Touch m s0 (flashBegin s f) := by
  refine Touch.lift hm hs ?_
  clear hs hm
  have hs : Touch 2097168 s s := .refl _ _
  simp +contextual +decide (maxDischargeDepth := 99) [flashBegin, hs, hasBit, subMask]

@[simp] theorem touch_flashFinish (s : State) (f : FlashOp) (status : Nat) (hm : subMask 4298768400 m = true) (hs : Touch m s0 s) :
    Touch m s0 (flashFinish s f status) := by
  refine Touch.lift hm hs ?_
  clear hs hm
  have hs : Touch 4298768400 s s := .refl _ _
  unfold flashFinish
  repeat' split
  all_goals simp +contextual +decide (maxDischargeDepth := 99) [hs, hasBit, subMask]

@[simp] theorem touch_flashEffect (s : State) (f : FlashOp) (hm : subMask 51547832334 m = true) (hs : Touch m s0 s) :
    Touch m s0 (flashEffect s f) := by
  refine Touch.lift hm hs ?_
  clear hs hm
  have hs : Touch 51547832334 s s := .refl _ _
  simp +decide (maxDischargeDepth := 99) [flashEffect, hs, hasBit, subMask]

@[simp] theorem touch_flashComplete (s : State) (hm : subMask 55842930718 m = true) (hs : Touch m s0 s) :
    Touch m s0 (flashComplete s) := by
  refine Touch.lift hm hs ?_
  clear hs hm
  have hs : Touch 55842930718 s s := .refl _ _
  unfold flashComplete
  repeat' split
  all_goals simp +contextual +decide (maxDischargeDepth := 99) [hs, hasBit, subMask]

@[simp] theorem touch_flashGranted (s : State) (hm : subMask 2097152 m = true) (hs : Touch m s0 s) :
    Touch m s0 (flashGranted s) := by
  refine Touch.lift hm hs ?_
  clear hs hm
  have hs : Touch 2097152 s s := .refl _ _
  simp +contextual +decide (maxDischargeDepth := 99) [flashGranted, hs, hasBit, subMask]

@[simp] theorem touch_flashRefused (s : State) (hm : subMask 4298784784 m = true) (hs : Touch m s0 s) :
    Touch m s0 (flashRefused s) := by
  refine Touch.lift hm hs ?_
  clear hs hm
  have hs : Touch 4298784784 s s := .refl _ _
  unfold flashRefused
  cases h : s.hcp.flash with
  | none => dsimp only; split <;> simp +contextual +decide (maxDischargeDepth := 99) [hs, hasBit, subMask]
  | some f =>
    have h2 := touch_flashFinish s f St.noLeave (m := 4298784784) (by decide) hs
    dsimp only
    exact touch_ite _ _ _ (touch_recordEpoch _ (by decide) h2) h2

@[simp] theorem touch_holdLeave (s : State) (r : LeaveReq) (cost : Nat) (hm : subMask 16 m = true) (hs : Touch m s0 s) :
    Touch m s0 (holdLeave s r cost) := by
  refine Touch.lift hm hs ?_
  clear hs hm
  have hs : Touch 16 s s := .refl _ _
  simp +decide (maxDischargeDepth := 99) [holdLeave, hs, hasBit, subMask]

@[simp] theorem touch_decided (s : State) (r : LeaveReq) (hm : subMask 16 m = true) (hs : Touch m s0 s) : Touch m s0 (decided s r) := by
  refine Touch.lift hm hs ?_
  clear hs hm
  have hs : Touch 16 s s := .refl _ _
  simp +decide (maxDischargeDepth := 99) [decided, hs, hasBit, subMask]

@[simp] theorem touch_onGrant (s : State) (r : LeaveReq) (hm : subMask 1099452815379 m = true) (hs : Touch m s0 s) :
    Touch m s0 (onGrant s r) := by
  refine Touch.lift hm hs ?_
  clear hs hm
  have hs : Touch 1099452815379 s s := .refl _ _
  unfold onGrant
  repeat' split
  all_goals simp +contextual +decide (maxDischargeDepth := 99) [hs, hasBit, subMask]

@[simp] theorem touch_grant (s : State) (r : LeaveReq) (hm : subMask 1099452815379 m = true) (hs : Touch m s0 s) :
    Touch m s0 (grant s r) := by
  refine Touch.lift hm hs ?_
  clear hs hm
  have hs : Touch 1099452815379 s s := .refl _ _
  simp +decide (maxDischargeDepth := 99) [grant, hs, hasBit, subMask]

@[simp] theorem touch_degradeLine (s : State) (r : LeaveReq) (step : Nat) (hm : subMask 16 m = true) (hs : Touch m s0 s) :
    Touch m s0 (degradeLine s r step) := by
  refine Touch.lift hm hs ?_
  clear hs hm
  have hs : Touch 16 s s := .refl _ _
  simp +decide (maxDischargeDepth := 99) [degradeLine, hs, hasBit, subMask]

@[simp] theorem touch_degrade (s : State) (r : LeaveReq) (hm : subMask 54764804114 m = true) (hs : Touch m s0 s) :
    Touch m s0 (degrade s r) := by
  refine Touch.lift hm hs ?_
  clear hs hm
  have hs : Touch 54764804114 s s := .refl _ _
  unfold degrade
  repeat' split
  all_goals simp +contextual +decide (maxDischargeDepth := 99) [hs, hasBit, subMask]

@[simp] theorem touch_failReq (s : State) (r : LeaveReq) (hm : subMask 1099457026066 m = true) (hs : Touch m s0 s) :
    Touch m s0 (failReq s r) := by
  refine Touch.lift hm hs ?_
  clear hs hm
  have hs : Touch 1099457026066 s s := .refl _ _
  unfold failReq
  (try dsimp only)
  repeat' (first | with_reducible assumption | (simp +contextual +decide (maxDischargeDepth := 99) [hs, hasBit, subMask]; done) | (simp +contextual +decide (maxDischargeDepth := 99) [hs, hk, hasBit, subMask]; done) | split | refine touch_foldl _ _ _ ?_ (fun _ _ hk => ?_))

@[simp] theorem touch_waitEnd (s : State) (r : LeaveReq) (hm : subMask 1099457026066 m = true) (hs : Touch m s0 s) :
    Touch m s0 (waitEnd s r) := by
  refine Touch.lift hm hs ?_
  clear hs hm
  have hs : Touch 1099457026066 s s := .refl _ _
  simp +decide (maxDischargeDepth := 99) [waitEnd, hs, hasBit, subMask]

@[simp] theorem touch_waitOrFail (s : State) (r : LeaveReq) (hm : subMask 1099457026066 m = true) (hs : Touch m s0 s) :
    Touch m s0 (waitOrFail s r) := by
  refine Touch.lift hm hs ?_
  clear hs hm
  have hs : Touch 1099457026066 s s := .refl _ _
  simp +decide (maxDischargeDepth := 99) [waitOrFail, hs, hasBit, subMask]

@[simp] theorem touch_refuse (s : State) (r : LeaveReq) (hm : subMask 1099457026066 m = true) (hs : Touch m s0 s) :
    Touch m s0 (refuse s r) := by
  refine Touch.lift hm hs ?_
  clear hs hm
  have hs : Touch 1099457026066 s s := .refl _ _
  unfold refuse
  (try dsimp only)
  repeat' (first | with_reducible assumption | (simp +contextual +decide (maxDischargeDepth := 99) [hs, hasBit, subMask]; done) | (simp +contextual +decide (maxDischargeDepth := 99) [hs, hk, hasBit, subMask]; done) | split | refine touch_foldl _ _ _ ?_ (fun _ _ hk => ?_))

@[simp] theorem touch_decideReq (s : State) (r : LeaveReq) (hm : subMask 1099461220371 m = true) (hs : Touch m s0 s) :
    Touch m s0 (decideReq s r) := by
  refine Touch.lift hm hs ?_
  clear hs hm
  have hs : Touch 1099461220371 s s := .refl _ _
  simp +decide (maxDischargeDepth := 99) [decideReq, hs, hasBit, subMask]

@[simp] theorem touch_decide1 (s : State) (req : Nat) (hm : subMask 1099461220371 m = true) (hs : Touch m s0 s) :
    Touch m s0 (decide1 s req) := by
  refine Touch.lift hm hs ?_
  clear hs hm
  have hs : Touch 1099461220371 s s := .refl _ _
  simp +contextual +decide (maxDischargeDepth := 99) [decide1, hs, hasBit, subMask]

@[simp] theorem touch_tidyLeave (s : State) (hm : subMask 16 m = true) (hs : Touch m s0 s) : Touch m s0 (tidyLeave s) := by
  refine Touch.lift hm hs ?_
  clear hs hm
  have hs : Touch 16 s s := .refl _ _
  simp +decide (maxDischargeDepth := 99) [tidyLeave, hs, hasBit, subMask]

@[simp] theorem touch_governor (s : State) (hm : subMask 1099461220371 m = true) (hs : Touch m s0 s) : Touch m s0 (governor s) := by
  refine Touch.lift hm hs ?_
  clear hs hm
  have hs : Touch 1099461220371 s s := .refl _ _
  simp +contextual +decide (maxDischargeDepth := 99) [governor, hs, hasBit, subMask]

@[simp] theorem touch_waitExpired (s : State) (req : Nat) (hm : subMask 1099457026066 m = true) (hs : Touch m s0 s) :
    Touch m s0 (waitExpired s req) := by
  refine Touch.lift hm hs ?_
  clear hs hm
  have hs : Touch 1099457026066 s s := .refl _ _
  unfold waitExpired
  repeat' split
  all_goals simp +contextual +decide (maxDischargeDepth := 99) [hs, hasBit, subMask]

@[simp] theorem touch_railFell (s : State) (rail : Nat) (hm : subMask 4398042251258 m = true) (hs : Touch m s0 s) :
    Touch m s0 (railFell s rail) := by
  refine Touch.lift hm hs ?_
  clear hs hm
  have hs : Touch 4398042251258 s s := .refl _ _
  simp +contextual +decide (maxDischargeDepth := 99) [railFell, hs, hasBit, subMask]

@[simp] theorem touch_latchCauses (s : State) (hm : subMask 8388608 m = true) (hs : Touch m s0 s) :
    Touch m s0 (latchCauses s) := by
  refine Touch.lift hm hs ?_
  clear hs hm
  have hs : Touch 8388608 s s := .refl _ _
  simp +decide (maxDischargeDepth := 99) [latchCauses, hs, hasBit, subMask]

@[simp] theorem touch_releaseReset (s : State) (pairId : Bool) (cmsnN : Bool) (hm : subMask 68727898120 m = true) (hs : Touch m s0 s) :
    Touch m s0 (releaseReset s pairId cmsnN) := by
  refine Touch.lift hm hs ?_
  clear hs hm
  have hs : Touch 68727898120 s s := .refl _ _
  simp +contextual +decide (maxDischargeDepth := 99) [releaseReset, hs, hasBit, subMask]

@[simp] theorem touch_holdParent (s : State) (hm : subMask 134217728 m = true) (hs : Touch m s0 s) :
    Touch m s0 (holdParent s) := by
  refine Touch.lift hm hs ?_
  clear hs hm
  have hs : Touch 134217728 s s := .refl _ _
  unfold holdParent
  repeat' split
  all_goals simp +contextual +decide (maxDischargeDepth := 99) [hs, hasBit, subMask]

@[simp] theorem touch_loadCfg (s : State) (c : CfgRec) (hm : subMask 1099503291722 m = true) (hs : Touch m s0 s) :
    Touch m s0 (loadCfg s c) := by
  refine Touch.lift hm hs ?_
  clear hs hm
  have hs : Touch 1099503291722 s s := .refl _ _
  simp +contextual +decide (maxDischargeDepth := 99) [loadCfg, hs, hasBit, subMask]

@[simp] theorem touch_readCfg (s : State) (hm : subMask 1099507289418 m = true) (hs : Touch m s0 s) : Touch m s0 (readCfg s) := by
  refine Touch.lift hm hs ?_
  clear hs hm
  have hs : Touch 1099507289418 s s := .refl _ _
  unfold readCfg
  (try dsimp only)
  repeat' (first | with_reducible assumption | (simp +contextual +decide (maxDischargeDepth := 99) [hs, hasBit, subMask]; done) | (simp +contextual +decide (maxDischargeDepth := 99) [hs, hk, hasBit, subMask]; done) | split | refine touch_foldl _ _ _ ?_ (fun _ _ hk => ?_))

@[simp] theorem touch_startImage (s : State) (slot : Nat) (took : Nat) (hm : subMask 1099507289418 m = true) (hs : Touch m s0 s) :
    Touch m s0 (startImage s slot took) := by
  refine Touch.lift hm hs ?_
  clear hs hm
  have hs : Touch 1099507289418 s s := .refl _ _
  simp +decide (maxDischargeDepth := 99) [startImage, hs, hasBit, subMask]

@[simp] theorem touch_recordHeaders (s : State) (hm : subMask 8589934592 m = true) (hs : Touch m s0 s) : Touch m s0 (recordHeaders s) := by
  refine Touch.lift hm hs ?_
  clear hs hm
  have hs : Touch 8589934592 s s := .refl _ _
  simp +decide (maxDischargeDepth := 99) [recordHeaders, hs, hasBit, subMask]

@[simp] theorem touch_romIdle (s : State) (hm : subMask 8 m = true) (hs : Touch m s0 s) : Touch m s0 (romIdle s) := by
  refine Touch.lift hm hs ?_
  clear hs hm
  have hs : Touch 8 s s := .refl _ _
  simp +decide (maxDischargeDepth := 99) [romIdle, hs, hasBit, subMask]

@[simp] theorem touch_tryImage (s : State) (slot : Nat) (took : Nat) (hm : subMask 1099507289418 m = true) (hs : Touch m s0 s) :
    Touch m s0 (tryImage s slot took) := by
  refine Touch.lift hm hs ?_
  clear hs hm
  have hs : Touch 1099507289418 s s := .refl _ _
  simp +decide (maxDischargeDepth := 99) [tryImage, hs, hasBit, subMask]

@[simp] theorem touch_imageChecked (s : State) (slot : Nat) (r : ImageResult) (hm : subMask 1099507289418 m = true) (hs : Touch m s0 s) :
    Touch m s0 (imageChecked s slot r) := by
  refine Touch.lift hm hs ?_
  clear hs hm
  have hs : Touch 1099507289418 s s := .refl _ _
  simp +contextual +decide (maxDischargeDepth := 99) [imageChecked, hs, hasBit, subMask]

@[simp] theorem touch_roostEnter (s : State) (hm : subMask 1099507333522 m = true) (hs : Touch m s0 s) :
    Touch m s0 (roostEnter s) := by
  refine Touch.lift hm hs ?_
  clear hs hm
  have hs : Touch 1099507333522 s s := .refl _ _
  simp +contextual +decide (maxDischargeDepth := 99) [roostEnter, hs, hasBit, subMask]

@[simp] theorem touch_exitPass (s : State) (hm : subMask 51543539712 m = true) (hs : Touch m s0 s) :
    Touch m s0 (exitPass s) := by
  refine Touch.lift hm hs ?_
  clear hs hm
  have hs : Touch 51543539712 s s := .refl _ _
  simp +contextual +decide (maxDischargeDepth := 99) [exitPass, hs, hasBit, subMask]

@[simp] theorem touch_unpark (s : State) (c0 : Nat) (hm : subMask 51543539714 m = true) (hs : Touch m s0 s) : Touch m s0 (unpark s c0) := by
  refine Touch.lift hm hs ?_
  clear hs hm
  have hs : Touch 51543539714 s s := .refl _ _
  simp +decide (maxDischargeDepth := 99) [unpark, hs, hasBit, subMask]

@[simp] theorem touch_queuesEmpty (s : State) (hm : subMask 131072 m = true) (hs : Touch m s0 s) : Touch m s0 (queuesEmpty s) := by
  refine Touch.lift hm hs ?_
  clear hs hm
  have hs : Touch 131072 s s := .refl _ _
  simp +decide (maxDischargeDepth := 99) [queuesEmpty, hs, hasBit, subMask]

@[simp] theorem touch_roostLeave (s : State) (hm : subMask 51543671170 m = true) (hs : Touch m s0 s) :
    Touch m s0 (roostLeave s) := by
  refine Touch.lift hm hs ?_
  clear hs hm
  have hs : Touch 51543671170 s s := .refl _ _
  simp +contextual +decide (maxDischargeDepth := 99) [roostLeave, hs, hasBit, subMask]

@[simp] theorem touch_roostWoken (s : State) (di : Option (Nat × Bool)) (readOk : Bool) (hm : subMask 677543573786 m = true) (hs : Touch m s0 s) :
    Touch m s0 (roostWoken s di readOk) := by
  refine Touch.lift hm hs ?_
  clear hs hm
  have hs : Touch 677543573786 s s := .refl _ _
  simp +decide (maxDischargeDepth := 99) [roostWoken, hs, hasBit, subMask]

@[simp] theorem touch_driversOff (s : State) (hm : subMask 1099478073344 m = true) (hs : Touch m s0 s) :
    Touch m s0 (driversOff s) := by
  refine Touch.lift hm hs ?_
  clear hs hm
  have hs : Touch 1099478073344 s s := .refl _ _
  simp +contextual +decide (maxDischargeDepth := 99) [driversOff, hs, hasBit, subMask]

@[simp] theorem touch_endSweeps (s : State) (hm : subMask 1099485413520 m = true) (hs : Touch m s0 s) :
    Touch m s0 (endSweeps s) := by
  refine Touch.lift hm hs ?_
  clear hs hm
  have hs : Touch 1099485413520 s s := .refl _ _
  simp +contextual +decide (maxDischargeDepth := 99) [endSweeps, hs, hasBit, subMask]

@[simp] theorem touch_enterMode (s : State) (old : Mode) (new : Mode) (hm : subMask 3298534849938 m = true) (hs : Touch m s0 s) :
    Touch m s0 (enterMode s old new) := by
  refine Touch.lift hm hs ?_
  clear hs hm
  have hs : Touch 3298534849938 s s := .refl _ _
  unfold enterMode
  repeat' split
  all_goals simp +contextual +decide (maxDischargeDepth := 99) [hs, hasBit, subMask]

@[simp] theorem touch_noteBoot (s : State) (old : Mode) (hm : subMask 8388608 m = true) (hs : Touch m s0 s) :
    Touch m s0 (noteBoot s old) := by
  refine Touch.lift hm hs ?_
  clear hs hm
  have hs : Touch 8388608 s s := .refl _ _
  simp +decide (maxDischargeDepth := 99) [noteBoot, hs, hasBit, subMask]

@[simp] theorem touch_notePromotion (s : State) (kind : TransKind) (hm : subMask 68719493120 m = true) (hs : Touch m s0 s) :
    Touch m s0 (notePromotion s kind) := by
  refine Touch.lift hm hs ?_
  clear hs hm
  have hs : Touch 68719493120 s s := .refl _ _
  unfold notePromotion
  repeat' split
  all_goals simp +contextual +decide (maxDischargeDepth := 99) [hs, hasBit, subMask]

@[simp] theorem touch_delayAfter (s : State) (kind : TransKind) (hm : subMask 51543539970 m = true) (hs : Touch m s0 s) :
    Touch m s0 (delayAfter s kind) := by
  refine Touch.lift hm hs ?_
  clear hs hm
  have hs : Touch 51543539970 s s := .refl _ _
  unfold delayAfter
  (try dsimp only)
  repeat' (first | with_reducible assumption | (simp +contextual +decide (maxDischargeDepth := 99) [hs, hasBit, subMask]; done) | (simp +contextual +decide (maxDischargeDepth := 99) [hs, hk, hasBit, subMask]; done) | split | refine touch_foldl _ _ _ ?_ (fun _ _ hk => ?_))

@[simp] theorem touch_noteTransition (s : State) (t : Trans) (old : Mode) (hm : subMask 68727947264 m = true) (hs : Touch m s0 s) :
    Touch m s0 (noteTransition s t old) := by
  refine Touch.lift hm hs ?_
  clear hs hm
  have hs : Touch 68727947264 s s := .refl _ _
  simp +contextual +decide (maxDischargeDepth := 99) [noteTransition, hs, hasBit, subMask]

@[simp] theorem touch_transitionEnd (s : State) (hm : subMask 3298534849946 m = true) (hs : Touch m s0 s) :
    Touch m s0 (transitionEnd s) := by
  refine Touch.lift hm hs ?_
  clear hs hm
  have hs : Touch 3298534849946 s s := .refl _ _
  unfold transitionEnd
  repeat' split
  all_goals simp +contextual +decide (maxDischargeDepth := 99) [hs, hasBit, subMask]

@[simp] theorem touch_leaveSafehold (s : State) (target : Mode) (ok : Bool) (hm : subMask 8 m = true) (hs : Touch m s0 s) :
    Touch m s0 (leaveSafehold s target ok).1 := by
  refine Touch.lift hm hs ?_
  clear hs hm
  have hs : Touch 8 s s := .refl _ _
  unfold leaveSafehold
  repeat' split
  all_goals simp +contextual +decide (maxDischargeDepth := 99) [hs, hasBit, subMask]

@[simp] theorem touch_modeSet (s : State) (c : Nat) (hm : subMask 677543573786 m = true) (hs : Touch m s0 s) :
    Touch m s0 (modeSet s c).1 := by
  refine Touch.lift hm hs ?_
  clear hs hm
  have hs : Touch 677543573786 s s := .refl _ _
  unfold modeSet
  repeat' split
  all_goals simp +contextual +decide (maxDischargeDepth := 99) [hs, hasBit, subMask]

@[simp] theorem touch_coreRestart (s : State) (hm : subMask 4398042251258 m = true) (hs : Touch m s0 s) : Touch m s0 (coreRestart s) := by
  refine Touch.lift hm hs ?_
  clear hs hm
  have hs : Touch 4398042251258 s s := .refl _ _
  simp +decide (maxDischargeDepth := 99) [coreRestart, hs, hasBit, subMask]

@[simp] theorem touch_watchdog (s : State) (hm : subMask 4398042251258 m = true) (hs : Touch m s0 s) : Touch m s0 (watchdog s) := by
  refine Touch.lift hm hs ?_
  clear hs hm
  have hs : Touch 4398042251258 s s := .refl _ _
  simp +decide (maxDischargeDepth := 99) [watchdog, hs, hasBit, subMask]

@[simp] theorem touch_noteTj (s : State) (tj : Nat) (hm : subMask 1099520016384 m = true) (hs : Touch m s0 s) : Touch m s0 (noteTj s tj) := by
  refine Touch.lift hm hs ?_
  clear hs hm
  have hs : Touch 1099520016384 s s := .refl _ _
  simp +decide (maxDischargeDepth := 99) [noteTj, hs, hasBit, subMask]

@[simp] theorem touch_readJunction (s : State) (tj : BitVec 12) (hm : subMask 1101667500040 m = true) (hs : Touch m s0 s) :
    Touch m s0 (readJunction s tj) := by
  refine Touch.lift hm hs ?_
  clear hs hm
  have hs : Touch 1101667500040 s s := .refl _ _
  simp +contextual +decide (maxDischargeDepth := 99) [readJunction, hs, hasBit, subMask]

@[simp] theorem touch_capSet (s : State) (hm : subMask 34404827264 m = true) (hs : Touch m s0 s) :
    Touch m s0 (capSet s) := by
  refine Touch.lift hm hs ?_
  clear hs hm
  have hs : Touch 34404827264 s s := .refl _ _
  simp +contextual +decide (maxDischargeDepth := 99) [capSet, hs, hasBit, subMask]

@[simp] theorem touch_capClear (s : State) (hm : subMask 41943040 m = true) (hs : Touch m s0 s) :
    Touch m s0 (capClear s) := by
  refine Touch.lift hm hs ?_
  clear hs hm
  have hs : Touch 41943040 s s := .refl _ _
  simp +decide (maxDischargeDepth := 99) [capClear, hs, hasBit, subMask]

@[simp] theorem touch_thermalOff (s : State) (hm : subMask 4398042251258 m = true) (hs : Touch m s0 s) :
    Touch m s0 (thermalOff s) := by
  refine Touch.lift hm hs ?_
  clear hs hm
  have hs : Touch 4398042251258 s s := .refl _ _
  simp +contextual +decide (maxDischargeDepth := 99) [thermalOff, hs, hasBit, subMask]

@[simp] theorem touch_resetWhenSent (s : State) (hm : subMask 4398042251258 m = true) (hs : Touch m s0 s) :
    Touch m s0 (resetWhenSent s) := by
  refine Touch.lift hm hs ?_
  clear hs hm
  have hs : Touch 4398042251258 s s := .refl _ _
  simp +decide (maxDischargeDepth := 99) [resetWhenSent, hs, hasBit, subMask]

@[simp] theorem touch_phaseSlot (s : State) (hm : subMask 4398046445563 m = true) (hs : Touch m s0 s) : Touch m s0 (phaseSlot s) := by
  refine Touch.lift hm hs ?_
  clear hs hm
  have hs : Touch 4398046445563 s s := .refl _ _
  simp +decide (maxDischargeDepth := 99) [phaseSlot, hs, hasBit, subMask]

@[simp] theorem touch_execSupplyUndervoltage (rail : Fin 4) (s : State) (hm : subMask 4398042251258 m = true) (hs : Touch m s0 s) :
    TouchBy m s0 (execSupplyUndervoltage rail s) := by
  refine Touch.liftBy hm hs ?_
  clear hs hm
  have hs : Touch 4398042251258 s s := .refl _ _
  simp +decide (maxDischargeDepth := 99) [execSupplyUndervoltage, hs, hasBit, subMask]

@[simp] theorem touch_execSupplyOvervoltage (rail : Fin 4) (s : State) (hm : subMask 8388608 m = true) (hs : Touch m s0 s) :
    TouchBy m s0 (execSupplyOvervoltage rail s) := by
  refine Touch.liftBy hm hs ?_
  clear hs hm
  have hs : Touch 8388608 s s := .refl _ _
  simp +decide (maxDischargeDepth := 99) [execSupplyOvervoltage, hs, hasBit, subMask]

@[simp] theorem touch_execResetNLow (s : State) (hm : subMask 4398042251258 m = true) (hs : Touch m s0 s) :
    TouchBy m s0 (execResetNLow s) := by
  refine Touch.liftBy hm hs ?_
  clear hs hm
  have hs : Touch 4398042251258 s s := .refl _ _
  simp +decide (maxDischargeDepth := 99) [execResetNLow, hs, hasBit, subMask]

@[simp] theorem touch_execClockLoss (_pll : Fin 4) (s : State) (hm : subMask 4398042251258 m = true) (hs : Touch m s0 s) :
    TouchBy m s0 (execClockLoss _pll s) := by
  refine Touch.liftBy hm hs ?_
  clear hs hm
  have hs : Touch 4398042251258 s s := .refl _ _
  simp +decide (maxDischargeDepth := 99) [execClockLoss, hs, hasBit, subMask]

@[simp] theorem touch_execRtckLoss (s : State) (hm : subMask 8388608 m = true) (hs : Touch m s0 s) :
    TouchBy m s0 (execRtckLoss s) := by
  refine Touch.liftBy hm hs ?_
  clear hs hm
  have hs : Touch 8388608 s s := .refl _ _
  simp +decide (maxDischargeDepth := 99) [execRtckLoss, hs, hasBit, subMask]

@[simp] theorem touch_execResetStretchStart (s : State) (hm : subMask 8388616 m = true) (hs : Touch m s0 s) :
    TouchBy m s0 (execResetStretchStart s) := by
  refine Touch.liftBy hm hs ?_
  clear hs hm
  have hs : Touch 8388616 s s := .refl _ _
  simp +contextual +decide (maxDischargeDepth := 99) [execResetStretchStart, hs, hasBit, subMask]

@[simp] theorem touch_execResetRelease (pairId : Bool) (cmsnN : Bool) (s : State) (hm : subMask 68727898120 m = true) (hs : Touch m s0 s) :
    TouchBy m s0 (execResetRelease pairId cmsnN s) := by
  refine Touch.liftBy hm hs ?_
  clear hs hm
  have hs : Touch 68727898120 s s := .refl _ _
  simp +decide (maxDischargeDepth := 99) [execResetRelease, hs, hasBit, subMask]

@[simp] theorem touch_execImageCheckDone (slot : Fin 2) (r : ImageResult) (s : State) (hm : subMask 1099507289418 m = true) (hs : Touch m s0 s) :
    TouchBy m s0 (execImageCheckDone slot r s) := by
  refine Touch.liftBy hm hs ?_
  clear hs hm
  have hs : Touch 1099507289418 s s := .refl _ _
  simp +decide (maxDischargeDepth := 99) [execImageCheckDone, hs, hasBit, subMask]

@[simp] theorem touch_execModeTransitionEnd (s : State) (hm : subMask 3298534849946 m = true) (hs : Touch m s0 s) :
    TouchBy m s0 (execModeTransitionEnd s) := by
  refine Touch.liftBy hm hs ?_
  clear hs hm
  have hs : Touch 3298534849946 s s := .refl _ _
  simp +decide (maxDischargeDepth := 99) [execModeTransitionEnd, hs, hasBit, subMask]

@[simp] theorem touch_execWatchdogExpiry (x0 : Unit) (s : State) (hm : subMask 4398042251258 m = true) (hs : Touch m s0 s) :
    TouchBy m s0 (execWatchdogExpiry x0 s) := by
  refine Touch.liftBy hm hs ?_
  clear hs hm
  have hs : Touch 4398042251258 s s := .refl _ _
  simp +decide (maxDischargeDepth := 99) [execWatchdogExpiry, hs, hasBit, subMask]

@[simp] theorem touch_execThermSafehold (tj : BitVec 12) (s : State) (hm : subMask 1777055201562 m = true) (hs : Touch m s0 s) :
    TouchBy m s0 (execThermSafehold tj s) := by
  refine Touch.liftBy hm hs ?_
  clear hs hm
  have hs : Touch 1777055201562 s s := .refl _ _
  simp +decide (maxDischargeDepth := 99) [execThermSafehold, hs, hasBit, subMask]

@[simp] theorem touch_execThermalShutdown (tj : BitVec 12) (s : State) (hm : subMask 4398042251258 m = true) (hs : Touch m s0 s) :
    TouchBy m s0 (execThermalShutdown tj s) := by
  refine Touch.liftBy hm hs ?_
  clear hs hm
  have hs : Touch 4398042251258 s s := .refl _ _
  simp +decide (maxDischargeDepth := 99) [execThermalShutdown, hs, hasBit, subMask]

@[simp] theorem touch_execThermalShutdownEnd (tj : BitVec 12) (s : State) (hm : subMask 4398042251258 m = true) (hs : Touch m s0 s) :
    TouchBy m s0 (execThermalShutdownEnd tj s) := by
  refine Touch.liftBy hm hs ?_
  clear hs hm
  have hs : Touch 4398042251258 s s := .refl _ _
  simp +contextual +decide (maxDischargeDepth := 99) [execThermalShutdownEnd, hs, hasBit, subMask]

@[simp] theorem touch_execThermalCapSet (tj : BitVec 12) (s : State) (hm : subMask 1136063938696 m = true) (hs : Touch m s0 s) :
    TouchBy m s0 (execThermalCapSet tj s) := by
  refine Touch.liftBy hm hs ?_
  clear hs hm
  have hs : Touch 1136063938696 s s := .refl _ _
  simp +decide (maxDischargeDepth := 99) [execThermalCapSet, hs, hasBit, subMask]

@[simp] theorem touch_execThermalCapClear (tj : BitVec 12) (s : State) (hm : subMask 1101701054472 m = true) (hs : Touch m s0 s) :
    TouchBy m s0 (execThermalCapClear tj s) := by
  refine Touch.liftBy hm hs ?_
  clear hs hm
  have hs : Touch 1101701054472 s s := .refl _ _
  simp +decide (maxDischargeDepth := 99) [execThermalCapClear, hs, hasBit, subMask]

@[simp] theorem touch_execRoostWake (di : Option (Fin 16 × Bool)) (readOk : Bool) (s : State) (hm : subMask 677543573786 m = true) (hs : Touch m s0 s) :
    TouchBy m s0 (execRoostWake di readOk s) := by
  refine Touch.liftBy hm hs ?_
  clear hs hm
  have hs : Touch 677543573786 s s := .refl _ _
  simp +decide (maxDischargeDepth := 99) [execRoostWake, hs, hasBit, subMask]

@[simp] theorem touch_execJtagSystemReset (s : State) (hm : subMask 4398042251258 m = true) (hs : Touch m s0 s) :
    TouchBy m s0 (execJtagSystemReset s) := by
  refine Touch.liftBy hm hs ?_
  clear hs hm
  have hs : Touch 4398042251258 s s := .refl _ _
  simp +decide (maxDischargeDepth := 99) [execJtagSystemReset, hs, hasBit, subMask]

end Sys2Proof.Machine
end

