-- ==== Sys2Proof/Laws/TouchHost.lean ====
section
/-! SUPPORT. `Touch` through registers as hosts reach them, the host port, the rows that name requests: one lemma per operation. -/

set_option linter.all false

namespace Sys2Proof.Machine

variable {m : Nat} {s0 : State}

@[simp] theorem touch_setSrc (s : State) (x : Src) (v : SrcState) (hm : subMask 2097152 m = true) (hs : Touch m s0 s) :
    Touch m s0 (setSrc s x v) := by
  refine Touch.lift hm hs ?_
  clear hs hm
  have hs : Touch 2097152 s s := .refl _ _
  simp +contextual +decide (maxDischargeDepth := 99) [setSrc, hs, hasBit, subMask]

@[simp] theorem touch_latch (s : State) (src : Src) (base : Nat) (n : Nat) (hm : subMask 1099513724928 m = true) (hs : Touch m s0 s) :
    Touch m s0 (latch s src base n) := by
  refine Touch.lift hm hs ?_
  clear hs hm
  have hs : Touch 1099513724928 s s := .refl _ _
  unfold latch
  repeat' split
  all_goals simp +contextual +decide (maxDischargeDepth := 99) [hs, hasBit, subMask]

@[simp] theorem touch_clearMqf (s : State) (base : Nat) (hm : subMask 393216 m = true) (hs : Touch m s0 s) :
    Touch m s0 (clearMqf s base) := by
  refine Touch.lift hm hs ?_
  clear hs hm
  have hs : Touch 393216 s s := .refl _ _
  unfold clearMqf
  repeat' split
  all_goals simp +contextual +decide (maxDischargeDepth := 99) [hs, hasBit, subMask]

@[simp] theorem touch_clearRc (s : State) (r : RegDef) (n : Nat) (hm : subMask 1099503632384 m = true) (hs : Touch m s0 s) :
    Touch m s0 (clearRc s r n) := by
  refine Touch.lift hm hs ?_
  clear hs hm
  have hs : Touch 1099503632384 s s := .refl _ _
  unfold clearRc
  split
  · simp +contextual +decide (maxDischargeDepth := 99) [hs, hasBit, subMask]
  · refine touch_foldl _ _ _ hs (fun _ _ hk => ?_)
    split
    · exact touch_setF _ _ _ (okField_all _ (by decide)) hk
    · exact hk

@[simp] theorem touch_readReg (s : State) (src : Src) (a : Nat) (hm : subMask 2199023130624 m = true) (hs : Touch m s0 s) :
    Touch m s0 (readReg s src a).1 := by
  refine Touch.lift hm hs ?_
  clear hs hm
  have hs : Touch 2199023130624 s s := .refl _ _
  unfold readReg
  repeat' split
  all_goals simp +contextual +decide (maxDischargeDepth := 99) [hs, hasBit, subMask]

@[simp] theorem touch_readRegs (s : State) (src : Src) (a : Nat) (x3 : Nat) (hm : subMask 2199023130624 m = true) (hs : Touch m s0 s) :
    Touch m s0 (readRegs s src a x3).1 := by
  refine Touch.lift hm hs ?_
  clear hs hm
  have hs : Touch 2199023130624 s s := .refl _ _
  suffices key : ∀ b0, Touch 2199023130624 b0 s → Touch 2199023130624 b0 (readRegs s src a x3).1 from key _ hs
  clear hs
  intro b0 hs
  induction x3 generalizing s a with
  | zero => exact hs
  | succ n ih => exact ih _ _ (touch_readReg s src a (m := 2199023130624) (by decide) hs)

@[simp] theorem touch_writeRejected (s : State) (base : Nat) (v : Nat) (hm : subMask 75161927680 m = true) (hs : Touch m s0 s) :
    Touch m s0 (writeRejected s base v) := by
  refine Touch.lift hm hs ?_
  clear hs hm
  have hs : Touch 75161927680 s s := .refl _ _
  unfold writeRejected
  repeat' split
  all_goals simp +contextual +decide (maxDischargeDepth := 99) [hs, hasBit, subMask]

@[simp] theorem touch_storeField (s : State) (v : Nat) (f : Field) (hm : subMask 1099503239168 m = true) (hs : Touch m s0 s) :
    Touch m s0 (storeField s v f) := by
  refine Touch.lift hm hs ?_
  clear hs hm
  have hs : Touch 1099503239168 s s := .refl _ _
  unfold storeField
  repeat' split
  all_goals first | exact hs | exact touch_setF _ _ _ (okField_all _ (by decide)) hs

@[simp] theorem touch_takeRoot (s : State) (hm : subMask 2164260928 m = true) (hs : Touch m s0 s) : Touch m s0 (takeRoot s) := by
  refine Touch.lift hm hs ?_
  clear hs hm
  have hs : Touch 2164260928 s s := .refl _ _
  simp +decide (maxDischargeDepth := 99) [takeRoot, hs, hasBit, subMask]

@[simp] theorem touch_tbuAct (old : State) (s : State) (src : Src) (a : Nat) (v : Nat) (hm : subMask 2166358112 m = true) (hs : Touch m s0 s) :
    Touch m s0 (tbuAct old s src a v) := by
  refine Touch.lift hm hs ?_
  clear hs hm
  have hs : Touch 2166358112 s s := .refl _ _
  unfold tbuAct
  repeat' split
  all_goals simp +contextual +decide (maxDischargeDepth := 99) [hs, hasBit, subMask]

@[simp] theorem touch_lphyAct (s : State) (a : Nat) (n : Nat) (v : Nat) (hm : subMask 1099444519056 m = true) (hs : Touch m s0 s) :
    Touch m s0 (lphyAct s a n v) := by
  refine Touch.lift hm hs ?_
  clear hs hm
  have hs : Touch 1099444519056 s s := .refl _ _
  simp +decide (maxDischargeDepth := 99) [lphyAct, hs, hasBit, subMask]

@[simp] theorem touch_sfmAct (s : State) (a : Nat) (v : Nat) (hm : subMask 134217984 m = true) (hs : Touch m s0 s) :
    Touch m s0 (sfmAct s a v) := by
  refine Touch.lift hm hs ?_
  clear hs hm
  have hs : Touch 134217984 s s := .refl _ _
  unfold sfmAct
  repeat' split
  all_goals simp +contextual +decide (maxDischargeDepth := 99) [hs, hasBit, subMask]

@[simp] theorem touch_ftCommit (s : State) (w : Nat) (hm : subMask 51543540226 m = true) (hs : Touch m s0 s) :
    Touch m s0 (ftCommit s w) := by
  refine Touch.lift hm hs ?_
  clear hs hm
  have hs : Touch 51543540226 s s := .refl _ _
  simp +decide (maxDischargeDepth := 99) [ftCommit, hs, hasBit, subMask]

@[simp] theorem touch_mrtAct (s : State) (src : Src) (a : Nat) (v : Nat) (hm : subMask 51811975938 m = true) (hs : Touch m s0 s) :
    Touch m s0 (mrtAct s src a v) := by
  refine Touch.lift hm hs ?_
  clear hs hm
  have hs : Touch 51811975938 s s := .refl _ _
  unfold mrtAct
  repeat' split
  all_goals simp +contextual +decide (maxDischargeDepth := 99) [hs, hasBit, subMask]

@[simp] theorem touch_mfeWrite (old : State) (s : State) (src : Src) (a : Nat) (v : Nat) (hm : subMask 52617418768 m = true) (hs : Touch m s0 s) :
    Touch m s0 (mfeWrite old s src a v) := by
  refine Touch.lift hm hs ?_
  clear hs hm
  have hs : Touch 52617418768 s s := .refl _ _
  simp +decide (maxDischargeDepth := 99) [mfeWrite, hs, hasBit, subMask]

@[simp] theorem touch_lpaAct (s : State) (base : Nat) (n : Nat) (hm : subMask 1099482267776 m = true) (hs : Touch m s0 s) :
    Touch m s0 (lpaAct s base n) := by
  refine Touch.lift hm hs ?_
  clear hs hm
  have hs : Touch 1099482267776 s s := .refl _ _
  simp +decide (maxDischargeDepth := 99) [lpaAct, hs, hasBit, subMask]

@[simp] theorem touch_writeAct' (old : State) (s : State) (src : Src) (base : Nat) (n : Nat) (v : Nat) (vd : Verdicts) (hm : subMask 3298534816762 m = true) (hs : Touch m s0 s) :
    Touch m s0 (writeAct' old s src base n v vd) := by
  refine Touch.lift hm hs ?_
  clear hs hm
  have hs : Touch 3298534816762 s s := .refl _ _
  unfold writeAct'
  repeat' split
  all_goals simp +contextual +decide (maxDischargeDepth := 99) [hs, hasBit, subMask]

@[simp] theorem touch_writeReg (s : State) (src : Src) (a : Nat) (v : Nat) (vd : Verdicts) (hm : subMask 3298534816762 m = true) (hs : Touch m s0 s) :
    Touch m s0 (writeReg s src a v vd).1 := by
  refine Touch.lift hm hs ?_
  clear hs hm
  have hs : Touch 3298534816762 s s := .refl _ _
  unfold writeReg
  (try dsimp only)
  repeat' (first | with_reducible assumption | (simp +contextual +decide (maxDischargeDepth := 99) [hs, hasBit, subMask]; done) | (simp +contextual +decide (maxDischargeDepth := 99) [hs, hk, hasBit, subMask]; done) | split | refine touch_foldl _ _ _ ?_ (fun _ _ hk => ?_))

@[simp] theorem touch_writeRegs (s : State) (src : Src) (a : Nat) (vd : Verdicts) (x4 : List Nat) (x5 : Nat) (hm : subMask 3298534816762 m = true) (hs : Touch m s0 s) :
    Touch m s0 (writeRegs s src a vd x4 x5).1 := by
  refine Touch.lift hm hs ?_
  clear hs hm
  have hs : Touch 3298534816762 s s := .refl _ _
  suffices key : ∀ b0, Touch 3298534816762 b0 s → Touch 3298534816762 b0 (writeRegs s src a vd x4 x5).1 from key _ hs
  clear hs
  intro b0 hs
  induction x4 generalizing s a x5 with
  | nil => exact hs
  | cons v t ih =>
    unfold writeRegs
    dsimp only
    split
    · exact touch_writeReg s src a v vd (m := 3298534816762) (by decide) hs
    · exact ih _ _ _ (touch_writeReg s src a v vd (m := 3298534816762) (by decide) hs)

@[simp] theorem touch_mirContext (s : State) (a : Nat) (d : Bytes) (hm : subMask 51543539714 m = true) (hs : Touch m s0 s) :
    Touch m s0 (mirContext s a d) := by
  refine Touch.lift hm hs ?_
  clear hs hm
  have hs : Touch 51543539714 s s := .refl _ _
  simp +decide (maxDischargeDepth := 99) [mirContext, hs, hasBit, subMask]

@[simp] theorem touch_mirMem (s : State) (a : Nat) (d : Bytes) (hm : subMask 51543543810 m = true) (hs : Touch m s0 s) :
    Touch m s0 (mirMem s a d) := by
  refine Touch.lift hm hs ?_
  clear hs hm
  have hs : Touch 51543543810 s s := .refl _ _
  simp +contextual +decide (maxDischargeDepth := 99) [mirMem, hs, hasBit, subMask]

@[simp] theorem touch_mirEffect (old : State) (s : State) (k : Nat) (hm : subMask 54781679728 m = true) (hs : Touch m s0 s) :
    Touch m s0 (mirEffect old s k) := by
  refine Touch.lift hm hs ?_
  clear hs hm
  have hs : Touch 54781679728 s s := .refl _ _
  simp +contextual +decide (maxDischargeDepth := 99) [mirEffect, hs, hasBit, subMask]

@[simp] theorem touch_mirField (s : State) (k : Nat) (v : Option Nat) (hm : subMask 1099507308656 m = true) (hs : Touch m s0 s) :
    Touch m s0 (mirField s k v) := by
  refine Touch.lift hm hs ?_
  clear hs hm
  have hs : Touch 1099507308656 s s := .refl _ _
  simp +contextual +decide (maxDischargeDepth := 99) [mirField, hs, hasBit, subMask]

@[simp] theorem touch_mirFields (s : State) (lo : Nat) (hi0 : Option Nat) (l : List (Nat × Nat)) (hm : subMask 1099507308656 m = true) (hs : Touch m s0 s) :
    Touch m s0 (mirFields s lo hi0 l) := by
  refine Touch.lift hm hs ?_
  clear hs hm
  have hs : Touch 1099507308656 s s := .refl _ _
  simp +contextual +decide (maxDischargeDepth := 99) [mirFields, hs, hasBit, subMask]

@[simp] theorem touch_mirKeys (s : State) (k : KeyMirror) (hm : subMask 98304 m = true) (hs : Touch m s0 s) :
    Touch m s0 (mirKeys s k) := by
  refine Touch.lift hm hs ?_
  clear hs hm
  have hs : Touch 98304 s s := .refl _ _
  simp +contextual +decide (maxDischargeDepth := 99) [mirKeys, hs, hasBit, subMask]

@[simp] theorem touch_mirTick (s : State) (t : Nat) (hm : subMask 8192 m = true) (hs : Touch m s0 s) : Touch m s0 (mirTick s t) := by
  refine Touch.lift hm hs ?_
  clear hs hm
  have hs : Touch 8192 s s := .refl _ _
  simp +decide (maxDischargeDepth := 99) [mirTick, hs, hasBit, subMask]

@[simp] theorem touch_mirAct (s : State) (i : Nat) (a : Act) (hm : subMask 8192 m = true) (hs : Touch m s0 s) :
    Touch m s0 (mirAct s i a) := by
  refine Touch.lift hm hs ?_
  clear hs hm
  have hs : Touch 8192 s s := .refl _ _
  simp +decide (maxDischargeDepth := 99) [mirAct, hs, hasBit, subMask]

@[simp] theorem touch_mirLock (s : State) (i : Nat) (l : Lock) (hm : subMask 8192 m = true) (hs : Touch m s0 s) :
    Touch m s0 (mirLock s i l) := by
  refine Touch.lift hm hs ?_
  clear hs hm
  have hs : Touch 8192 s s := .refl _ _
  simp +decide (maxDischargeDepth := 99) [mirLock, hs, hasBit, subMask]

@[simp] theorem touch_mirRule (s : State) (i : Nat) (r : Option Rule) (hm : subMask 8192 m = true) (hs : Touch m s0 s) :
    Touch m s0 (mirRule s i r) := by
  refine Touch.lift hm hs ?_
  clear hs hm
  have hs : Touch 8192 s s := .refl _ _
  simp +decide (maxDischargeDepth := 99) [mirRule, hs, hasBit, subMask]

@[simp] theorem touch_mirSeq (s : State) (i : Nat) (q0 : Option Seq) (hm : subMask 8192 m = true) (hs : Touch m s0 s) :
    Touch m s0 (mirSeq s i q0) := by
  refine Touch.lift hm hs ?_
  clear hs hm
  have hs : Touch 8192 s s := .refl _ _
  simp +decide (maxDischargeDepth := 99) [mirSeq, hs, hasBit, subMask]

@[simp] theorem touch_mirSlots (s : State) (active : Nat) (lo : Nat) (hi0 : Option Nat) (l : List (Nat × Nat)) (hm : subMask 134217984 m = true) (hs : Touch m s0 s) :
    Touch m s0 (mirSlots s active lo hi0 l) := by
  refine Touch.lift hm hs ?_
  clear hs hm
  have hs : Touch 134217984 s s := .refl _ _
  simp +decide (maxDischargeDepth := 99) [mirSlots, hs, hasBit, subMask]

@[simp] theorem touch_mirMrt (s : State) (m0 : MrtMirror) (hm : subMask 402653696 m = true) (hs : Touch m s0 s) :
    Touch m s0 (mirMrt s m0) := by
  refine Touch.lift hm hs ?_
  clear hs hm
  have hs : Touch 402653696 s s := .refl _ _
  simp +contextual +decide (maxDischargeDepth := 99) [mirMrt, hs, hasBit, subMask]

@[simp] theorem touch_applyRec (s : State) (r : MirRec) (hm : subMask 1099507432306 m = true) (hs : Touch m s0 s) :
    Touch m s0 (applyRec s r) := by
  refine Touch.lift hm hs ?_
  clear hs hm
  have hs : Touch 1099507432306 s s := .refl _ _
  unfold applyRec
  repeat' split
  all_goals simp +contextual +decide (maxDischargeDepth := 99) [hs, hasBit, subMask]

@[simp] theorem touch_applyMsg (s : State) (b : Bytes) (hm : subMask 1099507432306 m = true) (hs : Touch m s0 s) :
    Touch m s0 (applyMsg s b) := by
  refine Touch.lift hm hs ?_
  clear hs hm
  have hs : Touch 1099507432306 s s := .refl _ _
  unfold applyMsg
  (try dsimp only)
  repeat' (first | with_reducible assumption | (simp +contextual +decide (maxDischargeDepth := 99) [hs, hasBit, subMask]; done) | (simp +contextual +decide (maxDischargeDepth := 99) [hs, hk, hasBit, subMask]; done) | split | refine touch_foldl _ _ _ ?_ (fun _ _ hk => ?_))

@[simp] theorem touch_nakFrame (s : State) (hm : subMask 16384 m = true) (hs : Touch m s0 s) :
    Touch m s0 (nakFrame s) := by
  refine Touch.lift hm hs ?_
  clear hs hm
  have hs : Touch 16384 s s := .refl _ _
  simp +contextual +decide (maxDischargeDepth := 99) [nakFrame, hs, hasBit, subMask]

@[simp] theorem touch_mirrorLost (s : State) (hm : subMask 68719493120 m = true) (hs : Touch m s0 s) : Touch m s0 (mirrorLost s) := by
  refine Touch.lift hm hs ?_
  clear hs hm
  have hs : Touch 68719493120 s s := .refl _ _
  simp +decide (maxDischargeDepth := 99) [mirrorLost, hs, hasBit, subMask]

@[simp] theorem touch_applyQueued (s : State) (x1 : Nat) (hm : subMask 1099507432306 m = true) (hs : Touch m s0 s) :
    Touch m s0 (applyQueued s x1) := by
  refine Touch.lift hm hs ?_
  clear hs hm
  suffices h : ∀ s1 s, Touch 1099507432306 s1 s → Touch 1099507432306 s1 (applyQueued s x1) from h s s (.refl _ _)
  induction x1 with
  | zero => exact fun _ _ hs => hs
  | succ n ih =>
    intro s1 s hs
    unfold applyQueued
    split
    · exact hs
    · have h2 := touch_takeQ s 13 (by decide) hs
      revert h2
      generalize takeQ s 13 = r
      intro h2
      obtain ⟨t, it⟩ := r
      dsimp only at h2 ⊢
      refine ih _ _ ?_
      split <;> simp +decide (maxDischargeDepth := 99) [hasBit, subMask, h2]

@[simp] theorem touch_applyFrame (s : State) (lseq : Nat) (body : Bytes) (hm : subMask 1099507432306 m = true) (hs : Touch m s0 s) :
    Touch m s0 (applyFrame s lseq body) := by
  refine Touch.lift hm hs ?_
  clear hs hm
  have hs : Touch 1099507432306 s s := .refl _ _
  simp +decide (maxDischargeDepth := 99) [applyFrame, hs, hasBit, subMask]

@[simp] theorem touch_recordRx (s : State) (lseq : Nat) (body : Bytes) (hm : subMask 1099507432306 m = true) (hs : Touch m s0 s) :
    Touch m s0 (recordRx s lseq body) := by
  refine Touch.lift hm hs ?_
  clear hs hm
  have hs : Touch 1099507432306 s s := .refl _ _
  simp +decide (maxDischargeDepth := 99) [recordRx, hs, hasBit, subMask]

@[simp] theorem touch_chunkRx (s : State) (lseq : Nat) (body : Bytes) (hm : subMask 1099507432306 m = true) (hs : Touch m s0 s) :
    Touch m s0 (chunkRx s lseq body) := by
  refine Touch.lift hm hs ?_
  clear hs hm
  have hs : Touch 1099507432306 s s := .refl _ _
  simp +decide (maxDischargeDepth := 99) [chunkRx, hs, hasBit, subMask]

@[simp] theorem touch_goodFrame (s : State) (type : Nat) (lseq : Nat) (body : Bytes) (hm : subMask 3298530689018 m = true) (hs : Touch m s0 s) :
    Touch m s0 (goodFrame s type lseq body) := by
  refine Touch.lift hm hs ?_
  clear hs hm
  have hs : Touch 3298530689018 s s := .refl _ _
  unfold goodFrame
  (try dsimp only)
  repeat' (first | with_reducible assumption | (simp +contextual +decide (maxDischargeDepth := 99) [hs, hasBit, subMask]; done) | (simp +contextual +decide (maxDischargeDepth := 99) [hs, hk, hasBit, subMask]; done) | split | refine touch_foldl _ _ _ ?_ (fun _ _ hk => ?_))

@[simp] theorem touch_spoiltFrame (s : State) (b : Option Bytes) (hm : subMask 68719493120 m = true) (hs : Touch m s0 s) :
    Touch m s0 (spoiltFrame s b) := by
  refine Touch.lift hm hs ?_
  clear hs hm
  have hs : Touch 68719493120 s s := .refl _ _
  simp +decide (maxDischargeDepth := 99) [spoiltFrame, hs, hasBit, subMask]

@[simp] theorem touch_frameRx (s : State) (rx : ErfRx) (hm : subMask 3298530689018 m = true) (hs : Touch m s0 s) :
    Touch m s0 (frameRx s rx) := by
  refine Touch.lift hm hs ?_
  clear hs hm
  have hs : Touch 3298530689018 s s := .refl _ _
  unfold frameRx
  (try dsimp only)
  repeat' (first | with_reducible assumption | (simp +contextual +decide (maxDischargeDepth := 99) [hs, hasBit, subMask]; done) | (simp +contextual +decide (maxDischargeDepth := 99) [hs, hk, hasBit, subMask]; done) | split | refine touch_foldl _ _ _ ?_ (fun _ _ hk => ?_))

@[simp] theorem touch_execHeartbeatRx (rx : ErfRx) (x1 : Unit) (s : State) (hm : subMask 3298530689018 m = true) (hs : Touch m s0 s) :
    TouchBy m s0 (execHeartbeatRx rx x1 s) := by
  refine Touch.liftBy hm hs ?_
  clear hs hm
  have hs : Touch 3298530689018 s s := .refl _ _
  simp +decide (maxDischargeDepth := 99) [execHeartbeatRx, hs, hasBit, subMask]

@[simp] theorem touch_execMirrorRecordRx (rx : ErfRx) (x1 : Unit) (x2 : Unit) (s : State) (hm : subMask 3298530689018 m = true) (hs : Touch m s0 s) :
    TouchBy m s0 (execMirrorRecordRx rx x1 x2 s) := by
  refine Touch.liftBy hm hs ?_
  clear hs hm
  have hs : Touch 3298530689018 s s := .refl _ _
  simp +decide (maxDischargeDepth := 99) [execMirrorRecordRx, hs, hasBit, subMask]

@[simp] theorem touch_execCopyChunkRx (rx : ErfRx) (x1 : Unit) (x2 : Unit) (x3 : Unit) (s : State) (hm : subMask 3298530689018 m = true) (hs : Touch m s0 s) :
    TouchBy m s0 (execCopyChunkRx rx x1 x2 x3 s) := by
  refine Touch.liftBy hm hs ?_
  clear hs hm
  have hs : Touch 3298530689018 s s := .refl _ _
  simp +decide (maxDischargeDepth := 99) [execCopyChunkRx, hs, hasBit, subMask]

@[simp] theorem touch_doPing (s : State) (c : Current) (hm : subMask 2199023130624 m = true) (hs : Touch m s0 s) :
    Touch m s0 (doPing s c).1 := by
  refine Touch.lift hm hs ?_
  clear hs hm
  have hs : Touch 2199023130624 s s := .refl _ _
  simp +decide (maxDischargeDepth := 99) [doPing, hs, hasBit, subMask]

@[simp] theorem touch_doRegRead (s : State) (c : Current) (hm : subMask 2199023130624 m = true) (hs : Touch m s0 s) :
    Touch m s0 (doRegRead s c).1 := by
  refine Touch.lift hm hs ?_
  clear hs hm
  have hs : Touch 2199023130624 s s := .refl _ _
  unfold doRegRead
  (try dsimp only)
  repeat' (first | with_reducible assumption | (simp +contextual +decide (maxDischargeDepth := 99) [hs, hasBit, subMask]; done) | (simp +contextual +decide (maxDischargeDepth := 99) [hs, hk, hasBit, subMask]; done) | split | refine touch_foldl _ _ _ ?_ (fun _ _ hk => ?_))

@[simp] theorem touch_doRegWrite (s : State) (c : Current) (hm : subMask 3298534816762 m = true) (hs : Touch m s0 s) :
    Touch m s0 (doRegWrite s c).1 := by
  refine Touch.lift hm hs ?_
  clear hs hm
  have hs : Touch 3298534816762 s s := .refl _ _
  unfold doRegWrite
  (try dsimp only)
  repeat' (first | with_reducible assumption | (simp +contextual +decide (maxDischargeDepth := 99) [hs, hasBit, subMask]; done) | (simp +contextual +decide (maxDischargeDepth := 99) [hs, hk, hasBit, subMask]; done) | split | refine touch_foldl _ _ _ ?_ (fun _ _ hk => ?_))

@[simp] theorem touch_doSubscribe (s : State) (c : Current) (hm : subMask 34360786944 m = true) (hs : Touch m s0 s) :
    Touch m s0 (doSubscribe s c).1 := by
  refine Touch.lift hm hs ?_
  clear hs hm
  have hs : Touch 34360786944 s s := .refl _ _
  simp +decide (maxDischargeDepth := 99) [doSubscribe, hs, hasBit, subMask]

@[simp] theorem touch_doPortConfig (s : State) (c : Current) (hm : subMask 0 m = true) (hs : Touch m s0 s) :
    Touch m s0 (doPortConfig s c).1 := by
  refine Touch.lift hm hs ?_
  clear hs hm
  have hs : Touch 0 s s := .refl _ _
  simp +decide (maxDischargeDepth := 99) [doPortConfig, hs, hasBit, subMask]

@[simp] theorem touch_doSessionOpen (s : State) (c : Current) (hm : subMask 5242880 m = true) (hs : Touch m s0 s) :
    Touch m s0 (doSessionOpen s c).1 := by
  refine Touch.lift hm hs ?_
  clear hs hm
  have hs : Touch 5242880 s s := .refl _ _
  unfold doSessionOpen
  repeat' split
  all_goals simp +contextual +decide (maxDischargeDepth := 99) [hs, hasBit, subMask]

@[simp] theorem touch_doSessionProve (s : State) (c : Current) (hm : subMask 8590983168 m = true) (hs : Touch m s0 s) :
    Touch m s0 (doSessionProve s c).1 := by
  refine Touch.lift hm hs ?_
  clear hs hm
  have hs : Touch 8590983168 s s := .refl _ _
  unfold doSessionProve
  (try dsimp only)
  repeat' (first | with_reducible assumption | (simp +contextual +decide (maxDischargeDepth := 99) [hs, hasBit, subMask]; done) | (simp +contextual +decide (maxDischargeDepth := 99) [hs, hk, hasBit, subMask]; done) | split | refine touch_foldl _ _ _ ?_ (fun _ _ hk => ?_))

@[simp] theorem touch_doMeshSend (s : State) (c : Current) (hm : subMask 4298768384 m = true) (hs : Touch m s0 s) :
    Touch m s0 (doMeshSend s c).1 := by
  refine Touch.lift hm hs ?_
  clear hs hm
  have hs : Touch 4298768384 s s := .refl _ _
  unfold doMeshSend
  (try dsimp only)
  repeat' (first | with_reducible assumption | (simp +contextual +decide (maxDischargeDepth := 99) [hs, hasBit, subMask]; done) | (simp +contextual +decide (maxDischargeDepth := 99) [hs, hk, hasBit, subMask]; done) | split | refine touch_foldl _ _ _ ?_ (fun _ _ hk => ?_))

@[simp] theorem touch_doMapRead (s : State) (c : Current) (hm : subMask 0 m = true) (hs : Touch m s0 s) :
    Touch m s0 (doMapRead s c).1 := by
  refine Touch.lift hm hs ?_
  clear hs hm
  have hs : Touch 0 s s := .refl _ _
  unfold doMapRead
  (try dsimp only)
  repeat' (first | with_reducible assumption | (simp +contextual +decide (maxDischargeDepth := 99) [hs, hasBit, subMask]; done) | (simp +contextual +decide (maxDischargeDepth := 99) [hs, hk, hasBit, subMask]; done) | split | refine touch_foldl _ _ _ ?_ (fun _ _ hk => ?_))

@[simp] theorem touch_doSweepRead (s : State) (c : Current) (hm : subMask 0 m = true) (hs : Touch m s0 s) :
    Touch m s0 (doSweepRead s c).1 := by
  refine Touch.lift hm hs ?_
  clear hs hm
  have hs : Touch 0 s s := .refl _ _
  unfold doSweepRead
  (try dsimp only)
  repeat' (first | with_reducible assumption | (simp +contextual +decide (maxDischargeDepth := 99) [hs, hasBit, subMask]; done) | (simp +contextual +decide (maxDischargeDepth := 99) [hs, hk, hasBit, subMask]; done) | split | refine touch_foldl _ _ _ ?_ (fun _ _ hk => ?_))

@[simp] theorem touch_doContextRead (s : State) (c : Current) (hm : subMask 51543539712 m = true) (hs : Touch m s0 s) :
    Touch m s0 (doContextRead s c).1 := by
  refine Touch.lift hm hs ?_
  clear hs hm
  have hs : Touch 51543539712 s s := .refl _ _
  unfold doContextRead
  (try dsimp only)
  repeat' (first | with_reducible assumption | (simp +contextual +decide (maxDischargeDepth := 99) [hs, hasBit, subMask]; done) | (simp +contextual +decide (maxDischargeDepth := 99) [hs, hk, hasBit, subMask]; done) | split | refine touch_foldl _ _ _ ?_ (fun _ _ hk => ?_))

@[simp] theorem touch_sendFragments (s : State) (x1 : Nat) (hm : subMask 55838638080 m = true) (hs : Touch m s0 s) :
    Touch m s0 (sendFragments s x1) := by
  refine Touch.lift hm hs ?_
  clear hs hm
  have hs : Touch 55838638080 s s := .refl _ _
  suffices key : ∀ b0, Touch 55838638080 b0 s → Touch 55838638080 b0 (sendFragments s x1) from key _ hs
  clear hs
  intro b0 hs
  induction x1 generalizing s with
  | zero => exact hs
  | succ n ih =>
    unfold sendFragments
    dsimp only
    split
    · exact hs
    · split
      · exact hs
      · split
        · simp +contextual +decide (maxDischargeDepth := 99) [hs, hasBit, subMask]
        · repeat' (first | (apply ih; simp +contextual +decide (maxDischargeDepth := 99) [hs, hasBit, subMask]; done) | (simp +contextual +decide (maxDischargeDepth := 99) [hs, hasBit, subMask]; done) | split)

@[simp] theorem touch_doGalleryRead (s : State) (c : Current) (hm : subMask 2097152 m = true) (hs : Touch m s0 s) :
    Touch m s0 (doGalleryRead s c).1 := by
  refine Touch.lift hm hs ?_
  clear hs hm
  have hs : Touch 2097152 s s := .refl _ _
  unfold doGalleryRead
  (try dsimp only)
  repeat' (first | with_reducible assumption | (simp +contextual +decide (maxDischargeDepth := 99) [hs, hasBit, subMask]; done) | (simp +contextual +decide (maxDischargeDepth := 99) [hs, hk, hasBit, subMask]; done) | split | refine touch_foldl _ _ _ ?_ (fun _ _ hk => ?_))

@[simp] theorem touch_doAddrReserve (s : State) (c : Current) (hm : subMask 512 m = true) (hs : Touch m s0 s) :
    Touch m s0 (doAddrReserve s c).1 := by
  refine Touch.lift hm hs ?_
  clear hs hm
  have hs : Touch 512 s s := .refl _ _
  unfold doAddrReserve
  (try dsimp only)
  repeat' (first | with_reducible assumption | (simp +contextual +decide (maxDischargeDepth := 99) [hs, hasBit, subMask]; done) | (simp +contextual +decide (maxDischargeDepth := 99) [hs, hk, hasBit, subMask]; done) | split | refine touch_foldl _ _ _ ?_ (fun _ _ hk => ?_))

@[simp] theorem touch_doAddrRelease (s : State) (c : Current) (hm : subMask 512 m = true) (hs : Touch m s0 s) :
    Touch m s0 (doAddrRelease s c).1 := by
  refine Touch.lift hm hs ?_
  clear hs hm
  have hs : Touch 512 s s := .refl _ _
  unfold doAddrRelease
  repeat' split
  all_goals simp +contextual +decide (maxDischargeDepth := 99) [hs, hasBit, subMask]

@[simp] theorem touch_doLateralOpen (s : State) (c : Current) (hm : subMask 0 m = true) (hs : Touch m s0 s) :
    Touch m s0 (doLateralOpen s c).1 := by
  refine Touch.lift hm hs ?_
  clear hs hm
  have hs : Touch 0 s s := .refl _ _
  unfold doLateralOpen
  (try dsimp only)
  repeat' (first | with_reducible assumption | (simp +contextual +decide (maxDischargeDepth := 99) [hs, hasBit, subMask]; done) | (simp +contextual +decide (maxDischargeDepth := 99) [hs, hk, hasBit, subMask]; done) | split | refine touch_foldl _ _ _ ?_ (fun _ _ hk => ?_))

@[simp] theorem touch_lateralBegin (s : State) (c : Current) (hm : subMask 51547734786 m = true) (hs : Touch m s0 s) :
    Touch m s0 (lateralBegin s c) := by
  refine Touch.lift hm hs ?_
  clear hs hm
  have hs : Touch 51547734786 s s := .refl _ _
  unfold lateralBegin
  repeat' split
  all_goals simp +contextual +decide (maxDischargeDepth := 99) [hs, hasBit, subMask]

@[simp] theorem touch_doFit (s : State) (c : Current) (hm : subMask 549755813888 m = true) (hs : Touch m s0 s) :
    Touch m s0 (doFit s c).1 := by
  refine Touch.lift hm hs ?_
  clear hs hm
  have hs : Touch 549755813888 s s := .refl _ _
  simp +decide (maxDischargeDepth := 99) [doFit, hs, hasBit, subMask]

@[simp] theorem touch_doLceOps (s : State) (c : Current) (hm : subMask 8192 m = true) (hs : Touch m s0 s) :
    Touch m s0 (doLceOps s c).1 := by
  refine Touch.lift hm hs ?_
  clear hs hm
  have hs : Touch 8192 s s := .refl _ _
  unfold doLceOps
  (try dsimp only)
  repeat' (first | with_reducible assumption | (simp +contextual +decide (maxDischargeDepth := 99) [hs, hasBit, subMask]; done) | (simp +contextual +decide (maxDischargeDepth := 99) [hs, hk, hasBit, subMask]; done) | split | refine touch_foldl _ _ _ ?_ (fun _ _ hk => ?_))

@[simp] theorem touch_doAttest (s : State) (c : Current) (hm : subMask 51543572496 m = true) (hs : Touch m s0 s) :
    Touch m s0 (doAttest s c).1 := by
  refine Touch.lift hm hs ?_
  clear hs hm
  have hs : Touch 51543572496 s s := .refl _ _
  unfold doAttest
  repeat' split
  all_goals simp +contextual +decide (maxDischargeDepth := 99) [hs, hasBit, subMask]

@[simp] theorem touch_doNodekeyGen (s : State) (hm : subMask 4227072 m = true) (hs : Touch m s0 s) :
    Touch m s0 (doNodekeyGen s).1 := by
  refine Touch.lift hm hs ?_
  clear hs hm
  have hs : Touch 4227072 s s := .refl _ _
  unfold doNodekeyGen
  repeat' split
  all_goals simp +contextual +decide (maxDischargeDepth := 99) [hs, hasBit, subMask]

@[simp] theorem touch_doCertInstall (s : State) (c : Current) (hm : subMask 8589967360 m = true) (hs : Touch m s0 s) :
    Touch m s0 (doCertInstall s c).1 := by
  refine Touch.lift hm hs ?_
  clear hs hm
  have hs : Touch 8589967360 s s := .refl _ _
  simp +decide (maxDischargeDepth := 99) [doCertInstall, hs, hasBit, subMask]

@[simp] theorem touch_doKeyInstall (s : State) (c : Current) (hm : subMask 51543638018 m = true) (hs : Touch m s0 s) :
    Touch m s0 (doKeyInstall s c).1 := by
  refine Touch.lift hm hs ?_
  clear hs hm
  have hs : Touch 51543638018 s s := .refl _ _
  simp +decide (maxDischargeDepth := 99) [doKeyInstall, hs, hasBit, subMask]

@[simp] theorem touch_doGkeySet (s : State) (c : Current) (hm : subMask 51543703810 m = true) (hs : Touch m s0 s) :
    Touch m s0 (doGkeySet s c).1 := by
  refine Touch.lift hm hs ?_
  clear hs hm
  have hs : Touch 51543703810 s s := .refl _ _
  simp +decide (maxDischargeDepth := 99) [doGkeySet, hs, hasBit, subMask]

@[simp] theorem touch_doRekey (s : State) (c : Current) (hm : subMask 4882432 m = true) (hs : Touch m s0 s) :
    Touch m s0 (doRekey s c).1 := by
  refine Touch.lift hm hs ?_
  clear hs hm
  have hs : Touch 4882432 s s := .refl _ _
  unfold doRekey
  (try dsimp only)
  repeat' (first | with_reducible assumption | (simp +contextual +decide (maxDischargeDepth := 99) [hs, hasBit, subMask]; done) | (simp +contextual +decide (maxDischargeDepth := 99) [hs, hk, hasBit, subMask]; done) | split | refine touch_foldl _ _ _ ?_ (fun _ _ hk => ?_))

@[simp] theorem touch_doOtpBurn (s : State) (c : Current) (hm : subMask 47252635665 m = true) (hs : Touch m s0 s) :
    Touch m s0 (doOtpBurn s c).1 := by
  refine Touch.lift hm hs ?_
  clear hs hm
  have hs : Touch 47252635665 s s := .refl _ _
  unfold doOtpBurn
  repeat' split
  all_goals simp +contextual +decide (maxDischargeDepth := 99) [hs, hasBit, subMask]

@[simp] theorem touch_doRollback (s : State) (hm : subMask 47252635665 m = true) (hs : Touch m s0 s) :
    Touch m s0 (doRollback s).1 := by
  refine Touch.lift hm hs ?_
  clear hs hm
  have hs : Touch 47252635665 s s := .refl _ _
  unfold doRollback
  (try dsimp only)
  repeat' (first | with_reducible assumption | (simp +contextual +decide (maxDischargeDepth := 99) [hs, hasBit, subMask]; done) | (simp +contextual +decide (maxDischargeDepth := 99) [hs, hk, hasBit, subMask]; done) | split | refine touch_foldl _ _ _ ?_ (fun _ _ hk => ?_))

@[simp] theorem touch_doFlashErase (s : State) (c : Current) (hm : subMask 0 m = true) (hs : Touch m s0 s) :
    Touch m s0 (doFlashErase s c).1 := by
  refine Touch.lift hm hs ?_
  clear hs hm
  have hs : Touch 0 s s := .refl _ _
  unfold doFlashErase
  (try dsimp only)
  repeat' (first | with_reducible assumption | (simp +contextual +decide (maxDischargeDepth := 99) [hs, hasBit, subMask]; done) | (simp +contextual +decide (maxDischargeDepth := 99) [hs, hk, hasBit, subMask]; done) | split | refine touch_foldl _ _ _ ?_ (fun _ _ hk => ?_))

@[simp] theorem touch_doFlashWrite (s : State) (c : Current) (hm : subMask 0 m = true) (hs : Touch m s0 s) :
    Touch m s0 (doFlashWrite s c).1 := by
  refine Touch.lift hm hs ?_
  clear hs hm
  have hs : Touch 0 s s := .refl _ _
  unfold doFlashWrite
  (try dsimp only)
  repeat' (first | with_reducible assumption | (simp +contextual +decide (maxDischargeDepth := 99) [hs, hasBit, subMask]; done) | (simp +contextual +decide (maxDischargeDepth := 99) [hs, hk, hasBit, subMask]; done) | split | refine touch_foldl _ _ _ ?_ (fun _ _ hk => ?_))

@[simp] theorem touch_doConfigSave (s : State) (hm : subMask 0 m = true) (hs : Touch m s0 s) :
    Touch m s0 (doConfigSave s).1 := by
  refine Touch.lift hm hs ?_
  clear hs hm
  have hs : Touch 0 s s := .refl _ _
  simp +decide (maxDischargeDepth := 99) [doConfigSave, hs, hasBit, subMask]

@[simp] theorem touch_doFlashRead (s : State) (c : Current) (hm : subMask 0 m = true) (hs : Touch m s0 s) :
    Touch m s0 (doFlashRead s c).1 := by
  refine Touch.lift hm hs ?_
  clear hs hm
  have hs : Touch 0 s s := .refl _ _
  unfold doFlashRead
  (try dsimp only)
  repeat' (first | with_reducible assumption | (simp +contextual +decide (maxDischargeDepth := 99) [hs, hasBit, subMask]; done) | (simp +contextual +decide (maxDischargeDepth := 99) [hs, hk, hasBit, subMask]; done) | split | refine touch_foldl _ _ _ ?_ (fun _ _ hk => ?_))

@[simp] theorem touch_doOp (s : State) (c : Current) (hm : subMask 4398046510075 m = true) (hs : Touch m s0 s) :
    Touch m s0 (doOp s c).1 := by
  refine Touch.lift hm hs ?_
  clear hs hm
  have hs : Touch 4398046510075 s s := .refl _ _
  unfold doOp
  repeat' split
  all_goals simp +contextual +decide (maxDischargeDepth := 99) [hs, hasBit, subMask]

@[simp] theorem touch_markLast (s : State) (n : Nat) (then_ : Nat) (hm : subMask 1048576 m = true) (hs : Touch m s0 s) :
    Touch m s0 (markLast s n then_) := by
  refine Touch.lift hm hs ?_
  clear hs hm
  have hs : Touch 1048576 s s := .refl _ _
  unfold markLast
  (try dsimp only)
  repeat' (first | with_reducible assumption | (simp +contextual +decide (maxDischargeDepth := 99) [hs, hasBit, subMask]; done) | (simp +contextual +decide (maxDischargeDepth := 99) [hs, hk, hasBit, subMask]; done) | split | refine touch_foldl _ _ _ ?_ (fun _ _ hk => ?_))

@[simp] theorem touch_netConfig (s : State) (p : Bytes) (hm : subMask 34361835520 m = true) (hs : Touch m s0 s) :
    Touch m s0 (netConfig s p) := by
  refine Touch.lift hm hs ?_
  clear hs hm
  have hs : Touch 34361835520 s s := .refl _ _
  simp +contextual +decide (maxDischargeDepth := 99) [netConfig, hs, hasBit, subMask]

@[simp] theorem touch_portConfig (s : State) (p : Bytes) (hm : subMask 34359738368 m = true) (hs : Touch m s0 s) :
    Touch m s0 (portConfig s p) := by
  refine Touch.lift hm hs ?_
  clear hs hm
  have hs : Touch 34359738368 s s := .refl _ _
  simp +decide (maxDischargeDepth := 99) [portConfig, hs, hasBit, subMask]

@[simp] theorem touch_afterReply (s : State) (c : Current) (st : Nat) (hm : subMask 51547734802 m = true) (hs : Touch m s0 s) :
    Touch m s0 (afterReply s c st) := by
  refine Touch.lift hm hs ?_
  clear hs hm
  have hs : Touch 51547734802 s s := .refl _ _
  unfold afterReply
  repeat' split
  all_goals simp +contextual +decide (maxDischargeDepth := 99) [hs, hasBit, subMask]

@[simp] theorem touch_answerOp (s : State) (c0 : Current) (hm : subMask 4398046510075 m = true) (hs : Touch m s0 s) :
    Touch m s0 (answerOp s c0) := by
  refine Touch.lift hm hs ?_
  clear hs hm
  have hs : Touch 4398046510075 s s := .refl _ _
  unfold answerOp
  (try dsimp only)
  repeat' (first | with_reducible assumption | (simp +contextual +decide (maxDischargeDepth := 99) [hs, hasBit, subMask]; done) | (simp +contextual +decide (maxDischargeDepth := 99) [hs, hk, hasBit, subMask]; done) | split | refine touch_foldl _ _ _ ?_ (fun _ _ hk => ?_))

@[simp] theorem touch_runReq (s : State) (c : Current) (hm : subMask 4398046510075 m = true) (hs : Touch m s0 s) :
    Touch m s0 (runReq s c) := by
  refine Touch.lift hm hs ?_
  clear hs hm
  have hs : Touch 4398046510075 s s := .refl _ _
  unfold runReq
  (try dsimp only)
  repeat' (first | with_reducible assumption | (simp +contextual +decide (maxDischargeDepth := 99) [hs, hasBit, subMask]; done) | (simp +contextual +decide (maxDischargeDepth := 99) [hs, hk, hasBit, subMask]; done) | split | refine touch_foldl _ _ _ ?_ (fun _ _ hk => ?_))

@[simp] theorem touch_secStep (s : State) (x1 : SecJob) (hm : subMask 4398046510075 m = true) (hs : Touch m s0 s) :
    Touch m s0 (secStep s x1) := by
  refine Touch.lift hm hs ?_
  clear hs hm
  have hs : Touch 4398046510075 s s := .refl _ _
  unfold secStep
  (try dsimp only)
  repeat' (first | with_reducible assumption | (simp +contextual +decide (maxDischargeDepth := 99) [hs, hasBit, subMask]; done) | (simp +contextual +decide (maxDischargeDepth := 99) [hs, hk, hasBit, subMask]; done) | split | refine touch_foldl _ _ _ ?_ (fun _ _ hk => ?_))

@[simp] theorem touch_secDrain (s : State) (n : Nat) (hm : subMask 4398046510075 m = true) (hs : Touch m s0 s) :
    Touch m s0 (secDrain s n) := by
  refine Touch.lift hm hs ?_
  clear hs hm
  have hs : Touch 4398046510075 s s := .refl _ _
  suffices key : ∀ b0, Touch 4398046510075 b0 s → Touch 4398046510075 b0 (secDrain s n) from key _ hs
  clear hs
  intro b0 hs
  induction n generalizing s with
  | zero => exact hs
  | succ n ih =>
    unfold secDrain
    (try dsimp only)
    repeat' (first | with_reducible assumption | (simp +contextual +decide (maxDischargeDepth := 99) [hs, ih, hasBit, subMask]; done) | split | (refine ih _ ?_) | (refine ih _ _ ?_) | (refine ih _ _ _ ?_) | refine touch_foldl _ _ _ ?_ (fun _ _ hk => ?_))

@[simp] theorem touch_secRun (s : State) (hm : subMask 4398046510075 m = true) (hs : Touch m s0 s) : Touch m s0 (secRun s) := by
  refine Touch.lift hm hs ?_
  clear hs hm
  have hs : Touch 4398046510075 s s := .refl _ _
  simp +decide (maxDischargeDepth := 99) [secRun, hs, hasBit, subMask]

@[simp] theorem touch_lateHostCause (s : State) (st : Nat) (op : Nat) (params : Bytes) (hm : subMask 8388608 m = true) (hs : Touch m s0 s) :
    Touch m s0 (lateHostCause s st op params) := by
  refine Touch.lift hm hs ?_
  clear hs hm
  have hs : Touch 8388608 s s := .refl _ _
  simp +decide (maxDischargeDepth := 99) [lateHostCause, hs, hasBit, subMask]

@[simp] theorem touch_turnAway (s : State) (c0 : Current) (st : Nat) (hm : subMask 4307156992 m = true) (hs : Touch m s0 s) :
    Touch m s0 (turnAway s c0 st) := by
  refine Touch.lift hm hs ?_
  clear hs hm
  have hs : Touch 4307156992 s s := .refl _ _
  simp +decide (maxDischargeDepth := 99) [turnAway, hs, hasBit, subMask]

@[simp] theorem touch_replyStatus (s : State) (q : Req) (auth : Bool) (params : Bytes) (hm : subMask 3145728 m = true) (hs : Touch m s0 s) :
    Touch m s0 (replyStatus s q auth params) := by
  refine Touch.lift hm hs ?_
  clear hs hm
  have hs : Touch 3145728 s s := .refl _ _
  simp +decide (maxDischargeDepth := 99) [replyStatus, hs, hasBit, subMask]

@[simp] theorem touch_handleReq (s : State) (q : Req) (hm : subMask 4398046510075 m = true) (hs : Touch m s0 s) :
    Touch m s0 (handleReq s q) := by
  refine Touch.lift hm hs ?_
  clear hs hm
  have hs : Touch 4398046510075 s s := .refl _ _
  unfold handleReq
  (try dsimp only)
  repeat' (first | with_reducible assumption | (simp +contextual +decide (maxDischargeDepth := 99) [hs, hasBit, subMask]; done) | (simp +contextual +decide (maxDischargeDepth := 99) [hs, hk, hasBit, subMask]; done) | split | refine touch_foldl _ _ _ ?_ (fun _ _ hk => ?_))

@[simp] theorem touch_spoiltReq (s : State) (q0 : Req) (hm : subMask 34362884096 m = true) (hs : Touch m s0 s) :
    Touch m s0 (spoiltReq s q0) := by
  refine Touch.lift hm hs ?_
  clear hs hm
  have hs : Touch 34362884096 s s := .refl _ _
  simp +decide (maxDischargeDepth := 99) [spoiltReq, hs, hasBit, subMask]

@[simp] theorem touch_readReq (s : State) (q0 : Req) (hm : subMask 4398046510075 m = true) (hs : Touch m s0 s) :
    Touch m s0 (readReq s q0) := by
  refine Touch.lift hm hs ?_
  clear hs hm
  have hs : Touch 4398046510075 s s := .refl _ _
  simp +decide (maxDischargeDepth := 99) [readReq, hs, hasBit, subMask]

@[simp] theorem touch_serveLoop (s : State) (x1 : Nat) (hm : subMask 4398046510075 m = true) (hs : Touch m s0 s) :
    Touch m s0 (serveLoop s x1) := by
  refine Touch.lift hm hs ?_
  clear hs hm
  have hs : Touch 4398046510075 s s := .refl _ _
  suffices key : ∀ b0, Touch 4398046510075 b0 s → Touch 4398046510075 b0 (serveLoop s x1) from key _ hs
  clear hs
  intro b0 hs
  induction x1 generalizing s with
  | zero => exact hs
  | succ n ih =>
    unfold serveLoop
    split
    · exact hs
    · split
      · exact hs
      · exact ih _ (by simp +contextual +decide (maxDischargeDepth := 99) [hs, hasBit, subMask])

@[simp] theorem touch_serve (s : State) (hm : subMask 4398046510075 m = true) (hs : Touch m s0 s) :
    Touch m s0 (serve s) := by
  refine Touch.lift hm hs ?_
  clear hs hm
  have hs : Touch 4398046510075 s s := .refl _ _
  simp +decide (maxDischargeDepth := 99) [serve, hs, hasBit, subMask]

@[simp] theorem touch_addReq (s : State) (q : Req) (hm : subMask 4398046510075 m = true) (hs : Touch m s0 s) :
    Touch m s0 (addReq s q) := by
  refine Touch.lift hm hs ?_
  clear hs hm
  have hs : Touch 4398046510075 s s := .refl _ _
  simp +contextual +decide (maxDischargeDepth := 99) [addReq, hs, hasBit, subMask]

@[simp] theorem touch_hostRequest (s : State) (op : Nat) (r : HostReq) (hm : subMask 4398046510075 m = true) (hs : Touch m s0 s) :
    Touch m s0 (hostRequest s op r) := by
  refine Touch.lift hm hs ?_
  clear hs hm
  have hs : Touch 4398046510075 s s := .refl _ _
  simp +decide (maxDischargeDepth := 99) [hostRequest, hs, hasBit, subMask]

@[simp] theorem touch_packetRx (s : State) (port : HostPort) (b : Bytes) (ip : Nat) (udp : Nat) (v : Verdicts) (hm : subMask 4398046510075 m = true) (hs : Touch m s0 s) :
    Touch m s0 (packetRx s port b ip udp v) := by
  refine Touch.lift hm hs ?_
  clear hs hm
  have hs : Touch 4398046510075 s s := .refl _ _
  unfold packetRx
  (try dsimp only)
  repeat' (first | with_reducible assumption | (simp +contextual +decide (maxDischargeDepth := 99) [hs, hasBit, subMask]; done) | (simp +contextual +decide (maxDischargeDepth := 99) [hs, hk, hasBit, subMask]; done) | split | refine touch_foldl _ _ _ ?_ (fun _ _ hk => ?_))

@[simp] theorem touch_uartLoop (s : State) (v : Verdicts) (b : Bytes) (x3 : Nat) (hm : subMask 4398046510075 m = true) (hs : Touch m s0 s) :
    Touch m s0 (uartLoop s v b x3) := by
  refine Touch.lift hm hs ?_
  clear hs hm
  have hs : Touch 4398046510075 s s := .refl _ _
  suffices key : ∀ b0, Touch 4398046510075 b0 s → Touch 4398046510075 b0 (uartLoop s v b x3) from key _ hs
  clear hs
  intro b0 hs
  induction x3 generalizing s b with
  | zero => exact hs
  | succ n ih =>
    unfold uartLoop
    split
    · simp +contextual +decide (maxDischargeDepth := 99) [hs, hasBit, subMask]
    · exact ih _ _ (by simp +contextual +decide (maxDischargeDepth := 99) [hs, hasBit, subMask])
    · exact ih _ _ (by simp +contextual +decide (maxDischargeDepth := 99) [hs, hasBit, subMask])

@[simp] theorem touch_uartRx (s : State) (b : Bytes) (v : Verdicts) (hm : subMask 4398046510075 m = true) (hs : Touch m s0 s) :
    Touch m s0 (uartRx s b v) := by
  refine Touch.lift hm hs ?_
  clear hs hm
  have hs : Touch 4398046510075 s s := .refl _ _
  simp +decide (maxDischargeDepth := 99) [uartRx, hs, hasBit, subMask]

@[simp] theorem touch_freeVerdicts (s : State) (hm : subMask 4194304 m = true) (hs : Touch m s0 s) : Touch m s0 (freeVerdicts s).2 := by
  refine Touch.lift hm hs ?_
  clear hs hm
  have hs : Touch 4194304 s s := .refl _ _
  simp +decide (maxDischargeDepth := 99) [freeVerdicts, hs, hasBit, subMask]

@[simp] theorem touch_gapLoop (s : State) (b : Bytes) (x2 : Nat) (hm : subMask 4398046510075 m = true) (hs : Touch m s0 s) :
    Touch m s0 (gapLoop s b x2) := by
  refine Touch.lift hm hs ?_
  clear hs hm
  have hs : Touch 4398046510075 s s := .refl _ _
  suffices key : ∀ b0, Touch 4398046510075 b0 s → Touch 4398046510075 b0 (gapLoop s b x2) from key _ hs
  clear hs
  intro b0 hs
  induction x2 generalizing s b with
  | zero => exact hs
  | succ n ih =>
    unfold gapLoop
    split
    · exact hs
    · exact ih _ _ (by simp +contextual +decide (maxDischargeDepth := 99) [hs, hasBit, subMask])
    · exact ih _ _ (by simp +contextual +decide (maxDischargeDepth := 99) [hs, hasBit, subMask])
    · exact ih _ _ (by simp +contextual +decide (maxDischargeDepth := 99) [hs, hasBit, subMask])

@[simp] theorem touch_uartGap (s : State) (hm : subMask 4398046510075 m = true) (hs : Touch m s0 s) :
    Touch m s0 (uartGap s) := by
  refine Touch.lift hm hs ?_
  clear hs hm
  have hs : Touch 4398046510075 s s := .refl _ _
  simp +decide (maxDischargeDepth := 99) [uartGap, hs, hasBit, subMask]

@[simp] theorem touch_gapOut (s : State) (n : Nat) (hm : subMask 3145728 m = true) (hs : Touch m s0 s) :
    Touch m s0 (gapOut s n) := by
  refine Touch.lift hm hs ?_
  clear hs hm
  have hs : Touch 3145728 s s := .refl _ _
  simp +decide (maxDischargeDepth := 99) [gapOut, hs, hasBit, subMask]

@[simp] theorem touch_sentFront (s : State) (n : Nat) (hm : subMask 4398042251258 m = true) (hs : Touch m s0 s) :
    Touch m s0 (sentFront s n) := by
  refine Touch.lift hm hs ?_
  clear hs hm
  have hs : Touch 4398042251258 s s := .refl _ _
  unfold sentFront
  (try dsimp only)
  repeat' (first | with_reducible assumption | (simp +contextual +decide (maxDischargeDepth := 99) [hs, hasBit, subMask]; done) | (simp +contextual +decide (maxDischargeDepth := 99) [hs, hk, hasBit, subMask]; done) | split | refine touch_foldl _ _ _ ?_ (fun _ _ hk => ?_))

@[simp] theorem touch_leaveFront (s : State) (n : Nat) (k : OutPkt) (hm : subMask 4398042251258 m = true) (hs : Touch m s0 s) :
    Touch m s0 (leaveFront s n k) := by
  refine Touch.lift hm hs ?_
  clear hs hm
  have hs : Touch 4398042251258 s s := .refl _ _
  simp +decide (maxDischargeDepth := 99) [leaveFront, hs, hasBit, subMask]

@[simp] theorem touch_sendOut (s : State) (n : Nat) (x2 : Nat) (hm : subMask 4398042251258 m = true) (hs : Touch m s0 s) :
    Touch m s0 (sendOut s n x2) := by
  refine Touch.lift hm hs ?_
  clear hs hm
  have hs : Touch 4398042251258 s s := .refl _ _
  suffices key : ∀ b0, Touch 4398042251258 b0 s → Touch 4398042251258 b0 (sendOut s n x2) from key _ hs
  clear hs
  intro b0 hs
  induction x2 generalizing s with
  | zero => exact hs
  | succ n0 ih =>
    unfold sendOut
    split
    · exact hs
    · split
      · exact ih _ (by simp +contextual +decide (maxDischargeDepth := 99) [hs, hasBit, subMask])
      · split <;> simp +contextual +decide (maxDischargeDepth := 99) [hs, hasBit, subMask]

@[simp] theorem touch_dropSpoilt (s : State) (n : Nat) (x2 : Nat) (hm : subMask 4398042251258 m = true) (hs : Touch m s0 s) :
    Touch m s0 (dropSpoilt s n x2) := by
  refine Touch.lift hm hs ?_
  clear hs hm
  have hs : Touch 4398042251258 s s := .refl _ _
  suffices key : ∀ b0, Touch 4398042251258 b0 s → Touch 4398042251258 b0 (dropSpoilt s n x2) from key _ hs
  clear hs
  intro b0 hs
  induction x2 generalizing s n with
  | zero => exact hs
  | succ n ih =>
    unfold dropSpoilt
    (try dsimp only)
    repeat' (first | with_reducible assumption | (simp +contextual +decide (maxDischargeDepth := 99) [hs, ih, hasBit, subMask]; done) | split | (refine ih _ ?_) | (refine ih _ _ ?_) | (refine ih _ _ _ ?_) | refine touch_foldl _ _ _ ?_ (fun _ _ hk => ?_))

@[simp] theorem touch_afterRoom (s : State) (n : Nat) (hm : subMask 4398046510075 m = true) (hs : Touch m s0 s) :
    Touch m s0 (afterRoom s n) := by
  refine Touch.lift hm hs ?_
  clear hs hm
  have hs : Touch 4398046510075 s s := .refl _ _
  simp +decide (maxDischargeDepth := 99) [afterRoom, hs, hasBit, subMask]

@[simp] theorem touch_spiTransaction (s : State) (mosi : Bytes) (v : Verdicts) (hm : subMask 4398046511099 m = true) (hs : Touch m s0 s) :
    Touch m s0 (spiTransaction s mosi v) := by
  refine Touch.lift hm hs ?_
  clear hs hm
  have hs : Touch 4398046511099 s s := .refl _ _
  unfold spiTransaction
  (try dsimp only)
  repeat' (first | with_reducible assumption | (simp +contextual +decide (maxDischargeDepth := 99) [hs, hasBit, subMask]; done) | (simp +contextual +decide (maxDischargeDepth := 99) [hs, hk, hasBit, subMask]; done) | split | refine touch_foldl _ _ _ ?_ (fun _ _ hk => ?_))

@[simp] theorem touch_arpReply (s : State) (ip : Nat) (mac : Nat) (hm : subMask 2097152 m = true) (hs : Touch m s0 s) :
    Touch m s0 (arpReply s ip mac) := by
  refine Touch.lift hm hs ?_
  clear hs hm
  have hs : Touch 2097152 s s := .refl _ _
  simp +contextual +decide (maxDischargeDepth := 99) [arpReply, hs, hasBit, subMask]

@[simp] theorem touch_arpFailed (s : State) (ip : Nat) (hm : subMask 34362884096 m = true) (hs : Touch m s0 s) :
    Touch m s0 (arpFailed s ip) := by
  refine Touch.lift hm hs ?_
  clear hs hm
  have hs : Touch 34362884096 s s := .refl _ _
  simp +contextual +decide (maxDischargeDepth := 99) [arpFailed, hs, hasBit, subMask]

@[simp] theorem touch_arpAgain (s : State) (ip : Nat) (hm : subMask 4398046510075 m = true) (hs : Touch m s0 s) :
    Touch m s0 (arpAgain s ip) := by
  refine Touch.lift hm hs ?_
  clear hs hm
  have hs : Touch 4398046510075 s s := .refl _ _
  unfold arpAgain
  repeat' split
  all_goals simp +contextual +decide (maxDischargeDepth := 99) [hs, hasBit, subMask]

@[simp] theorem touch_remoteReq (s : State) (o : Nat) (seq : Nat) (op : Nat) (params : Bytes) (priv : Bool) (v : Verdicts) (hm : subMask 4398046510075 m = true) (hs : Touch m s0 s) :
    Touch m s0 (remoteReq s o seq op params priv v) := by
  refine Touch.lift hm hs ?_
  clear hs hm
  have hs : Touch 4398046510075 s s := .refl _ _
  unfold remoteReq
  (try dsimp only)
  repeat' (first | with_reducible assumption | (simp +contextual +decide (maxDischargeDepth := 99) [hs, hasBit, subMask]; done) | (simp +contextual +decide (maxDischargeDepth := 99) [hs, hk, hasBit, subMask]; done) | split | refine touch_foldl _ _ _ ?_ (fun _ _ hk => ?_))

@[simp] theorem touch_remoteReply (s : State) (o : Nat) (b : Bytes) (hm : subMask 34362884096 m = true) (hs : Touch m s0 s) :
    Touch m s0 (remoteReply s o b) := by
  refine Touch.lift hm hs ?_
  clear hs hm
  have hs : Touch 34362884096 s s := .refl _ _
  simp +decide (maxDischargeDepth := 99) [remoteReply, hs, hasBit, subMask]

@[simp] theorem touch_remotePacket (s : State) (p : QPkt) (v : Verdicts) (hm : subMask 4398046510075 m = true) (hs : Touch m s0 s) :
    Touch m s0 (remotePacket s p v) := by
  refine Touch.lift hm hs ?_
  clear hs hm
  have hs : Touch 4398046510075 s s := .refl _ _
  simp +decide (maxDischargeDepth := 99) [remotePacket, hs, hasBit, subMask]

@[simp] theorem touch_remoteRx (s : State) (v : Verdicts) (hm : subMask 4398046510075 m = true) (hs : Touch m s0 s) :
    Touch m s0 (remoteRx s v) := by
  refine Touch.lift hm hs ?_
  clear hs hm
  have hs : Touch 4398046510075 s s := .refl _ _
  unfold remoteRx
  repeat' split
  all_goals simp +contextual +decide (maxDischargeDepth := 99) [hs, hasBit, subMask]

@[simp] theorem touch_execSpiTransaction (mosi : Bytes) (v : Verdicts) (s : State) (hm : subMask 4398046511099 m = true) (hs : Touch m s0 s) :
    TouchBy m s0 (execSpiTransaction mosi v s) := by
  refine Touch.liftBy hm hs ?_
  clear hs hm
  have hs : Touch 4398046511099 s s := .refl _ _
  simp +decide (maxDischargeDepth := 99) [execSpiTransaction, hs, hasBit, subMask]

@[simp] theorem touch_execUartBreak (s : State) (hm : subMask 4398046510075 m = true) (hs : Touch m s0 s) :
    TouchBy m s0 (execUartBreak s) := by
  refine Touch.liftBy hm hs ?_
  clear hs hm
  have hs : Touch 4398046510075 s s := .refl _ _
  simp +decide (maxDischargeDepth := 99) [execUartBreak, hs, hasBit, subMask]

@[simp] theorem touch_execUartByteGap (s : State) (hm : subMask 4398046510075 m = true) (hs : Touch m s0 s) :
    TouchBy m s0 (execUartByteGap s) := by
  refine Touch.liftBy hm hs ?_
  clear hs hm
  have hs : Touch 4398046510075 s s := .refl _ _
  simp +decide (maxDischargeDepth := 99) [execUartByteGap, hs, hasBit, subMask]

@[simp] theorem touch_execUartCtsChange (high : Bool) (s : State) (hm : subMask 2097152 m = true) (hs : Touch m s0 s) :
    TouchBy m s0 (execUartCtsChange high s) := by
  refine Touch.liftBy hm hs ?_
  clear hs hm
  have hs : Touch 2097152 s s := .refl _ _
  simp +contextual +decide (maxDischargeDepth := 99) [execUartCtsChange, hs, hasBit, subMask]

@[simp] theorem touch_execPortBufferRoom (port : HostPort) (sent : Nat) (s : State) (hm : subMask 4398046511099 m = true) (hs : Touch m s0 s) :
    TouchBy m s0 (execPortBufferRoom port sent s) := by
  refine Touch.liftBy hm hs ?_
  clear hs hm
  have hs : Touch 4398046511099 s s := .refl _ _
  simp +decide (maxDischargeDepth := 99) [execPortBufferRoom, hs, hasBit, subMask]

@[simp] theorem touch_execArpRequestRx (ip : BitVec 32) (s : State) (hm : subMask 2097152 m = true) (hs : Touch m s0 s) :
    TouchBy m s0 (execArpRequestRx ip s) := by
  refine Touch.liftBy hm hs ?_
  clear hs hm
  have hs : Touch 2097152 s s := .refl _ _
  simp +contextual +decide (maxDischargeDepth := 99) [execArpRequestRx, hs, hasBit, subMask]

@[simp] theorem touch_execArpReplyRx (ip : BitVec 32) (mac : BitVec 48) (s : State) (hm : subMask 2097152 m = true) (hs : Touch m s0 s) :
    TouchBy m s0 (execArpReplyRx ip mac s) := by
  refine Touch.liftBy hm hs ?_
  clear hs hm
  have hs : Touch 2097152 s s := .refl _ _
  simp +decide (maxDischargeDepth := 99) [execArpReplyRx, hs, hasBit, subMask]

@[simp] theorem touch_execArpRetry (ip : BitVec 32) (s : State) (hm : subMask 4398046510075 m = true) (hs : Touch m s0 s) :
    TouchBy m s0 (execArpRetry ip s) := by
  refine Touch.liftBy hm hs ?_
  clear hs hm
  have hs : Touch 4398046510075 s s := .refl _ _
  simp +decide (maxDischargeDepth := 99) [execArpRetry, hs, hasBit, subMask]

@[simp] theorem touch_execArpCacheExpiry (s : State) (hm : subMask 2097152 m = true) (hs : Touch m s0 s) :
    TouchBy m s0 (execArpCacheExpiry s) := by
  refine Touch.liftBy hm hs ?_
  clear hs hm
  have hs : Touch 2097152 s s := .refl _ _
  simp +contextual +decide (maxDischargeDepth := 99) [execArpCacheExpiry, hs, hasBit, subMask]

@[simp] theorem touch_execHostPacketRx (port : HostPort) (bytes : Bytes) (eth : EthMeta) (v : Verdicts) (s : State) (hm : subMask 4398046510075 m = true) (hs : Touch m s0 s) :
    TouchBy m s0 (execHostPacketRx port bytes eth v s) := by
  refine Touch.liftBy hm hs ?_
  clear hs hm
  have hs : Touch 4398046510075 s s := .refl _ _
  unfold execHostPacketRx
  repeat' split
  all_goals simp +contextual +decide (maxDischargeDepth := 99) [hs, hasBit, subMask]

@[simp] theorem touch_execPuluacRemoteRx (v : Verdicts) (s : State) (hm : subMask 4398046510075 m = true) (hs : Touch m s0 s) :
    TouchBy m s0 (execPuluacRemoteRx v s) := by
  refine Touch.liftBy hm hs ?_
  clear hs hm
  have hs : Touch 4398046510075 s s := .refl _ _
  simp +decide (maxDischargeDepth := 99) [execPuluacRemoteRx, hs, hasBit, subMask]

@[simp] theorem touch_runTicks (s : State) (x1 : Nat) (hm : subMask 2257013583986 m = true) (hs : Touch m s0 s) :
    Touch m s0 (runTicks s x1) := by
  refine Touch.lift hm hs ?_
  clear hs hm
  have hs : Touch 2257013583986 s s := .refl _ _
  suffices key : ∀ b0, Touch 2257013583986 b0 s → Touch 2257013583986 b0 (runTicks s x1) from key _ hs
  clear hs
  intro b0 hs
  induction x1 generalizing s with
  | zero => exact hs
  | succ n ih =>
    unfold runTicks
    (try dsimp only)
    repeat' (first | with_reducible assumption | (simp +contextual +decide (maxDischargeDepth := 99) [hs, ih, hasBit, subMask]; done) | split | (refine ih _ ?_) | (refine ih _ _ ?_) | (refine ih _ _ _ ?_) | refine touch_foldl _ _ _ ?_ (fun _ _ hk => ?_))

@[simp] theorem touch_execControlTick (s : State) (hm : subMask 4398046510075 m = true) (hs : Touch m s0 s) :
    TouchBy m s0 (execControlTick s) := by
  refine Touch.liftBy hm hs ?_
  clear hs hm
  have hs : Touch 4398046510075 s s := .refl _ _
  simp +decide (maxDischargeDepth := 99) [execControlTick, hs, hasBit, subMask]

@[simp] theorem touch_ticksTo (s : State) (t : Nat) (hm : subMask 4398046510075 m = true) (hs : Touch m s0 s) :
    Touch m s0 (ticksTo s t) := by
  refine Touch.lift hm hs ?_
  clear hs hm
  have hs : Touch 4398046510075 s s := .refl _ _
  simp +decide (maxDischargeDepth := 99) [ticksTo, hs, hasBit, subMask]

@[simp] theorem touch_execLeaseExpiry (l : Fin 32) (s : State) (hm : subMask 4294975584 m = true) (hs : Touch m s0 s) :
    TouchBy m s0 (execLeaseExpiry l s) := by
  refine Touch.liftBy hm hs ?_
  clear hs hm
  have hs : Touch 4294975584 s s := .refl _ _
  simp +decide (maxDischargeDepth := 99) [execLeaseExpiry, hs, hasBit, subMask]

@[simp] theorem touch_execRuleHoldExpiry (i : Fin 256) (s : State) (hm : subMask 4398046510075 m = true) (hs : Touch m s0 s) :
    TouchBy m s0 (execRuleHoldExpiry i s) := by
  refine Touch.liftBy hm hs ?_
  clear hs hm
  have hs : Touch 4398046510075 s s := .refl _ _
  simp +decide (maxDischargeDepth := 99) [execRuleHoldExpiry, hs, hasBit, subMask]

@[simp] theorem touch_execQtimeExpiry (i : Fin 256) (s : State) (hm : subMask 4398046510075 m = true) (hs : Touch m s0 s) :
    TouchBy m s0 (execQtimeExpiry i s) := by
  refine Touch.liftBy hm hs ?_
  clear hs hm
  have hs : Touch 4398046510075 s s := .refl _ _
  simp +decide (maxDischargeDepth := 99) [execQtimeExpiry, hs, hasBit, subMask]

@[simp] theorem touch_execSequenceWaitExpiry (k : Fin 64) (s : State) (hm : subMask 4398046510075 m = true) (hs : Touch m s0 s) :
    TouchBy m s0 (execSequenceWaitExpiry k s) := by
  refine Touch.liftBy hm hs ?_
  clear hs hm
  have hs : Touch 4398046510075 s s := .refl _ _
  unfold execSequenceWaitExpiry
  repeat' split
  all_goals simp +contextual +decide (maxDischargeDepth := 99) [hs, hasBit, subMask]

@[simp] theorem touch_execWaitcondTimeout (k : Fin 64) (s : State) (hm : subMask 4398046510075 m = true) (hs : Touch m s0 s) :
    TouchBy m s0 (execWaitcondTimeout k s) := by
  refine Touch.liftBy hm hs ?_
  clear hs hm
  have hs : Touch 4398046510075 s s := .refl _ _
  unfold execWaitcondTimeout
  repeat' split
  all_goals simp +contextual +decide (maxDischargeDepth := 99) [hs, hasBit, subMask]

@[simp] theorem touch_execSequenceMaxtime (k : Fin 64) (s : State) (hm : subMask 4398046510075 m = true) (hs : Touch m s0 s) :
    TouchBy m s0 (execSequenceMaxtime k s) := by
  refine Touch.liftBy hm hs ?_
  clear hs hm
  have hs : Touch 4398046510075 s s := .refl _ _
  simp +decide (maxDischargeDepth := 99) [execSequenceMaxtime, hs, hasBit, subMask]

@[simp] theorem touch_execWaiterTimeout (l : Fin 32) (s : State) (hm : subMask 4398046510075 m = true) (hs : Touch m s0 s) :
    TouchBy m s0 (execWaiterTimeout l s) := by
  refine Touch.liftBy hm hs ?_
  clear hs hm
  have hs : Touch 4398046510075 s s := .refl _ _
  unfold execWaiterTimeout
  repeat' split
  all_goals simp +contextual +decide (maxDischargeDepth := 99) [hs, hasBit, subMask]

@[simp] theorem touch_execPulseEnd (i : Fin 32) (s : State) (hm : subMask 4398046510075 m = true) (hs : Touch m s0 s) :
    TouchBy m s0 (execPulseEnd i s) := by
  refine Touch.liftBy hm hs ?_
  clear hs hm
  have hs : Touch 4398046510075 s s := .refl _ _
  unfold execPulseEnd
  repeat' split
  all_goals simp +contextual +decide (maxDischargeDepth := 99) [hs, hasBit, subMask]

@[simp] theorem touch_execBistablePulseEnd (i : Fin 32) (s : State) (hm : subMask 4398046510075 m = true) (hs : Touch m s0 s) :
    TouchBy m s0 (execBistablePulseEnd i s) := by
  refine Touch.liftBy hm hs ?_
  clear hs hm
  have hs : Touch 4398046510075 s s := .refl _ _
  unfold execBistablePulseEnd
  repeat' split
  all_goals simp +contextual +decide (maxDischargeDepth := 99) [hs, hasBit, subMask]

@[simp] theorem touch_execInterlockDeadExpiry (i : Fin 32) (s : State) (hm : subMask 4398046510075 m = true) (hs : Touch m s0 s) :
    TouchBy m s0 (execInterlockDeadExpiry i s) := by
  refine Touch.liftBy hm hs ?_
  clear hs hm
  have hs : Touch 4398046510075 s s := .refl _ _
  simp +decide (maxDischargeDepth := 99) [execInterlockDeadExpiry, hs, hasBit, subMask]

@[simp] theorem touch_execDiLevelAccept (di : Fin 16) (level : Bool) (s : State) (hm : subMask 4294967296 m = true) (hs : Touch m s0 s) :
    TouchBy m s0 (execDiLevelAccept di level s) := by
  refine Touch.liftBy hm hs ?_
  clear hs hm
  have hs : Touch 4294967296 s s := .refl _ _
  simp +decide (maxDischargeDepth := 99) [execDiLevelAccept, hs, hasBit, subMask]

@[simp] theorem touch_execLceCommandRx (orig : BitVec 16) (priv : Bool) (body : Bytes) (s : State) (hm : subMask 55838646274 m = true) (hs : Touch m s0 s) :
    TouchBy m s0 (execLceCommandRx orig priv body s) := by
  refine Touch.liftBy hm hs ?_
  clear hs hm
  have hs : Touch 55838646274 s s := .refl _ _
  simp +decide (maxDischargeDepth := 99) [execLceCommandRx, hs, hasBit, subMask]

@[simp] theorem touch_oneOp (s : State) (by_ : LceBy) (p : LceOp) (hm : subMask 55838646272 m = true) (hs : Touch m s0 s) :
    Touch m s0 (oneOp s by_ p) := by
  refine Touch.lift hm hs ?_
  clear hs hm
  have hs : Touch 55838646272 s s := .refl _ _
  unfold oneOp
  repeat' split
  all_goals simp +contextual +decide (maxDischargeDepth := 99) [hs, hasBit, subMask]

@[simp] theorem touch_execLceAcquire (by_ : LceBy) (l : BitVec 8) (lease : BitVec 16) (wait : BitVec 16) (s : State) (hm : subMask 55838646272 m = true) (hs : Touch m s0 s) :
    TouchBy m s0 (execLceAcquire by_ l lease wait s) := by
  refine Touch.liftBy hm hs ?_
  clear hs hm
  have hs : Touch 55838646272 s s := .refl _ _
  simp +decide (maxDischargeDepth := 99) [execLceAcquire, hs, hasBit, subMask]

@[simp] theorem touch_execLceRelease (by_ : LceBy) (l : BitVec 8) (s : State) (hm : subMask 55838646272 m = true) (hs : Touch m s0 s) :
    TouchBy m s0 (execLceRelease by_ l s) := by
  refine Touch.liftBy hm hs ?_
  clear hs hm
  have hs : Touch 55838646272 s s := .refl _ _
  simp +decide (maxDischargeDepth := 99) [execLceRelease, hs, hasBit, subMask]

@[simp] theorem touch_execLceSet (by_ : LceBy) (i : BitVec 8) (v : BitVec 16) (s : State) (hm : subMask 55838646272 m = true) (hs : Touch m s0 s) :
    TouchBy m s0 (execLceSet by_ i v s) := by
  refine Touch.liftBy hm hs ?_
  clear hs hm
  have hs : Touch 55838646272 s s := .refl _ _
  simp +decide (maxDischargeDepth := 99) [execLceSet, hs, hasBit, subMask]

@[simp] theorem touch_execLceStart (by_ : LceBy) (k : BitVec 8) (s : State) (hm : subMask 55838646272 m = true) (hs : Touch m s0 s) :
    TouchBy m s0 (execLceStart by_ k s) := by
  refine Touch.liftBy hm hs ?_
  clear hs hm
  have hs : Touch 55838646272 s s := .refl _ _
  simp +decide (maxDischargeDepth := 99) [execLceStart, hs, hasBit, subMask]

@[simp] theorem touch_execLceAbort (by_ : LceBy) (k : BitVec 8) (s : State) (hm : subMask 55838646272 m = true) (hs : Touch m s0 s) :
    TouchBy m s0 (execLceAbort by_ k s) := by
  refine Touch.liftBy hm hs ?_
  clear hs hm
  have hs : Touch 55838646272 s s := .refl _ _
  simp +decide (maxDischargeDepth := 99) [execLceAbort, hs, hasBit, subMask]

@[simp] theorem touch_execLceTrigger (by_ : LceBy) (code : BitVec 8) (s : State) (hm : subMask 55838646272 m = true) (hs : Touch m s0 s) :
    TouchBy m s0 (execLceTrigger by_ code s) := by
  refine Touch.liftBy hm hs ?_
  clear hs hm
  have hs : Touch 55838646272 s s := .refl _ _
  simp +decide (maxDischargeDepth := 99) [execLceTrigger, hs, hasBit, subMask]

@[simp] theorem touch_execPing (r : HostReq) (s : State) (hm : subMask 4398046510075 m = true) (hs : Touch m s0 s) :
    TouchBy m s0 (execPing r s) := by
  refine Touch.liftBy hm hs ?_
  clear hs hm
  have hs : Touch 4398046510075 s s := .refl _ _
  simp +decide (maxDischargeDepth := 99) [execPing, hs, hasBit, subMask]

@[simp] theorem touch_execRegRead (r : HostReq) (s : State) (hm : subMask 4398046510075 m = true) (hs : Touch m s0 s) :
    TouchBy m s0 (execRegRead r s) := by
  refine Touch.liftBy hm hs ?_
  clear hs hm
  have hs : Touch 4398046510075 s s := .refl _ _
  simp +decide (maxDischargeDepth := 99) [execRegRead, hs, hasBit, subMask]

@[simp] theorem touch_execRegWrite (r : HostReq) (s : State) (hm : subMask 4398046510075 m = true) (hs : Touch m s0 s) :
    TouchBy m s0 (execRegWrite r s) := by
  refine Touch.liftBy hm hs ?_
  clear hs hm
  have hs : Touch 4398046510075 s s := .refl _ _
  simp +decide (maxDischargeDepth := 99) [execRegWrite, hs, hasBit, subMask]

@[simp] theorem touch_execEventSubscribe (r : HostReq) (s : State) (hm : subMask 4398046510075 m = true) (hs : Touch m s0 s) :
    TouchBy m s0 (execEventSubscribe r s) := by
  refine Touch.liftBy hm hs ?_
  clear hs hm
  have hs : Touch 4398046510075 s s := .refl _ _
  simp +decide (maxDischargeDepth := 99) [execEventSubscribe, hs, hasBit, subMask]

@[simp] theorem touch_execPortReset (r : HostReq) (s : State) (hm : subMask 4398046510075 m = true) (hs : Touch m s0 s) :
    TouchBy m s0 (execPortReset r s) := by
  refine Touch.liftBy hm hs ?_
  clear hs hm
  have hs : Touch 4398046510075 s s := .refl _ _
  simp +decide (maxDischargeDepth := 99) [execPortReset, hs, hasBit, subMask]

@[simp] theorem touch_execPortConfig (r : HostReq) (s : State) (hm : subMask 4398046510075 m = true) (hs : Touch m s0 s) :
    TouchBy m s0 (execPortConfig r s) := by
  refine Touch.liftBy hm hs ?_
  clear hs hm
  have hs : Touch 4398046510075 s s := .refl _ _
  simp +decide (maxDischargeDepth := 99) [execPortConfig, hs, hasBit, subMask]

@[simp] theorem touch_execNetConfig (r : HostReq) (s : State) (hm : subMask 4398046510075 m = true) (hs : Touch m s0 s) :
    TouchBy m s0 (execNetConfig r s) := by
  refine Touch.liftBy hm hs ?_
  clear hs hm
  have hs : Touch 4398046510075 s s := .refl _ _
  simp +decide (maxDischargeDepth := 99) [execNetConfig, hs, hasBit, subMask]

@[simp] theorem touch_execSessionOpen (r : HostReq) (s : State) (hm : subMask 4398046510075 m = true) (hs : Touch m s0 s) :
    TouchBy m s0 (execSessionOpen r s) := by
  refine Touch.liftBy hm hs ?_
  clear hs hm
  have hs : Touch 4398046510075 s s := .refl _ _
  simp +decide (maxDischargeDepth := 99) [execSessionOpen, hs, hasBit, subMask]

@[simp] theorem touch_execSessionProve (r : HostReq) (s : State) (hm : subMask 4398046510075 m = true) (hs : Touch m s0 s) :
    TouchBy m s0 (execSessionProve r s) := by
  refine Touch.liftBy hm hs ?_
  clear hs hm
  have hs : Touch 4398046510075 s s := .refl _ _
  simp +decide (maxDischargeDepth := 99) [execSessionProve, hs, hasBit, subMask]

@[simp] theorem touch_execSessionClose (r : HostReq) (s : State) (hm : subMask 4398046510075 m = true) (hs : Touch m s0 s) :
    TouchBy m s0 (execSessionClose r s) := by
  refine Touch.liftBy hm hs ?_
  clear hs hm
  have hs : Touch 4398046510075 s s := .refl _ _
  simp +decide (maxDischargeDepth := 99) [execSessionClose, hs, hasBit, subMask]

@[simp] theorem touch_execMeshSend (r : HostReq) (s : State) (hm : subMask 4398046510075 m = true) (hs : Touch m s0 s) :
    TouchBy m s0 (execMeshSend r s) := by
  refine Touch.liftBy hm hs ?_
  clear hs hm
  have hs : Touch 4398046510075 s s := .refl _ _
  simp +decide (maxDischargeDepth := 99) [execMeshSend, hs, hasBit, subMask]

@[simp] theorem touch_execDeviceReset (r : HostReq) (s : State) (hm : subMask 4398046510075 m = true) (hs : Touch m s0 s) :
    TouchBy m s0 (execDeviceReset r s) := by
  refine Touch.liftBy hm hs ?_
  clear hs hm
  have hs : Touch 4398046510075 s s := .refl _ _
  simp +decide (maxDischargeDepth := 99) [execDeviceReset, hs, hasBit, subMask]

@[simp] theorem touch_execModeSet (r : HostReq) (s : State) (hm : subMask 4398046510075 m = true) (hs : Touch m s0 s) :
    TouchBy m s0 (execModeSet r s) := by
  refine Touch.liftBy hm hs ?_
  clear hs hm
  have hs : Touch 4398046510075 s s := .refl _ _
  simp +decide (maxDischargeDepth := 99) [execModeSet, hs, hasBit, subMask]

@[simp] theorem touch_execMapRead (r : HostReq) (s : State) (hm : subMask 4398046510075 m = true) (hs : Touch m s0 s) :
    TouchBy m s0 (execMapRead r s) := by
  refine Touch.liftBy hm hs ?_
  clear hs hm
  have hs : Touch 4398046510075 s s := .refl _ _
  simp +decide (maxDischargeDepth := 99) [execMapRead, hs, hasBit, subMask]

@[simp] theorem touch_execSweepRead (r : HostReq) (s : State) (hm : subMask 4398046510075 m = true) (hs : Touch m s0 s) :
    TouchBy m s0 (execSweepRead r s) := by
  refine Touch.liftBy hm hs ?_
  clear hs hm
  have hs : Touch 4398046510075 s s := .refl _ _
  simp +decide (maxDischargeDepth := 99) [execSweepRead, hs, hasBit, subMask]

@[simp] theorem touch_execContextRead (r : HostReq) (s : State) (hm : subMask 4398046510075 m = true) (hs : Touch m s0 s) :
    TouchBy m s0 (execContextRead r s) := by
  refine Touch.liftBy hm hs ?_
  clear hs hm
  have hs : Touch 4398046510075 s s := .refl _ _
  simp +decide (maxDischargeDepth := 99) [execContextRead, hs, hasBit, subMask]

@[simp] theorem touch_execAddrReserve (r : HostReq) (s : State) (hm : subMask 4398046510075 m = true) (hs : Touch m s0 s) :
    TouchBy m s0 (execAddrReserve r s) := by
  refine Touch.liftBy hm hs ?_
  clear hs hm
  have hs : Touch 4398046510075 s s := .refl _ _
  simp +decide (maxDischargeDepth := 99) [execAddrReserve, hs, hasBit, subMask]

@[simp] theorem touch_execAddrRelease (r : HostReq) (s : State) (hm : subMask 4398046510075 m = true) (hs : Touch m s0 s) :
    TouchBy m s0 (execAddrRelease r s) := by
  refine Touch.liftBy hm hs ?_
  clear hs hm
  have hs : Touch 4398046510075 s s := .refl _ _
  simp +decide (maxDischargeDepth := 99) [execAddrRelease, hs, hasBit, subMask]

@[simp] theorem touch_execLateralOpen (r : HostReq) (s : State) (hm : subMask 4398046510075 m = true) (hs : Touch m s0 s) :
    TouchBy m s0 (execLateralOpen r s) := by
  refine Touch.liftBy hm hs ?_
  clear hs hm
  have hs : Touch 4398046510075 s s := .refl _ _
  simp +decide (maxDischargeDepth := 99) [execLateralOpen, hs, hasBit, subMask]

@[simp] theorem touch_execFit (r : HostReq) (s : State) (hm : subMask 4398046510075 m = true) (hs : Touch m s0 s) :
    TouchBy m s0 (execFit r s) := by
  refine Touch.liftBy hm hs ?_
  clear hs hm
  have hs : Touch 4398046510075 s s := .refl _ _
  simp +decide (maxDischargeDepth := 99) [execFit, hs, hasBit, subMask]

@[simp] theorem touch_execGalleryRead (r : HostReq) (s : State) (hm : subMask 4398046510075 m = true) (hs : Touch m s0 s) :
    TouchBy m s0 (execGalleryRead r s) := by
  refine Touch.liftBy hm hs ?_
  clear hs hm
  have hs : Touch 4398046510075 s s := .refl _ _
  simp +decide (maxDischargeDepth := 99) [execGalleryRead, hs, hasBit, subMask]

@[simp] theorem touch_execLceOps (r : HostReq) (s : State) (hm : subMask 4398046510075 m = true) (hs : Touch m s0 s) :
    TouchBy m s0 (execLceOps r s) := by
  refine Touch.liftBy hm hs ?_
  clear hs hm
  have hs : Touch 4398046510075 s s := .refl _ _
  simp +decide (maxDischargeDepth := 99) [execLceOps, hs, hasBit, subMask]

@[simp] theorem touch_execAttest (r : HostReq) (s : State) (hm : subMask 4398046510075 m = true) (hs : Touch m s0 s) :
    TouchBy m s0 (execAttest r s) := by
  refine Touch.liftBy hm hs ?_
  clear hs hm
  have hs : Touch 4398046510075 s s := .refl _ _
  simp +decide (maxDischargeDepth := 99) [execAttest, hs, hasBit, subMask]

@[simp] theorem touch_execNodekeyGen (r : HostReq) (s : State) (hm : subMask 4398046510075 m = true) (hs : Touch m s0 s) :
    TouchBy m s0 (execNodekeyGen r s) := by
  refine Touch.liftBy hm hs ?_
  clear hs hm
  have hs : Touch 4398046510075 s s := .refl _ _
  simp +decide (maxDischargeDepth := 99) [execNodekeyGen, hs, hasBit, subMask]

@[simp] theorem touch_execCertInstall (r : HostReq) (s : State) (hm : subMask 4398046510075 m = true) (hs : Touch m s0 s) :
    TouchBy m s0 (execCertInstall r s) := by
  refine Touch.liftBy hm hs ?_
  clear hs hm
  have hs : Touch 4398046510075 s s := .refl _ _
  simp +decide (maxDischargeDepth := 99) [execCertInstall, hs, hasBit, subMask]

@[simp] theorem touch_execKeyInstall (r : HostReq) (s : State) (hm : subMask 4398046510075 m = true) (hs : Touch m s0 s) :
    TouchBy m s0 (execKeyInstall r s) := by
  refine Touch.liftBy hm hs ?_
  clear hs hm
  have hs : Touch 4398046510075 s s := .refl _ _
  simp +decide (maxDischargeDepth := 99) [execKeyInstall, hs, hasBit, subMask]

@[simp] theorem touch_execGkeySet (r : HostReq) (s : State) (hm : subMask 4398046510075 m = true) (hs : Touch m s0 s) :
    TouchBy m s0 (execGkeySet r s) := by
  refine Touch.liftBy hm hs ?_
  clear hs hm
  have hs : Touch 4398046510075 s s := .refl _ _
  simp +decide (maxDischargeDepth := 99) [execGkeySet, hs, hasBit, subMask]

@[simp] theorem touch_execRekey (r : HostReq) (s : State) (hm : subMask 4398046510075 m = true) (hs : Touch m s0 s) :
    TouchBy m s0 (execRekey r s) := by
  refine Touch.liftBy hm hs ?_
  clear hs hm
  have hs : Touch 4398046510075 s s := .refl _ _
  simp +decide (maxDischargeDepth := 99) [execRekey, hs, hasBit, subMask]

@[simp] theorem touch_execOtpBurn (r : HostReq) (s : State) (hm : subMask 4398046510075 m = true) (hs : Touch m s0 s) :
    TouchBy m s0 (execOtpBurn r s) := by
  refine Touch.liftBy hm hs ?_
  clear hs hm
  have hs : Touch 4398046510075 s s := .refl _ _
  simp +decide (maxDischargeDepth := 99) [execOtpBurn, hs, hasBit, subMask]

@[simp] theorem touch_execRollbackCommit (r : HostReq) (s : State) (hm : subMask 4398046510075 m = true) (hs : Touch m s0 s) :
    TouchBy m s0 (execRollbackCommit r s) := by
  refine Touch.liftBy hm hs ?_
  clear hs hm
  have hs : Touch 4398046510075 s s := .refl _ _
  simp +decide (maxDischargeDepth := 99) [execRollbackCommit, hs, hasBit, subMask]

@[simp] theorem touch_execFlashErase (r : HostReq) (s : State) (hm : subMask 4398046510075 m = true) (hs : Touch m s0 s) :
    TouchBy m s0 (execFlashErase r s) := by
  refine Touch.liftBy hm hs ?_
  clear hs hm
  have hs : Touch 4398046510075 s s := .refl _ _
  simp +decide (maxDischargeDepth := 99) [execFlashErase, hs, hasBit, subMask]

@[simp] theorem touch_execFlashWrite (r : HostReq) (s : State) (hm : subMask 4398046510075 m = true) (hs : Touch m s0 s) :
    TouchBy m s0 (execFlashWrite r s) := by
  refine Touch.liftBy hm hs ?_
  clear hs hm
  have hs : Touch 4398046510075 s s := .refl _ _
  simp +decide (maxDischargeDepth := 99) [execFlashWrite, hs, hasBit, subMask]

@[simp] theorem touch_execFlashRead (r : HostReq) (s : State) (hm : subMask 4398046510075 m = true) (hs : Touch m s0 s) :
    TouchBy m s0 (execFlashRead r s) := by
  refine Touch.liftBy hm hs ?_
  clear hs hm
  have hs : Touch 4398046510075 s s := .refl _ _
  simp +decide (maxDischargeDepth := 99) [execFlashRead, hs, hasBit, subMask]

@[simp] theorem touch_execConfigSave (r : HostReq) (s : State) (hm : subMask 4398046510075 m = true) (hs : Touch m s0 s) :
    TouchBy m s0 (execConfigSave r s) := by
  refine Touch.liftBy hm hs ?_
  clear hs hm
  have hs : Touch 4398046510075 s s := .refl _ _
  simp +decide (maxDischargeDepth := 99) [execConfigSave, hs, hasBit, subMask]

@[simp] theorem touch_execFlashOpComplete (s : State) (hm : subMask 4398046510079 m = true) (hs : Touch m s0 s) :
    TouchBy m s0 (execFlashOpComplete s) := by
  refine Touch.liftBy hm hs ?_
  clear hs hm
  have hs : Touch 4398046510079 s s := .refl _ _
  simp +decide (maxDischargeDepth := 99) [execFlashOpComplete, hs, hasBit, subMask]

@[simp] theorem touch_execMrtPacketHandle (q0 : Fin 16) (x1 : Unit) (x2 : Unit) (s : State) (hm : subMask 4398046510075 m = true) (hs : Touch m s0 s) :
    TouchBy m s0 (execMrtPacketHandle q0 x1 x2 s) := by
  refine Touch.liftBy hm hs ?_
  clear hs hm
  have hs : Touch 4398046510075 s s := .refl _ _
  simp +decide (maxDischargeDepth := 99) [execMrtPacketHandle, hs, hasBit, subMask]

@[simp] theorem touch_execOperatorSigVerified (remote : Bool) (x1 : Unit) (s : State) (hm : subMask 4398046510075 m = true) (hs : Touch m s0 s) :
    TouchBy m s0 (execOperatorSigVerified remote x1 s) := by
  refine Touch.liftBy hm hs ?_
  clear hs hm
  have hs : Touch 4398046510075 s s := .refl _ _
  simp +decide (maxDischargeDepth := 99) [execOperatorSigVerified, hs, hasBit, subMask]

@[simp] theorem touch_execJoinOfferRx (port : Fin 5) (src : BitVec 16) (body : Bytes) (s : State) (hm : subMask 4398046510075 m = true) (hs : Touch m s0 s) :
    TouchBy m s0 (execJoinOfferRx port src body s) := by
  refine Touch.liftBy hm hs ?_
  clear hs hm
  have hs : Touch 4398046510075 s s := .refl _ _
  simp +decide (maxDischargeDepth := 99) [execJoinOfferRx, hs, hasBit, subMask]

@[simp] theorem touch_execJoinProofRx (ctx : BitVec 12) (body : Bytes) (x2 : Unit) (x3 : Unit) (s : State) (hm : subMask 4398046510075 m = true) (hs : Touch m s0 s) :
    TouchBy m s0 (execJoinProofRx ctx body x2 x3 s) := by
  refine Touch.liftBy hm hs ?_
  clear hs hm
  have hs : Touch 4398046510075 s s := .refl _ _
  simp +decide (maxDischargeDepth := 99) [execJoinProofRx, hs, hasBit, subMask]

@[simp] theorem touch_execParentProofRx (ctx : BitVec 12) (body : Bytes) (x2 : Unit) (x3 : Unit) (s : State) (hm : subMask 4398046510075 m = true) (hs : Touch m s0 s) :
    TouchBy m s0 (execParentProofRx ctx body x2 x3 s) := by
  refine Touch.liftBy hm hs ?_
  clear hs hm
  have hs : Touch 4398046510075 s s := .refl _ _
  simp +decide (maxDischargeDepth := 99) [execParentProofRx, hs, hasBit, subMask]

@[simp] theorem touch_execTrngReady (s : State) (hm : subMask 4398046510075 m = true) (hs : Touch m s0 s) :
    TouchBy m s0 (execTrngReady s) := by
  refine Touch.liftBy hm hs ?_
  clear hs hm
  have hs : Touch 4398046510075 s s := .refl _ _
  simp +decide (maxDischargeDepth := 99) [execTrngReady, hs, hasBit, subMask]

@[simp] theorem touch_execLinCommitComplete (s : State) (hm : subMask 2252714414082 m = true) (hs : Touch m s0 s) :
    TouchBy m s0 (execLinCommitComplete s) := by
  refine Touch.liftBy hm hs ?_
  clear hs hm
  have hs : Touch 2252714414082 s s := .refl _ _
  simp +decide (maxDischargeDepth := 99) [execLinCommitComplete, hs, hasBit, subMask]

@[simp] theorem touch_execHostInCopy (lce : Bool) (s : State) (hm : subMask 4398046510075 m = true) (hs : Touch m s0 s) :
    TouchBy m s0 (execHostInCopy lce s) := by
  refine Touch.liftBy hm hs ?_
  clear hs hm
  have hs : Touch 4398046510075 s s := .refl _ _
  simp +decide (maxDischargeDepth := 99) [execHostInCopy, hs, hasBit, subMask]

@[simp] theorem touch_execPhaseSlotBoundary (streams : Streams) (s : State) (hm : subMask 4398046511099 m = true) (hs : Touch m s0 s) :
    TouchBy m s0 (execPhaseSlotBoundary streams s) := by
  refine Touch.liftBy hm hs ?_
  clear hs hm
  have hs : Touch 4398046511099 s s := .refl _ _
  simp +decide (maxDischargeDepth := 99) [execPhaseSlotBoundary, hs, hasBit, subMask]

@[simp] theorem touch_execLeaveWaitExpiry (req : Fin 11) (s : State) (hm : subMask 4398046510075 m = true) (hs : Touch m s0 s) :
    TouchBy m s0 (execLeaveWaitExpiry req s) := by
  refine Touch.liftBy hm hs ?_
  clear hs hm
  have hs : Touch 4398046510075 s s := .refl _ _
  simp +decide (maxDischargeDepth := 99) [execLeaveWaitExpiry, hs, hasBit, subMask]

@[simp] theorem touch_execSyncInEdge (ts : MeshTime) (lowOk : Bool) (s : State) (hm : subMask 36527149152 m = true) (hs : Touch m s0 s) :
    TouchBy m s0 (execSyncInEdge ts lowOk s) := by
  refine Touch.liftBy hm hs ?_
  clear hs hm
  have hs : Touch 36527149152 s s := .refl _ _
  simp +decide (maxDischargeDepth := 99) [execSyncInEdge, hs, hasBit, subMask]

@[simp] theorem touch_writeOne (s : State) (r : HostReq) (a : Nat) (v : Nat) (hm : subMask 4398046510075 m = true) (hs : Touch m s0 s) :
    Touch m s0 (writeOne s r a v) := by
  refine Touch.lift hm hs ?_
  clear hs hm
  have hs : Touch 4398046510075 s s := .refl _ _
  simp +decide (maxDischargeDepth := 99) [writeOne, hs, hasBit, subMask]

@[simp] theorem touch_readOne (s : State) (r : HostReq) (a : Nat) (hm : subMask 4398046510075 m = true) (hs : Touch m s0 s) :
    Touch m s0 (readOne s r a) := by
  refine Touch.lift hm hs ?_
  clear hs hm
  have hs : Touch 4398046510075 s s := .refl _ _
  simp +decide (maxDischargeDepth := 99) [readOne, hs, hasBit, subMask]

@[simp] theorem touch_idle (s : State) (hm : subMask 96 m = true) (hs : Touch m s0 s) :
    Touch m s0 (idle s) := by
  refine Touch.lift hm hs ?_
  clear hs hm
  have hs : Touch 96 s s := .refl _ _
  simp +decide (maxDischargeDepth := 99) [idle, hs, hasBit, subMask]

@[simp] theorem touch_execTimesetArm (r : HostReq) (s : State) (hm : subMask 4398046510075 m = true) (hs : Touch m s0 s) :
    TouchBy m s0 (execTimesetArm r s) := by
  refine Touch.liftBy hm hs ?_
  clear hs hm
  have hs : Touch 4398046510075 s s := .refl _ _
  simp +decide (maxDischargeDepth := 99) [execTimesetArm, hs, hasBit, subMask]

@[simp] theorem touch_execHeldHalfWrite (which : Fin 3) (r : HostReq) (s : State) (hm : subMask 4398046510075 m = true) (hs : Touch m s0 s) :
    TouchBy m s0 (execHeldHalfWrite which r s) := by
  refine Touch.liftBy hm hs ?_
  clear hs hm
  have hs : Touch 4398046510075 s s := .refl _ _
  simp +decide (maxDischargeDepth := 99) [execHeldHalfWrite, hs, hasBit, subMask]

@[simp] theorem touch_execLatchingRead (which : Fin 8) (r : HostReq) (s : State) (hm : subMask 4398046510075 m = true) (hs : Touch m s0 s) :
    TouchBy m s0 (execLatchingRead which r s) := by
  refine Touch.liftBy hm hs ?_
  clear hs hm
  have hs : Touch 4398046510075 s s := .refl _ _
  simp +decide (maxDischargeDepth := 99) [execLatchingRead, hs, hasBit, subMask]

@[simp] theorem touch_execReepochWrite (r : HostReq) (s : State) (hm : subMask 4398046510075 m = true) (hs : Touch m s0 s) :
    TouchBy m s0 (execReepochWrite r s) := by
  refine Touch.liftBy hm hs ?_
  clear hs hm
  have hs : Touch 4398046510075 s s := .refl _ _
  simp +decide (maxDischargeDepth := 99) [execReepochWrite, hs, hasBit, subMask]

@[simp] theorem touch_execSweepGo (port : Fin 4) (r : HostReq) (s : State) (hm : subMask 4398046510075 m = true) (hs : Touch m s0 s) :
    TouchBy m s0 (execSweepGo port r s) := by
  refine Touch.liftBy hm hs ?_
  clear hs hm
  have hs : Touch 4398046510075 s s := .refl _ _
  simp +decide (maxDischargeDepth := 99) [execSweepGo, hs, hasBit, subMask]

@[simp] theorem touch_execSweepAbort (port : Fin 4) (r : HostReq) (s : State) (hm : subMask 4398046510075 m = true) (hs : Touch m s0 s) :
    TouchBy m s0 (execSweepAbort port r s) := by
  refine Touch.liftBy hm hs ?_
  clear hs hm
  have hs : Touch 4398046510075 s s := .refl _ _
  simp +decide (maxDischargeDepth := 99) [execSweepAbort, hs, hasBit, subMask]

@[simp] theorem touch_execSlotSwapRequest (r : HostReq) (s : State) (hm : subMask 4398046510075 m = true) (hs : Touch m s0 s) :
    TouchBy m s0 (execSlotSwapRequest r s) := by
  refine Touch.liftBy hm hs ?_
  clear hs hm
  have hs : Touch 4398046510075 s s := .refl _ _
  simp +decide (maxDischargeDepth := 99) [execSlotSwapRequest, hs, hasBit, subMask]

@[simp] theorem touch_execRreqGo (r : HostReq) (s : State) (hm : subMask 4398046510075 m = true) (hs : Touch m s0 s) :
    TouchBy m s0 (execRreqGo r s) := by
  refine Touch.liftBy hm hs ?_
  clear hs hm
  have hs : Touch 4398046510075 s s := .refl _ _
  simp +decide (maxDischargeDepth := 99) [execRreqGo, hs, hasBit, subMask]

@[simp] theorem touch_execFwdEntryCommit (r : HostReq) (s : State) (hm : subMask 4398046510075 m = true) (hs : Touch m s0 s) :
    TouchBy m s0 (execFwdEntryCommit r s) := by
  refine Touch.liftBy hm hs ?_
  clear hs hm
  have hs : Touch 4398046510075 s s := .refl _ _
  simp +decide (maxDischargeDepth := 99) [execFwdEntryCommit, hs, hasBit, subMask]

@[simp] theorem touch_execScanGo (r : HostReq) (s : State) (hm : subMask 4398046510075 m = true) (hs : Touch m s0 s) :
    TouchBy m s0 (execScanGo r s) := by
  refine Touch.liftBy hm hs ?_
  clear hs hm
  have hs : Touch 4398046510075 s s := .refl _ _
  simp +decide (maxDischargeDepth := 99) [execScanGo, hs, hasBit, subMask]

@[simp] theorem touch_execScanStop (r : HostReq) (s : State) (hm : subMask 4398046510075 m = true) (hs : Touch m s0 s) :
    TouchBy m s0 (execScanStop r s) := by
  refine Touch.liftBy hm hs ?_
  clear hs hm
  have hs : Touch 4398046510075 s s := .refl _ _
  simp +decide (maxDischargeDepth := 99) [execScanStop, hs, hasBit, subMask]

@[simp] theorem touch_execScanEntryCommit (r : HostReq) (s : State) (hm : subMask 4398046510075 m = true) (hs : Touch m s0 s) :
    TouchBy m s0 (execScanEntryCommit r s) := by
  refine Touch.liftBy hm hs ?_
  clear hs hm
  have hs : Touch 4398046510075 s s := .refl _ _
  simp +decide (maxDischargeDepth := 99) [execScanEntryCommit, hs, hasBit, subMask]

@[simp] theorem touch_execExcitationWrite (which : Fin 3) (r : HostReq) (s : State) (hm : subMask 4398046510075 m = true) (hs : Touch m s0 s) :
    TouchBy m s0 (execExcitationWrite which r s) := by
  refine Touch.liftBy hm hs ?_
  clear hs hm
  have hs : Touch 4398046510075 s s := .refl _ _
  simp +decide (maxDischargeDepth := 99) [execExcitationWrite, hs, hasBit, subMask]

@[simp] theorem touch_execXpcfgWrite (r : HostReq) (s : State) (hm : subMask 4398046510075 m = true) (hs : Touch m s0 s) :
    TouchBy m s0 (execXpcfgWrite r s) := by
  refine Touch.liftBy hm hs ?_
  clear hs hm
  have hs : Touch 4398046510075 s s := .refl _ _
  simp +decide (maxDischargeDepth := 99) [execXpcfgWrite, hs, hasBit, subMask]

@[simp] theorem touch_execGalleryArm (r : HostReq) (s : State) (hm : subMask 4398046510075 m = true) (hs : Touch m s0 s) :
    TouchBy m s0 (execGalleryArm r s) := by
  refine Touch.liftBy hm hs ?_
  clear hs hm
  have hs : Touch 4398046510075 s s := .refl _ _
  simp +decide (maxDischargeDepth := 99) [execGalleryArm, hs, hasBit, subMask]

@[simp] theorem touch_execGalleryTriggerWrite (r : HostReq) (s : State) (hm : subMask 4398046510075 m = true) (hs : Touch m s0 s) :
    TouchBy m s0 (execGalleryTriggerWrite r s) := by
  refine Touch.liftBy hm hs ?_
  clear hs hm
  have hs : Touch 4398046510075 s s := .refl _ _
  simp +decide (maxDischargeDepth := 99) [execGalleryTriggerWrite, hs, hasBit, subMask]

@[simp] theorem touch_execGalleryAbort (r : HostReq) (s : State) (hm : subMask 4398046510075 m = true) (hs : Touch m s0 s) :
    TouchBy m s0 (execGalleryAbort r s) := by
  refine Touch.liftBy hm hs ?_
  clear hs hm
  have hs : Touch 4398046510075 s s := .refl _ _
  simp +decide (maxDischargeDepth := 99) [execGalleryAbort, hs, hasBit, subMask]

@[simp] theorem touch_execLinLoad (r : HostReq) (s : State) (hm : subMask 4398046510075 m = true) (hs : Touch m s0 s) :
    TouchBy m s0 (execLinLoad r s) := by
  refine Touch.liftBy hm hs ?_
  clear hs hm
  have hs : Touch 4398046510075 s s := .refl _ _
  simp +decide (maxDischargeDepth := 99) [execLinLoad, hs, hasBit, subMask]

@[simp] theorem touch_execLinCommit (r : HostReq) (s : State) (hm : subMask 4398046510075 m = true) (hs : Touch m s0 s) :
    TouchBy m s0 (execLinCommit r s) := by
  refine Touch.liftBy hm hs ?_
  clear hs hm
  have hs : Touch 4398046510075 s s := .refl _ _
  simp +decide (maxDischargeDepth := 99) [execLinCommit, hs, hasBit, subMask]

@[simp] theorem touch_execLceTableLoad (r : HostReq) (s : State) (hm : subMask 4398046510075 m = true) (hs : Touch m s0 s) :
    TouchBy m s0 (execLceTableLoad r s) := by
  refine Touch.liftBy hm hs ?_
  clear hs hm
  have hs : Touch 4398046510075 s s := .refl _ _
  simp +decide (maxDischargeDepth := 99) [execLceTableLoad, hs, hasBit, subMask]

@[simp] theorem touch_execLceTableCommit (r : HostReq) (s : State) (hm : subMask 4398046510075 m = true) (hs : Touch m s0 s) :
    TouchBy m s0 (execLceTableCommit r s) := by
  refine Touch.liftBy hm hs ?_
  clear hs hm
  have hs : Touch 4398046510075 s s := .refl _ _
  simp +decide (maxDischargeDepth := 99) [execLceTableCommit, hs, hasBit, subMask]

@[simp] theorem touch_execTestOutputWrite (which : Fin 3) (r : HostReq) (s : State) (hm : subMask 4398046510075 m = true) (hs : Touch m s0 s) :
    TouchBy m s0 (execTestOutputWrite which r s) := by
  refine Touch.liftBy hm hs ?_
  clear hs hm
  have hs : Touch 4398046510075 s s := .refl _ _
  simp +decide (maxDischargeDepth := 99) [execTestOutputWrite, hs, hasBit, subMask]

@[simp] theorem touch_execResyncWrite (r : HostReq) (s : State) (hm : subMask 4398046510075 m = true) (hs : Touch m s0 s) :
    TouchBy m s0 (execResyncWrite r s) := by
  refine Touch.liftBy hm hs ?_
  clear hs hm
  have hs : Touch 4398046510075 s s := .refl _ _
  simp +decide (maxDischargeDepth := 99) [execResyncWrite, hs, hasBit, subMask]

@[simp] theorem touch_execPromoteWrite (r : HostReq) (s : State) (hm : subMask 4398046510075 m = true) (hs : Touch m s0 s) :
    TouchBy m s0 (execPromoteWrite r s) := by
  refine Touch.liftBy hm hs ?_
  clear hs hm
  have hs : Touch 4398046510075 s s := .refl _ _
  simp +decide (maxDischargeDepth := 99) [execPromoteWrite, hs, hasBit, subMask]

@[simp] theorem touch_execPairEnWrite (r : HostReq) (s : State) (hm : subMask 4398046510075 m = true) (hs : Touch m s0 s) :
    TouchBy m s0 (execPairEnWrite r s) := by
  refine Touch.liftBy hm hs ?_
  clear hs hm
  have hs : Touch 4398046510075 s s := .refl _ _
  simp +decide (maxDischargeDepth := 99) [execPairEnWrite, hs, hasBit, subMask]

end Sys2Proof.Machine
end

