-- ==== Sys2Proof/Laws/State.lean ====
section
/-! SUPPORT. What each basic update leaves of each field of the state: one lemma per field per update, true by rfl. The file imports the
Kept and Touch files so that no text holds these rewriting lemmas before the proofs there. -/

namespace Sys2Proof.Machine

/-! A part outside the mask of an operation's Touch is as before. -/

theorem Eqv.out {α : Type} {m i : Nat} {a b : α} (h : Eqv m i a b) (hb : hasBit m i = false) : a = b := by
  rcases h with h | h
  · rw [hb] at h; exact absurd h (by simp)
  · exact h

theorem Touch.pmu_out {m : Nat} {s t : State} (h : Touch m s t) (hb : hasBit m 3 = false ∧ hasBit m 4 = false ∧ hasBit m 40 = false) :
    t.pmu = s.pmu := by
  have h1 := (touch_seq t h).out hb.1
  have h2 := (touch_books t h).out hb.2.1
  have h3 := (touch_stamps t h).out hb.2.2
  revert h1 h2 h3
  cases t.pmu
  cases s.pmu
  simp +contextual [Pmu.seq, Pmu.books, Pmu.stamps]

theorem Touch.tbu_out {m : Nat} {s t : State} (h : Touch m s t) (hb : hasBit m 5 = false ∧ hasBit m 6 = false) : t.tbu = s.tbu := by
  have h1 := (touch_clock t h).out hb.1
  have h2 := (touch_grid t h).out hb.2
  revert h1 h2
  cases t.tbu
  cases s.tbu
  simp +contextual [Tbu.clock, Tbu.grid]

@[simp] theorem setF_chip (s : State) (f : Field) (v : Nat) : (setF s f v).chip = s.chip := rfl
@[simp] theorem setF_sram (s : State) (f : Field) (v : Nat) : (setF s f v).sram = s.sram := rfl
@[simp] theorem setF_flash (s : State) (f : Field) (v : Nat) : (setF s f v).flash = s.flash := rfl
@[simp] theorem setF_pmu (s : State) (f : Field) (v : Nat) : (setF s f v).pmu = s.pmu := rfl
@[simp] theorem setF_tbu (s : State) (f : Field) (v : Nat) : (setF s f v).tbu = s.tbu := rfl
@[simp] theorem setF_lines (s : State) (f : Field) (v : Nat) : (setF s f v).lines = s.lines := rfl
@[simp] theorem setF_sfm (s : State) (f : Field) (v : Nat) : (setF s f v).sfm = s.sfm := rfl
@[simp] theorem setF_mrt (s : State) (f : Field) (v : Nat) : (setF s f v).mrt = s.mrt := rfl
@[simp] theorem setF_rfx (s : State) (f : Field) (v : Nat) : (setF s f v).rfx = s.rfx := rfl
@[simp] theorem setF_mfe (s : State) (f : Field) (v : Nat) : (setF s f v).mfe = s.mfe := rfl
@[simp] theorem setF_dch (s : State) (f : Field) (v : Nat) : (setF s f v).dch = s.dch := rfl
@[simp] theorem setF_lce (s : State) (f : Field) (v : Nat) : (setF s f v).lce = s.lce := rfl
@[simp] theorem setF_erf (s : State) (f : Field) (v : Nat) : (setF s f v).erf = s.erf := rfl
@[simp] theorem setF_mir (s : State) (f : Field) (v : Nat) : (setF s f v).mir = s.mir := rfl
@[simp] theorem setF_sec (s : State) (f : Field) (v : Nat) : (setF s f v).sec = s.sec := rfl
@[simp] theorem setF_nvm (s : State) (f : Field) (v : Nat) : (setF s f v).nvm = s.nvm := rfl
@[simp] theorem setF_mqf (s : State) (f : Field) (v : Nat) : (setF s f v).mqf = s.mqf := rfl
@[simp] theorem setF_hcp (s : State) (f : Field) (v : Nat) : (setF s f v).hcp = s.hcp := rfl
@[simp] theorem setF_drawn (s : State) (f : Field) (v : Nat) : (setF s f v).drawn = s.drawn := rfl
@[simp] theorem setF_pending (s : State) (f : Field) (v : Nat) : (setF s f v).pending = s.pending := rfl

@[simp] theorem setFlag_chip (s : State) (f : Field) : (setFlag s f).chip = s.chip := rfl
@[simp] theorem setFlag_sram (s : State) (f : Field) : (setFlag s f).sram = s.sram := rfl
@[simp] theorem setFlag_flash (s : State) (f : Field) : (setFlag s f).flash = s.flash := rfl
@[simp] theorem setFlag_pmu (s : State) (f : Field) : (setFlag s f).pmu = s.pmu := rfl
@[simp] theorem setFlag_tbu (s : State) (f : Field) : (setFlag s f).tbu = s.tbu := rfl
@[simp] theorem setFlag_lines (s : State) (f : Field) : (setFlag s f).lines = s.lines := rfl
@[simp] theorem setFlag_sfm (s : State) (f : Field) : (setFlag s f).sfm = s.sfm := rfl
@[simp] theorem setFlag_mrt (s : State) (f : Field) : (setFlag s f).mrt = s.mrt := rfl
@[simp] theorem setFlag_rfx (s : State) (f : Field) : (setFlag s f).rfx = s.rfx := rfl
@[simp] theorem setFlag_mfe (s : State) (f : Field) : (setFlag s f).mfe = s.mfe := rfl
@[simp] theorem setFlag_dch (s : State) (f : Field) : (setFlag s f).dch = s.dch := rfl
@[simp] theorem setFlag_lce (s : State) (f : Field) : (setFlag s f).lce = s.lce := rfl
@[simp] theorem setFlag_erf (s : State) (f : Field) : (setFlag s f).erf = s.erf := rfl
@[simp] theorem setFlag_mir (s : State) (f : Field) : (setFlag s f).mir = s.mir := rfl
@[simp] theorem setFlag_sec (s : State) (f : Field) : (setFlag s f).sec = s.sec := rfl
@[simp] theorem setFlag_nvm (s : State) (f : Field) : (setFlag s f).nvm = s.nvm := rfl
@[simp] theorem setFlag_mqf (s : State) (f : Field) : (setFlag s f).mqf = s.mqf := rfl
@[simp] theorem setFlag_hcp (s : State) (f : Field) : (setFlag s f).hcp = s.hcp := rfl
@[simp] theorem setFlag_drawn (s : State) (f : Field) : (setFlag s f).drawn = s.drawn := rfl
@[simp] theorem setFlag_pending (s : State) (f : Field) : (setFlag s f).pending = s.pending := rfl

@[simp] theorem putFlag_chip (s : State) (f : Field) (b : Bool) : (putFlag s f b).chip = s.chip := rfl
@[simp] theorem putFlag_sram (s : State) (f : Field) (b : Bool) : (putFlag s f b).sram = s.sram := rfl
@[simp] theorem putFlag_flash (s : State) (f : Field) (b : Bool) : (putFlag s f b).flash = s.flash := rfl
@[simp] theorem putFlag_pmu (s : State) (f : Field) (b : Bool) : (putFlag s f b).pmu = s.pmu := rfl
@[simp] theorem putFlag_tbu (s : State) (f : Field) (b : Bool) : (putFlag s f b).tbu = s.tbu := rfl
@[simp] theorem putFlag_lines (s : State) (f : Field) (b : Bool) : (putFlag s f b).lines = s.lines := rfl
@[simp] theorem putFlag_sfm (s : State) (f : Field) (b : Bool) : (putFlag s f b).sfm = s.sfm := rfl
@[simp] theorem putFlag_mrt (s : State) (f : Field) (b : Bool) : (putFlag s f b).mrt = s.mrt := rfl
@[simp] theorem putFlag_rfx (s : State) (f : Field) (b : Bool) : (putFlag s f b).rfx = s.rfx := rfl
@[simp] theorem putFlag_mfe (s : State) (f : Field) (b : Bool) : (putFlag s f b).mfe = s.mfe := rfl
@[simp] theorem putFlag_dch (s : State) (f : Field) (b : Bool) : (putFlag s f b).dch = s.dch := rfl
@[simp] theorem putFlag_lce (s : State) (f : Field) (b : Bool) : (putFlag s f b).lce = s.lce := rfl
@[simp] theorem putFlag_erf (s : State) (f : Field) (b : Bool) : (putFlag s f b).erf = s.erf := rfl
@[simp] theorem putFlag_mir (s : State) (f : Field) (b : Bool) : (putFlag s f b).mir = s.mir := rfl
@[simp] theorem putFlag_sec (s : State) (f : Field) (b : Bool) : (putFlag s f b).sec = s.sec := rfl
@[simp] theorem putFlag_nvm (s : State) (f : Field) (b : Bool) : (putFlag s f b).nvm = s.nvm := rfl
@[simp] theorem putFlag_mqf (s : State) (f : Field) (b : Bool) : (putFlag s f b).mqf = s.mqf := rfl
@[simp] theorem putFlag_hcp (s : State) (f : Field) (b : Bool) : (putFlag s f b).hcp = s.hcp := rfl
@[simp] theorem putFlag_drawn (s : State) (f : Field) (b : Bool) : (putFlag s f b).drawn = s.drawn := rfl
@[simp] theorem putFlag_pending (s : State) (f : Field) (b : Bool) : (putFlag s f b).pending = s.pending := rfl

@[simp] theorem incBy_chip (s : State) (f : Field) (n : Nat) : (incBy s f n).chip = s.chip := rfl
@[simp] theorem incBy_sram (s : State) (f : Field) (n : Nat) : (incBy s f n).sram = s.sram := rfl
@[simp] theorem incBy_flash (s : State) (f : Field) (n : Nat) : (incBy s f n).flash = s.flash := rfl
@[simp] theorem incBy_pmu (s : State) (f : Field) (n : Nat) : (incBy s f n).pmu = s.pmu := rfl
@[simp] theorem incBy_tbu (s : State) (f : Field) (n : Nat) : (incBy s f n).tbu = s.tbu := rfl
@[simp] theorem incBy_lines (s : State) (f : Field) (n : Nat) : (incBy s f n).lines = s.lines := rfl
@[simp] theorem incBy_sfm (s : State) (f : Field) (n : Nat) : (incBy s f n).sfm = s.sfm := rfl
@[simp] theorem incBy_mrt (s : State) (f : Field) (n : Nat) : (incBy s f n).mrt = s.mrt := rfl
@[simp] theorem incBy_rfx (s : State) (f : Field) (n : Nat) : (incBy s f n).rfx = s.rfx := rfl
@[simp] theorem incBy_mfe (s : State) (f : Field) (n : Nat) : (incBy s f n).mfe = s.mfe := rfl
@[simp] theorem incBy_dch (s : State) (f : Field) (n : Nat) : (incBy s f n).dch = s.dch := rfl
@[simp] theorem incBy_lce (s : State) (f : Field) (n : Nat) : (incBy s f n).lce = s.lce := rfl
@[simp] theorem incBy_erf (s : State) (f : Field) (n : Nat) : (incBy s f n).erf = s.erf := rfl
@[simp] theorem incBy_mir (s : State) (f : Field) (n : Nat) : (incBy s f n).mir = s.mir := rfl
@[simp] theorem incBy_sec (s : State) (f : Field) (n : Nat) : (incBy s f n).sec = s.sec := rfl
@[simp] theorem incBy_nvm (s : State) (f : Field) (n : Nat) : (incBy s f n).nvm = s.nvm := rfl
@[simp] theorem incBy_mqf (s : State) (f : Field) (n : Nat) : (incBy s f n).mqf = s.mqf := rfl
@[simp] theorem incBy_hcp (s : State) (f : Field) (n : Nat) : (incBy s f n).hcp = s.hcp := rfl
@[simp] theorem incBy_drawn (s : State) (f : Field) (n : Nat) : (incBy s f n).drawn = s.drawn := rfl
@[simp] theorem incBy_pending (s : State) (f : Field) (n : Nat) : (incBy s f n).pending = s.pending := rfl

@[simp] theorem inc_chip (s : State) (f : Field) : (inc s f).chip = s.chip := rfl
@[simp] theorem inc_sram (s : State) (f : Field) : (inc s f).sram = s.sram := rfl
@[simp] theorem inc_flash (s : State) (f : Field) : (inc s f).flash = s.flash := rfl
@[simp] theorem inc_pmu (s : State) (f : Field) : (inc s f).pmu = s.pmu := rfl
@[simp] theorem inc_tbu (s : State) (f : Field) : (inc s f).tbu = s.tbu := rfl
@[simp] theorem inc_lines (s : State) (f : Field) : (inc s f).lines = s.lines := rfl
@[simp] theorem inc_sfm (s : State) (f : Field) : (inc s f).sfm = s.sfm := rfl
@[simp] theorem inc_mrt (s : State) (f : Field) : (inc s f).mrt = s.mrt := rfl
@[simp] theorem inc_rfx (s : State) (f : Field) : (inc s f).rfx = s.rfx := rfl
@[simp] theorem inc_mfe (s : State) (f : Field) : (inc s f).mfe = s.mfe := rfl
@[simp] theorem inc_dch (s : State) (f : Field) : (inc s f).dch = s.dch := rfl
@[simp] theorem inc_lce (s : State) (f : Field) : (inc s f).lce = s.lce := rfl
@[simp] theorem inc_erf (s : State) (f : Field) : (inc s f).erf = s.erf := rfl
@[simp] theorem inc_mir (s : State) (f : Field) : (inc s f).mir = s.mir := rfl
@[simp] theorem inc_sec (s : State) (f : Field) : (inc s f).sec = s.sec := rfl
@[simp] theorem inc_nvm (s : State) (f : Field) : (inc s f).nvm = s.nvm := rfl
@[simp] theorem inc_mqf (s : State) (f : Field) : (inc s f).mqf = s.mqf := rfl
@[simp] theorem inc_hcp (s : State) (f : Field) : (inc s f).hcp = s.hcp := rfl
@[simp] theorem inc_drawn (s : State) (f : Field) : (inc s f).drawn = s.drawn := rfl
@[simp] theorem inc_pending (s : State) (f : Field) : (inc s f).pending = s.pending := rfl

@[simp] theorem clearF_chip (s : State) (f : Field) : (clearF s f).chip = s.chip := rfl
@[simp] theorem clearF_sram (s : State) (f : Field) : (clearF s f).sram = s.sram := rfl
@[simp] theorem clearF_flash (s : State) (f : Field) : (clearF s f).flash = s.flash := rfl
@[simp] theorem clearF_pmu (s : State) (f : Field) : (clearF s f).pmu = s.pmu := rfl
@[simp] theorem clearF_tbu (s : State) (f : Field) : (clearF s f).tbu = s.tbu := rfl
@[simp] theorem clearF_lines (s : State) (f : Field) : (clearF s f).lines = s.lines := rfl
@[simp] theorem clearF_sfm (s : State) (f : Field) : (clearF s f).sfm = s.sfm := rfl
@[simp] theorem clearF_mrt (s : State) (f : Field) : (clearF s f).mrt = s.mrt := rfl
@[simp] theorem clearF_rfx (s : State) (f : Field) : (clearF s f).rfx = s.rfx := rfl
@[simp] theorem clearF_mfe (s : State) (f : Field) : (clearF s f).mfe = s.mfe := rfl
@[simp] theorem clearF_dch (s : State) (f : Field) : (clearF s f).dch = s.dch := rfl
@[simp] theorem clearF_lce (s : State) (f : Field) : (clearF s f).lce = s.lce := rfl
@[simp] theorem clearF_erf (s : State) (f : Field) : (clearF s f).erf = s.erf := rfl
@[simp] theorem clearF_mir (s : State) (f : Field) : (clearF s f).mir = s.mir := rfl
@[simp] theorem clearF_sec (s : State) (f : Field) : (clearF s f).sec = s.sec := rfl
@[simp] theorem clearF_nvm (s : State) (f : Field) : (clearF s f).nvm = s.nvm := rfl
@[simp] theorem clearF_mqf (s : State) (f : Field) : (clearF s f).mqf = s.mqf := rfl
@[simp] theorem clearF_hcp (s : State) (f : Field) : (clearF s f).hcp = s.hcp := rfl
@[simp] theorem clearF_drawn (s : State) (f : Field) : (clearF s f).drawn = s.drawn := rfl
@[simp] theorem clearF_pending (s : State) (f : Field) : (clearF s f).pending = s.pending := rfl

theorem memWrite_touch (s : State) (a : Nat) (b : Bytes) : Touch 51543539714 s (memWrite s a b) := touch_memWrite s a b (by decide) (.refl _ _)
@[simp] theorem memWrite_chip (s : State) (a : Nat) (b : Bytes) : (memWrite s a b).chip = s.chip := (touch_chip _ (memWrite_touch s a b)).out rfl
@[simp] theorem memWrite_flash (s : State) (a : Nat) (b : Bytes) : (memWrite s a b).flash = s.flash := (touch_flash _ (memWrite_touch s a b)).out rfl
@[simp] theorem memWrite_pmu (s : State) (a : Nat) (b : Bytes) : (memWrite s a b).pmu = s.pmu := (memWrite_touch s a b).pmu_out (by decide)
@[simp] theorem memWrite_tbu (s : State) (a : Nat) (b : Bytes) : (memWrite s a b).tbu = s.tbu := (memWrite_touch s a b).tbu_out (by decide)
@[simp] theorem memWrite_lines (s : State) (a : Nat) (b : Bytes) : (memWrite s a b).lines = s.lines := (touch_lines _ (memWrite_touch s a b)).out rfl
@[simp] theorem memWrite_sfm (s : State) (a : Nat) (b : Bytes) : (memWrite s a b).sfm = s.sfm := (touch_sfm _ (memWrite_touch s a b)).out rfl
@[simp] theorem memWrite_mrt (s : State) (a : Nat) (b : Bytes) : (memWrite s a b).mrt = s.mrt := (touch_mrt _ (memWrite_touch s a b)).out rfl
@[simp] theorem memWrite_rfx (s : State) (a : Nat) (b : Bytes) : (memWrite s a b).rfx = s.rfx := (touch_rfx _ (memWrite_touch s a b)).out rfl
@[simp] theorem memWrite_mfe (s : State) (a : Nat) (b : Bytes) : (memWrite s a b).mfe = s.mfe := (touch_mfe _ (memWrite_touch s a b)).out rfl
@[simp] theorem memWrite_dch (s : State) (a : Nat) (b : Bytes) : (memWrite s a b).dch = s.dch := (touch_dch _ (memWrite_touch s a b)).out rfl
@[simp] theorem memWrite_lce (s : State) (a : Nat) (b : Bytes) : (memWrite s a b).lce = s.lce := (touch_lce _ (memWrite_touch s a b)).out rfl
@[simp] theorem memWrite_erf (s : State) (a : Nat) (b : Bytes) : (memWrite s a b).erf = s.erf := (touch_erf _ (memWrite_touch s a b)).out rfl
@[simp] theorem memWrite_mir (s : State) (a : Nat) (b : Bytes) : (memWrite s a b).mir = s.mir := (touch_mir _ (memWrite_touch s a b)).out rfl
@[simp] theorem memWrite_sec (s : State) (a : Nat) (b : Bytes) : (memWrite s a b).sec = s.sec := (touch_sec _ (memWrite_touch s a b)).out rfl
@[simp] theorem memWrite_nvm (s : State) (a : Nat) (b : Bytes) : (memWrite s a b).nvm = s.nvm := (touch_nvm _ (memWrite_touch s a b)).out rfl
@[simp] theorem memWrite_drawn (s : State) (a : Nat) (b : Bytes) : (memWrite s a b).drawn = s.drawn := (touch_drawn _ (memWrite_touch s a b)).out rfl

theorem memPut_touch (s : State) (a n v : Nat) : Touch 51543539714 s (memPut s a n v) := touch_memPut s a n v (by decide) (.refl _ _)
@[simp] theorem memPut_chip (s : State) (a n v : Nat) : (memPut s a n v).chip = s.chip := (touch_chip _ (memPut_touch s a n v)).out rfl
@[simp] theorem memPut_flash (s : State) (a n v : Nat) : (memPut s a n v).flash = s.flash := (touch_flash _ (memPut_touch s a n v)).out rfl
@[simp] theorem memPut_pmu (s : State) (a n v : Nat) : (memPut s a n v).pmu = s.pmu := (memPut_touch s a n v).pmu_out (by decide)
@[simp] theorem memPut_tbu (s : State) (a n v : Nat) : (memPut s a n v).tbu = s.tbu := (memPut_touch s a n v).tbu_out (by decide)
@[simp] theorem memPut_lines (s : State) (a n v : Nat) : (memPut s a n v).lines = s.lines := (touch_lines _ (memPut_touch s a n v)).out rfl
@[simp] theorem memPut_sfm (s : State) (a n v : Nat) : (memPut s a n v).sfm = s.sfm := (touch_sfm _ (memPut_touch s a n v)).out rfl
@[simp] theorem memPut_mrt (s : State) (a n v : Nat) : (memPut s a n v).mrt = s.mrt := (touch_mrt _ (memPut_touch s a n v)).out rfl
@[simp] theorem memPut_rfx (s : State) (a n v : Nat) : (memPut s a n v).rfx = s.rfx := (touch_rfx _ (memPut_touch s a n v)).out rfl
@[simp] theorem memPut_mfe (s : State) (a n v : Nat) : (memPut s a n v).mfe = s.mfe := (touch_mfe _ (memPut_touch s a n v)).out rfl
@[simp] theorem memPut_dch (s : State) (a n v : Nat) : (memPut s a n v).dch = s.dch := (touch_dch _ (memPut_touch s a n v)).out rfl
@[simp] theorem memPut_lce (s : State) (a n v : Nat) : (memPut s a n v).lce = s.lce := (touch_lce _ (memPut_touch s a n v)).out rfl
@[simp] theorem memPut_erf (s : State) (a n v : Nat) : (memPut s a n v).erf = s.erf := (touch_erf _ (memPut_touch s a n v)).out rfl
@[simp] theorem memPut_mir (s : State) (a n v : Nat) : (memPut s a n v).mir = s.mir := (touch_mir _ (memPut_touch s a n v)).out rfl
@[simp] theorem memPut_sec (s : State) (a n v : Nat) : (memPut s a n v).sec = s.sec := (touch_sec _ (memPut_touch s a n v)).out rfl
@[simp] theorem memPut_nvm (s : State) (a n v : Nat) : (memPut s a n v).nvm = s.nvm := (touch_nvm _ (memPut_touch s a n v)).out rfl
@[simp] theorem memPut_drawn (s : State) (a n v : Nat) : (memPut s a n v).drawn = s.drawn := (touch_drawn _ (memPut_touch s a n v)).out rfl

theorem cSet_touch (s : State) (i : Nat) (f : CF) (v : Nat) : Touch 51543539714 s (cSet s i f v) := touch_cSet s i f v (by decide) (.refl _ _)
@[simp] theorem cSet_chip (s : State) (i : Nat) (f : CF) (v : Nat) : (cSet s i f v).chip = s.chip := (touch_chip _ (cSet_touch s i f v)).out rfl
@[simp] theorem cSet_flash (s : State) (i : Nat) (f : CF) (v : Nat) : (cSet s i f v).flash = s.flash := (touch_flash _ (cSet_touch s i f v)).out rfl
@[simp] theorem cSet_pmu (s : State) (i : Nat) (f : CF) (v : Nat) : (cSet s i f v).pmu = s.pmu := (cSet_touch s i f v).pmu_out (by decide)
@[simp] theorem cSet_tbu (s : State) (i : Nat) (f : CF) (v : Nat) : (cSet s i f v).tbu = s.tbu := (cSet_touch s i f v).tbu_out (by decide)
@[simp] theorem cSet_lines (s : State) (i : Nat) (f : CF) (v : Nat) : (cSet s i f v).lines = s.lines := (touch_lines _ (cSet_touch s i f v)).out rfl
@[simp] theorem cSet_sfm (s : State) (i : Nat) (f : CF) (v : Nat) : (cSet s i f v).sfm = s.sfm := (touch_sfm _ (cSet_touch s i f v)).out rfl
@[simp] theorem cSet_mrt (s : State) (i : Nat) (f : CF) (v : Nat) : (cSet s i f v).mrt = s.mrt := (touch_mrt _ (cSet_touch s i f v)).out rfl
@[simp] theorem cSet_rfx (s : State) (i : Nat) (f : CF) (v : Nat) : (cSet s i f v).rfx = s.rfx := (touch_rfx _ (cSet_touch s i f v)).out rfl
@[simp] theorem cSet_mfe (s : State) (i : Nat) (f : CF) (v : Nat) : (cSet s i f v).mfe = s.mfe := (touch_mfe _ (cSet_touch s i f v)).out rfl
@[simp] theorem cSet_dch (s : State) (i : Nat) (f : CF) (v : Nat) : (cSet s i f v).dch = s.dch := (touch_dch _ (cSet_touch s i f v)).out rfl
@[simp] theorem cSet_lce (s : State) (i : Nat) (f : CF) (v : Nat) : (cSet s i f v).lce = s.lce := (touch_lce _ (cSet_touch s i f v)).out rfl
@[simp] theorem cSet_erf (s : State) (i : Nat) (f : CF) (v : Nat) : (cSet s i f v).erf = s.erf := (touch_erf _ (cSet_touch s i f v)).out rfl
@[simp] theorem cSet_mir (s : State) (i : Nat) (f : CF) (v : Nat) : (cSet s i f v).mir = s.mir := (touch_mir _ (cSet_touch s i f v)).out rfl
@[simp] theorem cSet_sec (s : State) (i : Nat) (f : CF) (v : Nat) : (cSet s i f v).sec = s.sec := (touch_sec _ (cSet_touch s i f v)).out rfl
@[simp] theorem cSet_nvm (s : State) (i : Nat) (f : CF) (v : Nat) : (cSet s i f v).nvm = s.nvm := (touch_nvm _ (cSet_touch s i f v)).out rfl
@[simp] theorem cSet_drawn (s : State) (i : Nat) (f : CF) (v : Nat) : (cSet s i f v).drawn = s.drawn := (touch_drawn _ (cSet_touch s i f v)).out rfl

@[simp] theorem flashPut_chip (s : State) (a : Nat) (b : Bytes) : (flashPut s a b).chip = s.chip := rfl
@[simp] theorem flashPut_regs (s : State) (a : Nat) (b : Bytes) : (flashPut s a b).regs = s.regs := rfl
@[simp] theorem flashPut_sram (s : State) (a : Nat) (b : Bytes) : (flashPut s a b).sram = s.sram := rfl
@[simp] theorem flashPut_pmu (s : State) (a : Nat) (b : Bytes) : (flashPut s a b).pmu = s.pmu := rfl
@[simp] theorem flashPut_tbu (s : State) (a : Nat) (b : Bytes) : (flashPut s a b).tbu = s.tbu := rfl
@[simp] theorem flashPut_lines (s : State) (a : Nat) (b : Bytes) : (flashPut s a b).lines = s.lines := rfl
@[simp] theorem flashPut_sfm (s : State) (a : Nat) (b : Bytes) : (flashPut s a b).sfm = s.sfm := rfl
@[simp] theorem flashPut_mrt (s : State) (a : Nat) (b : Bytes) : (flashPut s a b).mrt = s.mrt := rfl
@[simp] theorem flashPut_rfx (s : State) (a : Nat) (b : Bytes) : (flashPut s a b).rfx = s.rfx := rfl
@[simp] theorem flashPut_mfe (s : State) (a : Nat) (b : Bytes) : (flashPut s a b).mfe = s.mfe := rfl
@[simp] theorem flashPut_dch (s : State) (a : Nat) (b : Bytes) : (flashPut s a b).dch = s.dch := rfl
@[simp] theorem flashPut_lce (s : State) (a : Nat) (b : Bytes) : (flashPut s a b).lce = s.lce := rfl
@[simp] theorem flashPut_erf (s : State) (a : Nat) (b : Bytes) : (flashPut s a b).erf = s.erf := rfl
@[simp] theorem flashPut_mir (s : State) (a : Nat) (b : Bytes) : (flashPut s a b).mir = s.mir := rfl
@[simp] theorem flashPut_sec (s : State) (a : Nat) (b : Bytes) : (flashPut s a b).sec = s.sec := rfl
@[simp] theorem flashPut_nvm (s : State) (a : Nat) (b : Bytes) : (flashPut s a b).nvm = s.nvm := rfl
@[simp] theorem flashPut_mqf (s : State) (a : Nat) (b : Bytes) : (flashPut s a b).mqf = s.mqf := rfl
@[simp] theorem flashPut_hcp (s : State) (a : Nat) (b : Bytes) : (flashPut s a b).hcp = s.hcp := rfl
@[simp] theorem flashPut_drawn (s : State) (a : Nat) (b : Bytes) : (flashPut s a b).drawn = s.drawn := rfl
@[simp] theorem flashPut_pending (s : State) (a : Nat) (b : Bytes) : (flashPut s a b).pending = s.pending := rfl

@[simp] theorem setLink_chip (s : State) (i : Nat) (l : Link) : (setLink s i l).chip = s.chip := rfl
@[simp] theorem setLink_regs (s : State) (i : Nat) (l : Link) : (setLink s i l).regs = s.regs := rfl
@[simp] theorem setLink_sram (s : State) (i : Nat) (l : Link) : (setLink s i l).sram = s.sram := rfl
@[simp] theorem setLink_flash (s : State) (i : Nat) (l : Link) : (setLink s i l).flash = s.flash := rfl
@[simp] theorem setLink_pmu (s : State) (i : Nat) (l : Link) : (setLink s i l).pmu = s.pmu := rfl
@[simp] theorem setLink_tbu (s : State) (i : Nat) (l : Link) : (setLink s i l).tbu = s.tbu := rfl
@[simp] theorem setLink_lines (s : State) (i : Nat) (l : Link) : (setLink s i l).lines = s.lines := rfl
@[simp] theorem setLink_mrt (s : State) (i : Nat) (l : Link) : (setLink s i l).mrt = s.mrt := rfl
@[simp] theorem setLink_rfx (s : State) (i : Nat) (l : Link) : (setLink s i l).rfx = s.rfx := rfl
@[simp] theorem setLink_mfe (s : State) (i : Nat) (l : Link) : (setLink s i l).mfe = s.mfe := rfl
@[simp] theorem setLink_dch (s : State) (i : Nat) (l : Link) : (setLink s i l).dch = s.dch := rfl
@[simp] theorem setLink_lce (s : State) (i : Nat) (l : Link) : (setLink s i l).lce = s.lce := rfl
@[simp] theorem setLink_erf (s : State) (i : Nat) (l : Link) : (setLink s i l).erf = s.erf := rfl
@[simp] theorem setLink_mir (s : State) (i : Nat) (l : Link) : (setLink s i l).mir = s.mir := rfl
@[simp] theorem setLink_sec (s : State) (i : Nat) (l : Link) : (setLink s i l).sec = s.sec := rfl
@[simp] theorem setLink_nvm (s : State) (i : Nat) (l : Link) : (setLink s i l).nvm = s.nvm := rfl
@[simp] theorem setLink_mqf (s : State) (i : Nat) (l : Link) : (setLink s i l).mqf = s.mqf := rfl
@[simp] theorem setLink_hcp (s : State) (i : Nat) (l : Link) : (setLink s i l).hcp = s.hcp := rfl
@[simp] theorem setLink_drawn (s : State) (i : Nat) (l : Link) : (setLink s i l).drawn = s.drawn := rfl
@[simp] theorem setLink_pending (s : State) (i : Nat) (l : Link) : (setLink s i l).pending = s.pending := rfl

@[simp] theorem setLine_chip (s : State) (n : Nat) (l : LinePort) : (setLine s n l).chip = s.chip := rfl
@[simp] theorem setLine_regs (s : State) (n : Nat) (l : LinePort) : (setLine s n l).regs = s.regs := rfl
@[simp] theorem setLine_sram (s : State) (n : Nat) (l : LinePort) : (setLine s n l).sram = s.sram := rfl
@[simp] theorem setLine_flash (s : State) (n : Nat) (l : LinePort) : (setLine s n l).flash = s.flash := rfl
@[simp] theorem setLine_pmu (s : State) (n : Nat) (l : LinePort) : (setLine s n l).pmu = s.pmu := rfl
@[simp] theorem setLine_tbu (s : State) (n : Nat) (l : LinePort) : (setLine s n l).tbu = s.tbu := rfl
@[simp] theorem setLine_sfm (s : State) (n : Nat) (l : LinePort) : (setLine s n l).sfm = s.sfm := rfl
@[simp] theorem setLine_mrt (s : State) (n : Nat) (l : LinePort) : (setLine s n l).mrt = s.mrt := rfl
@[simp] theorem setLine_rfx (s : State) (n : Nat) (l : LinePort) : (setLine s n l).rfx = s.rfx := rfl
@[simp] theorem setLine_mfe (s : State) (n : Nat) (l : LinePort) : (setLine s n l).mfe = s.mfe := rfl
@[simp] theorem setLine_dch (s : State) (n : Nat) (l : LinePort) : (setLine s n l).dch = s.dch := rfl
@[simp] theorem setLine_lce (s : State) (n : Nat) (l : LinePort) : (setLine s n l).lce = s.lce := rfl
@[simp] theorem setLine_erf (s : State) (n : Nat) (l : LinePort) : (setLine s n l).erf = s.erf := rfl
@[simp] theorem setLine_mir (s : State) (n : Nat) (l : LinePort) : (setLine s n l).mir = s.mir := rfl
@[simp] theorem setLine_sec (s : State) (n : Nat) (l : LinePort) : (setLine s n l).sec = s.sec := rfl
@[simp] theorem setLine_nvm (s : State) (n : Nat) (l : LinePort) : (setLine s n l).nvm = s.nvm := rfl
@[simp] theorem setLine_mqf (s : State) (n : Nat) (l : LinePort) : (setLine s n l).mqf = s.mqf := rfl
@[simp] theorem setLine_hcp (s : State) (n : Nat) (l : LinePort) : (setLine s n l).hcp = s.hcp := rfl
@[simp] theorem setLine_drawn (s : State) (n : Nat) (l : LinePort) : (setLine s n l).drawn = s.drawn := rfl
@[simp] theorem setLine_pending (s : State) (n : Nat) (l : LinePort) : (setLine s n l).pending = s.pending := rfl

@[simp] theorem setHport_chip (s : State) (n : Nat) (p : PortState) : (setHport s n p).chip = s.chip := rfl
@[simp] theorem setHport_regs (s : State) (n : Nat) (p : PortState) : (setHport s n p).regs = s.regs := rfl
@[simp] theorem setHport_sram (s : State) (n : Nat) (p : PortState) : (setHport s n p).sram = s.sram := rfl
@[simp] theorem setHport_flash (s : State) (n : Nat) (p : PortState) : (setHport s n p).flash = s.flash := rfl
@[simp] theorem setHport_pmu (s : State) (n : Nat) (p : PortState) : (setHport s n p).pmu = s.pmu := rfl
@[simp] theorem setHport_tbu (s : State) (n : Nat) (p : PortState) : (setHport s n p).tbu = s.tbu := rfl
@[simp] theorem setHport_lines (s : State) (n : Nat) (p : PortState) : (setHport s n p).lines = s.lines := rfl
@[simp] theorem setHport_sfm (s : State) (n : Nat) (p : PortState) : (setHport s n p).sfm = s.sfm := rfl
@[simp] theorem setHport_mrt (s : State) (n : Nat) (p : PortState) : (setHport s n p).mrt = s.mrt := rfl
@[simp] theorem setHport_rfx (s : State) (n : Nat) (p : PortState) : (setHport s n p).rfx = s.rfx := rfl
@[simp] theorem setHport_mfe (s : State) (n : Nat) (p : PortState) : (setHport s n p).mfe = s.mfe := rfl
@[simp] theorem setHport_dch (s : State) (n : Nat) (p : PortState) : (setHport s n p).dch = s.dch := rfl
@[simp] theorem setHport_lce (s : State) (n : Nat) (p : PortState) : (setHport s n p).lce = s.lce := rfl
@[simp] theorem setHport_erf (s : State) (n : Nat) (p : PortState) : (setHport s n p).erf = s.erf := rfl
@[simp] theorem setHport_mir (s : State) (n : Nat) (p : PortState) : (setHport s n p).mir = s.mir := rfl
@[simp] theorem setHport_sec (s : State) (n : Nat) (p : PortState) : (setHport s n p).sec = s.sec := rfl
@[simp] theorem setHport_nvm (s : State) (n : Nat) (p : PortState) : (setHport s n p).nvm = s.nvm := rfl
@[simp] theorem setHport_mqf (s : State) (n : Nat) (p : PortState) : (setHport s n p).mqf = s.mqf := rfl
@[simp] theorem setHport_drawn (s : State) (n : Nat) (p : PortState) : (setHport s n p).drawn = s.drawn := rfl
@[simp] theorem setHport_pending (s : State) (n : Nat) (p : PortState) : (setHport s n p).pending = s.pending := rfl

@[simp] theorem setQueue_chip (s : State) (i : Nat) (q : Queue) : (setQueue s i q).chip = s.chip := rfl
@[simp] theorem setQueue_regs (s : State) (i : Nat) (q : Queue) : (setQueue s i q).regs = s.regs := rfl
@[simp] theorem setQueue_sram (s : State) (i : Nat) (q : Queue) : (setQueue s i q).sram = s.sram := rfl
@[simp] theorem setQueue_flash (s : State) (i : Nat) (q : Queue) : (setQueue s i q).flash = s.flash := rfl
@[simp] theorem setQueue_pmu (s : State) (i : Nat) (q : Queue) : (setQueue s i q).pmu = s.pmu := rfl
@[simp] theorem setQueue_tbu (s : State) (i : Nat) (q : Queue) : (setQueue s i q).tbu = s.tbu := rfl
@[simp] theorem setQueue_lines (s : State) (i : Nat) (q : Queue) : (setQueue s i q).lines = s.lines := rfl
@[simp] theorem setQueue_sfm (s : State) (i : Nat) (q : Queue) : (setQueue s i q).sfm = s.sfm := rfl
@[simp] theorem setQueue_mrt (s : State) (i : Nat) (q : Queue) : (setQueue s i q).mrt = s.mrt := rfl
@[simp] theorem setQueue_rfx (s : State) (i : Nat) (q : Queue) : (setQueue s i q).rfx = s.rfx := rfl
@[simp] theorem setQueue_mfe (s : State) (i : Nat) (q : Queue) : (setQueue s i q).mfe = s.mfe := rfl
@[simp] theorem setQueue_dch (s : State) (i : Nat) (q : Queue) : (setQueue s i q).dch = s.dch := rfl
@[simp] theorem setQueue_lce (s : State) (i : Nat) (q : Queue) : (setQueue s i q).lce = s.lce := rfl
@[simp] theorem setQueue_erf (s : State) (i : Nat) (q : Queue) : (setQueue s i q).erf = s.erf := rfl
@[simp] theorem setQueue_mir (s : State) (i : Nat) (q : Queue) : (setQueue s i q).mir = s.mir := rfl
@[simp] theorem setQueue_sec (s : State) (i : Nat) (q : Queue) : (setQueue s i q).sec = s.sec := rfl
@[simp] theorem setQueue_nvm (s : State) (i : Nat) (q : Queue) : (setQueue s i q).nvm = s.nvm := rfl
@[simp] theorem setQueue_hcp (s : State) (i : Nat) (q : Queue) : (setQueue s i q).hcp = s.hcp := rfl
@[simp] theorem setQueue_drawn (s : State) (i : Nat) (q : Queue) : (setQueue s i q).drawn = s.drawn := rfl
@[simp] theorem setQueue_pending (s : State) (i : Nat) (q : Queue) : (setQueue s i q).pending = s.pending := rfl

@[simp] theorem setDet_chip (s : State) (n : Nat) (d : Detector) : (setDet s n d).chip = s.chip := rfl
@[simp] theorem setDet_regs (s : State) (n : Nat) (d : Detector) : (setDet s n d).regs = s.regs := rfl
@[simp] theorem setDet_sram (s : State) (n : Nat) (d : Detector) : (setDet s n d).sram = s.sram := rfl
@[simp] theorem setDet_flash (s : State) (n : Nat) (d : Detector) : (setDet s n d).flash = s.flash := rfl
@[simp] theorem setDet_pmu (s : State) (n : Nat) (d : Detector) : (setDet s n d).pmu = s.pmu := rfl
@[simp] theorem setDet_lines (s : State) (n : Nat) (d : Detector) : (setDet s n d).lines = s.lines := rfl
@[simp] theorem setDet_sfm (s : State) (n : Nat) (d : Detector) : (setDet s n d).sfm = s.sfm := rfl
@[simp] theorem setDet_mrt (s : State) (n : Nat) (d : Detector) : (setDet s n d).mrt = s.mrt := rfl
@[simp] theorem setDet_rfx (s : State) (n : Nat) (d : Detector) : (setDet s n d).rfx = s.rfx := rfl
@[simp] theorem setDet_mfe (s : State) (n : Nat) (d : Detector) : (setDet s n d).mfe = s.mfe := rfl
@[simp] theorem setDet_dch (s : State) (n : Nat) (d : Detector) : (setDet s n d).dch = s.dch := rfl
@[simp] theorem setDet_lce (s : State) (n : Nat) (d : Detector) : (setDet s n d).lce = s.lce := rfl
@[simp] theorem setDet_erf (s : State) (n : Nat) (d : Detector) : (setDet s n d).erf = s.erf := rfl
@[simp] theorem setDet_mir (s : State) (n : Nat) (d : Detector) : (setDet s n d).mir = s.mir := rfl
@[simp] theorem setDet_sec (s : State) (n : Nat) (d : Detector) : (setDet s n d).sec = s.sec := rfl
@[simp] theorem setDet_nvm (s : State) (n : Nat) (d : Detector) : (setDet s n d).nvm = s.nvm := rfl
@[simp] theorem setDet_mqf (s : State) (n : Nat) (d : Detector) : (setDet s n d).mqf = s.mqf := rfl
@[simp] theorem setDet_hcp (s : State) (n : Nat) (d : Detector) : (setDet s n d).hcp = s.hcp := rfl
@[simp] theorem setDet_drawn (s : State) (n : Nat) (d : Detector) : (setDet s n d).drawn = s.drawn := rfl
@[simp] theorem setDet_pending (s : State) (n : Nat) (d : Detector) : (setDet s n d).pending = s.pending := rfl

@[simp] theorem draw_fst (s : State) : (draw s).1 = Config.free s.drawn := rfl
@[simp] theorem draw_drawn (s : State) : (draw s).2.drawn = s.drawn + 1 := rfl
@[simp] theorem draw_chip (s : State) : (draw s).2.chip = s.chip := rfl
@[simp] theorem draw_regs (s : State) : (draw s).2.regs = s.regs := rfl
@[simp] theorem draw_sram (s : State) : (draw s).2.sram = s.sram := rfl
@[simp] theorem draw_flash (s : State) : (draw s).2.flash = s.flash := rfl
@[simp] theorem draw_pmu (s : State) : (draw s).2.pmu = s.pmu := rfl
@[simp] theorem draw_tbu (s : State) : (draw s).2.tbu = s.tbu := rfl
@[simp] theorem draw_lines (s : State) : (draw s).2.lines = s.lines := rfl
@[simp] theorem draw_sfm (s : State) : (draw s).2.sfm = s.sfm := rfl
@[simp] theorem draw_mrt (s : State) : (draw s).2.mrt = s.mrt := rfl
@[simp] theorem draw_rfx (s : State) : (draw s).2.rfx = s.rfx := rfl
@[simp] theorem draw_mfe (s : State) : (draw s).2.mfe = s.mfe := rfl
@[simp] theorem draw_dch (s : State) : (draw s).2.dch = s.dch := rfl
@[simp] theorem draw_lce (s : State) : (draw s).2.lce = s.lce := rfl
@[simp] theorem draw_erf (s : State) : (draw s).2.erf = s.erf := rfl
@[simp] theorem draw_sec (s : State) : (draw s).2.sec = s.sec := rfl
@[simp] theorem draw_nvm (s : State) : (draw s).2.nvm = s.nvm := rfl
@[simp] theorem draw_mqf (s : State) : (draw s).2.mqf = s.mqf := rfl
@[simp] theorem draw_hcp (s : State) : (draw s).2.hcp = s.hcp := rfl
@[simp] theorem draw_pending (s : State) : (draw s).2.pending = s.pending := rfl

@[simp] theorem setChan_chip (s : State) (c : Nat) (x : Chan) : (setChan s c x).chip = s.chip := rfl
@[simp] theorem setChan_regs (s : State) (c : Nat) (x : Chan) : (setChan s c x).regs = s.regs := rfl
@[simp] theorem setChan_sram (s : State) (c : Nat) (x : Chan) : (setChan s c x).sram = s.sram := rfl
@[simp] theorem setChan_flash (s : State) (c : Nat) (x : Chan) : (setChan s c x).flash = s.flash := rfl
@[simp] theorem setChan_pmu (s : State) (c : Nat) (x : Chan) : (setChan s c x).pmu = s.pmu := rfl
@[simp] theorem setChan_tbu (s : State) (c : Nat) (x : Chan) : (setChan s c x).tbu = s.tbu := rfl
@[simp] theorem setChan_lines (s : State) (c : Nat) (x : Chan) : (setChan s c x).lines = s.lines := rfl
@[simp] theorem setChan_sfm (s : State) (c : Nat) (x : Chan) : (setChan s c x).sfm = s.sfm := rfl
@[simp] theorem setChan_mrt (s : State) (c : Nat) (x : Chan) : (setChan s c x).mrt = s.mrt := rfl
@[simp] theorem setChan_rfx (s : State) (c : Nat) (x : Chan) : (setChan s c x).rfx = s.rfx := rfl
@[simp] theorem setChan_mfe (s : State) (c : Nat) (x : Chan) : (setChan s c x).mfe = s.mfe := rfl
@[simp] theorem setChan_lce (s : State) (c : Nat) (x : Chan) : (setChan s c x).lce = s.lce := rfl
@[simp] theorem setChan_erf (s : State) (c : Nat) (x : Chan) : (setChan s c x).erf = s.erf := rfl
@[simp] theorem setChan_mir (s : State) (c : Nat) (x : Chan) : (setChan s c x).mir = s.mir := rfl
@[simp] theorem setChan_sec (s : State) (c : Nat) (x : Chan) : (setChan s c x).sec = s.sec := rfl
@[simp] theorem setChan_nvm (s : State) (c : Nat) (x : Chan) : (setChan s c x).nvm = s.nvm := rfl
@[simp] theorem setChan_mqf (s : State) (c : Nat) (x : Chan) : (setChan s c x).mqf = s.mqf := rfl
@[simp] theorem setChan_hcp (s : State) (c : Nat) (x : Chan) : (setChan s c x).hcp = s.hcp := rfl
@[simp] theorem setChan_drawn (s : State) (c : Nat) (x : Chan) : (setChan s c x).drawn = s.drawn := rfl
@[simp] theorem setChan_pending (s : State) (c : Nat) (x : Chan) : (setChan s c x).pending = s.pending := rfl

@[simp] theorem setTap_chip (s : State) (c : Nat) (x : Tap) : (setTap s c x).chip = s.chip := rfl
@[simp] theorem setTap_regs (s : State) (c : Nat) (x : Tap) : (setTap s c x).regs = s.regs := rfl
@[simp] theorem setTap_sram (s : State) (c : Nat) (x : Tap) : (setTap s c x).sram = s.sram := rfl
@[simp] theorem setTap_flash (s : State) (c : Nat) (x : Tap) : (setTap s c x).flash = s.flash := rfl
@[simp] theorem setTap_pmu (s : State) (c : Nat) (x : Tap) : (setTap s c x).pmu = s.pmu := rfl
@[simp] theorem setTap_tbu (s : State) (c : Nat) (x : Tap) : (setTap s c x).tbu = s.tbu := rfl
@[simp] theorem setTap_lines (s : State) (c : Nat) (x : Tap) : (setTap s c x).lines = s.lines := rfl
@[simp] theorem setTap_sfm (s : State) (c : Nat) (x : Tap) : (setTap s c x).sfm = s.sfm := rfl
@[simp] theorem setTap_mrt (s : State) (c : Nat) (x : Tap) : (setTap s c x).mrt = s.mrt := rfl
@[simp] theorem setTap_rfx (s : State) (c : Nat) (x : Tap) : (setTap s c x).rfx = s.rfx := rfl
@[simp] theorem setTap_mfe (s : State) (c : Nat) (x : Tap) : (setTap s c x).mfe = s.mfe := rfl
@[simp] theorem setTap_lce (s : State) (c : Nat) (x : Tap) : (setTap s c x).lce = s.lce := rfl
@[simp] theorem setTap_erf (s : State) (c : Nat) (x : Tap) : (setTap s c x).erf = s.erf := rfl
@[simp] theorem setTap_mir (s : State) (c : Nat) (x : Tap) : (setTap s c x).mir = s.mir := rfl
@[simp] theorem setTap_sec (s : State) (c : Nat) (x : Tap) : (setTap s c x).sec = s.sec := rfl
@[simp] theorem setTap_nvm (s : State) (c : Nat) (x : Tap) : (setTap s c x).nvm = s.nvm := rfl
@[simp] theorem setTap_mqf (s : State) (c : Nat) (x : Tap) : (setTap s c x).mqf = s.mqf := rfl
@[simp] theorem setTap_hcp (s : State) (c : Nat) (x : Tap) : (setTap s c x).hcp = s.hcp := rfl
@[simp] theorem setTap_drawn (s : State) (c : Nat) (x : Tap) : (setTap s c x).drawn = s.drawn := rfl
@[simp] theorem setTap_pending (s : State) (c : Nat) (x : Tap) : (setTap s c x).pending = s.pending := rfl

@[simp] theorem setDetSlot_chip (s : State) (d : Nat) (x : DetSlot) : (setDetSlot s d x).chip = s.chip := rfl
@[simp] theorem setDetSlot_regs (s : State) (d : Nat) (x : DetSlot) : (setDetSlot s d x).regs = s.regs := rfl
@[simp] theorem setDetSlot_sram (s : State) (d : Nat) (x : DetSlot) : (setDetSlot s d x).sram = s.sram := rfl
@[simp] theorem setDetSlot_flash (s : State) (d : Nat) (x : DetSlot) : (setDetSlot s d x).flash = s.flash := rfl
@[simp] theorem setDetSlot_pmu (s : State) (d : Nat) (x : DetSlot) : (setDetSlot s d x).pmu = s.pmu := rfl
@[simp] theorem setDetSlot_tbu (s : State) (d : Nat) (x : DetSlot) : (setDetSlot s d x).tbu = s.tbu := rfl
@[simp] theorem setDetSlot_lines (s : State) (d : Nat) (x : DetSlot) : (setDetSlot s d x).lines = s.lines := rfl
@[simp] theorem setDetSlot_sfm (s : State) (d : Nat) (x : DetSlot) : (setDetSlot s d x).sfm = s.sfm := rfl
@[simp] theorem setDetSlot_mrt (s : State) (d : Nat) (x : DetSlot) : (setDetSlot s d x).mrt = s.mrt := rfl
@[simp] theorem setDetSlot_rfx (s : State) (d : Nat) (x : DetSlot) : (setDetSlot s d x).rfx = s.rfx := rfl
@[simp] theorem setDetSlot_mfe (s : State) (d : Nat) (x : DetSlot) : (setDetSlot s d x).mfe = s.mfe := rfl
@[simp] theorem setDetSlot_lce (s : State) (d : Nat) (x : DetSlot) : (setDetSlot s d x).lce = s.lce := rfl
@[simp] theorem setDetSlot_erf (s : State) (d : Nat) (x : DetSlot) : (setDetSlot s d x).erf = s.erf := rfl
@[simp] theorem setDetSlot_mir (s : State) (d : Nat) (x : DetSlot) : (setDetSlot s d x).mir = s.mir := rfl
@[simp] theorem setDetSlot_sec (s : State) (d : Nat) (x : DetSlot) : (setDetSlot s d x).sec = s.sec := rfl
@[simp] theorem setDetSlot_nvm (s : State) (d : Nat) (x : DetSlot) : (setDetSlot s d x).nvm = s.nvm := rfl
@[simp] theorem setDetSlot_mqf (s : State) (d : Nat) (x : DetSlot) : (setDetSlot s d x).mqf = s.mqf := rfl
@[simp] theorem setDetSlot_hcp (s : State) (d : Nat) (x : DetSlot) : (setDetSlot s d x).hcp = s.hcp := rfl
@[simp] theorem setDetSlot_drawn (s : State) (d : Nat) (x : DetSlot) : (setDetSlot s d x).drawn = s.drawn := rfl
@[simp] theorem setDetSlot_pending (s : State) (d : Nat) (x : DetSlot) : (setDetSlot s d x).pending = s.pending := rfl

@[simp] theorem setAgg_chip (s : State) (c : Nat) (a : Agg) : (setAgg s c a).chip = s.chip := rfl
@[simp] theorem setAgg_regs (s : State) (c : Nat) (a : Agg) : (setAgg s c a).regs = s.regs := rfl
@[simp] theorem setAgg_sram (s : State) (c : Nat) (a : Agg) : (setAgg s c a).sram = s.sram := rfl
@[simp] theorem setAgg_flash (s : State) (c : Nat) (a : Agg) : (setAgg s c a).flash = s.flash := rfl
@[simp] theorem setAgg_pmu (s : State) (c : Nat) (a : Agg) : (setAgg s c a).pmu = s.pmu := rfl
@[simp] theorem setAgg_tbu (s : State) (c : Nat) (a : Agg) : (setAgg s c a).tbu = s.tbu := rfl
@[simp] theorem setAgg_lines (s : State) (c : Nat) (a : Agg) : (setAgg s c a).lines = s.lines := rfl
@[simp] theorem setAgg_sfm (s : State) (c : Nat) (a : Agg) : (setAgg s c a).sfm = s.sfm := rfl
@[simp] theorem setAgg_mrt (s : State) (c : Nat) (a : Agg) : (setAgg s c a).mrt = s.mrt := rfl
@[simp] theorem setAgg_rfx (s : State) (c : Nat) (a : Agg) : (setAgg s c a).rfx = s.rfx := rfl
@[simp] theorem setAgg_mfe (s : State) (c : Nat) (a : Agg) : (setAgg s c a).mfe = s.mfe := rfl
@[simp] theorem setAgg_lce (s : State) (c : Nat) (a : Agg) : (setAgg s c a).lce = s.lce := rfl
@[simp] theorem setAgg_erf (s : State) (c : Nat) (a : Agg) : (setAgg s c a).erf = s.erf := rfl
@[simp] theorem setAgg_mir (s : State) (c : Nat) (a : Agg) : (setAgg s c a).mir = s.mir := rfl
@[simp] theorem setAgg_sec (s : State) (c : Nat) (a : Agg) : (setAgg s c a).sec = s.sec := rfl
@[simp] theorem setAgg_nvm (s : State) (c : Nat) (a : Agg) : (setAgg s c a).nvm = s.nvm := rfl
@[simp] theorem setAgg_mqf (s : State) (c : Nat) (a : Agg) : (setAgg s c a).mqf = s.mqf := rfl
@[simp] theorem setAgg_hcp (s : State) (c : Nat) (a : Agg) : (setAgg s c a).hcp = s.hcp := rfl
@[simp] theorem setAgg_drawn (s : State) (c : Nat) (a : Agg) : (setAgg s c a).drawn = s.drawn := rfl
@[simp] theorem setAgg_pending (s : State) (c : Nat) (a : Agg) : (setAgg s c a).pending = s.pending := rfl

@[simp] theorem modGal_chip (s : State) (f : Gallery → Gallery) : (modGal s f).chip = s.chip := rfl
@[simp] theorem modGal_regs (s : State) (f : Gallery → Gallery) : (modGal s f).regs = s.regs := rfl
@[simp] theorem modGal_sram (s : State) (f : Gallery → Gallery) : (modGal s f).sram = s.sram := rfl
@[simp] theorem modGal_flash (s : State) (f : Gallery → Gallery) : (modGal s f).flash = s.flash := rfl
@[simp] theorem modGal_pmu (s : State) (f : Gallery → Gallery) : (modGal s f).pmu = s.pmu := rfl
@[simp] theorem modGal_tbu (s : State) (f : Gallery → Gallery) : (modGal s f).tbu = s.tbu := rfl
@[simp] theorem modGal_lines (s : State) (f : Gallery → Gallery) : (modGal s f).lines = s.lines := rfl
@[simp] theorem modGal_sfm (s : State) (f : Gallery → Gallery) : (modGal s f).sfm = s.sfm := rfl
@[simp] theorem modGal_mrt (s : State) (f : Gallery → Gallery) : (modGal s f).mrt = s.mrt := rfl
@[simp] theorem modGal_rfx (s : State) (f : Gallery → Gallery) : (modGal s f).rfx = s.rfx := rfl
@[simp] theorem modGal_mfe (s : State) (f : Gallery → Gallery) : (modGal s f).mfe = s.mfe := rfl
@[simp] theorem modGal_lce (s : State) (f : Gallery → Gallery) : (modGal s f).lce = s.lce := rfl
@[simp] theorem modGal_erf (s : State) (f : Gallery → Gallery) : (modGal s f).erf = s.erf := rfl
@[simp] theorem modGal_mir (s : State) (f : Gallery → Gallery) : (modGal s f).mir = s.mir := rfl
@[simp] theorem modGal_sec (s : State) (f : Gallery → Gallery) : (modGal s f).sec = s.sec := rfl
@[simp] theorem modGal_nvm (s : State) (f : Gallery → Gallery) : (modGal s f).nvm = s.nvm := rfl
@[simp] theorem modGal_mqf (s : State) (f : Gallery → Gallery) : (modGal s f).mqf = s.mqf := rfl
@[simp] theorem modGal_hcp (s : State) (f : Gallery → Gallery) : (modGal s f).hcp = s.hcp := rfl
@[simp] theorem modGal_drawn (s : State) (f : Gallery → Gallery) : (modGal s f).drawn = s.drawn := rfl
@[simp] theorem modGal_pending (s : State) (f : Gallery → Gallery) : (modGal s f).pending = s.pending := rfl

@[simp] theorem keepPast_chip (s : State) : (keepPast s).chip = s.chip := rfl
@[simp] theorem keepPast_regs (s : State) : (keepPast s).regs = s.regs := rfl
@[simp] theorem keepPast_sram (s : State) : (keepPast s).sram = s.sram := rfl
@[simp] theorem keepPast_flash (s : State) : (keepPast s).flash = s.flash := rfl
@[simp] theorem keepPast_pmu (s : State) : (keepPast s).pmu = s.pmu := rfl
@[simp] theorem keepPast_tbu (s : State) : (keepPast s).tbu = s.tbu := rfl
@[simp] theorem keepPast_lines (s : State) : (keepPast s).lines = s.lines := rfl
@[simp] theorem keepPast_sfm (s : State) : (keepPast s).sfm = s.sfm := rfl
@[simp] theorem keepPast_mrt (s : State) : (keepPast s).mrt = s.mrt := rfl
@[simp] theorem keepPast_rfx (s : State) : (keepPast s).rfx = s.rfx := rfl
@[simp] theorem keepPast_mfe (s : State) : (keepPast s).mfe = s.mfe := rfl
@[simp] theorem keepPast_lce (s : State) : (keepPast s).lce = s.lce := rfl
@[simp] theorem keepPast_erf (s : State) : (keepPast s).erf = s.erf := rfl
@[simp] theorem keepPast_mir (s : State) : (keepPast s).mir = s.mir := rfl
@[simp] theorem keepPast_sec (s : State) : (keepPast s).sec = s.sec := rfl
@[simp] theorem keepPast_nvm (s : State) : (keepPast s).nvm = s.nvm := rfl
@[simp] theorem keepPast_mqf (s : State) : (keepPast s).mqf = s.mqf := rfl
@[simp] theorem keepPast_hcp (s : State) : (keepPast s).hcp = s.hcp := rfl
@[simp] theorem keepPast_drawn (s : State) : (keepPast s).drawn = s.drawn := rfl
@[simp] theorem keepPast_pending (s : State) : (keepPast s).pending = s.pending := rfl

@[simp] theorem setAct_chip (s : State) (i : Nat) (a : Act) : (setAct s i a).chip = s.chip := rfl
@[simp] theorem setAct_regs (s : State) (i : Nat) (a : Act) : (setAct s i a).regs = s.regs := rfl
@[simp] theorem setAct_sram (s : State) (i : Nat) (a : Act) : (setAct s i a).sram = s.sram := rfl
@[simp] theorem setAct_flash (s : State) (i : Nat) (a : Act) : (setAct s i a).flash = s.flash := rfl
@[simp] theorem setAct_pmu (s : State) (i : Nat) (a : Act) : (setAct s i a).pmu = s.pmu := rfl
@[simp] theorem setAct_tbu (s : State) (i : Nat) (a : Act) : (setAct s i a).tbu = s.tbu := rfl
@[simp] theorem setAct_lines (s : State) (i : Nat) (a : Act) : (setAct s i a).lines = s.lines := rfl
@[simp] theorem setAct_sfm (s : State) (i : Nat) (a : Act) : (setAct s i a).sfm = s.sfm := rfl
@[simp] theorem setAct_mrt (s : State) (i : Nat) (a : Act) : (setAct s i a).mrt = s.mrt := rfl
@[simp] theorem setAct_rfx (s : State) (i : Nat) (a : Act) : (setAct s i a).rfx = s.rfx := rfl
@[simp] theorem setAct_mfe (s : State) (i : Nat) (a : Act) : (setAct s i a).mfe = s.mfe := rfl
@[simp] theorem setAct_dch (s : State) (i : Nat) (a : Act) : (setAct s i a).dch = s.dch := rfl
@[simp] theorem setAct_erf (s : State) (i : Nat) (a : Act) : (setAct s i a).erf = s.erf := rfl
@[simp] theorem setAct_mir (s : State) (i : Nat) (a : Act) : (setAct s i a).mir = s.mir := rfl
@[simp] theorem setAct_sec (s : State) (i : Nat) (a : Act) : (setAct s i a).sec = s.sec := rfl
@[simp] theorem setAct_nvm (s : State) (i : Nat) (a : Act) : (setAct s i a).nvm = s.nvm := rfl
@[simp] theorem setAct_mqf (s : State) (i : Nat) (a : Act) : (setAct s i a).mqf = s.mqf := rfl
@[simp] theorem setAct_hcp (s : State) (i : Nat) (a : Act) : (setAct s i a).hcp = s.hcp := rfl
@[simp] theorem setAct_drawn (s : State) (i : Nat) (a : Act) : (setAct s i a).drawn = s.drawn := rfl
@[simp] theorem setAct_pending (s : State) (i : Nat) (a : Act) : (setAct s i a).pending = s.pending := rfl

@[simp] theorem setRule_chip (s : State) (i : Nat) (r : Rule) : (setRule s i r).chip = s.chip := rfl
@[simp] theorem setRule_regs (s : State) (i : Nat) (r : Rule) : (setRule s i r).regs = s.regs := rfl
@[simp] theorem setRule_sram (s : State) (i : Nat) (r : Rule) : (setRule s i r).sram = s.sram := rfl
@[simp] theorem setRule_flash (s : State) (i : Nat) (r : Rule) : (setRule s i r).flash = s.flash := rfl
@[simp] theorem setRule_pmu (s : State) (i : Nat) (r : Rule) : (setRule s i r).pmu = s.pmu := rfl
@[simp] theorem setRule_tbu (s : State) (i : Nat) (r : Rule) : (setRule s i r).tbu = s.tbu := rfl
@[simp] theorem setRule_lines (s : State) (i : Nat) (r : Rule) : (setRule s i r).lines = s.lines := rfl
@[simp] theorem setRule_sfm (s : State) (i : Nat) (r : Rule) : (setRule s i r).sfm = s.sfm := rfl
@[simp] theorem setRule_mrt (s : State) (i : Nat) (r : Rule) : (setRule s i r).mrt = s.mrt := rfl
@[simp] theorem setRule_rfx (s : State) (i : Nat) (r : Rule) : (setRule s i r).rfx = s.rfx := rfl
@[simp] theorem setRule_mfe (s : State) (i : Nat) (r : Rule) : (setRule s i r).mfe = s.mfe := rfl
@[simp] theorem setRule_dch (s : State) (i : Nat) (r : Rule) : (setRule s i r).dch = s.dch := rfl
@[simp] theorem setRule_erf (s : State) (i : Nat) (r : Rule) : (setRule s i r).erf = s.erf := rfl
@[simp] theorem setRule_mir (s : State) (i : Nat) (r : Rule) : (setRule s i r).mir = s.mir := rfl
@[simp] theorem setRule_sec (s : State) (i : Nat) (r : Rule) : (setRule s i r).sec = s.sec := rfl
@[simp] theorem setRule_nvm (s : State) (i : Nat) (r : Rule) : (setRule s i r).nvm = s.nvm := rfl
@[simp] theorem setRule_mqf (s : State) (i : Nat) (r : Rule) : (setRule s i r).mqf = s.mqf := rfl
@[simp] theorem setRule_hcp (s : State) (i : Nat) (r : Rule) : (setRule s i r).hcp = s.hcp := rfl
@[simp] theorem setRule_drawn (s : State) (i : Nat) (r : Rule) : (setRule s i r).drawn = s.drawn := rfl
@[simp] theorem setRule_pending (s : State) (i : Nat) (r : Rule) : (setRule s i r).pending = s.pending := rfl

@[simp] theorem setSeq_chip (s : State) (i : Nat) (q : Seq) : (setSeq s i q).chip = s.chip := rfl
@[simp] theorem setSeq_regs (s : State) (i : Nat) (q : Seq) : (setSeq s i q).regs = s.regs := rfl
@[simp] theorem setSeq_sram (s : State) (i : Nat) (q : Seq) : (setSeq s i q).sram = s.sram := rfl
@[simp] theorem setSeq_flash (s : State) (i : Nat) (q : Seq) : (setSeq s i q).flash = s.flash := rfl
@[simp] theorem setSeq_pmu (s : State) (i : Nat) (q : Seq) : (setSeq s i q).pmu = s.pmu := rfl
@[simp] theorem setSeq_tbu (s : State) (i : Nat) (q : Seq) : (setSeq s i q).tbu = s.tbu := rfl
@[simp] theorem setSeq_lines (s : State) (i : Nat) (q : Seq) : (setSeq s i q).lines = s.lines := rfl
@[simp] theorem setSeq_sfm (s : State) (i : Nat) (q : Seq) : (setSeq s i q).sfm = s.sfm := rfl
@[simp] theorem setSeq_mrt (s : State) (i : Nat) (q : Seq) : (setSeq s i q).mrt = s.mrt := rfl
@[simp] theorem setSeq_rfx (s : State) (i : Nat) (q : Seq) : (setSeq s i q).rfx = s.rfx := rfl
@[simp] theorem setSeq_mfe (s : State) (i : Nat) (q : Seq) : (setSeq s i q).mfe = s.mfe := rfl
@[simp] theorem setSeq_dch (s : State) (i : Nat) (q : Seq) : (setSeq s i q).dch = s.dch := rfl
@[simp] theorem setSeq_erf (s : State) (i : Nat) (q : Seq) : (setSeq s i q).erf = s.erf := rfl
@[simp] theorem setSeq_mir (s : State) (i : Nat) (q : Seq) : (setSeq s i q).mir = s.mir := rfl
@[simp] theorem setSeq_sec (s : State) (i : Nat) (q : Seq) : (setSeq s i q).sec = s.sec := rfl
@[simp] theorem setSeq_nvm (s : State) (i : Nat) (q : Seq) : (setSeq s i q).nvm = s.nvm := rfl
@[simp] theorem setSeq_mqf (s : State) (i : Nat) (q : Seq) : (setSeq s i q).mqf = s.mqf := rfl
@[simp] theorem setSeq_hcp (s : State) (i : Nat) (q : Seq) : (setSeq s i q).hcp = s.hcp := rfl
@[simp] theorem setSeq_drawn (s : State) (i : Nat) (q : Seq) : (setSeq s i q).drawn = s.drawn := rfl
@[simp] theorem setSeq_pending (s : State) (i : Nat) (q : Seq) : (setSeq s i q).pending = s.pending := rfl

@[simp] theorem setLock_chip (s : State) (i : Nat) (l : Lock) : (setLock s i l).chip = s.chip := rfl
@[simp] theorem setLock_regs (s : State) (i : Nat) (l : Lock) : (setLock s i l).regs = s.regs := rfl
@[simp] theorem setLock_sram (s : State) (i : Nat) (l : Lock) : (setLock s i l).sram = s.sram := rfl
@[simp] theorem setLock_flash (s : State) (i : Nat) (l : Lock) : (setLock s i l).flash = s.flash := rfl
@[simp] theorem setLock_pmu (s : State) (i : Nat) (l : Lock) : (setLock s i l).pmu = s.pmu := rfl
@[simp] theorem setLock_tbu (s : State) (i : Nat) (l : Lock) : (setLock s i l).tbu = s.tbu := rfl
@[simp] theorem setLock_lines (s : State) (i : Nat) (l : Lock) : (setLock s i l).lines = s.lines := rfl
@[simp] theorem setLock_sfm (s : State) (i : Nat) (l : Lock) : (setLock s i l).sfm = s.sfm := rfl
@[simp] theorem setLock_mrt (s : State) (i : Nat) (l : Lock) : (setLock s i l).mrt = s.mrt := rfl
@[simp] theorem setLock_rfx (s : State) (i : Nat) (l : Lock) : (setLock s i l).rfx = s.rfx := rfl
@[simp] theorem setLock_mfe (s : State) (i : Nat) (l : Lock) : (setLock s i l).mfe = s.mfe := rfl
@[simp] theorem setLock_dch (s : State) (i : Nat) (l : Lock) : (setLock s i l).dch = s.dch := rfl
@[simp] theorem setLock_erf (s : State) (i : Nat) (l : Lock) : (setLock s i l).erf = s.erf := rfl
@[simp] theorem setLock_mir (s : State) (i : Nat) (l : Lock) : (setLock s i l).mir = s.mir := rfl
@[simp] theorem setLock_sec (s : State) (i : Nat) (l : Lock) : (setLock s i l).sec = s.sec := rfl
@[simp] theorem setLock_nvm (s : State) (i : Nat) (l : Lock) : (setLock s i l).nvm = s.nvm := rfl
@[simp] theorem setLock_mqf (s : State) (i : Nat) (l : Lock) : (setLock s i l).mqf = s.mqf := rfl
@[simp] theorem setLock_hcp (s : State) (i : Nat) (l : Lock) : (setLock s i l).hcp = s.hcp := rfl
@[simp] theorem setLock_drawn (s : State) (i : Nat) (l : Lock) : (setLock s i l).drawn = s.drawn := rfl
@[simp] theorem setLock_pending (s : State) (i : Nat) (l : Lock) : (setLock s i l).pending = s.pending := rfl

end Sys2Proof.Machine
end

