-- ==== Sys2Proof/Laws/Regs.lean ====
section
/-! SUPPORT. Register fields as a finite map: what a field reads after a write of it, and of another (R12, R13). -/

namespace Sys2Proof.Machine

theorem assocFind_set_self {α : Type} (m : List (Nat × α)) (k : Nat) (v : α) : assocFind? (assocSet m k v) k = some v := by
  induction m with
  | nil => simp [assocSet, assocFind?]
  | cons a t ih =>
    obtain ⟨j, w⟩ := a
    simp only [assocSet]
    split
    · rename_i h
      simp only [assocFind?, if_neg (Nat.ne_of_lt h)]
      exact ih
    · split <;> simp [assocFind?]

theorem assocFind_set_other {α : Type} (m : List (Nat × α)) (k j : Nat) (v : α) (h : j ≠ k) :
    assocFind? (assocSet m k v) j = assocFind? m j := by
  have h' : ¬ k = j := fun e => h e.symm
  induction m with
  | nil => simp [assocSet, assocFind?, h']
  | cons a t ih =>
    obtain ⟨i, w⟩ := a
    simp only [assocSet]
    split
    · simp only [assocFind?]
      split
      · rfl
      · exact ih
    · split
      · rename_i h1 h2
        subst h2
        simp [assocFind?, h']
      · simp [assocFind?, h']

theorem assocFind_erase_self {α : Type} (m : List (Nat × α)) (k : Nat) : assocFind? (assocErase m k) k = none := by
  induction m with
  | nil => rfl
  | cons a t ih =>
    obtain ⟨j, w⟩ := a
    simp only [assocErase]
    split
    · exact ih
    · rename_i h
      simp only [assocFind?, if_neg h]
      exact ih

theorem assocFind_erase_other {α : Type} (m : List (Nat × α)) (k j : Nat) (h : j ≠ k) :
    assocFind? (assocErase m k) j = assocFind? m j := by
  induction m with
  | nil => rfl
  | cons a t ih =>
    obtain ⟨i, w⟩ := a
    simp only [assocErase]
    split
    · rename_i h1
      subst h1
      simp only [assocFind?, if_neg (fun e : i = j => h e.symm)]
      exact ih
    · simp only [assocFind?]
      split
      · rfl
      · exact ih

/-- A filter on keys keeps the values it lets through. -/
theorem assocFind_filter {α : Type} (m : List (Nat × α)) (p : Nat → Bool) (k : Nat) :
    assocFind? (m.filter (fun e => p e.1)) k = if p k then assocFind? m k else none := by
  induction m with
  | nil => simp [assocFind?]
  | cons a t ih =>
    obtain ⟨j, w⟩ := a
    rw [List.filter_cons]
    split
    · rename_i hj
      dsimp only at hj
      simp only [assocFind?, ih]
      by_cases h : j = k
      · subst h; simp [hj]
      · simp [h]
    · rename_i hj
      dsimp only at hj
      simp only [assocFind?, ih]
      by_cases h : j = k
      · subst h; simp [hj]
      · simp [h]

/-- A field reads what was written to it, cut to its width. -/
@[simp] theorem getF_setF_self (s : State) (f : Field) (v : Nat) : getF (setF s f v) f = v % 2 ^ f.width := by
  simp [getF, setF, assocFind_set_self]

/-- A write of one field leaves every other field. -/
theorem getF_setF_other (s : State) (f g : Field) (v : Nat) (h : fieldKey g ≠ fieldKey f) :
    getF (setF s f v) g = getF s g := by
  simp [getF, setF, assocFind_set_other _ _ _ _ h]

/-- A cleared field reads its reset value. -/
@[simp] theorem getF_clearF_self (s : State) (f : Field) : getF (clearF s f) f = f.reset := by
  simp [getF, clearF, assocFind_erase_self]

theorem getF_clearF_other (s : State) (f g : Field) (h : fieldKey g ≠ fieldKey f) : getF (clearF s f) g = getF s g := by
  simp [getF, clearF, assocFind_erase_other _ _ _ h]

/-- Only the register table decides what a field reads. -/
theorem getF_congr (s t : State) (f : Field) (h : s.regs = t.regs) : getF s f = getF t f := by
  simp [getF, h]

@[simp] theorem getF_inc_self (s : State) (f : Field) : getF (inc s f) f = min (getF s f + 1) (2 ^ f.width - 1) := by
  have h : 2 ^ f.width - 1 < 2 ^ f.width := Nat.sub_lt (Nat.two_pow_pos _) Nat.one_pos
  simp only [inc, incBy, getF_setF_self]
  exact Nat.mod_eq_of_lt (Nat.lt_of_le_of_lt (Nat.min_le_right _ _) h)

theorem getF_inc_other (s : State) (f g : Field) (h : fieldKey g ≠ fieldKey f) : getF (inc s f) g = getF s g :=
  getF_setF_other s f g _ h

@[simp] theorem getF_setFlag_self (s : State) (f : Field) : getF (setFlag s f) f = 1 % 2 ^ f.width := getF_setF_self s f 1

theorem getF_setFlag_other (s : State) (f g : Field) (h : fieldKey g ≠ fieldKey f) : getF (setFlag s f) g = getF s g :=
  getF_setF_other s f g _ h

/-- Registers do not live in main SRAM: a write there leaves every field but those of MQF's counters and of the events' (blocks 11 and 12),
which a word stored with wrong bits makes count. -/
theorem getF_memWrite (s : State) (a : Nat) (b : Bytes) (f : Field) (h : okField 51543539714 f = false) :
    getF (memWrite s a b) f = getF s f := by
  simp only [getF, touch_regs _ (memWrite_touch s a b) _ h]

end Sys2Proof.Machine
end

