-- ==== Sys2Proof/Laws/Memory.lean ====
section
/-! SUPPORT. Main SRAM and flash: a read after a write of the same bytes gives them, a write leaves every other byte, and every
memory operation keeps the canonical form. -/

namespace Sys2Proof.Machine

/-- The byte at an address of a memory whose unlisted cells read `d`. -/
theorem cellsRead_one (d : Nat → Byte) (m : List Host.Cell) (a : Nat) :
    cellsRead d m a 1 = [(assocFind? m a).getD (d a)] := rfl

theorem cellSet_self (d : Byte) (m : List Host.Cell) (a : Nat) (v : Byte) : (assocFind? (cellSet d m a v) a).getD d = v := by
  unfold cellSet
  split
  · rename_i h
    simp [assocFind_erase_self, h]
  · simp [assocFind_set_self]

theorem cellSet_other (d : Byte) (m : List Host.Cell) (a b : Nat) (v : Byte) (h : b ≠ a) :
    assocFind? (cellSet d m a v) b = assocFind? m b := by
  unfold cellSet
  split
  · exact assocFind_erase_other _ _ _ h
  · exact assocFind_set_other _ _ _ _ h

/-- A write leaves every byte outside it. -/
theorem cellsWrite_outside (d : Nat → Byte) (m : List Host.Cell) (a x : Nat) (b : Bytes) (h : x < a ∨ a + b.length ≤ x) :
    assocFind? (cellsWrite d m a b) x = assocFind? m x := by
  induction b generalizing m a with
  | nil => rfl
  | cons v b ih =>
    simp only [List.length_cons] at h
    rw [cellsWrite, ih _ _ (by omega), cellSet_other _ _ _ _ _ (by omega)]

theorem cellsRead_congr (d : Nat → Byte) (m m' : List Host.Cell) (a n : Nat)
    (h : ∀ x, a ≤ x → x < a + n → assocFind? m x = assocFind? m' x) : cellsRead d m a n = cellsRead d m' a n := by
  induction n generalizing a with
  | zero => rfl
  | succ n ih =>
    rw [cellsRead, cellsRead, h a (by omega) (by omega), ih (a + 1) (fun x h1 h2 => h x (by omega) (by omega))]

/-- What was written reads back. -/
theorem cellsRead_write_self (d : Nat → Byte) (m : List Host.Cell) (a : Nat) (b : Bytes) :
    cellsRead d (cellsWrite d m a b) a b.length = b := by
  induction b generalizing m a with
  | nil => rfl
  | cons v b ih =>
    simp only [List.length_cons, cellsRead, cellsWrite]
    rw [ih, cellsWrite_outside _ _ _ _ _ (Or.inl (Nat.lt_succ_self a)), cellSet_self]

/-- Bytes outside a write read as before. -/
theorem memRead_memWrite_outside (s : State) (a x n : Nat) (b : Bytes) (h : x + n ≤ a ∨ a + b.length ≤ x) :
    memRead (memWrite s a b) x n = memRead s x n :=
  cellsRead_congr _ _ _ _ _ (fun y h1 h2 => cellsWrite_outside _ _ _ _ _ (by omega))

/-- A write of main SRAM reads back. -/
theorem memRead_memWrite_self (s : State) (a : Nat) (b : Bytes) : memRead (memWrite s a b) a b.length = b :=
  cellsRead_write_self _ _ _ _

/-- A number stored reads back, cut to its bytes. -/
theorem memNat_memPut_self (s : State) (a n v : Nat) : memNat (memPut s a n v) a n = v % 256 ^ n := by
  have h := memRead_memWrite_self s a (leBytes v n)
  rw [leBytes_length] at h
  rw [memNat, memPut, h, leNat_leBytes]

/-- A number outside a store reads as before. -/
theorem memNat_memPut_outside (s : State) (a n v x m : Nat) (h : x + m ≤ a ∨ a + n ≤ x) :
    memNat (memPut s a n v) x m = memNat s x m := by
  rw [memNat, memPut, memRead_memWrite_outside s a x m _ (by rwa [leBytes_length]), memNat]

/-- A context field reads what was stored in it. -/
theorem cGet_cSet_self (s : State) (i : Nat) (f : CF) (v : Nat) : cGet (cSet s i f v) i f = v % 256 ^ f.n :=
  memNat_memPut_self s _ _ v

/-- A store of one context field leaves another field of the same context that does not meet it. -/
theorem cGet_cSet_other (s : State) (i : Nat) (f g : CF) (v : Nat) (h : g.off + g.n ≤ f.off ∨ f.off + f.n ≤ g.off) :
    cGet (cSet s i f v) i g = cGet s i g := memNat_memPut_outside s _ _ v _ _ (by omega)

/-- The memory reset leaves is canonical. -/
theorem reset_wf : Memory.wf State.reset = true := rfl

/-- A write of main SRAM keeps both memories canonical. -/
theorem memWrite_wf (s : State) (a : Nat) (b : Bytes) (h : Memory.wf s = true) : Memory.wf (memWrite s a b) = true := by
  simp only [Memory.wf, Bool.and_eq_true] at h ⊢
  rw [memWrite_flash]
  exact ⟨cellsWf_write _ _ _ _ h.1, h.2⟩

/-- A write of the flash keeps both memories canonical. -/
theorem flashPut_wf (s : State) (a : Nat) (b : Bytes) (h : Memory.wf s = true) : Memory.wf (flashPut s a b) = true := by
  simp only [Memory.wf, Bool.and_eq_true] at h ⊢
  exact ⟨h.1, cellsWf_write _ _ _ _ h.2⟩

/-- An erase of the flash keeps both memories canonical. -/
theorem flashErase_wf (s : State) (a n : Nat) (h : Memory.wf s = true) : Memory.wf (flashErase s a n) = true := by
  simp only [Memory.wf, Bool.and_eq_true] at h ⊢
  exact ⟨h.1, cellsWf_filter _ _ _ h.2⟩

end Sys2Proof.Machine
end

