-- ==== Sys2Proof/Laws/Events.lean ====
section
/-! SUPPORT. What raising an event can touch: the host ports and their drop counters, nothing else (R438, R439); and what a packet of
DCH or LCE that HCP takes at once can touch: those, the packet queues, and what a word
read with wrong bits makes count. -/

namespace Sys2Proof.Machine

/-- From `s` to `t` only HCP and the drop counters of its ports may differ. -/
structure EvFrame (s t : State) : Prop where
  shape : t = { s with regs := t.regs, hcp := t.hcp }
  regs : ∀ f : Field, (∀ n, fieldKey f ≠ fieldKey (F.evDrop n)) → getF t f = getF s f

theorem EvFrame.refl (s : State) : EvFrame s s := ⟨rfl, fun _ _ => rfl⟩

theorem EvFrame.trans {s t r : State} (a : EvFrame s t) (b : EvFrame t r) : EvFrame s r := by
  refine ⟨?_, fun f h => (b.regs f h).trans (a.regs f h)⟩
  have hb := b.shape
  have ha := a.shape
  rw [hb, ha]

theorem EvFrame.fold {β : Type} (f : State → β → State) (l : List β) (h : ∀ s b, EvFrame s (f s b)) :
    ∀ s, EvFrame s (l.foldl f s) := by
  induction l with
  | nil => exact fun s => .refl s
  | cons b l ih => exact fun s => (h s b).trans (ih _)

theorem EvFrame.ofHport (s : State) (n : Nat) (p : PortState) : EvFrame s (setHport s n p) := ⟨rfl, fun _ _ => rfl⟩

theorem EvFrame.arpNeed (s : State) (ip : Nat) : EvFrame s (arpNeed s ip) := by
  unfold Machine.arpNeed
  dsimp only
  split
  · exact .refl s
  · exact ⟨rfl, fun _ _ => rfl⟩

theorem EvFrame.emitThen (s : State) (n vf seq op : Nat) (params : Bytes) (auth : Bool) (dstIp dstPort then_ : Nat) :
    EvFrame s (emitThen s n vf seq op params auth dstIp dstPort then_) := by
  unfold Machine.emitThen
  dsimp only
  split
  · exact (EvFrame.ofHport s n _).trans (.arpNeed _ _)
  · exact .ofHport s n _

theorem EvFrame.emit (s : State) (n vf seq op : Nat) (params : Bytes) (auth : Bool) (dstIp dstPort : Nat) :
    EvFrame s (emit s n vf seq op params auth dstIp dstPort) := .emitThen s n vf seq op params auth dstIp dstPort 0

theorem EvFrame.eventLost (s : State) (n len : Nat) : EvFrame s (eventLost s n len) := by
  refine EvFrame.trans (t := inc s (F.evDrop n)) ⟨rfl, fun f h => getF_inc_other s _ f (h n)⟩ (.ofHport _ n _)

theorem EvFrame.emitEvent (s : State) (n op : Nat) (params : Bytes) : EvFrame s (emitEvent s n op params) := by
  unfold Machine.emitEvent
  dsimp only
  split
  · exact .refl s
  · split
    · exact (EvFrame.emit s n _ _ _ _ _ _ _).trans (.ofHport _ n _)
    · exact .eventLost s n _

theorem EvFrame.raiseAt (s : State) (ts unit fn : Nat) (body : Bytes) : EvFrame s (raiseAt s ts unit fn body) := by
  unfold Machine.raiseAt
  split
  · refine .fold _ _ (fun s n => ?_) s
    split
    · exact .emitEvent s n _ _
    · exact .refl s
  · exact .refl s

/-- Raising an event touches nothing but HCP and its drop counters. -/
theorem EvFrame.raise (s : State) (unit fn : Nat) (body : Bytes) : EvFrame s (raise s unit fn body) := .raiseAt s _ _ _ _

/-- So does a MODE event. -/
theorem EvFrame.modeEvent (s : State) : EvFrame s (modeEvent s) := by
  unfold Machine.modeEvent modeEventFrom
  split
  · exact .fold _ _ (fun s n => .emitEvent s n _ _) s
  · exact .refl s

theorem EvFrame.modeEventFrom (s : State) (m : Mode) : EvFrame s (modeEventFrom s m) := by
  unfold Machine.modeEventFrom
  split
  · exact .fold _ _ (fun s n => .emitEvent s n _ _) s
  · exact .refl s

section
variable {s t : State} (h : EvFrame s t)
include h
theorem EvFrame.chip : t.chip = s.chip := by rw [h.shape]
theorem EvFrame.sram : t.sram = s.sram := by rw [h.shape]
theorem EvFrame.flash : t.flash = s.flash := by rw [h.shape]
theorem EvFrame.pmu : t.pmu = s.pmu := by rw [h.shape]
theorem EvFrame.tbu : t.tbu = s.tbu := by rw [h.shape]
theorem EvFrame.lines : t.lines = s.lines := by rw [h.shape]
theorem EvFrame.sfm : t.sfm = s.sfm := by rw [h.shape]
theorem EvFrame.mrt : t.mrt = s.mrt := by rw [h.shape]
theorem EvFrame.rfx : t.rfx = s.rfx := by rw [h.shape]
theorem EvFrame.mfe : t.mfe = s.mfe := by rw [h.shape]
theorem EvFrame.dch : t.dch = s.dch := by rw [h.shape]
theorem EvFrame.lce : t.lce = s.lce := by rw [h.shape]
theorem EvFrame.erf : t.erf = s.erf := by rw [h.shape]
theorem EvFrame.mir : t.mir = s.mir := by rw [h.shape]
theorem EvFrame.sec : t.sec = s.sec := by rw [h.shape]
theorem EvFrame.nvm : t.nvm = s.nvm := by rw [h.shape]
theorem EvFrame.mqf : t.mqf = s.mqf := by rw [h.shape]
theorem EvFrame.drawn : t.drawn = s.drawn := by rw [h.shape]
theorem EvFrame.pending : t.pending = s.pending := by rw [h.shape]
end

/-- From `s` to `t` only MQF, HCP and their register blocks may differ: the parts of a packet queue, of the words that it reads, which may hold
wrong bits and so count and report (R394, R395), and of the events that its consumer sends. -/
def QueueFrame (s t : State) : Prop := Touch 51543670784 s t

theorem QueueFrame.refl (s : State) : QueueFrame s s := Touch.refl _ s

theorem QueueFrame.trans {s t r : State} (a : QueueFrame s t) (b : QueueFrame t r) : QueueFrame s r := Touch.trans a b

theorem QueueFrame.gapMark (s : State) (i bytes over_ : Nat) : QueueFrame s (gapMark s i bytes over_) :=
  touch_gapMark s i bytes over_ (by decide) (.refl _ s)

theorem QueueFrame.commitQ (s : State) (i : Nat) (p : QPkt) : QueueFrame s (commitQ s i p).1 := touch_commitQ s i p (by decide) (.refl _ s)

theorem QueueFrame.flushAt (s : State) (i k : Nat) : QueueFrame s (flushAt s i k) := touch_flushAt s i k (by decide) (.refl _ s)

theorem QueueFrame.takeQ (s : State) (i : Nat) : QueueFrame s (takeQ s i).1 := touch_takeQ s i (by decide) (.refl _ s)

theorem QueueFrame.drainEvents (s : State) (i unit fuel : Nat) : QueueFrame s (drainEvents s i unit fuel) :=
  touch_drainEvents s i unit fuel (by decide) (.refl _ s)

/-- A MEAS-EV packet touches nothing but the queues, HCP and what a wrong bit makes count. -/
theorem QueueFrame.measEvent (s : State) (type : Nat) (body : Bytes) : QueueFrame s (measEvent s type body) :=
  touch_measEvent s type body (by decide) (.refl _ s)

/-- So does a CTRL-EV packet. -/
theorem QueueFrame.ctrlEvent (s : State) (type : Nat) (body : Bytes) : QueueFrame s (ctrlEvent s type body) :=
  touch_ctrlEvent s type body (by decide) (.refl _ s)

section
variable {s t : State} (h : QueueFrame s t)
include h
theorem QueueFrame.chip : t.chip = s.chip := (touch_chip t h).out rfl
theorem QueueFrame.sram : t.sram = s.sram := (touch_sram t h).out rfl
theorem QueueFrame.flash : t.flash = s.flash := (touch_flash t h).out rfl
theorem QueueFrame.lines : t.lines = s.lines := (touch_lines t h).out rfl
theorem QueueFrame.sfm : t.sfm = s.sfm := (touch_sfm t h).out rfl
theorem QueueFrame.mrt : t.mrt = s.mrt := (touch_mrt t h).out rfl
theorem QueueFrame.rfx : t.rfx = s.rfx := (touch_rfx t h).out rfl
theorem QueueFrame.mfe : t.mfe = s.mfe := (touch_mfe t h).out rfl
theorem QueueFrame.dch : t.dch = s.dch := (touch_dch t h).out rfl
theorem QueueFrame.lce : t.lce = s.lce := (touch_lce t h).out rfl
theorem QueueFrame.erf : t.erf = s.erf := (touch_erf t h).out rfl
theorem QueueFrame.mir : t.mir = s.mir := (touch_mir t h).out rfl
theorem QueueFrame.sec : t.sec = s.sec := (touch_sec t h).out rfl
theorem QueueFrame.nvm : t.nvm = s.nvm := (touch_nvm t h).out rfl
theorem QueueFrame.drawn : t.drawn = s.drawn := (touch_drawn t h).out rfl
theorem QueueFrame.pmu : t.pmu = s.pmu := Touch.pmu_out h (by decide)
theorem QueueFrame.tbu : t.tbu = s.tbu := Touch.tbu_out h (by decide)
theorem QueueFrame.regs (f : Field) (hf : okField 51543670784 f = false) : getF t f = getF s f := by
  simp only [getF, touch_regs t h _ hf]
end

end Sys2Proof.Machine
end

