-- ==== Sys2Proof/Machine/Pins.lean ====
section
/-! DEFINITION. The levels of the output balls that follow from the state (R475, R36): beside DO and AO (R31, in
Machine/ControlCmd.lean), the handshake, host, radio, timing and driver-enable outputs. -/

namespace Sys2Proof.Machine

/-- A driven level. -/
def driven (b : Bool) : Pin := if b then .high else .low

/-- OWN_OUT (R354, R475): high-Z in reset and in BOOT. -/
def ownOutPin (s : State) : Pin :=
  if inHold s ∨ mode s = .boot ∨ !hasFull s then .highZ else driven (flag s F.ERF_STAT_OWN_OUT)

/-- HRDY_N (R421, R475): low while the SPI port holds a packet; high in BOOT and ROOST. -/
def hrdyPin (s : State) : Pin :=
  if inHold s then .highZ
  else match mode s with
    | .boot | .roost => .high
    | _ => driven (hport s 0).out.isEmpty

/-- URTS_N (R422, R475): high whenever the device cannot take a packet of 4,124 bytes, and in ROOST. -/
def urtsPin (s : State) : Pin :=
  if inHold s then .highZ
  else match mode s with
    | .roost => .high
    | _ => driven (!inRoom s 1)

/-- PA_EN (R228, R475). -/
def paEnPin (s : State) : Pin :=
  if inHold s ∨ !hasRadio s then .highZ
  else match mode s with
    | .boot | .spare => .low
    | _ => driven (s.rfx.paEn || decide (now s < s.rfx.paTo))

/-- What a crosspoint pin does (R242): in high impedance, an input, held at VBIAS as a TIA's input (R253), the sine with its amplitude in
mVpp, its current limit in 10 µA and its sense, a sine output at rest, or VBIAS. -/
inductive XpPin where
  | highZ
  | input
  | tia
  | sine (amp limit : Nat) (inverted : Bool)
  | rest
  | bias
  deriving DecidableEq, Repr

/-- A crosspoint pin (R242, R249, R253, R256). -/
def xpPin (s : State) (k : Nat) : XpPin :=
  if inHold s ∨ !mfeOn s then .highZ
  else
    match xpRole s k with
    | 1 => if (List.range 2).any (fun i => tiaPresent s i && tiaEn s i && getF s (tiaF F.MFE_TIA0_SRC i) == k) then .tia else .input
    | 2 => .input
    | 0 => .highZ
    | r =>
      if !excDriven s then .highZ
      else if r = 5 then .bias
      else if flag s F.MFE_EXC_SINE_EN ∧ s.mfe.form ≠ .withheld then .sine (getF s F.MFE_EXC_AMP) s.mfe.silim (r == 4)
      else .rest

/-- What RFIO sends: the power's code in dBm, and the deviation of each symbol of the frame on the air, in Hz (R218, R219, R228). -/
def rfioOut (s : State) : Option (Nat × List Int) :=
  let out (p : Bytes) : Nat × List Int := (s.rfx.power, airSymbols s.rfx.cfg p)
  match s.rfx.tx, s.rfx.ackAir with
  | some t, k => if !t.sent && decide (t.from_ ≤ now s) then some (out t.psdu) else if acking s then k.map (fun a => out a.psdu) else none
  | none, k => if acking s then k.map (fun a => out a.psdu) else none

/-- SYNC_OUT (R77, R475). -/
def syncOutBall (s : State) : Pin := if inHold s then .highZ else driven (syncOutPin s)

/-- XDRV_ENn (R91, R475): high in a transmission of a port in external-driver mode. -/
def xdrvPin (s : State) (n : Nat) : Pin :=
  if inHold s ∨ mode s = .boot ∨ nLine s ≤ n then .highZ
  else if mode s = .spare then .low
  else driven (line s n).xdrv

end Sys2Proof.Machine
end

