-- ==== Sys2Proof/Tests/Slice0.lean ====
section
/-! SUPPORT. The author's tests: each well-formedness check refuses an ill-formed command, and named states meet the hypotheses of the
statements. Expected values come from the rules named in the statements. -/

namespace Sys2Proof.Tests

open Sys2Proof Sys2Proof.Machine

/-! ### Helpers -/

/-- Verdicts that find nothing wrong. -/
def v0 : Verdicts := { hwOk := true, peerExt := 0, peerEpk := [], peerSig := [] }

/-- A request on the SPI port. -/
def req (params : Bytes) : HostReq := { port := .spi, seq := 1, auth := false, ctr := 0, mic := [], params, v := v0 }

/-- A line frame of which nothing was heard. -/
def rx0 : LineRx := { syms := [] }

/-- A radio signal of no PSDU, and the air that holds it alone. -/
def sig0 : RadioSig := { sfdAt := 0, rssi := 0, fofs := 0, phr := 0, psdu := [] }
def rf0 : RadioRx := { slot := 0, air := { sigs := [sig0], mix := sig0 } }

/-- A converter's word 0, and a run of one grid word on channel `ch`. -/
def word0 : ConvWord := { w := 0, ovl := false, sat := false }
def run1 (ch : Fin 9) : GridRun := { ch, from_ := 0, words := [{ lo := word0, hi := word0 }] }

/-- The grid's words alone. -/
def grid (l : List GridRun) : Streams := { aux := { from_ := 0, words := [] }, grid := l }

/-! ### Well-formedness: each check refuses a term that breaks it, and passes one that does not -/

theorem test_wf_slot_channels : (Instr.phaseSlotBoundary (grid [run1 3, run1 3])).wf = false := by decide
theorem test_wf_gallery_channels : (Instr.galleryDone (grid [run1 0, run1 5, run1 0])).wf = false := by decide
theorem test_wf_gallery_ok : (Instr.galleryDone (grid [run1 0, run1 5])).wf = true := by decide
theorem test_wf_request_ok : (Instr.ping (req [])).wf = true := by decide
theorem test_wf_request_length (r : HostReq) (h : 4096 < r.params.length) : (Instr.ping r).wf = false := by
  simp [Instr.wf, reqWf, Nat.not_le.mpr h]
theorem test_wf_request_mic : (Instr.ping { req [] with auth := true }).wf = false := by decide
theorem test_wf_boot_time : (Instr.imageCheckDone 0 { readOk := true, took := 2 ^ 32 + 1 }).wf = false := by decide
theorem test_wf_own_window : (Instr.frameTxEnd 0 [{ sym := 0, v := [], i := [] }]).wf = false := by decide
theorem test_wf_own_none : (Instr.frameTxEnd 0 []).wf = true := by decide
theorem test_wf_sweep_current : (Instr.sweepPointDone 0 0 0 [] [0]).wf = false := by decide
theorem test_wf_sweep_ok : (Instr.sweepPointDone 0 0 0 [] []).wf = true := by decide
theorem test_wf_preamble_length : (Instr.preambleDetect 0 { slot := 0, from_ := 0, samples := [] }).wf = false := by decide
theorem test_wf_ack_windows : (Instr.ackTailRx 0 [] []).wf = false := by decide
theorem test_wf_line_window : (Instr.lineFrameRx 0 { rx0 with syms := [[]] }).wf = false := by decide
theorem test_wf_line_ok : (Instr.lineFrameRx 0 rx0).wf = true := by decide
theorem test_wf_radio_silence : (Instr.radioFrameRx { rf0 with air := { sigs := [], mix := sig0 } }).wf = false := by decide
theorem test_wf_radio_ok : (Instr.radioFrameRx rf0).wf = true := by decide
theorem test_wf_tia_overload : (Instr.tiaRangeChange 0 0 [0, 0] [2] [] false 0).wf = false := by decide
theorem test_wf_tia_saturation : (Instr.tiaRangeChange 0 0 [0, 0] [1] [2] false 0).wf = false := by decide
theorem test_wf_tia_ok : (Instr.tiaRangeChange 0 0 [0, 0] [1] [0] false 0).wf = true := by decide
theorem test_wf_gain_channel : (Instr.gainPathSwitch 0 (grid [run1 5])).wf = false := by decide
theorem test_wf_gain_ok : (Instr.gainPathSwitch 1 (grid [run1 5])).wf = true := by decide
theorem test_wf_detector_span : (Instr.detectorResult 0 1 [] [] 0).wf = false := by decide
theorem test_wf_phasor_channels : (Instr.phasorReport [run1 3, run1 3] []).wf = false := by decide
theorem test_wf_phasor_kinds : (Instr.phasorReport [run1 4] []).wf = false ∧ (Instr.phasorReport [run1 3] [run1 4]).wf = true := by decide
theorem test_wf_base_channels : (Instr.baseIntervalEnd (grid [run1 0, run1 0])).wf = false := by decide
theorem test_wf_dip_words : (Instr.pqDipSwellEdge 0 0 [] []).wf = false := by decide
theorem test_wf_supra_words : (Instr.supraWindowEnd 0 0 []).wf = false := by decide
theorem test_wf_scrub_bits : (Instr.scrubRead [3, 3] true).wf = false := by decide
theorem test_wf_room_sent : (Instr.portBufferRoom .spi 0).wf = false := by decide
theorem test_wf_body_length (b : Bytes) (h : 1280 < b.length) : (Instr.allocRx 0 b).wf = false := by
  simp [Instr.wf, Nat.not_le.mpr h]
theorem test_wf_symbol_samples : (Instr.symbolBoundary 0 0 0 [] []).wf = false := by decide

/-! ### Fixed values that the spec states -/

/-- The layout of R4: the part code in bits 31–16, the step 1.1, ROM revision 7. -/
theorem test_idrev : idRev State.reset = 0x74601107 := by decide
/-- The dibit mapping of R218 at h = 1 and 50 ksymbol/s: 01, 00, 10, 11. -/
theorem test_dibits : dibitDeviations State.reset.rfx.cfg [false, true, false, false, true, false, true, true] =
    [75000, 25000, -25000, -75000] := by decide
/-- The PHR lengths at the two ends of R221's step 2. -/
theorem test_phr : phrOk (radioPhr 11) = true ∧ phrOk (radioPhr 10) = false ∧ phrOk (radioPhr 1291) = true ∧
    phrOk (radioPhr 1292) = false := by decide

/-! ### No word spells a command; the queue is served from its front -/

theorem test_word_spells_nothing : decodeTableWord 16 0x1234 = none := rfl
theorem test_step_runs_front : step { State.reset with pending := [.resetNLow, .gateOpen] } = .next { systemReset State.reset 8 with pending := [.gateOpen] } := rfl

/-! ### Witnesses: states that meet the hypotheses of each statement -/

/-- The reset state in a mode. -/
def inMode (m : Mode) : State := { State.reset with pmu := { State.reset.pmu with mode := m } }

/-- The reset state with register fields set. -/
def withF (s : State) (l : List (Field × Nat)) : State := l.foldl (fun s e => setF s e.1 e.2) s

theorem witness_idle_roost : (inMode .roost).pending = [] ∧ inHold (inMode .roost) = false ∧ timeStopped (inMode .roost) = true := by decide
theorem witness_idle : (State.reset.pending = [] ∧ inHold State.reset = false ∧ getF State.reset F.TBU_TRIM_TRIM = 0 ∧
    State.reset.tbu.slew = 0 ∧ State.reset.tbu.trimAcc = 0 ∧ timeStopped State.reset = false) ∧
    (State.reset.pending = [] ∧ inHold { State.reset with pmu := { State.reset.pmu with inReset := true } } = true) := by decide
theorem witness_step_inv : Inv State.reset ∧ step State.reset = .next (idle State.reset) := ⟨⟨rfl, rfl, rfl⟩, rfl⟩

theorem witness_frame : exec .resetNLow State.reset = .next (systemReset State.reset 8) ∧ Part.flash ∉ mayTouch .resetNLow ∧
    Part.regs 16 ∉ mayTouch .gateOpen := ⟨rfl, by decide, by decide⟩

theorem witness_reset_rows : State.reset.chip.dbgClosed = false ∧ State.reset.pmu.shutdown = false ∧
    ({ State.reset with chip := { State.reset.chip with dbgClosed := true } } : State).chip.dbgClosed = true ∧ (0 : Fin 4).val < 3 ∧
    (2 : Fin 4).val < 3 := by decide
theorem witness_reset_ends : inHold State.reset = false ∧
    (let s : State := { State.reset with pmu := { State.reset.pmu with inReset := true, stretch := true, cause := 0x7F } }
     s.pmu.inReset = true ∧ s.pmu.stretch = true ∧ s.pmu.shutdown = false ∧ bit s.pmu.cause 0 = true ∧ bit s.pmu.cause 6 = true) := by decide
theorem witness_junction : inHold (inMode .operate) = false ∧ 560 < signed (BitVec.toNat (561 : BitVec 12)) 12 ∧
    (inMode .operate).pmu.trans = none ∧ 600 ≤ signed (BitVec.toNat (600 : BitVec 12)) 12 ∧ signed (BitVec.toNat (499 : BitVec 12)) 12 < 500 ∧
    540 ≤ signed (BitVec.toNat (540 : BitVec 12)) 12 ∧ flag State.reset F.PMU_THERM_FOLD = false ∧
    signed (BitVec.toNat (519 : BitVec 12)) 12 < 520 := by decide
theorem witness_mode_set : (inMode .commission).pmu.trans = none ∧ listedTransition (inMode .commission) 2 = some (.operate, false) ∧
    listedTransition (inMode .safehold) 1 = some (.commission, true) ∧ listedTransition (inMode .operate) 1 = none ∧
    anyCause (withF (inMode .safehold) [(F.PMU_SAFECAUSE_WDOG, 1)]) = true ∧ anyCause (inMode .safehold) = false ∧
    (modeSet (inMode .safehold) 1).2 = St.ok ∧ (modeSet (inMode .commission) 2).2 = St.badParam := by decide
/-- OPERATE being left for SAFEHOLD by a cause at mesh time `at_` that stands above a MODE_SET. -/
def racing (at_ : Nat) : State :=
  { State.reset with pmu := { State.reset.pmu with
      mode := .operate, trans := some { target := .safehold, kind := .safehold }, race := some { at_, rank := 1, undo := none, req := none } } }
theorem witness_mode_set_busy : (racing 0).pmu.trans.isSome = true ∧ outranked (racing 0) 6 = true ∧ (racing 0).pmu.mode ≠ .boot ∧
    outranked (racing 1) 6 = false ∧ asksSafehold 1 [4] = true := by decide
/-- An owner of the outputs. -/
def owner : State :=
  { withF (inMode .operate) [(F.ERF_STAT_OWN_OUT, 1), (F.ERF_STAT_GATE, 1)] with erf := { State.reset.erf with begun := true } }
theorem witness_no_own_in : hasFull { owner with chip := { owner.chip with part := 0x7430 } } = false := by decide
theorem witness_ownership : inHold owner = false ∧ hasFull owner = true ∧ cycleRan owner = false ∧ flag owner F.ERF_STAT_OWN_OUT = true ∧ owner.erf.begun = true ∧
    getF owner F.ERF_PEEREPOCH_EPOCH ≤ getF owner F.ERF_EPOCH_EPOCH ∧ owner.erf.seenEpoch ≤ getF owner F.ERF_EPOCH_EPOCH ∧
    sequenceRuns owner = false ∧
    getF (withF owner [(F.ERF_PEEREPOCH_EPOCH, 1)]) F.ERF_EPOCH_EPOCH < getF (withF owner [(F.ERF_PEEREPOCH_EPOCH, 1)]) F.ERF_PEEREPOCH_EPOCH := by
  decide

/-! ### Witnesses for the codes, the frames and the rows of single units -/

/-- Beside any bytes there are others of a given length. -/
theorem witness_other_bytes (n : Nat) (hn : 0 < n) (m : Bytes) : ∃ c : Bytes, c.length = n ∧ c ≠ m := by
  by_cases e : m = List.replicate n 0
  · refine ⟨List.replicate n 1, by simp, ?_⟩
    obtain ⟨k, rfl⟩ := Nat.exists_eq_succ_of_ne_zero (Nat.ne_of_gt hn)
    subst e
    simp [List.replicate_succ]
  · exact ⟨List.replicate n 0, by simp, fun x => e x.symm⟩
theorem witness_erfa_frame : (3 < 256 ∧ 65535 < 65536 ∧ ([] : Bytes).length ≤ 2048) ∧
    ∃ c : Bytes, c.length = 4 ∧ c ≠ (erfFrame 3 65535 []).drop 5 := ⟨by decide, witness_other_bytes 4 (by decide) _⟩
theorem witness_other_mic : ∃ mic : Bytes, mic.length = 8 ∧ mic ≠ (ccmSeal [] [] [] [1]).drop 1 := witness_other_bytes 8 (by decide) _
theorem witness_other_wrap : ∃ mic : Bytes, mic.length = 8 ∧ mic ≠ (wrapKey [] 0 [1]).drop 14 := witness_other_bytes 8 (by decide) _
theorem witness_word_code : 2 ^ 256 - 1 < 2 ^ 256 ∧ 274 < 275 ∧ 273 < 274 := by omega
/-- A frame of eight symbols of which the first is being sent on port 0. -/
def sending : State :=
  modLine (inMode .operate) 0 (fun l => { l with tx := some {
    kind := .data, ctx := 1, hdr := { length := 0, mode := 0, lmid := 0, src := 1, dst := 2, bcast := false, epoch := 0, fcf := 0 }
    payload := [], map := [], size := 8, alloc := 12, slot := 20, first := 0, sym := 0, level0 := 8, limited := [], mapx := 0, sent := false
    leave := .link 1 } })
theorem witness_line_supply : mode sending ≠ .boot ∧ 0 < sending.lines.length ∧
    (((line sending 0).tx.map (fun x => !x.sent && decide (x.sym + 1 < x.size))) = some true) ∧
    (7600 : BitVec 15).toNat ≤ 7600 ∧ 18500 ≤ (18500 : BitVec 15).toNat ∧
    7900 ≤ (7900 : BitVec 15).toNat ∧ (18200 : BitVec 15).toNat ≤ 18200 := by decide
theorem witness_pll : bit (getF (withF (inMode .operate) [(F.PMU_PLLSTAT_LOCK, 15)]) F.PMU_PLLSTAT_LOCK) 3 = true ∧
    mfeOn (withF (inMode .operate) [(F.PMU_PLLSTAT_LOCK, 15)]) = true ∧ bit (getF State.reset F.PMU_PLLSTAT_LOCK) 3 = false := by decide
/-- Lock 31 held by a host, and lock 0 by rule 0, which is in use. -/
def locked : State :=
  let h : Lock := { Lock.fresh with st := .held, owner := { Owner.none with cls := 1 } }
  memWrite (setLock (setLock (inMode .operate) 31 h) 0 { h with owner := { Owner.none with cls := 0, id := 0 } }) Base.rules [1]
theorem witness_control : hcpOn (inMode .operate) = true ∧ 31 < locked.lce.locks.length ∧ (lock locked 31).st = .held ∧
    (lock locked 31).lost = none ∧ (lock locked 31).owner.cls ≠ 0 := by decide
theorem witness_rule_lock : (lock locked 0).owner.cls = 0 ∧ ruleOn locked (lock locked 0).owner.id = true := by decide
/-- Two health tests have failed just now. -/
def failing : State := { State.reset with sec := { State.reset.sec with trngFails := [0, 0] } }
theorem witness_trng : trngRuns failing = true ∧ trngRuns State.reset = true ∧
    2 ≤ (failing.sec.trngFails.filter (fun x => decide (now failing < x + Config.ticksPerSec))).length ∧
    (State.reset.sec.trngFails.filter (fun x => decide (now State.reset < x + Config.ticksPerSec))).length < 2 := by decide
theorem witness_claim : inHold (inMode .operate) = false ∧ mode (inMode .operate) = .operate ∧ flag (inMode .operate) F.ERF_STAT_OWN_IN = false ∧
    flag (inMode .operate) F.ERF_STAT_OWN_OUT = false ∧ flag owner F.ERF_STAT_OWN_IN = false := by decide
/-- A promoted chip that holds leave for its record. -/
def recording : State :=
  { State.reset with erf := { State.reset.erf with recordDue := true }
                     pmu := { State.reset.pmu with held := [{ req := 9, for_ := .unit, cost := 10 }] } }
theorem witness_record : recording.erf.recordDue = true ∧ holdsLeave recording 9 = true := by decide
theorem witness_bank : (15 : Fin 16).val < State.reset.mqf.arbs.length ∧ (arb State.reset 15).raised.length = 12 ∧
    nth 0 (arb State.reset 15).pend 11 = 0 ∧ nth 0 (arb State.reset 15).raised 11 = 0 := by decide
/-- A commit of set 127 is under way. -/
def committing : State := { State.reset with dch := { State.reset.dch with linPending := some (127, List.replicate 128 1) } }
theorem witness_lin : committing.dch.linPending = some (127, List.replicate 128 1) ∧ (List.replicate 128 (1 : Byte)).length = 128 := ⟨rfl, rfl⟩
theorem witness_phr : 11 ≤ 1291 ∧ 1291 ≤ 1291 := by decide

end Sys2Proof.Tests
end

namespace Sys2Proof.Machine

/-! ### Every step keeps the invariant, the queue's rest and the burnt fuses -/

/-- Every command leaves what is kept: one case per command, each closed by the law of that command's meaning. -/
theorem kept_exec {q : List Instr} {c : Chip} (i : Instr) (s : State) (hs : Kept q c s) : KeptBy q c (exec i s) := by
  cases i <;> simp [exec, hs]

/-- A state that meets the invariant is kept once its queue is cut to `q`. -/
theorem Inv.kept_rest {s : State} (h : Inv s) (q : List Instr) : Kept q s.chip { s with pending := q } := by
  have hs := h.kept
  exact ⟨hs.sram, hs.flash, hs.regs, rfl, hs.fuses, hs.sizes⟩

/-- A step leaves what is kept, with the queue's rest: the front command's effect, or an idle cycle. -/
theorem Inv.kept_step {s : State} (h : Inv s) : KeptBy s.pending.tail s.chip (step s) := by
  unfold step
  split
  case h_1 hq =>
    have hs := h.kept
    rw [hq] at hs ⊢
    exact kept_idle s hs
  case h_2 i rest hq =>
    rw [hq]
    exact kept_exec i _ (h.kept_rest rest)

/-- What a step leaves as the next state is kept. -/
theorem Inv.kept_next {s t : State} (h : Inv s) (ht : step s = .next t) : Kept s.pending.tail s.chip t := by
  have hk := h.kept_step
  rwa [ht] at hk

/-! ### What reset leaves -/

/-- Right after reset each byte of main SRAM reads as its reset value, since none is listed as written. -/
theorem memRead_reset_succ (a n : Nat) : memRead State.reset a (n + 1) = sramReset a :: memRead State.reset (a + 1) n := rfl

/-- Outside the coefficient sets a byte of main SRAM is zero after reset (R465). -/
theorem sramReset_outside {a : Nat} (h : a < Base.coef ∨ Base.coef + 0x4000 ≤ a) : sramReset a = 0 := by
  unfold sramReset
  rw [if_neg (by omega)]

/-- A byte of a coefficient set is after reset that of set 0 (R295). -/
theorem sramReset_coef {k i : Nat} (hk : k < 128) (hi : i < 128) : sramReset (Base.coef + 128 * k + i) = sramReset (Base.coef + i) := by
  have hm : (Base.coef + 128 * k + i) % 128 = (Base.coef + i) % 128 := by omega
  unfold sramReset
  rw [if_pos (by omega), if_pos (by omega), hm]

/-- Bytes outside the coefficient sets read zero after reset (R465). -/
theorem memRead_reset_outside (a n : Nat) (h : ∀ x, a ≤ x → x < a + n → x < Base.coef ∨ Base.coef + 0x4000 ≤ x) :
    memRead State.reset a n = List.replicate n 0 := by
  induction n generalizing a with
  | zero => rfl
  | succ n ih =>
    rw [memRead_reset_succ, List.replicate_succ, sramReset_outside (h a (by omega) (by omega)),
      ih (a + 1) fun x h1 h2 => h x (by omega) (by omega)]

/-- Bytes within a coefficient set read after reset as those of set 0 (R295). -/
theorem memRead_reset_coef {k : Nat} (hk : k < 128) (i n : Nat) (h : i + n ≤ 128) :
    memRead State.reset (Base.coef + 128 * k + i) n = memRead State.reset (Base.coef + i) n := by
  induction n generalizing i with
  | zero => rfl
  | succ n ih =>
    rw [memRead_reset_succ, memRead_reset_succ, sramReset_coef hk (by omega)]
    congr 1
    exact ih (i + 1) (by omega)

/-- YMIN of every coefficient set is −3.0 × 10^38 after reset, in binary32 (R295). -/
theorem memNat_reset_ymin {k : Nat} (hk : k < 128) : memNat State.reset (Base.coef + 128 * k + 104) 4 = 0xFF61B1E6 := by
  rw [memNat, memRead_reset_coef hk 104 4 (by omega)]
  rfl

/-- YMAX of every coefficient set is +3.0 × 10^38 after reset, in binary32 (R295). -/
theorem memNat_reset_ymax {k : Nat} (hk : k < 128) : memNat State.reset (Base.coef + 128 * k + 108) 4 = 0x7F61B1E6 := by
  rw [memNat, memRead_reset_coef hk 108 4 (by omega)]
  rfl

/-- No register value is stored after reset, so every field reads its table's reset value (R14). -/
theorem getF_reset (f : Field) : getF State.reset f = f.reset := rfl

theorem reset_queue_empty {x : Queue} (hx : x ∈ State.reset.mqf.queues) : x.entries = [] := by
  rw [List.eq_of_mem_replicate hx]
  rfl

theorem reset_lock_free {l : Lock} (hl : l ∈ State.reset.lce.locks) : l.st = .free := by
  rw [List.eq_of_mem_replicate hl]
  rfl

theorem reset_port_idle {p : PortState} (hp : p ∈ State.reset.hcp.ports) : p.sess.state = 0 ∧ p.out = [] := by
  rw [List.eq_of_mem_replicate hp]
  exact ⟨rfl, rfl⟩

end Sys2Proof.Machine

section
open Sys2Proof Sys2Proof.Machine

/-- Settles O6: the chip of the next state descends from the chip before by burning fuses alone, the part of `Kept` that every
command and the idle cycle keep. -/
theorem everyStepKeepsTheFuses : Obligations.EveryStepKeepsTheFuses :=
  fun _ _ hs ht => (hs.kept_next ht).fuses

/-- Settles O4. The values that are not plain fields of the reset state are the laws above; that YMIN and YMAX stand in main SRAM is
the model's choice (log entry 121). -/
theorem resetLeavesTheStatedValues : Obligations.ResetLeavesTheStatedValues :=
  ⟨rfl, rfl, rfl, rfl, getF_reset, memRead_reset_outside, fun _ hk => ⟨memNat_reset_ymin hk, memNat_reset_ymax hk⟩,
    fun _ => reset_queue_empty, fun _ => reset_lock_free, rfl, fun _ => reset_port_idle, rfl⟩

end

namespace Sys2Proof.Machine

/-! ### What a SAFEHOLD cause leaves -/

/-- What does not touch the mode sequencer leaves the mode, the transition in progress and the record of its selection. -/
theorem Touch.sequencer_out {m : Nat} {s t : State} (h : Touch m s t) (hb : hasBit m 3 = false) :
    t.pmu.mode = s.pmu.mode ∧ t.pmu.trans = s.pmu.trans ∧ t.pmu.race = s.pmu.race := by
  have hq : t.pmu.seq = s.pmu.seq := (touch_seq t h).out hb
  have hmode := congrArg Pmu.mode hq
  have htrans := congrArg Pmu.trans hq
  have hrace := congrArg Pmu.race hq
  exact ⟨hmode, htrans, hrace⟩

/-- What does not touch a unit's registers leaves each field of them. -/
theorem Touch.getF_out {m : Nat} {s t : State} (h : Touch m s t) {f : Field} (hf : okField m f = false) : getF t f = getF s f := by
  simp only [getF, touch_regs t h _ hf]

/-- A SAFEHOLD cause outside BOOT and SAFEHOLD, with no transition in progress: it is latched, and outside a reset it selects the transition. -/
theorem safeCause_settled {s : State} (cause : Field) (ht : s.pmu.trans = none) (hb : s.pmu.mode ≠ .boot) (hs : s.pmu.mode ≠ .safehold) :
    safeCause s cause = if inHold s then setFlag s cause else enterSafehold (setFlag s cause) (causeRank cause) := by
  have hh : inHold s = ((setFlag s cause).pmu.inReset || (setFlag s cause).pmu.shutdown) := rfl
  unfold safeCause
  simp only [hh]
  split
  · rfl
  · simp only [setFlag_pmu, ht]

theorem noteUndo_trans (s : State) (x : Undo) : (noteUndo s x).pmu.trans = s.pmu.trans := rfl

/-- The transition that a SAFEHOLD cause selects is to SAFEHOLD: no unit's share in its selection moves the mode sequencer
(the mask is that of `touch_enterSafehold` without bit 3). -/
theorem enterSafehold_trans (s : State) (rank : Nat) :
    (enterSafehold s rank).pmu.trans = some { target := .safehold, kind := .safehold } := by
  unfold enterSafehold
  simp only [noteUndo_trans]
  refine (Touch.sequencer_out (m := 59059877906) (s := beginSafehold (holdPins s) rank) ?_ (by decide)).2.1
  simp +decide (maxDischargeDepth := 99) [Touch.refl, hasBit, subMask]

/-- Selecting SAFEHOLD leaves the registers of PMU and ERF, among others. -/
theorem getF_enterSafehold (s : State) (rank : Nat) {f : Field} (hf : okField 59059877914 f = false) :
    getF (enterSafehold s rank) f = getF s f :=
  (touch_enterSafehold s rank (by decide) (.refl _ s)).getF_out hf

/-- A displaced selection that gives nothing back leaves the registers of PMU and ERF, among others. -/
theorem displace_touch {s : State} (hu : ∀ r, s.pmu.race = some r → r.undo = none) : Touch 59059877914 s (displace s) := by
  unfold displace
  split
  · exact .refl _ _
  · rename_i r hr
    simp only [hu r hr]
    split <;> simp +decide (maxDischargeDepth := 99) [Touch.refl, hasBit, subMask]

/-- A cause of SAFEHOLD in OPERATE leaves the registers of ERF, unless it displaces a selection that gives them back (R38). -/
theorem getF_safeCause_operate {s : State} {cause f : Field} (hm : s.pmu.mode = .operate)
    (hu : ∀ r, s.pmu.race = some r → causeRank cause < r.rank → r.undo = none)
    (hf : okField 59059894298 f = false) (hk : fieldKey f ≠ fieldKey cause) : getF (safeCause s cause) f = getF s f := by
  have hd (hr : rivals (setFlag s cause) (causeRank cause) = true) : Touch 59059877914 (setFlag s cause) (displace (setFlag s cause)) := by
    refine displace_touch fun r h => hu r h ?_
    simp only [rivals, h, Option.any_some, Bool.and_eq_true, decide_eq_true_eq] at hr
    exact hr.2.2
  have ht : Touch 59059894298 (setFlag s cause) (safeCause s cause) := by
    unfold safeCause
    simp only [setFlag_pmu, hm]
    split
    · exact .refl _ _
    · split
      case h_4 =>
        repeat' split
        · exact .refl _ _
        · exact touch_overtake _ _ (by decide) (.refl _ _)
        · exact .refl _ _
        · exact touch_afterDemotion _ _ (by decide) (touch_enterSafehold _ _ (by decide) (.lift (by decide) (.refl _ _) (hd ‹_›)))
        · exact touch_enterSafehold _ _ (by decide) (.refl _ _)
      case h_5 => exact touch_enterSafehold _ _ (by decide) (.refl _ _)
      all_goals contradiction
  rw [ht.getF_out hf, getF_setFlag_other s cause f hk]

/-! ### The answers of MODE_SET -/

/-- A MODE_SET SAFEHOLD that HCP turns away with BUSY is latched where a higher cause of its cycle selected the transition (R38, R523). -/
theorem lateHostCause_outranked {s : State} {op : Nat} {params : Bytes} (ha : asksSafehold op params = true) (ho : outranked s 6 = true)
    (hb : s.pmu.mode ≠ .boot) : lateHostCause s St.busy op params = setFlag s F.PMU_SAFECAUSE_HOSTCMD := by
  simp [lateHostCause, ha, ho, hb]

theorem lateHostCause_not_outranked {s : State} (op : Nat) (params : Bytes) (ho : outranked s 6 = false) :
    lateHostCause s St.busy op params = s := by
  simp [lateHostCause, ho]

theorem namesMode_iff (s : State) (c : Nat) :
    namesMode s c = true ↔ c = Mode.code s.pmu.mode ∨ (s.pmu.paired = true ∧ c = 2 ∧ s.pmu.mode = .spare) := by
  simp [namesMode, and_assoc]

theorem modeSet_rejected (s : State) {c : Nat} (h : c = 0 ∨ 4 < c) : modeSet s c = (s, St.badParam) := by
  simp [modeSet, h]

theorem modeSet_inTransition {s : State} {c : Nat} (h1 : 1 ≤ c) (h4 : c ≤ 4) (ht : s.pmu.trans.isSome = true) :
    modeSet s c = (s, St.busy) := by
  have hc : ¬(c = 0 ∨ 4 < c) := by omega
  simp [modeSet, hc, ht]

section
variable {s : State} (ht : s.pmu.trans = none)
include ht

theorem modeSet_current {c : Nat} (h1 : 1 ≤ c) (h4 : c ≤ 4) (hn : namesMode s c = true) : modeSet s c = (s, St.ok) := by
  have hc : ¬(c = 0 ∨ 4 < c) := by omega
  simp [modeSet, hc, ht, hn]

theorem modeSet_safehold_boot (hb : s.pmu.mode = .boot) : modeSet s 4 = (s, St.badMode) := by
  simp [modeSet, namesMode, Mode.code, ht, hb]

theorem modeSet_safehold (hb : s.pmu.mode ≠ .boot) (hn : namesMode s 4 = false) :
    modeSet s 4 = (safeCause s F.PMU_SAFECAUSE_HOSTCMD, St.ok) := by
  simp [modeSet, ht, hn, hb]

/-- SAFEHOLD asked for by MODE_SET: HOSTCMD is latched, and outside a reset the transition begins. -/
theorem modeSet_safehold_begins (hb : s.pmu.mode ≠ .boot) (hn : namesMode s 4 = false) :
    (modeSet s 4).2 = St.ok ∧ getF (modeSet s 4).1 F.PMU_SAFECAUSE_HOSTCMD = 1 ∧
      (inHold s = false → (modeSet s 4).1.pmu.trans = some { target := .safehold, kind := .safehold }) := by
  have hs : s.pmu.mode ≠ .safehold := fun h => by simp [namesMode, Mode.code, h] at hn
  rw [modeSet_safehold ht hb hn, safeCause_settled _ ht hb hs]
  refine ⟨rfl, ?_, fun hh => ?_⟩
  · split
    · exact getF_setFlag_self s _
    · rw [getF_enterSafehold _ _ (by decide)]
      exact getF_setFlag_self s _
  · rw [hh]
    exact enterSafehold_trans _ _

variable {c : Nat} (hn : namesMode s c = false)
include hn

theorem modeSet_unlisted (h1 : 1 ≤ c) (h3 : c ≤ 3) (hl : listedTransition s c = none) : modeSet s c = (s, St.badMode) := by
  have hc : ¬(c = 0 ∨ 4 < c) := by omega
  have h4 : c ≠ 4 := by omega
  simp only [listedTransition, modeSet] at hl ⊢
  generalize (if s.pmu.paired = true then Mode.spare else Mode.operate) = run at hl ⊢
  split at hl
  case h_5 => simp [ht, hn, hc, h4]
  all_goals cases hl

variable {m : Mode} {ok : Bool} (hl : listedTransition s c = some (m, ok))
include hl

/-- A transition that R37 lists: out of SAFEHOLD it waits for its causes, and its condition decides the rest. -/
theorem modeSet_listed :
    modeSet s c = if s.pmu.mode = .safehold then leaveSafehold s m ok
      else if ok then (beginTrans s m .host, St.ok) else (s, St.badParam) := by
  simp only [listedTransition, modeSet] at hl ⊢
  generalize (if s.pmu.paired = true then Mode.spare else Mode.operate) = run at hl ⊢
  split at hl
  case h_5 => cases hl
  all_goals
    rename_i hm
    cases hl
    simp [ht, hn, hm]

theorem modeSet_waits (hs : s.pmu.mode = .safehold) (hw : anyCause s = true ∨ s.pmu.above130 = true) : modeSet s c = (s, St.busy) := by
  rw [modeSet_listed ht hn hl, if_pos hs, leaveSafehold, if_pos hw]

variable (hw : ¬(s.pmu.mode = .safehold ∧ (anyCause s = true ∨ s.pmu.above130 = true)))
include hw

/-- Where no cause holds SAFEHOLD, the condition alone decides a listed transition. -/
theorem modeSet_free : modeSet s c = if ok then (beginTrans s m .host, St.ok) else (s, St.badParam) := by
  rw [modeSet_listed ht hn hl]
  split
  case isTrue hs => rw [leaveSafehold, if_neg fun h => hw ⟨hs, h⟩]
  case isFalse => rfl

end

/-! ### A loss of ownership (R40) -/

/-- OWN_IN is seen while owning: the gate is shut. -/
def gateShut (s : State) : State := excUpdate (setF (setF s F.ERF_STAT_OWN_IN 1) F.ERF_STAT_GATE 0)

/-- The loss is counted; PAIR_ID 1 deasserts OWN_OUT (R354). -/
def lossCounted (s : State) : State :=
  if (gateShut s).pmu.pairId then releaseOwn (inc (gateShut s) F.ERF_OWNCNT_LOSSES) else inc (gateShut s) F.ERF_OWNCNT_LOSSES

/-- What an owner does as it sees OWN_IN. -/
theorem ownSeen_owning {s : State} (dt : Nat) (ho : flag s F.ERF_STAT_OWN_OUT = true) (hb : s.erf.begun = true) :
    ownSeen s dt =
      if getF (gateShut s) F.ERF_EPOCH_EPOCH < max (getF (gateShut s) F.ERF_PEEREPOCH_EPOCH) (gateShut s).erf.seenEpoch then gateShut s
      else if (sequenceRuns (gateShut s) || cycleRan (gateShut s)) && (gateShut s).pmu.mode == .operate then
        safeCause (lossCounted s) F.PMU_SAFECAUSE_OWNLOST
      else lossCounted s := by
  have ho' : flag (setF s F.ERF_STAT_OWN_IN 1) F.ERF_STAT_OWN_OUT = true := by
    rwa [flag, getF_setF_other _ _ _ _ (by decide)]
  unfold ownSeen
  simp only [ho', setF_erf, hb]
  rfl

theorem gateShut_touch (s : State) : Touch 35436632080 (setF (setF s F.ERF_STAT_OWN_IN 1) F.ERF_STAT_GATE 0) (gateShut s) :=
  touch_excUpdate _ (by decide) (.refl _ _)

theorem gateShut_sequencer (s : State) :
    (gateShut s).pmu.mode = s.pmu.mode ∧ (gateShut s).pmu.trans = s.pmu.trans ∧ (gateShut s).pmu.race = s.pmu.race :=
  (gateShut_touch s).sequencer_out (by decide)

theorem gateShut_erf (s : State) : (gateShut s).erf = s.erf := (touch_erf _ (gateShut_touch s)).out rfl

theorem getF_gateShut_gate (s : State) : getF (gateShut s) F.ERF_STAT_GATE = 0 := by
  rw [(gateShut_touch s).getF_out (by decide), getF_setF_self]
  rfl

theorem getF_gateShut_ownIn (s : State) : getF (gateShut s) F.ERF_STAT_OWN_IN = 1 := by
  rw [(gateShut_touch s).getF_out (by decide), getF_setF_other _ _ _ _ (by decide), getF_setF_self]
  rfl

theorem getF_gateShut_other (s : State) {f : Field} (hf : okField 35436632080 f = false)
    (hg : fieldKey f ≠ fieldKey F.ERF_STAT_GATE) (hi : fieldKey f ≠ fieldKey F.ERF_STAT_OWN_IN) : getF (gateShut s) f = getF s f := by
  rw [(gateShut_touch s).getF_out hf, getF_setF_other _ _ _ _ hg, getF_setF_other _ _ _ _ hi]

theorem sequenceRuns_gateShut (s : State) : sequenceRuns (gateShut s) = sequenceRuns s := by
  have hl : (gateShut s).lce = s.lce := (touch_lce _ (gateShut_touch s)).out rfl
  simp [sequenceRuns, activeSeqs, hl]

theorem cycleRan_gateShut (s : State) : cycleRan (gateShut s) = cycleRan s := by
  have hnow : now (gateShut s) = now s := congrArg (·.time.toNat) ((gateShut_touch s).tbu_out (by decide))
  obtain ⟨-, htrans, hrace⟩ := gateShut_sequencer s
  rw [cycleRan, cycleUndo, hnow, htrans, hrace]
  rfl

theorem releaseOwn_touch (s : State) : Touch 35436648464 (setF (setF s F.ERF_STAT_OWN_OUT 0) F.ERF_STAT_GATE 0) (releaseOwn s) :=
  touch_excUpdate _ (by decide) (by simp +decide (maxDischargeDepth := 99) [Touch.refl, hasBit])

theorem lossCounted_sequencer (s : State) :
    (lossCounted s).pmu.mode = s.pmu.mode ∧ (lossCounted s).pmu.trans = s.pmu.trans ∧ (lossCounted s).pmu.race = s.pmu.race := by
  obtain ⟨hmode, htrans, hrace⟩ := gateShut_sequencer s
  unfold lossCounted
  split
  · obtain ⟨h1, h2, h3⟩ := (releaseOwn_touch (inc (gateShut s) F.ERF_OWNCNT_LOSSES)).sequencer_out (by decide)
    exact ⟨h1.trans hmode, h2.trans htrans, h3.trans hrace⟩
  · exact ⟨hmode, htrans, hrace⟩

theorem getF_lossCounted_gate (s : State) : getF (lossCounted s) F.ERF_STAT_GATE = 0 := by
  unfold lossCounted
  split
  · rw [(releaseOwn_touch _).getF_out (by decide), getF_setF_self]
    rfl
  · rw [getF_inc_other _ _ _ (by decide), getF_gateShut_gate]

/-- The release of OWN_OUT leaves every field of ERF but that and GATE as the count left it. -/
theorem getF_lossCounted_other (s : State) {f : Field} (hf : okField 35436648464 f = false)
    (hg : fieldKey f ≠ fieldKey F.ERF_STAT_GATE) (ho : fieldKey f ≠ fieldKey F.ERF_STAT_OWN_OUT) :
    getF (lossCounted s) f = getF (inc (gateShut s) F.ERF_OWNCNT_LOSSES) f := by
  unfold lossCounted
  split
  · rw [(releaseOwn_touch _).getF_out hf, getF_setF_other _ _ _ _ hg, getF_setF_other _ _ _ _ ho]
  · rfl

theorem getF_lossCounted_ownIn (s : State) : getF (lossCounted s) F.ERF_STAT_OWN_IN = 1 := by
  rw [getF_lossCounted_other s (by decide) (by decide) (by decide), getF_inc_other _ _ _ (by decide), getF_gateShut_ownIn]

theorem getF_lossCounted_losses (s : State) :
    getF (lossCounted s) F.ERF_OWNCNT_LOSSES = min (getF s F.ERF_OWNCNT_LOSSES + 1) 65535 := by
  rw [getF_lossCounted_other s (by decide) (by decide) (by decide), getF_inc_self, getF_gateShut_other s (by decide) (by decide) (by decide)]
  rfl

/-- OWN_IN seen by an owner on a variant that has the ball: the gate closes and a loss counts, or with a higher epoch seen none does. The
last hypothesis is what `beginTrans` ensures: a selection below the loss in R38's list, a host's, gives nothing back when displaced. -/
theorem ownIn_while_owning {s : State} (dt : Nat) (hh : inHold s = false) (hv : hasFull s = true) (ho : flag s F.ERF_STAT_OWN_OUT = true)
    (hb : s.erf.begun = true) (hu : ∀ r, s.pmu.race = some r → 5 < r.rank → r.undo = none) :
    ∃ t, exec (.ownInChange true dt) s = .next t ∧ getF t F.ERF_STAT_OWN_IN = 1 ∧ getF t F.ERF_STAT_GATE = 0 ∧
      (max (getF s F.ERF_PEEREPOCH_EPOCH) s.erf.seenEpoch ≤ getF s F.ERF_EPOCH_EPOCH →
        getF t F.ERF_OWNCNT_LOSSES = min (getF s F.ERF_OWNCNT_LOSSES + 1) 65535 ∧
        (sequenceRuns s = false → cycleRan s = false → t.pmu.mode = s.pmu.mode ∧ t.pmu.trans = s.pmu.trans)) ∧
      (getF s F.ERF_EPOCH_EPOCH < max (getF s F.ERF_PEEREPOCH_EPOCH) s.erf.seenEpoch →
        getF t F.ERF_OWNCNT_LOSSES = getF s F.ERF_OWNCNT_LOSSES ∧ t.pmu.mode = s.pmu.mode ∧ t.pmu.trans = s.pmu.trans) := by
  have hx : exec (.ownInChange true dt) s = .next (ownSeen s dt) := by
    change execOwnInChange true dt s = _
    simp [execOwnInChange, hh, hv, ownInChange]
  have hother {f : Field} := getF_gateShut_other s (f := f)
  obtain ⟨hmode, htrans, -⟩ := gateShut_sequencer s
  obtain ⟨hmode', htrans', hrace'⟩ := lossCounted_sequencer s
  rw [hx, ownSeen_owning dt ho hb, hother (by decide) (by decide) (by decide), hother (by decide) (by decide) (by decide), gateShut_erf,
    sequenceRuns_gateShut, cycleRan_gateShut, hmode]
  refine ⟨_, rfl, ?_⟩
  split
  case isTrue he =>
    exact ⟨getF_gateShut_ownIn s, getF_gateShut_gate s, fun h => by omega,
      fun _ => ⟨hother (by decide) (by decide) (by decide), hmode, htrans⟩⟩
  case isFalse he =>
    split
    case isTrue hr =>
      simp only [Bool.and_eq_true, beq_iff_eq] at hr
      have hkeep {f : Field} := getF_safeCause_operate (cause := F.PMU_SAFECAUSE_OWNLOST) (f := f) (hmode'.trans hr.2) (by rwa [hrace'])
      refine ⟨?_, ?_, fun _ => ⟨?_, fun h1 h2 => by simp [h1, h2] at hr⟩, fun h => absurd h he⟩
      · rw [hkeep (by decide) (by decide), getF_lossCounted_ownIn]
      · rw [hkeep (by decide) (by decide), getF_lossCounted_gate]
      · rw [hkeep (by decide) (by decide), getF_lossCounted_losses]
    case isFalse =>
      exact ⟨getF_lossCounted_ownIn s, getF_lossCounted_gate s, fun _ => ⟨getF_lossCounted_losses s, fun _ _ => ⟨hmode', htrans'⟩⟩,
        fun h => absurd h he⟩

/-- An owner of its outputs, gate open, in OPERATE with sequence 0 running and a MODE_SET's transition to ROOST selected. -/
def ownerBefore : State :=
  setF (setF { State.reset with
    pmu := { State.reset.pmu with mode := .operate, trans := some { target := .roost, kind := .host } }
    erf := { State.reset.erf with begun := true }
    lce := { State.reset.lce with seqs := [(0, { Seq.fresh with st := 1 })] } } F.ERF_STAT_OWN_OUT 1) F.ERF_STAT_GATE 1

/-- The same owner where the selection is of this very cycle and would give back the state before it, as those of SAFEHOLD, promotion and
demotion do. -/
def ownerRacing : State :=
  { ownerBefore with pmu := { ownerBefore.pmu with race := some { at_ := now ownerBefore, rank := transRank .host, req := none,
                                                                  undo := some (undoOf ownerBefore) } } }

theorem ownerRacing_inv : Inv ownerRacing := ⟨rfl, rfl, rfl⟩

/-- The loss stands above the host's request (R38) and displaces its selection, which gives GATE back as 1 after the loss has closed it. -/
theorem ownerRacing_gate_reopens : getF (ownInChange ownerRacing true 0) F.ERF_STAT_GATE = 1 := rfl

end Sys2Proof.Machine

section
open Sys2Proof Sys2Proof.Machine

/-- Settles O13: the rows of `modeSet` in the order of its checks (R37, R39). That BUSY comes before BAD_PARAM out of SAFEHOLD is deduced
(log entry 35), and so is the latch of a request that HCP turns away (log entry 170). -/
theorem modeSetAnswersItsStatuses : Obligations.ModeSetAnswersItsStatuses := by
  refine ⟨fun s op params => ⟨lateHostCause_outranked, lateHostCause_not_outranked op params⟩,
    fun s c => ⟨modeSet_rejected s, modeSet_inTransition, fun h1 h4 ht => ⟨fun h => modeSet_current ht h1 h4 ((namesMode_iff s c).mpr h),
      fun h => ?_⟩⟩⟩
  have hn : namesMode s c = false := by
    rw [← Bool.not_eq_true, namesMode_iff]
    exact h
  refine ⟨?_, ?_, fun hc => modeSet_unlisted ht hn h1 (by omega), fun m ok _ hl =>
    ⟨modeSet_waits ht hn hl, fun hw hok => ?_, fun hw hok => ?_⟩⟩
  · rintro rfl hb
    exact modeSet_safehold_begins ht hb hn
  · rintro rfl
    exact modeSet_safehold_boot ht
  · rw [modeSet_free ht hn hl hw, hok]
    rfl
  · rw [modeSet_free ht hn hl hw, hok]
    exact ⟨rfl, rfl⟩

/-- Refutes O14: the statement admits any record of what the selection in progress would give back. Where a host's selection, of the
cycle of the loss, would give back GATE 1, the loss displaces it and the gate stands open. The state meets the invariant (`ownerRacing_inv`),
but `beginTrans` leaves no such record; without one both clauses hold (`ownIn_while_owning`). -/
theorem not_ownershipIsLost : ¬ Obligations.OwnershipIsLost := by
  rintro ⟨-, h⟩
  obtain ⟨hloss, -⟩ := h ownerRacing 0 rfl rfl rfl rfl
  obtain ⟨t, ht, -, hgate, -⟩ := hloss (by decide) (by decide)
  have hrun : exec (.ownInChange true 0) ownerRacing = .next (ownInChange ownerRacing true 0) := rfl
  rw [hrun] at ht
  cases ht
  rw [ownerRacing_gate_reopens] at hgate
  exact absurd hgate (by decide)

end

namespace Sys2Proof.Machine

/-! ### VLD outside its limits and back inside (R83) -/

/-- What a VLD fault leaves of a port: with symbols still to come after the one in flight, the frame is to end there. A fault in the last
symbol ends nothing (the model's choice, log entry 156). -/
def endedByVld (l : LinePort) : LinePort :=
  if l.tx.any (fun x => !x.sent && decide (x.sym + 1 < x.size)) then { l with cut := true } else l

theorem endedByVld_cut {l : LinePort} {x : LineTx} (hx : l.tx = some x) (hs : x.sent = false) (hl : x.sym + 1 < x.size) :
    (endedByVld l).cut = true := by
  simp [endedByVld, hx, hs, hl]

theorem endedByVld_idem (l : LinePort) : endedByVld (endedByVld l) = endedByVld l := by
  unfold endedByVld
  split <;> rfl

/-- A port past the last reads as a fresh one, and a write there is lost. -/
theorem line_past {s : State} {n : Nat} (h : s.lines.length ≤ n) : line s n = LinePort.fresh := by
  simp [line, nth, h]

theorem line_setLine (s : State) (n k : Nat) (l : LinePort) :
    line (setLine s n l) k = if k = n ∧ n < s.lines.length then l else line s k := by
  by_cases hk : k = n
  · subst hk
    by_cases hn : k < s.lines.length <;> simp [line, setLine, nth, hn]
  · simp [line, setLine, nth, hk, List.getElem?_set_ne (Ne.symm hk)]

theorem setLine_line (s : State) (n : Nat) : setLine s n (line s n) = s := by
  have hset : s.lines.set n (line s n) = s.lines := by
    by_cases hn : n < s.lines.length
    · simp [line, nth, hn]
    · exact List.set_eq_of_length_le (Nat.le_of_not_lt hn)
  rw [setLine, hset]

/-- A VLD fault ends the frame of one port and leaves the rest of the state. -/
theorem vldCut_eq (s : State) (n : Nat) : vldCut s n = setLine s n (endedByVld (line s n)) := by
  simp only [vldCut, modLine, endedByVld]
  cases (line s n).tx with
  | none => exact (setLine_line s n).symm
  | some x =>
    simp only [Option.any_some]
    split
    · rfl
    · exact (setLine_line s n).symm

theorem vldCut_regs (s : State) (n : Nat) : (vldCut s n).regs = s.regs := by
  rw [vldCut_eq, setLine_regs]

theorem vldCut_length (s : State) (n : Nat) : (vldCut s n).lines.length = s.lines.length := by
  rw [vldCut_eq, setLine, List.length_set]

theorem line_vldCut (s : State) (n k : Nat) : line (vldCut s n) k = if k = n then endedByVld (line s k) else line s k := by
  rw [vldCut_eq, line_setLine]
  by_cases hk : k = n
  · subst hk
    by_cases hn : k < s.lines.length
    · simp [hn]
    · simp [hn, line_past (Nat.le_of_not_lt hn), endedByVld, LinePort.fresh]
  · simp [hk]

theorem vldCuts_regs (s : State) (ports : List Nat) : (ports.foldl vldCut s).regs = s.regs := by
  induction ports generalizing s with
  | nil => rfl
  | cons n ports ih => rw [List.foldl_cons, ih, vldCut_regs]

theorem vldCuts_length (s : State) (ports : List Nat) : (ports.foldl vldCut s).lines.length = s.lines.length := by
  induction ports generalizing s with
  | nil => rfl
  | cons n ports ih => rw [List.foldl_cons, ih, vldCut_length]

/-- The cuts at several ports: each of those ports ends its frame, every other is as before. -/
theorem line_vldCuts (s : State) (ports : List Nat) (k : Nat) :
    line (ports.foldl vldCut s) k = if k ∈ ports then endedByVld (line s k) else line s k := by
  induction ports generalizing s with
  | nil => rfl
  | cons n ports ih =>
    rw [List.foldl_cons, ih, line_vldCut]
    by_cases hn : k = n <;> by_cases hk : k ∈ ports <;> simp [hn, hk, endedByVld_idem]

/-- The collector touches no port, and no registers but those its queues and events count in. -/
theorem collect_touch (s : State) : Touch 2250566926336 s (collect s) := touch_collect s (by decide) (.refl _ s)

theorem collect_lines (s : State) : (collect s).lines = s.lines := (touch_lines _ (collect_touch s)).out rfl

@[simp] theorem getF_noteVld_mv (s : State) (mv : Nat) : getF (noteVld s mv) F.LPA_VLD_MV = mv % 32768 := getF_setF_self _ _ _

theorem getF_noteVld_other (s : State) (mv : Nat) {f : Field} (hf : fieldKey f ≠ fieldKey F.LPA_VLD_MV) :
    getF (noteVld s mv) f = getF s f := getF_setF_other _ _ _ _ hf

/-- The state once a VLD fault is shown by `cond` (UV or OV): the reading is noted and every port that sends ends its frame. -/
def vldFaulted (s : State) (mv : Nat) (cond : Field) : State :=
  collect ((List.range 4).foldl vldCut (setFlag (noteVld s mv) cond))

theorem getF_vldFaulted (s : State) (mv : Nat) (cond : Field) {f : Field} (hf : okField 2250566926336 f = false) :
    getF (vldFaulted s mv cond) f = getF (setFlag (noteVld s mv) cond) f :=
  ((collect_touch _).getF_out hf).trans (getF_congr _ _ _ (vldCuts_regs _ _))

theorem vldFaulted_length (s : State) (mv : Nat) (cond : Field) : (vldFaulted s mv cond).lines.length = s.lines.length := by
  rw [vldFaulted, collect_lines, vldCuts_length]
  rfl

theorem line_vldFaulted (s : State) (mv : Nat) (cond : Field) {n : Nat} (hn : n < 4) :
    line (vldFaulted s mv cond) n = endedByVld (line s n) := by
  rw [vldFaulted, line, collect_lines]
  exact (line_vldCuts _ _ n).trans (if_pos (List.mem_range.mpr hn))

theorem vldFault_undervoltage {s : State} {mv : BitVec 15} (hb : mode s ≠ .boot) (hmv : mv.toNat ≤ 7600) :
    exec (.vldFault mv) s = .next (vldFaulted s mv.toNat F.LPA_VLD_UV) := by
  change execVldFault mv s = _
  simp only [execVldFault, if_neg hb, if_pos hmv, vldFaulted]

theorem vldFault_overvoltage {s : State} {mv : BitVec 15} (hb : mode s ≠ .boot) (hmv : 18500 ≤ mv.toNat) :
    exec (.vldFault mv) s = .next (vldFaulted s mv.toNat F.LPA_VLD_OV) := by
  change execVldFault mv s = _
  have hu : ¬ mv.toNat ≤ 7600 := by omega
  simp only [execVldFault, if_neg hb, if_neg hu, if_pos hmv, vldFaulted]

/-- The state once VLD is read inside 7.9–18.2 V again. -/
def vldCleared (s : State) (mv : Nat) : State := setF (setF (noteVld s mv) F.LPA_VLD_UV 0) F.LPA_VLD_OV 0

theorem vldFaultClear_inside {s : State} {mv : BitVec 15} (hb : mode s ≠ .boot) (hmv : 7900 ≤ mv.toNat ∧ mv.toNat ≤ 18200) :
    exec (.vldFaultClear mv) s = .next (vldCleared s mv.toNat) := by
  change execVldFaultClear mv s = _
  simp only [execVldFaultClear, if_neg hb, if_pos hmv, vldCleared]

theorem vldFaultClear_outside {s : State} {mv : BitVec 15} (hb : mode s ≠ .boot) (hmv : ¬ (7900 ≤ mv.toNat ∧ mv.toNat ≤ 18200)) :
    exec (.vldFaultClear mv) s = .next (noteVld s mv.toNat) := by
  change execVldFaultClear mv s = _
  simp only [execVldFaultClear, if_neg hb, if_neg hmv]

theorem getF_vldCleared_uv (s : State) (mv : Nat) : getF (vldCleared s mv) F.LPA_VLD_UV = 0 := by
  rw [vldCleared, getF_setF_other _ _ _ _ (by decide), getF_setF_self]
  rfl

theorem getF_vldCleared_ov (s : State) (mv : Nat) : getF (vldCleared s mv) F.LPA_VLD_OV = 0 := getF_setF_self _ _ _

theorem getF_vldCleared_other (s : State) (mv : Nat) {f : Field} (hu : fieldKey f ≠ fieldKey F.LPA_VLD_UV)
    (ho : fieldKey f ≠ fieldKey F.LPA_VLD_OV) : getF (vldCleared s mv) f = getF (noteVld s mv) f := by
  rw [vldCleared, getF_setF_other _ _ _ _ ho, getF_setF_other _ _ _ _ hu]

end Sys2Proof.Machine

section
open Sys2Proof Sys2Proof.Machine

/-- Settles O20: the fault rows by what each shows (`vldFaulted`), the clear row inside and outside its limits. A fault in the last symbol,
which the statement leaves out, ends no frame (log entry 156). -/
theorem lineSupplyRowsActAtTheirLimits : Obligations.LineSupplyRowsActAtTheirLimits := by
  refine ⟨fun mv s hb hmv => ?_, fun mv s hb => ?_⟩
  · have hcut (cond : Field) (n : Nat) (x : LineTx) (hn : n < 4) (_ : n < s.lines.length) (hx : (line s n).tx = some x)
        (hs : x.sent = false) (hl : x.sym + 1 < x.size) : (line (vldFaulted s mv.toNat cond) n).cut = true := by
      rw [line_vldFaulted s _ cond hn]
      exact endedByVld_cut hx hs hl
    have hread {cond : Field} (hc : fieldKey F.LPA_VLD_MV ≠ fieldKey cond) :
        getF (vldFaulted s mv.toNat cond) F.LPA_VLD_MV = mv.toNat := by
      rw [getF_vldFaulted _ _ _ (by decide), getF_setFlag_other _ _ _ hc, getF_noteVld_mv, Nat.mod_eq_of_lt mv.isLt]
    rcases hmv with hu | ho
    · refine ⟨_, vldFault_undervoltage hb hu, fun _ => ?_, fun ho => by omega, hread (by decide), vldFaulted_length .., hcut _⟩
      rw [getF_vldFaulted _ _ _ (by decide), getF_setFlag_self]
      rfl
    · refine ⟨_, vldFault_overvoltage hb ho, fun hu => by omega, fun _ => ?_, hread (by decide), vldFaulted_length .., hcut _⟩
      rw [getF_vldFaulted _ _ _ (by decide), getF_setFlag_self]
      rfl
  · have hread : getF (noteVld s mv.toNat) F.LPA_VLD_MV = mv.toNat := by
      rw [getF_noteVld_mv, Nat.mod_eq_of_lt mv.isLt]
    by_cases hmv : 7900 ≤ mv.toNat ∧ mv.toNat ≤ 18200
    · refine ⟨_, vldFaultClear_inside hb hmv, rfl, ?_, fun _ _ => ⟨getF_vldCleared_uv .., getF_vldCleared_ov ..⟩, fun f hf hin => ?_⟩
      · rw [getF_vldCleared_other _ _ (by decide) (by decide), hread]
      · obtain ⟨hu, ho⟩ := hin hmv.1 hmv.2
        rw [getF_vldCleared_other _ _ hu ho, getF_noteVld_other _ _ hf]
    · exact ⟨_, vldFaultClear_outside hb hmv, rfl, hread, fun h1 h2 => absurd ⟨h1, h2⟩ hmv, fun f hf _ => getF_noteVld_other _ _ hf⟩

end

namespace Sys2Proof.Machine

/-! ### Cutting a list into parts (R200) -/

section
variable {α : Type} {n k : Nat} {l : List α}

theorem partsOf_of_length_le (h : l.length ≤ n) : partsOf n (k + 1) l = [l] := by
  rw [partsOf, if_pos h]

theorem partsOf_of_lt_length (h : n < l.length) : partsOf n (k + 1) l = l.take n :: partsOf n k (l.drop n) := by
  rw [partsOf, if_neg (by omega)]

/-- Each cut takes at least one entry off, so fuel above the length of the list is never used up. -/
theorem flatten_partsOf (hn : 0 < n) (hk : l.length < k) : (partsOf n k l).flatten = l := by
  induction k generalizing l with
  | zero => omega
  | succ k ih =>
    rcases Nat.lt_or_ge n l.length with h | h
    · have hrest : (partsOf n k (l.drop n)).flatten = l.drop n := ih (by rw [List.length_drop]; omega)
      rw [partsOf_of_lt_length h, List.flatten_cons, hrest, List.take_append_drop]
    · rw [partsOf_of_length_le h, List.flatten_singleton]

theorem length_le_of_mem_partsOf {p : List α} (hp : p ∈ partsOf n k l) : p.length ≤ n := by
  induction k generalizing l with
  | zero => simp [partsOf] at hp
  | succ k ih =>
    rcases Nat.lt_or_ge n l.length with h | h
    · rw [partsOf_of_lt_length h] at hp
      rcases List.mem_cons.mp hp with rfl | hrest
      · exact List.length_take_le n l
      · exact ih hrest
    · rw [partsOf_of_length_le h, List.mem_singleton] at hp
      exact hp ▸ h

/-- Only a remainder of at most `n` entries ends the cutting; every part before it is a `take n` of a longer list. -/
theorem length_eq_of_mem_dropLast_partsOf {p : List α} (hp : p ∈ (partsOf n k l).dropLast) : p.length = n := by
  induction k generalizing l with
  | zero => simp [partsOf] at hp
  | succ k ih =>
    rcases Nat.lt_or_ge n l.length with h | h
    · rw [partsOf_of_lt_length h] at hp
      by_cases hnil : partsOf n k (l.drop n) = []
      · simp [hnil] at hp
      · rw [List.dropLast_cons_of_ne_nil hnil] at hp
        rcases List.mem_cons.mp hp with rfl | hrest
        · exact List.length_take_of_le (Nat.le_of_lt h)
        · exact ih hrest
    · simp [partsOf_of_length_le h] at hp

end

end Sys2Proof.Machine

section
open Sys2Proof Sys2Proof.Machine

/-- Settles O28: the parts of `partsOf` at 156 entries a part (COUNT, R199). That each part is filled before the next begins is the model's own
choice. -/
theorem advertPartsHoldEveryEntry : Obligations.AdvertPartsHoldEveryEntry := by
  intro es
  exact ⟨flatten_partsOf (by decide) es.length.lt_succ_self, fun _ => length_le_of_mem_partsOf, fun _ => length_eq_of_mem_dropLast_partsOf⟩

end

namespace Sys2Proof.Machine

/-! ### Bits of an octet, least significant first -/

@[simp] theorem lsbBits_length (x w : Nat) : (lsbBits x w).length = w := by
  induction w generalizing x with
  | zero => rfl
  | succ w ih => rw [lsbBits, List.length_cons, ih]

theorem b2n_bit_zero (x : Nat) : b2n (bit x 0) = x % 2 := by
  rcases Nat.mod_two_eq_zero_or_one x with h | h <;> simp [b2n, bit, h]

theorem natOfBits_lsbBits (x w : Nat) : natOfBits (lsbBits x w) = x % 2 ^ w := by
  induction w generalizing x with
  | zero => rw [lsbBits, natOfBits, Nat.pow_zero, Nat.mod_one]
  | succ w ih => rw [lsbBits, natOfBits, ih, b2n_bit_zero, Nat.pow_succ', Nat.mod_mul]

/-- The bits of a byte string in the order in which they are sent: octet by octet, each from its least significant bit (R219). -/
def octetBits (p : Bytes) : List Bool := p.flatMap fun x => lsbBits x.toNat 8

theorem octetBits_cons (x : Byte) (p : Bytes) : octetBits (x :: p) = lsbBits x.toNat 8 ++ octetBits p := List.flatMap_cons

@[simp] theorem octetBits_length (p : Bytes) : (octetBits p).length = 8 * p.length := by
  induction p with
  | nil => rfl
  | cons x p ih => rw [octetBits_cons, List.length_append, lsbBits_length, ih, List.length_cons, Nat.mul_succ, Nat.add_comm]

@[simp] theorem octets_length (n : Nat) (bs : List Bool) : (octets n bs).length = n := by
  rw [octets, List.length_map, List.length_range]

theorem octets_succ (n : Nat) (bs : List Bool) :
    octets (n + 1) bs = BitVec.ofNat 8 (natOfBits (bs.take 8)) :: octets n (bs.drop 8) := by
  simp [octets, List.range_succ_eq_map, Nat.mul_succ, Nat.add_comm]

theorem octets_octetBits (p : Bytes) : octets p.length (octetBits p) = p := by
  induction p with
  | nil => rfl
  | cons x p ih =>
    have h8 : (lsbBits x.toNat 8).length = 8 := lsbBits_length ..
    rw [List.length_cons, octets_succ, octetBits_cons, List.take_left' h8, List.drop_left' h8, ih, natOfBits_lsbBits,
      Nat.mod_eq_of_lt x.isLt, BitVec.ofNat_toNat, BitVec.setWidth_eq]

/-! ### Whitening (R219) -/

@[simp] theorem whiten_length (p : Bytes) : (whiten p).length = p.length := by
  rw [whiten, List.length_zipWith, pn9Bytes, octets_length, Nat.min_self]

/-- A mask that reaches the end of a byte string, applied twice, restores it. -/
theorem zipWith_xor_twice (p m : Bytes) (h : p.length ≤ m.length) : (p.zipWith (· ^^^ ·) m).zipWith (· ^^^ ·) m = p := by
  induction p generalizing m with
  | nil => rfl
  | cons x p ih =>
    cases m with
    | nil => simp at h
    | cons y m =>
      have hrest := ih m (Nat.le_of_succ_le_succ h)
      rw [List.zipWith_cons_cons, List.zipWith_cons_cons, hrest, BitVec.xor_assoc, BitVec.xor_self, BitVec.xor_zero]

/-- The mask depends on the length alone, which whitening keeps. -/
theorem whiten_whiten (p : Bytes) : whiten (whiten p) = p := by
  have hmask : p.length ≤ (pn9Bytes p.length).length := Nat.le_of_eq (octets_length ..).symm
  rw [whiten, whiten_length]
  exact zipWith_xor_twice p _ hmask

/-! ### The FCS (R112, R219) -/

theorem crc32Step_lt {c : Nat} (k : Nat) (h : c < 2 ^ 32) : crc32Step c k < 2 ^ 32 := by
  induction k generalizing c with
  | zero => exact h
  | succ k ih =>
    have hhalf : c / 2 < 2 ^ 32 := by omega
    rw [crc32Step]
    split
    · exact ih (Nat.xor_lt_two_pow hhalf (by decide))
    · exact ih hhalf

theorem crc32_register_lt (b : Bytes) {c : Nat} (h : c < 2 ^ 32) :
    b.foldl (fun c x => crc32Step (c ^^^ x.toNat) 8) c < 2 ^ 32 := by
  induction b generalizing c with
  | nil => exact h
  | cons x b ih =>
    have hx : x.toNat < 2 ^ 32 := by omega
    exact ih (crc32Step_lt 8 (Nat.xor_lt_two_pow h hx))

theorem crc32_lt (b : Bytes) : crc32 b < 2 ^ 32 := Nat.xor_lt_two_pow (crc32_register_lt b (by decide)) (by decide)

theorem u_append_leBytes (b : Bytes) (v n : Nat) : u (b ++ leBytes v n) b.length n = v % 256 ^ n := by
  rw [u, slice, List.drop_left, List.take_of_length_le (Nat.le_of_eq (leBytes_length v n)), leNat_leBytes]

/-- Four bytes hold all of a CRC-32, so what a PSDU ends in is the CRC of what goes before. -/
theorem fcsOk_radioPsdu (head payload : Bytes) : fcsOk (radioPsdu head payload) = true := by
  have hlen : (radioPsdu head payload).length - 4 = (head ++ payload).length := by
    rw [radioPsdu, List.length_append, leBytes_length, Nat.add_sub_cancel]
  have hfits : crc32 (head ++ payload) % 256 ^ 4 = crc32 (head ++ payload) := Nat.mod_eq_of_lt (crc32_lt _)
  rw [fcsOk, hlen, radioPsdu, u_append_leBytes, List.take_left, hfits, beq_self_eq_true]

/-! ### The PHR (R219, R221) -/

theorem radioPhr_toNat {n : Nat} (h : n < 2048) : (radioPhr n).toNat = 2048 + n := by
  rw [radioPhr, BitVec.toNat_ofNat]
  omega

theorem phrLength_radioPhr {n : Nat} (h : n < 2048) : phrLength (radioPhr n) = n := by
  rw [phrLength, radioPhr_toNat h]
  omega

/-- Below 2,048 octets the length leaves bits 11 to 15 as they are: DW alone is set. -/
theorem phrOk_radioPhr {n : Nat} (hlo : 11 ≤ n) (hhi : n ≤ 1291) : phrOk (radioPhr n) = true := by
  have hn : n < 2048 := by omega
  have hms : bit (2048 + n) 15 = false := by rw [bit, beq_eq_false_iff_ne]; omega
  have hfcs : bit (2048 + n) 12 = false := by rw [bit, beq_eq_false_iff_ne]; omega
  have hdw : bit (2048 + n) 11 = true := by rw [bit, beq_iff_eq]; omega
  simp [phrOk, phrLength_radioPhr hn, radioPhr_toNat hn, hms, hfcs, hdw, hlo, hhi]

/-! ### Symbols of a frame and their reception (R218, R219) -/

theorem deviation_pos (c : RfxCfg) : 0 < deviation c := by
  rw [deviation]
  split <;> omega

/-- The four nominal deviations lie on the sides of 0 and of the inner pair that `symbolOf` decides by. -/
theorem symbolOf_nominal (c : RfxCfg) :
    symbolOf c (-(3 * deviation c)) = 0 ∧ symbolOf c (-deviation c) = 1 ∧ symbolOf c (deviation c) = 2 ∧ symbolOf c (3 * deviation c) = 3 := by
  have hd := deviation_pos c
  have hlow : -(3 * deviation c) < -deviation c := by omega
  have hneg : -deviation c < 0 := by omega
  have hpos : ¬ deviation c < -deviation c ∧ ¬ deviation c < 0 := by omega
  have hhigh : ¬ 3 * deviation c < -deviation c ∧ ¬ 3 * deviation c < 0 ∧ ¬ 3 * deviation c ≤ deviation c := by omega
  refine ⟨if_pos hlow, ?_, ?_, ?_⟩
  · rw [symbolOf, if_neg (Int.lt_irrefl _), if_pos hneg]
  · rw [symbolOf, if_neg hpos.1, if_neg hpos.2, if_pos (Int.le_refl _)]
  · rw [symbolOf, if_neg hhigh.1, if_neg hhigh.2.1, if_neg hhigh.2.2]

/-- A symbol decided right gives its bit back in 2-FSK. -/
theorem symbolBits_symbolOf_bit {c : RfxCfg} (hm : c.mod_ = 0) (b : Bool) : symbolBits c (symbolOf c (bitDeviation c b)) = [b] := by
  obtain ⟨-, hfalse, htrue, -⟩ := symbolOf_nominal c
  cases b <;> simp [bitDeviation, symbolBits, hm, hfalse, htrue]

/-- A symbol decided right gives its two bits back in 4-FSK. -/
theorem symbolBits_symbolOf_dibit {c : RfxCfg} (hm : c.mod_ ≠ 0) (b b' : Bool) :
    symbolBits c (symbolOf c (dibitDeviation c b b')) = [b, b'] := by
  obtain ⟨h11, h10, h00, h01⟩ := symbolOf_nominal c
  have hbits (k : Fin 4) : symbolBits c k = [decide (k.val ≤ 1), k.val == 0 || k.val == 3] := if_neg hm
  match b, b' with
  | true, true => exact (congrArg (symbolBits c) h11).trans (hbits 0)
  | true, false => exact (congrArg (symbolBits c) h10).trans (hbits 1)
  | false, false => exact (congrArg (symbolBits c) h00).trans (hbits 2)
  | false, true => exact (congrArg (symbolBits c) h01).trans (hbits 3)

theorem dibitDeviations_length (c : RfxCfg) (bs : List Bool) : (dibitDeviations c bs).length = bs.length / 2 := by
  induction bs using dibitDeviations.induct with
  | case1 b b' bs ih => rw [dibitDeviations, List.length_cons, ih, List.length_cons, List.length_cons]; omega
  | case2 bs h =>
    rcases bs with _ | ⟨b, _ | ⟨b', bs⟩⟩
    · rfl
    · simp [dibitDeviations]
    · exact absurd rfl (h b b' bs)

/-- The deviations of a PSDU's symbols: one a bit in 2-FSK, one a dibit in 4-FSK. -/
def psduDeviations (c : RfxCfg) (bs : List Bool) : List Int := if c.mod_ = 0 then bs.map (bitDeviation c) else dibitDeviations c bs

theorem airSymbols_eq (c : RfxCfg) (p : Bytes) :
    airSymbols c p = (airHead c p.length).map (bitDeviation c) ++ psduDeviations c (octetBits (whiten p)) := rfl

theorem bitDeviations_readBack {c : RfxCfg} (hm : c.mod_ = 0) (bs : List Bool) :
    ((bs.map (bitDeviation c)).map (symbolOf c)).flatMap (symbolBits c) = bs := by
  induction bs with
  | nil => rfl
  | cons b bs ih => rw [List.map_cons, List.map_cons, List.flatMap_cons, symbolBits_symbolOf_bit hm, ih, List.singleton_append]

theorem dibitDeviations_readBack {c : RfxCfg} (hm : c.mod_ ≠ 0) (bs : List Bool) (h : bs.length % 2 = 0) :
    ((dibitDeviations c bs).map (symbolOf c)).flatMap (symbolBits c) = bs := by
  induction bs using dibitDeviations.induct with
  | case1 b b' bs ih =>
    have hrest := ih (by simpa [Nat.add_assoc] using h)
    rw [dibitDeviations, List.map_cons, List.flatMap_cons, symbolBits_symbolOf_dibit hm, hrest]
    rfl
  | case2 bs hb =>
    rcases bs with _ | ⟨b, _ | ⟨b', bs⟩⟩
    · rfl
    · simp at h
    · exact absurd rfl (hb b b' bs)

theorem psduDeviations_readBack (c : RfxCfg) (p : Bytes) :
    ((psduDeviations c (octetBits p)).map (symbolOf c)).flatMap (symbolBits c) = octetBits p := by
  rw [psduDeviations]
  split
  case isTrue hm => exact bitDeviations_readBack hm _
  case isFalse hm => exact dibitDeviations_readBack hm _ (by rw [octetBits_length]; omega)

/-- The preamble, the SFD and the PHR: 8·PRE bits and 32 more. -/
theorem airHead_length (c : RfxCfg) (n : Nat) : (airHead c n).length = 8 * (c.pre + 4) := by
  have hpre : (List.replicate (4 * c.pre) [false, true]).flatten.length = 4 * c.pre * 2 := by simp
  rw [airHead, List.length_append, List.length_append, List.length_reverse, lsbBits_length, hpre]
  simp only [List.length_cons, List.length_nil]
  omega

theorem airSymbols_length (c : RfxCfg) (p : Bytes) : (airSymbols c p).length = airBits c p.length := by
  rw [airSymbols_eq, List.length_append, List.length_map, airHead_length, airBits, psduDeviations]
  split
  · rw [List.length_map, octetBits_length, whiten_length]
  · rw [dibitDeviations_length, octetBits_length, whiten_length]
    omega

/-- Symbols that spell the whitened PSDU's bits are decoded to the PSDU. -/
theorem radioDecode_of_bits {c : RfxCfg} {p : Bytes} {sym : List (Fin 4)} (h : sym.flatMap (symbolBits c) = octetBits (whiten p)) :
    radioDecode c p.length sym = some p := by
  have hoct : octets p.length (octetBits (whiten p)) = whiten p := by
    rw [← whiten_length p]
    exact octets_octetBits _
  have hlen : ¬ (octetBits (whiten p)).length < 8 * p.length := by rw [octetBits_length, whiten_length]; omega
  simp only [radioDecode, h, if_neg hlen, hoct, whiten_whiten]

theorem radioDecode_airSymbols (c : RfxCfg) (p : Bytes) :
    radioDecode c p.length (((airSymbols c p).drop (airHead c p.length).length).map (symbolOf c)) = some p := by
  have hpsdu : (airSymbols c p).drop (airHead c p.length).length = psduDeviations c (octetBits (whiten p)) := by
    rw [airSymbols_eq]
    exact List.drop_left' (List.length_map ..)
  rw [hpsdu]
  exact radioDecode_of_bits (psduDeviations_readBack c (whiten p))

end Sys2Proof.Machine

section
open Sys2Proof Sys2Proof.Machine

/-- Settles O27: whitening, the FCS, the PHR within the limits of R221, and the symbols of a frame, each by its law above. The PN9 sequence
(log entry 22) and the bit orders, the CRC of the FCS and the sense of a bit (log entry 148) are presumed from IEEE 802.15.4g. -/
theorem radioFrameReadsBack : Obligations.RadioFrameReadsBack :=
  ⟨whiten_whiten, fcsOk_radioPsdu, fun _ hlo hhi => ⟨phrOk_radioPhr hlo hhi, phrLength_radioPhr (by omega)⟩,
    fun c p => ⟨airSymbols_length c p, radioDecode_airSymbols c p⟩⟩

end

namespace Sys2Proof.Machine

/-! ### One bit of a number -/

theorem bit_zero (x : Nat) : bit x 0 = (x % 2 == 1) := by rw [bit, Nat.pow_zero, Nat.div_one]

theorem bit_succ (x k : Nat) : bit x (k + 1) = bit (x / 2) k := by rw [bit, bit, Nat.pow_succ', Nat.div_div_eq_div_mul]

theorem bit_eq_testBit (x k : Nat) : bit x k = x.testBit k := hasBit_eq x k

/-- A bit that is clear is set by adding it: no carry reaches the other bits. -/
theorem bit_add_two_pow {x i : Nat} (h : bit x i = false) (k : Nat) : bit (x + 2 ^ i) k = if k = i then true else bit x k := by
  induction i generalizing x k with
  | zero =>
    have heven : x % 2 = 0 := by simpa [bit_zero] using h
    cases k with
    | zero => simp [bit_zero, Nat.add_mod, heven]
    | succ k =>
      have hhalf : (x + 1) / 2 = x / 2 := by omega
      simp [bit_succ, hhalf]
  | succ i ih =>
    cases k with
    | zero => simp [bit_zero, Nat.pow_succ, Nat.add_mod]
    | succ k =>
      have hhalf : (x + 2 ^ (i + 1)) / 2 = x / 2 + 2 ^ i := by omega
      rw [bit_succ] at h
      simp [bit_succ, hhalf, ih h]

theorem bit_withBit (x i : Nat) (v : Bool) (k : Nat) : bit (withBit x i v) k = if k = i then v else bit x k := by
  by_cases hv : bit x i = v
  · rw [withBit, if_pos hv]
    split
    case isTrue hk => rw [hk, hv]
    case isFalse => rfl
  · cases v with
    | true =>
      rw [withBit, if_neg hv, if_pos rfl]
      exact bit_add_two_pow (by simpa using hv) k
    | false =>
      have hset : x.testBit i = true := by simpa [bit_eq_testBit] using hv
      obtain ⟨y, rfl⟩ : ∃ y, x = y + 2 ^ i := ⟨_, (Nat.sub_add_cancel (Nat.ge_two_pow_of_testBit hset)).symm⟩
      have hy : bit y i = false := by simpa [bit_eq_testBit, Nat.add_comm y, Nat.testBit_two_pow_add_eq] using hset
      rw [withBit, if_neg hv, if_neg Bool.false_ne_true, Nat.add_sub_cancel, bit_add_two_pow hy]
      split
      case isTrue hk => rw [hk, hy]
      case isFalse => rfl

/-- A number cut to `w` bits keeps them. -/
theorem bit_mod_two_pow {k w : Nat} (x : Nat) (hk : k < w) : bit (x % 2 ^ w) k = bit x k := by
  simp [bit_eq_testBit, hk]

/-! ### The rows of PLL M (R239, R461) -/

/-- What touches neither memory leaves what both read. -/
theorem Touch.sameMemory {m : Nat} {s t : State} (h : Touch m s t) (hb : hasBit m 1 = false ∧ hasBit m 2 = false) : SameMemory s t := by
  have hsram : t.sram = s.sram := (touch_sram t h).out hb.1
  have hflash : t.flash = s.flash := (touch_flash t h).out hb.2
  exact ⟨fun a n => by rw [memRead, memRead, hsram], fun a n => by rw [flashBytes, flashBytes, hflash]⟩

/-- The lock bit of PLL M is written; the registers before stay in force for the samples output up to now. -/
def pllMWritten (s : State) (v : Bool) : State :=
  setF (keepPast s) F.PMU_PLLSTAT_LOCK (withBit (getF s F.PMU_PLLSTAT_LOCK) 3 v)

theorem bit_lock_pllMWritten (s : State) (v : Bool) {k : Nat} (hk : k < 4) :
    bit (getF (pllMWritten s v) F.PMU_PLLSTAT_LOCK) k = if k = 3 then v else bit (getF s F.PMU_PLLSTAT_LOCK) k := by
  rw [pllMWritten, getF_setF_self, bit_mod_two_pow (w := F.PMU_PLLSTAT_LOCK.width) _ hk, bit_withBit]

/-- The state once PLL M has lost its lock: the loss is counted, and a powered MFE sets UNLOCKED and raises MEASURE. -/
def pllMLost (s : State) : State :=
  let t := inc (pllMWritten s false) F.PMU_PLLSTAT_MLOSS
  if mfeOn s then measEvent (setFlag t F.MFE_GRIDSTAT_UNLOCKED) 8 (leBytes 0xFF 1 ++ leBytes 0 1) else t

/-- The state once PLL M has locked again: a powered MFE restarts every settle counter and raises MEASURE. -/
def pllMBack (s : State) : State :=
  let t := pllMWritten s true
  if mfeOn s then measEvent (restartAll t) 8 (leBytes 0xFF 1 ++ leBytes 1 1) else t

section
variable {s : State}

theorem pllMUnlock_locked (h : bit (getF s F.PMU_PLLSTAT_LOCK) 3 = true) : exec .pllMUnlock s = .next (pllMLost s) := by
  change execPllMUnlock s = _
  rw [execPllMUnlock, if_pos h]
  rfl

theorem pllMUnlock_unlocked (h : bit (getF s F.PMU_PLLSTAT_LOCK) 3 = false) : exec .pllMUnlock s = .next s := by
  change execPllMUnlock s = _
  rw [execPllMUnlock, if_neg (by simp [h])]

theorem pllMRelock_unlocked (h : bit (getF s F.PMU_PLLSTAT_LOCK) 3 = false) : exec .pllMRelock s = .next (pllMBack s) := by
  change execPllMRelock s = _
  rw [execPllMRelock, if_pos (by simp [h])]
  rfl

theorem pllMRelock_locked (h : bit (getF s F.PMU_PLLSTAT_LOCK) 3 = true) : exec .pllMRelock s = .next s := by
  change execPllMRelock s = _
  rw [execPllMRelock, if_neg (by simp [h])]

end

theorem pllMLost_touch {s : State} (h : bit (getF s F.PMU_PLLSTAT_LOCK) 3 = true) : Touch 52625805312 s (pllMLost s) := by
  have hrow : TouchBy 52625805312 s (exec .pllMUnlock s) := touch_execPllMUnlock s (by decide) (.refl _ s)
  rwa [pllMUnlock_locked h] at hrow

theorem pllMBack_touch {s : State} (h : bit (getF s F.PMU_PLLSTAT_LOCK) 3 = false) : Touch 51552063488 s (pllMBack s) := by
  have hrow : TouchBy 51552063488 s (exec .pllMRelock s) := touch_execPllMRelock s (by decide) (.refl _ s)
  rwa [pllMRelock_unlocked h] at hrow

theorem getF_lock_pllMLost (s : State) : getF (pllMLost s) F.PMU_PLLSTAT_LOCK = getF (pllMWritten s false) F.PMU_PLLSTAT_LOCK := by
  rw [pllMLost]
  split
  · rw [(QueueFrame.measEvent _ _ _).regs _ (by decide), getF_setFlag_other _ _ _ (by decide), getF_inc_other _ _ _ (by decide)]
  · exact getF_inc_other _ _ _ (by decide)

theorem getF_unlocked_pllMLost {s : State} (hm : mfeOn s = true) : getF (pllMLost s) F.MFE_GRIDSTAT_UNLOCKED = 1 := by
  rw [pllMLost, if_pos hm, (QueueFrame.measEvent _ _ _).regs _ (by decide), getF_setFlag_self]
  rfl

theorem getF_lock_pllMBack (s : State) : getF (pllMBack s) F.PMU_PLLSTAT_LOCK = getF (pllMWritten s true) F.PMU_PLLSTAT_LOCK := by
  rw [pllMBack]
  split
  · rw [(QueueFrame.measEvent _ _ _).regs _ (by decide)]
    exact (touch_restartAll (m := 4096) _ (by decide) (.refl _ _)).getF_out (by decide)
  · rfl

end Sys2Proof.Machine

section
open Sys2Proof Sys2Proof.Machine

/-- Settles O21: each row by the state it leaves (`pllMLost`, `pllMBack`), where one bit of LOCK is written (`bit_lock_pllMWritten`). Of the
PMU the rows touch its registers alone, and of the memories nothing, so that no reset begins (R461). -/
theorem modulatorPllRowsShowTheLock : Obligations.ModulatorPllRowsShowTheLock := by
  refine ⟨fun s h => ⟨pllMLost s, pllMUnlock_locked h, fun k hk => ?_, getF_unlocked_pllMLost, (pllMLost_touch h).pmu_out (by decide),
      (pllMLost_touch h).sameMemory (by decide)⟩,
    fun s h => ⟨pllMUnlock_unlocked h, pllMBack s, pllMRelock_unlocked h, fun k hk => ?_, (pllMBack_touch h).pmu_out (by decide),
      (pllMBack_touch h).sameMemory (by decide)⟩, fun s h => pllMRelock_locked h⟩
  · rw [getF_lock_pllMLost, bit_lock_pllMWritten s _ hk]
    by_cases h3 : k = 3 <;> simp [h3]
  · rw [getF_lock_pllMBack, bit_lock_pllMWritten s _ hk]
    by_cases h3 : k = 3 <;> simp [h3]

end

namespace Sys2Proof.Machine

/-! ### A commit of a coefficient set (R296) -/

theorem memRead_collect (s : State) (a n : Nat) : memRead (collect s) a n = memRead s a n := by
  simp only [memRead, (touch_sram _ (collect_touch s)).out rfl]

theorem collect_dch (s : State) : (collect s).dch = s.dch := (touch_dch _ (collect_touch s)).out rfl

/-- The pending commit of set `k` is taken, and the set in force is kept for the samples output up to now. -/
def linTaken (s : State) (k : Nat) : State :=
  keepSets { s with dch := { s.dch with linPending := none } } (Base.coef + 128 * k) 128

/-- The image `b` of set `k` is then written, and PENDING cleared. -/
def linWritten (s : State) (k : Nat) (b : Bytes) : State :=
  setF (memWrite (linTaken s k) (Base.coef + 128 * k) b) F.DCH_LINSET_PENDING 0

theorem linCommitComplete_pending {s : State} {k : Nat} {b : Bytes} (h : s.dch.linPending = some (k, b)) :
    exec .linCommitComplete s = .next (collect (linWritten s k b)) := by
  change execLinCommitComplete s = _
  simp only [execLinCommitComplete, linComplete, h, linWritten, linTaken]

theorem memRead_linWritten_self (s : State) (k : Nat) (b : Bytes) :
    memRead (linWritten s k b) (Base.coef + 128 * k) b.length = b := memRead_memWrite_self (linTaken s k) _ b

theorem memRead_linWritten_outside (s : State) (k : Nat) (b : Bytes) {a n : Nat}
    (h : a + n ≤ Base.coef + 128 * k ∨ Base.coef + 128 * k + b.length ≤ a) : memRead (linWritten s k b) a n = memRead s a n :=
  memRead_memWrite_outside (linTaken s k) _ a n b h

theorem getF_pending_linWritten (s : State) (k : Nat) (b : Bytes) : getF (linWritten s k b) F.DCH_LINSET_PENDING = 0 :=
  getF_setF_self _ _ _

theorem linPending_linWritten (s : State) (k : Nat) (b : Bytes) : (linWritten s k b).dch.linPending = none := by
  rw [linWritten, setF_dch, memWrite_dch]
  rfl

end Sys2Proof.Machine

section
open Sys2Proof Sys2Proof.Machine

/-- Settles O26: by the state the commit's write leaves (`linWritten`), in the set and outside it (R296). What the collector then does for the
mirror (R348) reaches neither main SRAM nor DCH, its registers included (`collect_touch`). -/
theorem linCommitReplacesTheSet : Obligations.LinCommitReplacesTheSet := by
  intro k b s hp hb
  refine ⟨collect (linWritten s k b), linCommitComplete_pending hp, ?_, fun a n ha => ?_, ?_, ?_⟩
  · have hself := memRead_linWritten_self s k b
    rw [hb] at hself
    rw [memRead_collect, hself]
  · rw [memRead_collect, memRead_linWritten_outside s k b (by rwa [hb])]
  · rw [(collect_touch _).getF_out (by decide), getF_pending_linWritten]
  · rw [collect_dch, linPending_linWritten]

end

namespace Sys2Proof.Machine

/-! ### Accepted levels and expired leases (R309, R327, R329) -/

/-- What one field's write changes. -/
theorem onlyRegs_setF (s : State) (f : Field) (v : Nat) : OnlyRegs [f] s (setF s f v) :=
  ⟨rfl, fun g hg => getF_setF_other s f g v (hg f List.mem_cons_self)⟩

theorem lock_setLock_same {s : State} {i : Nat} (l : Lock) (hi : i < s.lce.locks.length) : lock (setLock s i l) i = l := by
  simp [lock, setLock, nth, hi]

theorem lock_setLock_other (s : State) {i k : Nat} (l : Lock) (hk : k ≠ i) : lock (setLock s i l) k = lock s k := by
  simp [lock, setLock, nth, Ne.symm hk]

/-- The pass of time reaches no unit but the time base. -/
theorem advanceTo_touch (s : State) (t : Nat) : Touch 96 s (advanceTo s t) := touch_advanceTo s t (by decide) (.refl _ s)

@[simp] theorem advanceTo_lce (s : State) (t : Nat) : (advanceTo s t).lce = s.lce := (touch_lce _ (advanceTo_touch s t)).out rfl

theorem lock_advanceTo (s : State) (t k : Nat) : lock (advanceTo s t) k = lock s k := by rw [lock, lock, advanceTo_lce]

/-- The level of one input is written. -/
def levelShown (s : State) (di : Nat) (level : Bool) : State :=
  setF s F.LCE_DI_LEVEL (withBit (getF s F.LCE_DI_LEVEL) di level)

theorem diLevelAccept_on {s : State} (di : Fin 16) (level : Bool) (h : hcpOn s = true) :
    exec (.diLevelAccept di level) s = .next (levelShown s di level) := by
  change execDiLevelAccept di level s = _
  rw [execDiLevelAccept, if_pos h]
  rfl

theorem bit_level_levelShown (s : State) (di : Nat) (level : Bool) {k : Nat} (hk : k < 16) :
    bit (getF (levelShown s di level) F.LCE_DI_LEVEL) k = if k = di then level else bit (getF s F.LCE_DI_LEVEL) k := by
  rw [levelShown, getF_setF_self, bit_mod_two_pow (w := F.LCE_DI_LEVEL.width) _ hk, bit_withBit]

/-- Mesh time has reached the lock's expiry, and the lock is marked lost by it; the loss is not yet counted. -/
def leaseMarked (s : State) (l : Nat) : State :=
  setLock (advanceTo s (lock s l).expiry) l { lock s l with lost := some 2 }

/-- The loss is then counted. -/
def leaseLost (s : State) (l : Nat) : State := inc (leaseMarked s l) F.LCE_CNT1_EXPIRED

section
variable {s : State} {l : Fin 32}

theorem leaseExpiry_held (hst : (lock s l).st = .held) (hlost : (lock s l).lost = none)
    (hrule : (lock s l).owner.cls ≠ 0 ∨ ruleOn s (lock s l).owner.id = false) : exec (.leaseExpiry l) s = .next (leaseLost s l) := by
  change execLeaseExpiry l s = _
  rw [execLeaseExpiry, if_pos ⟨hst, by simp [hlost], by simpa using hrule⟩]
  rfl

/-- The hold of a rule in use is renewed in every tick (R327). -/
theorem leaseExpiry_ruleInUse (hcls : (lock s l).owner.cls = 0) (hon : ruleOn s (lock s l).owner.id = true) :
    exec (.leaseExpiry l) s = .next s := by
  change execLeaseExpiry l s = _
  rw [execLeaseExpiry, if_neg (by simp [hcls, hon])]

end

section
variable (s : State)

theorem lock_leaseLost_same {l : Nat} (hl : l < s.lce.locks.length) : lock (leaseLost s l) l = { lock s l with lost := some 2 } :=
  lock_setLock_same _ (by rwa [advanceTo_lce])

theorem lock_leaseLost_other {l k : Nat} (hk : k ≠ l) : lock (leaseLost s l) k = lock s k :=
  (lock_setLock_other _ _ hk).trans (lock_advanceTo s _ k)

theorem getF_expired_leaseMarked (l : Nat) : getF (leaseMarked s l) F.LCE_CNT1_EXPIRED = getF s F.LCE_CNT1_EXPIRED :=
  (advanceTo_touch s (lock s l).expiry).getF_out (by decide)

theorem getF_expired_leaseLost (l : Nat) :
    getF (leaseLost s l) F.LCE_CNT1_EXPIRED = min (getF s F.LCE_CNT1_EXPIRED + 1) (2 ^ F.LCE_CNT1_EXPIRED.width - 1) := by
  rw [leaseLost, getF_inc_self, getF_expired_leaseMarked]

/-- The loss writes no memory: only the time base passes time, and its lock and its counter are LCE's own. -/
theorem sameMemory_leaseLost (l : Nat) : SameMemory s (leaseLost s l) :=
  (advanceTo_touch s (lock s l).expiry).sameMemory (by decide)

end

end Sys2Proof.Machine

section
open Sys2Proof Sys2Proof.Machine

/-- Settles O22: an accepted level writes one bit of LCE_DI (`bit_level_levelShown`, R309); an expired lease by the state it leaves
(`leaseLost`, R329), since the pass of time up to the expiry reaches the time base alone (`advanceTo_touch`). That the hold of a rule in use
does not expire rests on its renewal in every tick (R327). -/
theorem controlRowsAcceptLevelsAndLoseLeases : Obligations.ControlRowsAcceptLevelsAndLoseLeases := by
  refine ⟨fun di level s hon => ⟨levelShown s di level, diLevelAccept_on di level hon, onlyRegs_setF s _ _, fun k => ?_⟩,
    fun l s hl hst hlost hrule => ⟨leaseLost s l, leaseExpiry_held hst hlost hrule, lock_leaseLost_same s hl,
      fun k => lock_leaseLost_other s, getF_expired_leaseLost s l, sameMemory_leaseLost s l⟩,
    fun l s => leaseExpiry_ruleInUse⟩
  rw [bit_level_levelShown s di level k.isLt]
  simp only [Fin.ext_iff]

end

namespace Sys2Proof.Machine

/-! ### Numbers in a byte string -/

theorem u_append_right (a b : Bytes) : u (a ++ b) a.length b.length = leNat b := by
  rw [u, slice, List.drop_left, List.take_length]

theorem u_leBytes_append (v n : Nat) (b : Bytes) : u (leBytes v n ++ b) 0 n = v % 256 ^ n := by
  rw [u, slice, List.drop_zero, List.take_left' (leBytes_length v n), leNat_leBytes]

/-- What stands behind a number of `w` bytes is read at an offset less by `w`. -/
theorem u_leBytes_append_skip (v : Nat) {w o : Nat} (n : Nat) (b : Bytes) (h : w ≤ o) : u (leBytes v w ++ b) o n = u b (o - w) n := by
  have hdrop : (leBytes v w ++ b).drop o = b.drop (o - w) := by
    rw [List.drop_append, leBytes_length, List.drop_eq_nil_of_le (by rwa [leBytes_length]), List.nil_append]
  rw [u, slice, hdrop, u, slice]

/-- Bytes are those of the number that they spell. -/
theorem leBytes_leNat (b : Bytes) : leBytes (leNat b) b.length = b := by
  induction b with
  | nil => rfl
  | cons x b ih =>
    have hx := x.isLt
    have hlow : BitVec.ofNat 8 (leNat (x :: b)) = x := by
      apply BitVec.eq_of_toNat_eq
      rw [BitVec.toNat_ofNat, leNat]
      omega
    have hrest : leNat (x :: b) / 256 = leNat b := by rw [leNat]; omega
    rw [List.length_cons, leBytes, hlow, hrest, ih]

/-- A word reads back from the low bits of the bytes that hold it. -/
theorem ofNat_toNat_mod_bytes {w : Nat} (x : BitVec w) {n : Nat} (h : w ≤ 8 * n) : BitVec.ofNat w (x.toNat % 256 ^ n) = x := by
  have hle : 2 ^ w ≤ 256 ^ n := by
    have hbytes : (256 : Nat) ^ n = 2 ^ (8 * n) := by rw [Nat.pow_mul]
    rw [hbytes]
    exact Nat.pow_le_pow_right (by decide) h
  rw [Nat.mod_eq_of_lt (Nat.lt_of_lt_of_le x.isLt hle), BitVec.ofNat_toNat, BitVec.setWidth_eq]

theorem b2n_lt_two (b : Bool) : b2n b < 2 := by cases b <;> decide

theorem natOfBits_lt (bs : List Bool) : natOfBits bs < 2 ^ bs.length := by
  induction bs with
  | nil => decide
  | cons b bs ih =>
    have hb := b2n_lt_two b
    rw [natOfBits, List.length_cons, Nat.pow_succ]
    omega

theorem bit_natOfBits (bs : List Bool) (k : Nat) : bit (natOfBits bs) k = bs.getD k false := by
  induction bs generalizing k with
  | nil => simp [natOfBits, bit]
  | cons b bs ih =>
    cases k with
    | zero => cases b <;> simp [natOfBits, bit_zero, b2n]
    | succ k =>
      have hb := b2n_lt_two b
      have hrest : (b2n b + 2 * natOfBits bs) / 2 = natOfBits bs := by omega
      rw [natOfBits, bit_succ, hrest, ih, List.getD_cons_succ]

/-! ### The body of a heartbeat (R346) -/

/-- The flags above ROLE in byte 0, from bit 2. -/
def hbFlags (h : Heartbeat) : List Bool := [h.unfit, h.synced, h.pairId, h.own, h.nak, h.copyStart]

/-- Byte 0: ROLE in its two lowest bits, then the flags. -/
def hbByte0 (h : Heartbeat) : Nat := h.role.toNat + 4 * natOfBits (hbFlags h)

section
variable (h : Heartbeat)

theorem hbByte0_lt : hbByte0 h < 256 := by
  have hflags : natOfBits (hbFlags h) < 64 := natOfBits_lt (hbFlags h)
  have hrole := h.role.isLt
  rw [hbByte0]
  omega

theorem ofNat_hbByte0 : BitVec.ofNat 2 (hbByte0 h) = h.role := by
  have hrole := h.role.isLt
  apply BitVec.eq_of_toNat_eq
  rw [BitVec.toNat_ofNat, hbByte0]
  omega

theorem bit_hbByte0 (k : Nat) : bit (hbByte0 h) (k + 2) = (hbFlags h).getD k false := by
  have hrole := h.role.isLt
  have habove : hbByte0 h / 2 / 2 = natOfBits (hbFlags h) := by rw [hbByte0]; omega
  rw [bit_succ, bit_succ, habove, bit_natOfBits]

/-- The body number by number: each is read at its offset by skipping those before it. -/
theorem hbBytes_eq : hbBytes h =
    leBytes (hbByte0 h) 1 ++ (leBytes h.mode.toNat 1 ++ (leBytes h.lanes.toNat 1 ++ (leBytes 0 1 ++ (leBytes h.epoch.toNat 4 ++
      (leBytes h.ackSeq.toNat 2 ++ (leBytes h.nakSeq.toNat 2 ++ (leBytes h.sfn.toNat 4 ++ (leBytes h.mtime.toNat 8 ++
      (leBytes h.dbo.toNat 2 ++ (leBytes h.shift.toNat 3 ++ (leBytes h.count.toNat 1 ++ (leBytes 0 2 ++ [])))))))))))) := by
  have hbyte : h.role.toNat + 4 * b2n h.unfit + 8 * b2n h.synced + 16 * b2n h.pairId + 32 * b2n h.own + 64 * b2n h.nak
      + 128 * b2n h.copyStart = hbByte0 h := by
    simp only [hbByte0, hbFlags, natOfBits]
    omega
  rw [hbBytes, hbyte]
  simp only [List.append_assoc, List.append_nil]

theorem hbBytes_length : (hbBytes h).length = 32 := by
  simp [hbBytes_eq]

/-- The reserved bytes, 3 and the last two. -/
theorem hbBytes_reserved : u (hbBytes h) 3 1 = 0 ∧ u (hbBytes h) 30 2 = 0 := by
  simp only [hbBytes_eq, u_leBytes_append, u_leBytes_append_skip, Nat.reduceLeDiff, Nat.reduceSub, Nat.zero_mod, and_self]

theorem hbOf_hbBytes : hbOf (hbBytes h) = h := by
  have hbyte : hbByte0 h % 256 ^ 1 = hbByte0 h := Nat.mod_eq_of_lt (hbByte0_lt h)
  simp only [hbOf, hbBytes_eq, u_leBytes_append, u_leBytes_append_skip, Nat.reduceLeDiff, Nat.reduceSub, hbyte, ofNat_hbByte0,
    bit_hbByte0, Nat.reduceMul, ofNat_toNat_mod_bytes]
  rfl

end

end Sys2Proof.Machine

section
open Sys2Proof Sys2Proof.Machine

/-- Settles O16: by the body written number by number (`hbBytes_eq`), where each field is read at its offset of R346, and the flags of byte 0
bit by bit (`bit_hbByte0`). -/
theorem heartbeatBodyReadsBack : Obligations.HeartbeatBodyReadsBack := by
  intro h
  obtain ⟨hthree, hthirty⟩ := hbBytes_reserved h
  exact ⟨hbBytes_length h, hthree, hthirty, hbOf_hbBytes h⟩

end

namespace Sys2Proof.Machine

/-! ### Erfa frames (R343) -/

theorem crc32cStep_lt {c : Nat} (k : Nat) (h : c < 2 ^ 32) : crc32cStep c k < 2 ^ 32 := by
  induction k generalizing c with
  | zero => exact h
  | succ k ih =>
    have hhalf : c / 2 < 2 ^ 32 := by omega
    rw [crc32cStep]
    split
    · exact ih (Nat.xor_lt_two_pow hhalf (by decide))
    · exact ih hhalf

theorem crc32c_lt (b : Bytes) : crc32c b < 2 ^ 32 := by
  refine Nat.xor_lt_two_pow (List.foldlRecOn b _ (motive := (· < 2 ^ 32)) (by decide) fun c hc x _ => ?_) (by decide)
  have hx : x.toNat < 2 ^ 32 := by omega
  exact crc32cStep_lt 8 (Nat.xor_lt_two_pow hc hx)

/-- The five bytes before BODY. -/
def erfHead (type lseq len : Nat) : Bytes := leBytes type 1 ++ (leBytes lseq 2 ++ leBytes len 2)

/-- What the CRC covers: a frame from TYPE to BODY. -/
def erfCovered (type lseq : Nat) (body : Bytes) : Bytes := erfHead type lseq body.length ++ body

section
variable (type lseq : Nat) (body : Bytes)

theorem erfFrame_eq : erfFrame type lseq body = erfCovered type lseq body ++ leBytes (crc32c (erfCovered type lseq body)) 4 := by
  simp only [erfFrame, erfCovered, erfHead, List.append_assoc]

theorem erfHead_length (len : Nat) : (erfHead type lseq len).length = 5 := by simp [erfHead]

theorem erfCovered_length : (erfCovered type lseq body).length = body.length + 5 := by
  rw [erfCovered, List.length_append, erfHead_length, Nat.add_comm]

theorem erfFrame_length : (erfFrame type lseq body).length = body.length + 9 := by
  rw [erfFrame_eq, List.length_append, erfCovered_length, leBytes_length]

theorem take_erfFrame : (erfFrame type lseq body).take (body.length + 5) = erfCovered type lseq body := by
  rw [erfFrame_eq]
  exact List.take_left' (erfCovered_length ..)

theorem drop_erfFrame : (erfFrame type lseq body).drop (body.length + 5) = leBytes (crc32c (erfCovered type lseq body)) 4 := by
  rw [erfFrame_eq]
  exact List.drop_left' (erfCovered_length ..)

end

/-- The numbers of the head read back from any bytes that begin with it. -/
theorem u_erfHead_append {type lseq len : Nat} (ht : type < 256) (hs : lseq < 65536) (hl : len < 65536) (b : Bytes) :
    u (erfHead type lseq len ++ b) 0 1 = type ∧ u (erfHead type lseq len ++ b) 1 2 = lseq ∧ u (erfHead type lseq len ++ b) 3 2 = len := by
  simp only [erfHead, List.append_assoc, u_leBytes_append, u_leBytes_append_skip, Nat.reduceLeDiff, Nat.reduceSub]
  exact ⟨Nat.mod_eq_of_lt ht, Nat.mod_eq_of_lt hs, Nat.mod_eq_of_lt hl⟩

/-- With any four bytes at its end, a frame is read exactly if they spell the CRC of what stands before them. -/
theorem erfParse_covered {type lseq : Nat} {body c : Bytes} (ht : type < 256) (hs : lseq < 65536) (hb : body.length ≤ 2048)
    (hc : c.length = 4) : erfParse (erfCovered type lseq body ++ c) =
      if crc32c (erfCovered type lseq body) = leNat c then some (type, lseq, body) else none := by
  have hcov : (erfCovered type lseq body).length = 5 + body.length := (erfCovered_length ..).trans (Nat.add_comm ..)
  have hlen : (erfCovered type lseq body ++ c).length = body.length + 9 := by rw [List.length_append, hcov, hc]; omega
  have htake : (erfCovered type lseq body ++ c).take (5 + body.length) = erfCovered type lseq body := List.take_left' hcov
  have hcrc : u (erfCovered type lseq body ++ c) (5 + body.length) 4 = leNat c := by rw [← hcov, ← hc, u_append_right]
  have hbody : slice (erfCovered type lseq body ++ c) 5 body.length = body := by
    rw [slice, erfCovered, List.append_assoc, List.drop_left' (erfHead_length ..), List.take_left]
  obtain ⟨htype, hlseq, hcount⟩ := u_erfHead_append ht hs (Nat.lt_of_le_of_lt hb (by decide)) (body ++ c)
  rw [← List.append_assoc, ← erfCovered] at htype hlseq hcount
  simp only [erfParse, hlen, Nat.add_sub_cancel, Nat.le_add_left, htype, hlseq, hcount, hb, htake, hcrc, hbody, true_and]

end Sys2Proof.Machine

section
open Sys2Proof Sys2Proof.Machine

/-- Settles O17: a frame with any four bytes in the CRC's place is read exactly if they spell the CRC (`erfParse_covered`); those of the frame
do, since a CRC-32C fits them (`crc32c_lt`), and no others do, since bytes are those of the number they spell (`leBytes_leNat`). -/
theorem erfaFrameReadsBack : Obligations.ErfaFrameReadsBack := by
  intro type lseq body ht hs hb
  refine ⟨?_, erfFrame_length .., fun c hc hne => ?_⟩
  · have hfits : crc32c (erfCovered type lseq body) % 256 ^ 4 = crc32c (erfCovered type lseq body) := Nat.mod_eq_of_lt (crc32c_lt _)
    rw [erfFrame_eq, erfParse_covered ht hs hb (leBytes_length ..), leNat_leBytes, hfits, if_pos rfl]
  · rw [drop_erfFrame] at hne
    rw [take_erfFrame, erfParse_covered ht hs hb hc, if_neg fun hcrc => hne ?_]
    rw [hcrc, ← hc, leBytes_leNat]

end

namespace Sys2Proof.Machine

/-! ### Claim, gate and record of the epoch (R340, R354) -/

/-- OWN_OUT is asserted, and ownership has not begun. -/
def ownClaimed (s : State) : State := { setF s F.ERF_STAT_OWN_OUT 1 with erf := { s.erf with begun := false } }

theorem ownClaim_claiming {s : State} (hh : inHold s = false) (hm : mode s = .commission ∨ mode s = .operate)
    (hin : flag s F.ERF_STAT_OWN_IN = false) (hout : flag s F.ERF_STAT_OWN_OUT = false) : exec .ownClaim s = .next (ownClaimed s) := by
  have hc : claims s = true := by simpa [claims] using hm
  change execOwnClaim s = _
  simp only [execOwnClaim, hh, ownClaim, hc, hin, hout]
  rfl

theorem getF_ownClaimed_ownOut (s : State) : getF (ownClaimed s) F.ERF_STAT_OWN_OUT = 1 := getF_setF_self s _ _

theorem getF_ownClaimed_other (s : State) {f : Field} (hf : fieldKey f ≠ fieldKey F.ERF_STAT_OWN_OUT) :
    getF (ownClaimed s) f = getF s f := getF_setF_other s _ _ _ hf

/-- Ownership begins with the gate open; the excitation has not yet followed the gate. -/
def ownBegun (s : State) : State := { setF s F.ERF_STAT_GATE 1 with erf := { s.erf with begun := true } }

theorem gateOpen_owning {s : State} (hh : inHold s = false) (hin : flag s F.ERF_STAT_OWN_IN = false)
    (hout : flag s F.ERF_STAT_OWN_OUT = true) : exec .gateOpen s = .next (excUpdate (ownBegun s)) := by
  change execGateOpen s = _
  simp only [execGateOpen, hh, openGate, hin, hout]
  rfl

theorem gateOpen_shut {s : State} (h : flag s F.ERF_STAT_OWN_IN = true ∨ flag s F.ERF_STAT_OWN_OUT = false) :
    exec .gateOpen s = .next s := by
  have hshut : openGate s = s := by
    rcases h with hin | hout
    · simp [openGate, hin]
    · simp [openGate, hout]
  change execGateOpen s = _
  rw [execGateOpen, hshut, ite_self]

theorem excUpdate_touch (s : State) : Touch 35436632080 s (excUpdate s) := touch_excUpdate s (by decide) (.refl _ s)

theorem getF_excUpdate_ownBegun_gate (s : State) : getF (excUpdate (ownBegun s)) F.ERF_STAT_GATE = 1 := by
  rw [(excUpdate_touch _).getF_out (by decide)]
  exact getF_setF_self s _ _

theorem begun_excUpdate_ownBegun (s : State) : (excUpdate (ownBegun s)).erf.begun = true := by
  rw [(touch_erf _ (excUpdate_touch _)).out rfl]
  rfl

theorem sameMemory_excUpdate_ownBegun (s : State) : SameMemory s (excUpdate (ownBegun s)) :=
  (excUpdate_touch (ownBegun s)).sameMemory (by decide)

/-- The epoch in force stands in the configuration record, and no record is due. -/
def epochRecorded (s : State) : State :=
  { s with erf := { s.erf with recordDue := false }, nvm := { s.nvm with epoch := getF s F.ERF_EPOCH_EPOCH } }

/-- Leave 9 goes back with the record, unless HCP's flash programming still holds it. -/
theorem epochRecord_granted {s : State} (hd : s.erf.recordDue = true) (hl : holdsLeave s 9 = true) :
    exec .epochRecord s = .next (if s.hcp.flash.isSome then epochRecorded s else releaseLeave (epochRecorded s) 9) := by
  change execEpochRecord s = _
  simp only [execEpochRecord, hd, hl]
  rfl

end Sys2Proof.Machine

section
open Sys2Proof Sys2Proof.Machine

/-- Settles O24: each row by the state it leaves, the claim by `ownClaimed`, the gate by `ownBegun` (R354), the record by `epochRecorded`
(R340). The excitation, which follows the gate, reaches no memory and no field of ERF (`excUpdate_touch`). -/
theorem ownershipRowsClaimAndOpen : Obligations.OwnershipRowsClaimAndOpen := by
  refine ⟨fun s hh hm hin hout => ⟨ownClaimed s, ownClaim_claiming hh hm hin hout, getF_ownClaimed_ownOut s, rfl,
      fun f => getF_ownClaimed_other s⟩,
    fun s hh hin hout => ⟨_, gateOpen_owning hh hin hout, getF_excUpdate_ownBegun_gate s, begun_excUpdate_ownBegun s,
      sameMemory_excUpdate_ownBegun s⟩,
    fun s => gateOpen_shut, fun s hd hl => ⟨_, epochRecord_granted hd hl, ?_⟩⟩
  split <;> exact ⟨rfl, rfl, rfl, fun _ _ => rfl, fun _ _ => rfl⟩

end

namespace Sys2Proof.Machine

/-! ### The failed health tests of the random source (R386) -/

/-- The failures before this one, of the second that ends now. -/
def recentTrngFails (s : State) : List Nat := s.sec.trngFails.filter (fun x => decide (now s < x + Config.ticksPerSec))

/-- A failure is noted with its mesh time and counted; the source is as it was. -/
def trngFailCounted (s : State) : State :=
  inc { s with sec := { s.sec with trngFails := now s :: recentTrngFails s } } F.SEC_CNT_TRNGFAIL

/-- The third one within a second fails the source and raises KEY. -/
def trngFailed (s : State) : State := keyEvent (setF (trngFailCounted s) F.SEC_STAT_TRNG 2) 2 0xFFFF

theorem trngHealthFail_runs {s : State} (hr : trngRuns s = true) :
    exec (.trngHealthFail ()) s = .next (if 2 ≤ (recentTrngFails s).length then trngFailed s else trngFailCounted s) := by
  have hthree : 3 ≤ (now s :: recentTrngFails s).length ↔ 2 ≤ (recentTrngFails s).length := Nat.succ_le_succ_iff
  change execTrngHealthFail () s = _
  rw [execTrngHealthFail, if_neg (by simp [hr])]
  exact congrArg _ (ite_congr (propext hthree) (fun _ => rfl) fun _ => rfl)

section
variable (s : State)

theorem getF_cnt_trngFailCounted :
    getF (trngFailCounted s) F.SEC_CNT_TRNGFAIL = min (getF s F.SEC_CNT_TRNGFAIL + 1) (2 ^ F.SEC_CNT_TRNGFAIL.width - 1) :=
  getF_inc_self _ _

theorem getF_stat_trngFailCounted : getF (trngFailCounted s) F.SEC_STAT_TRNG = getF s F.SEC_STAT_TRNG :=
  getF_inc_other _ _ _ (by decide)

/-- A KEY event reaches HCP and its registers alone (R438, R439). -/
theorem keyEvent_touch (cause ctx : Nat) : Touch 34362884096 s (keyEvent s cause ctx) :=
  touch_keyEvent s cause ctx (by decide) (.refl _ s)

theorem trngFails_trngFailed : (trngFailed s).sec.trngFails = now s :: recentTrngFails s := by
  rw [trngFailed, (touch_sec _ (keyEvent_touch _ _ _)).out rfl]
  rfl

theorem getF_cnt_trngFailed :
    getF (trngFailed s) F.SEC_CNT_TRNGFAIL = min (getF s F.SEC_CNT_TRNGFAIL + 1) (2 ^ F.SEC_CNT_TRNGFAIL.width - 1) := by
  rw [trngFailed, (keyEvent_touch _ _ _).getF_out (by decide), getF_setF_other _ _ _ _ (by decide), getF_cnt_trngFailCounted]

theorem getF_stat_trngFailed : getF (trngFailed s) F.SEC_STAT_TRNG = 2 := by
  rw [trngFailed, (keyEvent_touch _ _ _).getF_out (by decide), getF_setF_self]
  rfl

theorem sameMemory_trngFailed : SameMemory s (trngFailed s) :=
  (keyEvent_touch (setF (trngFailCounted s) F.SEC_STAT_TRNG 2) 2 0xFFFF).sameMemory (by decide)

end

end Sys2Proof.Machine

section
open Sys2Proof Sys2Proof.Machine

/-- Settles O23: by the failures of the last second (R386). With two of them before this one the row leaves `trngFailed`, whose KEY event
reaches no field of SEC (`keyEvent_touch`); with fewer it leaves `trngFailCounted`. -/
theorem trngFailsAtTheThirdTest : Obligations.TrngFailsAtTheThirdTest := by
  intro s hr
  rw [trngHealthFail_runs hr]
  by_cases h : 2 ≤ (recentTrngFails s).length
  · rw [if_pos h]
    refine ⟨trngFailed s, rfl, ?_, getF_cnt_trngFailed s, fun _ => getF_stat_trngFailed s, fun h2 => absurd h (Nat.not_le_of_lt h2),
      sameMemory_trngFailed s⟩
    rw [trngFails_trngFailed, List.head?_cons]
  · rw [if_neg h]
    exact ⟨trngFailCounted s, rfl, rfl, getF_cnt_trngFailCounted s, fun h2 => absurd h2 h,
      fun _ => ⟨getF_stat_trngFailCounted s, rfl⟩, fun _ _ => rfl, fun _ _ => rfl⟩

end

namespace Sys2Proof.Machine

/-! ### The round keys of AES-256 and the length of a block -/

theorem length_xorN (a b : List Nat) : (xorN a b).length = min a.length b.length := List.length_zipWith

theorem length_fours (n : Nat) (l : List Nat) : (fours n l).length = n := by
  induction n generalizing l with
  | zero => rfl
  | succ n ih => rw [fours, List.length_cons, ih]

/-- Every word of a key's schedule has four bytes. -/
def WordsOfFour (ws : List (List Nat)) : Prop := ∀ w ∈ ws, w.length = 4

theorem wordsOfFour_fours {n : Nat} {l : List Nat} (h : 4 * n ≤ l.length) : WordsOfFour (fours n l) := by
  induction n generalizing l with
  | zero => exact fun w hw => absurd hw List.not_mem_nil
  | succ n ih =>
    have hrest : WordsOfFour (fours n (l.drop 4)) := ih (by rw [List.length_drop]; omega)
    exact List.forall_mem_cons.mpr ⟨List.length_take_of_le (by omega), hrest⟩

theorem length_nth_of_wordsOfFour {ws : List (List Nat)} {i : Nat} (hw : WordsOfFour ws) (hi : i < ws.length) :
    (nth [] ws i).length = 4 := by
  rw [nth, List.getD_eq_getElem?_getD, List.getElem?_eq_getElem hi, Option.getD_some]
  exact hw _ (List.getElem_mem hi)

theorem WordsOfFour.length_flatten {ws : List (List Nat)} (hw : WordsOfFour ws) : ws.flatten.length = ws.length * 4 := by
  rw [List.length_flatten, List.map_congr_left hw, List.map_const', List.sum_replicate_nat]

/-- A new word is an older one, mixed with the newest under the rotation and the substitution of its place. -/
theorem aesExpand_words {n i rcon : Nat} {ws : List (List Nat)} (hw : WordsOfFour ws) (hl : 8 ≤ ws.length) :
    WordsOfFour (aesExpand n i rcon ws) ∧ (aesExpand n i rcon ws).length = n + ws.length := by
  induction n generalizing i rcon ws with
  | zero => exact ⟨hw, (Nat.zero_add _).symm⟩
  | succ n ih =>
    have hold : (nth [] ws 7).length = 4 := length_nth_of_wordsOfFour hw (by omega)
    have hnewest : (nth [] ws 0).length = 4 := length_nth_of_wordsOfFour hw (by omega)
    have hnew : ∀ t : List Nat, t.length = 4 → WordsOfFour (xorN (nth [] ws 7) t :: ws) := fun t ht =>
      List.forall_mem_cons.mpr ⟨by rw [length_xorN, hold, ht, Nat.min_self], hw⟩
    rw [aesExpand]
    refine (ih (hnew _ ?_) (Nat.le_succ_of_le hl)).imp_right fun h => by rw [h, List.length_cons]; omega
    split
    · simp [length_xorN, hnewest]
    · split <;> simp [hnewest]

theorem aesKeys_length (key : Bytes) : (aesKeys key).length = 15 := by
  rw [aesKeys, List.length_map, List.length_range]

/-- Each of the fifteen round keys takes four words of the sixty. -/
theorem length_of_mem_aesKeys {key : Bytes} {k : List Nat} (hk : k ∈ aesKeys key) : k.length = 16 := by
  have hpad : 4 * 8 ≤ ((padTo 32 key).map (·.toNat)).length := by
    rw [List.length_map, padTo, List.length_append, List.length_replicate]
    omega
  obtain ⟨hwords, hlen⟩ := aesExpand_words (n := 52) (i := 8) (rcon := 1)
    (fun w hw => wordsOfFour_fours hpad w (List.mem_reverse.mp hw)) (Nat.le_of_eq (by rw [List.length_reverse, length_fours]))
  rw [List.length_reverse, length_fours] at hlen
  obtain ⟨r, hr, rfl⟩ := List.mem_map.mp hk
  have hr15 : r < 15 := List.mem_range.mp hr
  rw [WordsOfFour.length_flatten fun w hw => hwords w (List.mem_reverse.mp (List.mem_of_mem_drop (List.mem_of_mem_take hw))),
    List.length_take_of_le (by rw [List.length_drop, List.length_reverse, hlen]; omega)]

/-- Whatever the state before, ShiftRows makes it sixteen bytes, and the last key keeps them. -/
theorem aesRounds_length {keys : List (List Nat)} (s : List Nat) (hne : keys ≠ []) (hk : ∀ k ∈ keys, k.length = 16) :
    (aesRounds keys s).length = 16 := by
  induction keys generalizing s with
  | nil => exact absurd rfl hne
  | cons k ks ih =>
    obtain ⟨hfirst, hrest⟩ := List.forall_mem_cons.mp hk
    cases ks with
    | nil => rw [aesRounds, length_xorN, hfirst, shiftRows, List.length_map, List.length_range, Nat.min_self]
    | cons k' ks => exact ih _ (List.cons_ne_nil _ _) hrest

theorem aesBlock_length (key b : Bytes) : (aesBlock (aesKeys key) b).length = 16 := by
  have hne : (aesKeys key).drop 1 ≠ [] := List.ne_nil_of_length_pos (by rw [List.length_drop, aesKeys_length]; decide)
  rw [aesBlock, List.length_map]
  exact aesRounds_length _ hne fun k hk => length_of_mem_aesKeys (List.mem_of_mem_drop hk)

/-! ### CCM*: the text under its key stream, and the MIC (R370) -/

theorem chunks_cons (n k : Nat) (x : Byte) (m : Bytes) :
    chunks n (k + 1) (x :: m) = (x :: m).take n :: chunks n k ((x :: m).drop n) := rfl

/-- Masked block by block, a byte string is masked with the blocks in a row. -/
theorem flatten_mapIdx_chunks_xor {f : Nat → Bytes} (hf : ∀ i, (f i).length = 16) {k : Nat} {m : Bytes} (h : m.length ≤ 16 * k) :
    ((chunks 16 k m).mapIdx (fun i b => b.zipWith (· ^^^ ·) (f i))).flatten = m.zipWith (· ^^^ ·) ((List.range k).flatMap f) := by
  induction k generalizing f m with
  | zero => rw [List.eq_nil_of_length_eq_zero (Nat.le_zero.mp h)]; rfl
  | succ k ih =>
    cases m with
    | nil => rfl
    | cons x m =>
      have hrest := ih (fun i => hf (i + 1)) (m := (x :: m).drop 16) (by rw [List.length_drop]; omega)
      rw [chunks_cons, List.mapIdx_cons, List.flatten_cons, hrest, List.range_succ_eq_map, List.flatMap_cons, List.flatMap_map,
        ← List.take_append_drop 16 (List.zipWith _ (x :: m) _), List.take_zipWith, List.drop_zipWith,
        List.take_left' (hf 0), List.drop_left' (hf 0)]

/-- The key stream from block 1 on, for a text of `n` bytes. -/
def ccmMask (key nonce : Bytes) (n : Nat) : Bytes :=
  (List.range (n / 16 + 1)).flatMap (fun i => ccmStream (aesKeys key) nonce (i + 1))

section
variable (key nonce aad m : Bytes)

theorem ccmMask_length (n : Nat) : (ccmMask key nonce n).length = (n / 16 + 1) * 16 := by
  simp only [ccmMask, List.length_flatMap, ccmStream, aesBlock_length, List.map_const', List.length_range, List.sum_replicate_nat]

theorem ccmText_eq : ccmText key nonce m = m.zipWith (· ^^^ ·) (ccmMask key nonce m.length) :=
  flatten_mapIdx_chunks_xor (f := fun i => ccmStream (aesKeys key) nonce (i + 1)) (fun _ => aesBlock_length ..) (by omega)

theorem ccmText_length : (ccmText key nonce m).length = m.length := by
  rw [ccmText_eq, List.length_zipWith, ccmMask_length]
  omega

/-- The key stream depends on the length of the text alone, which it keeps. -/
theorem ccmText_ccmText : ccmText key nonce (ccmText key nonce m) = m := by
  have hmask : m.length ≤ (ccmMask key nonce m.length).length := by rw [ccmMask_length]; omega
  rw [ccmText_eq key nonce (ccmText key nonce m), ccmText_length, ccmText_eq]
  exact zipWith_xor_twice m _ hmask

theorem cbcMac_length : (cbcMac (aesKeys key) m).length = 16 :=
  List.foldlRecOn _ _ (motive := fun x : Bytes => x.length = 16) List.length_replicate fun _ _ _ _ => aesBlock_length ..

theorem ccmMic_length : (ccmMic key nonce aad m).length = 8 := by
  rw [ccmMic, xorBytes, List.length_zipWith, List.length_take, cbcMac_length, ccmStream, aesBlock_length]
  rfl

theorem ccmSeal_length : (ccmSeal key nonce aad m).length = m.length + 8 := by
  rw [ccmSeal, List.length_append, ccmText_length, ccmMic_length]

theorem take_ccmSeal : (ccmSeal key nonce aad m).take m.length = ccmText key nonce m := List.take_left' (ccmText_length ..)

theorem drop_ccmSeal : (ccmSeal key nonce aad m).drop m.length = ccmMic key nonce aad m := List.drop_left' (ccmText_length ..)

/-- With any eight bytes as its MIC the text opens, and these verify exactly if they are its MIC. -/
theorem ccmOpen_ccmText_append {mic : Bytes} (h : mic.length = 8) :
    ccmOpen key nonce aad (ccmText key nonce m ++ mic) = (m, ccmMic key nonce aad m == mic) := by
  have hlen : (ccmText key nonce m ++ mic).length - 8 = (ccmText key nonce m).length := by
    rw [List.length_append, h, Nat.add_sub_cancel]
  rw [ccmOpen, hlen, List.take_left, List.drop_left, ccmText_ccmText]

end

/-! ### Wrapped keys (R357) -/

section
variable (under : Bytes) (nonce : Nat) (k : Bytes)

/-- What stands before the MIC of a wrapped key: the nonce and the text. -/
def wrapHead : Bytes := leBytes nonce 13 ++ ccmText under (leBytes nonce 13) k

theorem wrapHead_length : (wrapHead under nonce k).length = k.length + 13 := by
  rw [wrapHead, List.length_append, leBytes_length, ccmText_length, Nat.add_comm]

theorem wrapKey_eq : wrapKey under nonce k = wrapHead under nonce k ++ ccmMic under (leBytes nonce 13) [] k :=
  (List.append_assoc ..).symm

theorem take_wrapKey : (wrapKey under nonce k).take (k.length + 13) = wrapHead under nonce k := by
  rw [wrapKey_eq]
  exact List.take_left' (wrapHead_length ..)

theorem drop_wrapKey : (wrapKey under nonce k).drop (k.length + 13) = ccmMic under (leBytes nonce 13) [] k := by
  rw [wrapKey_eq]
  exact List.drop_left' (wrapHead_length ..)

/-- With any eight bytes as its MIC a wrapped key is present exactly if they are its MIC. -/
theorem unwrapKey_wrapHead_append {mic : Bytes} (h : mic.length = 8) :
    unwrapKey under (wrapHead under nonce k ++ mic) = if ccmMic under (leBytes nonce 13) [] k = mic then some k else none := by
  have hlong : 21 ≤ (wrapHead under nonce k ++ mic).length := by rw [List.length_append, wrapHead_length, h]; omega
  have htake : (wrapHead under nonce k ++ mic).take 13 = leBytes nonce 13 := by
    rw [wrapHead, List.append_assoc, List.take_left' (leBytes_length ..)]
  have hdrop : (wrapHead under nonce k ++ mic).drop 13 = ccmText under (leBytes nonce 13) k ++ mic := by
    rw [wrapHead, List.append_assoc, List.drop_left' (leBytes_length ..)]
  simp only [unwrapKey, htake, hdrop, ccmOpen_ccmText_append _ _ _ _ h, hlong, true_and, beq_iff_eq]

end

end Sys2Proof.Machine

section
open Sys2Proof Sys2Proof.Machine

/-- Settles O18: the key stream applied twice restores the text (`ccmText_ccmText`), so that text and wrapped key open with any eight bytes in
the MIC's place, and verify exactly if these are the MIC (`ccmOpen_ccmText_append`, `unwrapKey_wrapHead_append`). Of AES only the length
of a block matters (`aesBlock_length`). The algorithm behind the names of R357 and R370 is presumed (log entry 4), and the thirteen bytes of nonce
before a wrapped key are the model's own choice (log entry 227). -/
theorem sealedTextOpens : Obligations.SealedTextOpens := by
  refine ⟨fun key nonce aad m => ⟨?_, ccmSeal_length key nonce aad m, fun mic hmic hne => ?_⟩,
    fun under k nonce => ⟨?_, fun mic hmic hne => ?_⟩⟩
  · rw [ccmSeal, ccmOpen_ccmText_append _ _ _ _ (ccmMic_length ..), beq_self_eq_true]
  · rw [drop_ccmSeal] at hne
    rw [take_ccmSeal, ccmOpen_ccmText_append _ _ _ _ hmic]
    exact beq_false_of_ne hne.symm
  · rw [wrapKey_eq, unwrapKey_wrapHead_append _ _ _ (ccmMic_length ..), if_pos rfl]
  · rw [drop_wrapKey] at hne
    rw [take_wrapKey, unwrapKey_wrapHead_append _ _ _ hmic, if_neg hne.symm]

end

namespace Sys2Proof.Machine

/-! ### Requests of a bank's arbiter and their withdrawal (R409, R410) -/

theorem nth_eq_getElem {α : Type} (d : α) {l : List α} {i : Nat} (h : i < l.length) : nth d l i = l[i] := by
  rw [nth, List.getD_eq_getElem?_getD, List.getElem?_eq_getElem h, Option.getD_some]

section
variable (s : State) (a : Arb) {b : Nat}

theorem arb_setArb_same (hb : b < s.mqf.arbs.length) : arb (setArb s b a) b = a :=
  List.getD_eq_getElem?_getD.trans (by rw [setArb, List.getElem?_set_self hb, Option.getD_some])

theorem arb_setArb_other {c : Nat} (h : c ≠ b) : arb (setArb s b a) c = arb s c := by
  simp only [arb, nth, setArb, List.getD_eq_getElem?_getD, List.getElem?_set_ne h.symm]

theorem setArb_arb (hb : b < s.mqf.arbs.length) : setArb s b (arb s b) = s := by
  rw [setArb, arb, nth_eq_getElem _ hb, List.set_getElem_self]

theorem setArb_setArb (a' : Arb) : setArb (setArb s b a) b a' = setArb s b a' := by
  simp only [setArb, List.set_set]

end

/-- An arbiter with a burst of `words` words raised by requester `r`. -/
def raisedBurst (a : Arb) (r words : Nat) : Arb := { a with raised := a.raised.set r words }

section
variable {s : State} {bank : Fin 16} {req : Fin 12}

theorem bankRequest_idle (words : Fin 8) (hpend : nth 0 (arb s bank).pend req = 0) (hraised : nth 0 (arb s bank).raised req = 0) :
    exec (.bankRequest bank req words 0) s = .next (setArb s bank (raisedBurst (arb s bank) req (words.val + 1))) := by
  change execBankRequest bank req words 0 s = _
  simp only [execBankRequest, arbRun, hpend, hraised, true_or, true_and, if_true, raisedBurst]

theorem bankWithdraw_raised (hraised : nth 0 (arb s bank).raised req ≠ 0) :
    exec (.bankWithdraw bank req 0) s = .next (setArb s bank (raisedBurst (arb s bank) req 0)) := by
  change execBankWithdraw bank req 0 s = _
  simp only [execBankWithdraw, arbRun, ne_eq, hraised, not_false_eq_true, if_true, raisedBurst]

end

section
variable (a : Arb) {r : Nat}

theorem nth_raised_raisedBurst (words : Nat) (hr : r < a.raised.length) : nth 0 (raisedBurst a r words).raised r = words := by
  rw [nth, raisedBurst, List.getD_eq_getElem?_getD, List.getElem?_set_self hr, Option.getD_some]

/-- A requester that had raised none leaves no trace once what it raised is taken back. -/
theorem raisedBurst_raisedBurst_zero (words : Nat) (hr : r < a.raised.length) (h : nth 0 a.raised r = 0) :
    raisedBurst (raisedBurst a r words) r 0 = a := by
  have hzero : a.raised[r] = 0 := (nth_eq_getElem 0 hr).symm.trans h
  have hset : (a.raised.set r words).set r 0 = a.raised := by rw [List.set_set, ← hzero, List.set_getElem_self]
  rw [raisedBurst, raisedBurst, hset]

end

end Sys2Proof.Machine

section
open Sys2Proof Sys2Proof.Machine

/-- Settles O25: the request leaves the bank's arbiter with the burst raised (`bankRequest_idle`, R409), the withdrawal in the same cycle
takes back just this (`bankWithdraw_raised`, `raisedBurst_raisedBurst_zero`, R410), and a bank's arbiter written back as it was leaves the
state as it was (`setArb_arb`). -/
theorem bankRowsRaiseAndWithdraw : Obligations.BankRowsRaiseAndWithdraw := by
  intro bank req words s hbank hlen hpend hraised
  have hreq : req.val < (arb s bank).raised.length := Nat.lt_of_lt_of_eq req.isLt hlen.symm
  have hsame := arb_setArb_same s (raisedBurst (arb s bank) req (words.val + 1)) hbank
  have hnew : nth 0 (arb (setArb s bank (raisedBurst (arb s bank) req (words.val + 1))) bank).raised req ≠ 0 := by
    rw [hsame, nth_raised_raisedBurst _ _ hreq]
    exact Nat.succ_ne_zero _
  refine ⟨_, bankRequest_idle words hpend hraised, rfl, hsame, fun b => arb_setArb_other _ _, _, bankWithdraw_raised hnew, ?_⟩
  rw [hsame, setArb_setArb, raisedBurst_raisedBurst_zero _ _ hreq hraised, setArb_arb s hbank]

end

namespace Sys2Proof.Machine

/-! ### Exclusive or of numbers -/

theorem two_mul_xor (x y : Nat) : 2 * (x ^^^ y) = 2 * x ^^^ 2 * y := by
  simpa [Nat.shiftLeft_eq, Nat.mul_comm] using Nat.shiftLeft_xor_distrib (a := x) (b := y) (i := 1)

/-- A number is added below the lowest set bit of another without a carry. -/
theorem mul_two_pow_add_eq_xor (x : Nat) {y n : Nat} (hy : y < 2 ^ n) : x * 2 ^ n + y = x * 2 ^ n ^^^ y := by
  refine Nat.eq_of_testBit_eq fun i => ?_
  rw [Nat.mul_comm, Nat.testBit_two_pow_mul_add _ hy, Nat.testBit_xor, Nat.testBit_two_pow_mul]
  by_cases hi : i < n
  · simp [hi, Nat.not_le.mpr hi]
  · have hhigh : y.testBit i = false := Nat.testBit_lt_two_pow (Nat.lt_of_lt_of_le hy (Nat.pow_le_pow_right Nat.two_pos (Nat.not_lt.mp hi)))
    simp [hi, Nat.not_lt.mp hi, hhigh]

theorem mul_two_pow_add_lt {x y m n k : Nat} (hx : x < 2 ^ m) (hy : y < 2 ^ n) (hk : m + n = k) : x * 2 ^ n + y < 2 ^ k :=
  calc x * 2 ^ n + y < x * 2 ^ n + 2 ^ n := Nat.add_lt_add_left hy _
    _ = (x + 1) * 2 ^ n := (Nat.succ_mul ..).symm
    _ ≤ 2 ^ m * 2 ^ n := Nat.mul_le_mul_right _ hx
    _ = 2 ^ k := by rw [← Nat.pow_add, hk]

theorem xor_lt_two_pow_succ {x y n k : Nat} (hx : x ≤ 2 ^ n) (hy : y < 2 ^ n) (hk : n + 1 = k) : x ^^^ y < 2 ^ k := by
  subst hk
  have hpow : 2 ^ n < 2 ^ (n + 1) := Nat.pow_lt_pow_succ Nat.one_lt_two
  exact Nat.xor_lt_two_pow (Nat.lt_of_le_of_lt hx hpow) (Nat.lt_trans hy hpow)

/-! ### Multiplication by α (R392) -/

/-- The remainder modulo a polynomial `p` of degree `n` of one whose degree is at most `n`. -/
def polyReduce (p n x : Nat) : Nat := if 2 ^ n ≤ x then x ^^^ p else x

theorem gfTimes_eq_polyReduce (x : Nat) : gfTimes x = polyReduce 0x211 9 (2 * x) := rfl

theorem genRem_succ (v n r : Nat) : genRem v (n + 1) r = genRem v n (polyReduce genPoly 18 (2 * r + v / 2 ^ n % 2)) := rfl

theorem polyReduce_lt {p n x : Nat} (hp : p / 2 ^ n = 1) (hx : x < 2 ^ (n + 1)) : polyReduce p n x < 2 ^ n := by
  rw [polyReduce]
  split
  case isTrue h =>
    have hone : x / 2 ^ n = 1 := Nat.div_eq_of_lt_le (by rwa [Nat.one_mul]) (by rwa [← Nat.pow_succ'])
    have hhigh : (x ^^^ p) / 2 ^ n = 0 := by rw [Nat.xor_div_two_pow, hone, hp, Nat.xor_self]
    exact Nat.lt_of_div_eq_zero (Nat.two_pow_pos n) hhigh
  case isFalse h => exact Nat.not_le.mp h

theorem gfTimes_lt {x : Nat} (hx : x < 512) : gfTimes x < 512 := by
  rw [gfTimes_eq_polyReduce]
  exact polyReduce_lt (n := 9) rfl (by omega)

theorem gfTimes_eq_xor {x : Nat} (hx : x < 512) : gfTimes x = 2 * x ^^^ 0x211 * (x / 2 ^ 8) := by
  rw [gfTimes]
  split
  case isTrue h => rw [show x / 2 ^ 8 = 1 by omega, Nat.mul_one]
  case isFalse h => rw [show x / 2 ^ 8 = 0 by omega, Nat.mul_zero, Nat.xor_zero]

theorem gfTimes_xor {x y : Nat} (hx : x < 512) (hy : y < 512) : gfTimes (x ^^^ y) = gfTimes x ^^^ gfTimes y := by
  have hcarry : ∀ p < 2, ∀ q < 2, 0x211 * (p ^^^ q) = 0x211 * p ^^^ 0x211 * q := by decide
  rw [gfTimes_eq_xor (Nat.xor_lt_two_pow (n := 9) hx hy), gfTimes_eq_xor hx, gfTimes_eq_xor hy, two_mul_xor, Nat.xor_div_two_pow,
    hcarry _ (by omega) _ (by omega)]
  ac_rfl

theorem gfShift_zero (n : Nat) : gfShift 0 n = 0 := by
  induction n with
  | zero => rfl
  | succ n ih => exact ih

theorem gfShift_add (x m n : Nat) : gfShift x (m + n) = gfShift (gfShift x m) n := by
  induction m generalizing x with
  | zero => rw [Nat.zero_add, gfShift]
  | succ m ih => rw [Nat.succ_add, gfShift, ih, gfShift]

theorem gfShift_succ (x n : Nat) : gfShift x (n + 1) = gfTimes (gfShift x n) := gfShift_add x n 1

theorem gfShift_lt {x : Nat} (hx : x < 512) (n : Nat) : gfShift x n < 512 := by
  induction n generalizing x with
  | zero => exact hx
  | succ n ih => exact ih (gfTimes_lt hx)

theorem gfShift_xor {x y : Nat} (hx : x < 512) (hy : y < 512) (n : Nat) : gfShift (x ^^^ y) n = gfShift x n ^^^ gfShift y n := by
  induction n generalizing x y with
  | zero => rfl
  | succ n ih => rw [gfShift, gfTimes_xor hx hy, ih (gfTimes_lt hx) (gfTimes_lt hy), gfShift, gfShift]

/-! ### Syndromes (R393): the value at α^k of the polynomial in the bits of a number -/

theorem syndrome_succ (v k n r : Nat) : syndrome v k (n + 1) r = syndrome v k n (gfShift r k ^^^ v / 2 ^ n % 2) := rfl

/-- Horner's rule at its last step: the lowest bit enters behind the others. -/
theorem syndrome_lowest (v k n r : Nat) : syndrome v k (n + 1) r = gfShift (syndrome (v / 2) k n r) k ^^^ v % 2 := by
  induction n generalizing r with
  | zero => simp [syndrome]
  | succ n ih => rw [syndrome_succ, ih, syndrome_succ, Nat.div_div_eq_div_mul, ← Nat.pow_succ']

theorem syndrome_two_mul_add (x : Nat) {b : Nat} (hb : b < 2) (k n : Nat) :
    syndrome (2 * x + b) k (n + 1) 0 = gfShift (syndrome x k n 0) k ^^^ b := by
  rw [syndrome_lowest, Nat.mul_add_div Nat.two_pos, Nat.div_eq_of_lt hb, Nat.add_zero, Nat.mul_add_mod, Nat.mod_eq_of_lt hb]

theorem syndrome_two_mul (x k n : Nat) : syndrome (2 * x) k (n + 1) 0 = gfShift (syndrome x k n 0) k := by
  simpa using syndrome_two_mul_add x Nat.two_pos k n

theorem syndrome_split (v k m n r : Nat) : syndrome v k (m + n) r = syndrome v k m (syndrome (v / 2 ^ m) k n r) := by
  induction n generalizing r with
  | zero => rfl
  | succ n ih => rw [← Nat.add_assoc, syndrome_succ, ih, syndrome_succ, Nat.div_div_eq_div_mul, ← Nat.pow_add]

theorem syndrome_zero (k n : Nat) : syndrome 0 k n 0 = 0 := by
  induction n with
  | zero => rfl
  | succ n ih => rw [syndrome_lowest, Nat.zero_div, ih, gfShift_zero, Nat.zero_mod, Nat.xor_zero]

theorem syndrome_lt (v k n : Nat) : syndrome v k n 0 < 512 := by
  induction n generalizing v with
  | zero => exact Nat.succ_pos _
  | succ n ih =>
    rw [syndrome_lowest]
    exact Nat.xor_lt_two_pow (n := 9) (gfShift_lt (ih _) k) (by omega)

theorem syndrome_xor (v w k n : Nat) : syndrome (v ^^^ w) k n 0 = syndrome v k n 0 ^^^ syndrome w k n 0 := by
  induction n generalizing v w with
  | zero => exact (Nat.xor_self 0).symm
  | succ n ih =>
    have hbit : (v ^^^ w) % 2 = v % 2 ^^^ w % 2 := Nat.xor_mod_two_pow (n := 1)
    rw [syndrome_lowest, syndrome_lowest, syndrome_lowest, Nat.xor_div_two, ih, gfShift_xor (syndrome_lt ..) (syndrome_lt ..), hbit]
    ac_rfl

theorem syndrome_add_of_lt {v n : Nat} (hv : v < 2 ^ n) (k m : Nat) : syndrome v k (n + m) 0 = syndrome v k n 0 := by
  rw [syndrome_split, Nat.div_eq_of_lt hv, syndrome_zero]

/-- The bit above the lowest `n` is none of theirs. -/
theorem syndrome_two_pow_self (k n : Nat) : syndrome (2 ^ n) k n 0 = 0 := by
  induction n with
  | zero => rfl
  | succ n ih => rw [Nat.pow_succ', syndrome_two_mul, ih, gfShift_zero]

theorem syndrome_two_pow {i n : Nat} (hi : i < n) (k : Nat) : syndrome (2 ^ i) k n 0 = gfShift 1 (k * i) := by
  obtain ⟨n, rfl⟩ := Nat.exists_eq_add_one.mpr (Nat.zero_lt_of_lt hi)
  induction i generalizing n with
  | zero => rw [syndrome_lowest, Nat.pow_zero, syndrome_zero, gfShift_zero, Nat.zero_xor, Nat.mul_zero, gfShift]
  | succ i ih =>
    obtain ⟨m, rfl⟩ := Nat.exists_eq_add_one.mpr (Nat.zero_lt_of_lt (Nat.lt_of_succ_lt_succ hi))
    rw [Nat.pow_succ', syndrome_two_mul, ih m (Nat.lt_of_succ_lt_succ hi), ← gfShift_add, Nat.mul_succ]

/-- At a root of `p` a remainder modulo `p` has the value of the whole. -/
theorem syndrome_polyReduce {p n k : Nat} (hroot : syndrome p k (n + 1) 0 = 0) (hp : p / 2 ^ n = 1) {x : Nat} (hx : x < 2 ^ (n + 1)) :
    syndrome (polyReduce p n x) k n 0 = syndrome x k (n + 1) 0 := by
  rw [← syndrome_add_of_lt (polyReduce_lt hp hx) k 1, polyReduce]
  split
  case isTrue => rw [syndrome_xor, hroot, Nat.xor_zero]
  case isFalse => rfl

/-! ### The order of α -/

/-- α^2 is a root of the field's polynomial too, so that the value there of any power of α is its square. -/
theorem gfShift_two_mul (n : Nat) : gfShift 1 (2 * n) = syndrome (gfShift 1 n) 2 9 0 := by
  induction n with
  | zero => rfl
  | succ n ih =>
    have hlt : gfShift 1 n < 512 := gfShift_lt (by decide) n
    rw [gfShift_succ, gfTimes_eq_polyReduce (gfShift 1 n), syndrome_polyReduce (by decide) rfl (by omega), syndrome_two_mul, ← ih,
      ← gfShift_add, Nat.mul_succ]

theorem gfShift_two_mul_add_one (n : Nat) : gfShift 1 (2 * n + 1) = gfTimes (syndrome (gfShift 1 n) 2 9 0) := by
  rw [gfShift_succ, gfShift_two_mul]

/-- α^511 = 1, reached by squaring: 511 = 2^5 · 16 − 1. -/
theorem gfShift_one_511 : gfShift 1 511 = 1 := by
  have h15 : gfShift 1 15 = 98 := by decide
  have h31 : gfShift 1 31 = 348 := by rw [gfShift_two_mul_add_one 15, h15]; decide
  have h63 : gfShift 1 63 = 41 := by rw [gfShift_two_mul_add_one 31, h31]; decide
  have h127 : gfShift 1 127 = 198 := by rw [gfShift_two_mul_add_one 63, h63]; decide
  have h255 : gfShift 1 255 = 346 := by rw [gfShift_two_mul_add_one 127, h127]; decide
  rw [gfShift_two_mul_add_one 255, h255]
  decide

theorem gfShift_one_73 : gfShift 1 73 = 336 := by
  have h9 : gfShift 1 9 = 17 := by decide
  have h18 : gfShift 1 18 = 257 := by rw [gfShift_two_mul 9, h9]; decide
  have h36 : gfShift 1 36 = 197 := by rw [gfShift_two_mul 18, h18]; decide
  rw [gfShift_two_mul_add_one 36, h36]
  decide

section
variable {p : Nat} (hp : gfShift 1 p = 1)
include hp

theorem gfShift_one_mul (c : Nat) : gfShift 1 (p * c) = 1 := by
  induction c with
  | zero => rw [Nat.mul_zero, gfShift]
  | succ c ih => rw [Nat.mul_succ, gfShift_add, ih, hp]

theorem gfShift_one_mod (n : Nat) : gfShift 1 (n % p) = gfShift 1 n := by
  have hsplit : gfShift 1 (p * (n / p) + n % p) = gfShift 1 (n % p) := by rw [gfShift_add, gfShift_one_mul hp]
  rw [← hsplit, Nat.div_add_mod]

end

theorem gfShift_one_gcd {m n : Nat} (hm : gfShift 1 m = 1) (hn : gfShift 1 n = 1) : gfShift 1 (Nat.gcd m n) = 1 := by
  induction m, n using Nat.gcd.induction with
  | H0 n => rwa [Nat.gcd_zero_left]
  | H1 m n _ ih =>
    rw [Nat.gcd_rec]
    exact ih ((gfShift_one_mod hm n).trans hn) hm

/-- 511 = 7 · 73. -/
theorem eq_of_dvd_511 {g : Nat} (hdvd : g ∣ 511) (hlt : g < 511) : g = 1 ∨ g = 7 ∨ g = 73 := by
  have hsmall : ∀ k < 23, 511 % k = 0 → k = 1 ∨ k = 7 := by decide
  obtain ⟨c, hc⟩ := hdvd
  by_cases hg : g < 23
  · have h := hsmall g hg (by rw [hc, Nat.mul_mod_right])
    omega
  · have hcsmall : c < 23 := Nat.lt_of_not_le fun hle => by
      have hprod := Nat.mul_le_mul (Nat.not_lt.mp hg) hle
      omega
    rcases hsmall c hcsmall (by rw [hc, Nat.mul_mod_left]) with rfl | rfl <;> omega

/-- The order of α is 511: a smaller period would give one of the proper divisors of 511. -/
theorem le_of_gfShift_one_eq_one {p : Nat} (hpos : 0 < p) (hp : gfShift 1 p = 1) : 511 ≤ p := by
  refine Nat.le_of_not_lt fun hlt => ?_
  have hgcd : gfShift 1 (Nat.gcd p 511) = 1 := gfShift_one_gcd hp gfShift_one_511
  have hsmall : Nat.gcd p 511 < 511 := Nat.lt_of_le_of_lt (Nat.gcd_le_left 511 hpos) hlt
  rcases eq_of_dvd_511 (Nat.gcd_dvd_right p 511) hsmall with h | h | h <;> rw [h] at hgcd
  · exact absurd hgcd (by decide)
  · exact absurd hgcd (by decide)
  · exact absurd (gfShift_one_73.symm.trans hgcd) (by decide)

/-! ### The table of powers -/

theorem nth_gfPowers {i n : Nat} (hi : i < n) (x : Nat) : nth 0 (gfPowers x n) i = gfShift x i := by
  induction i generalizing n x with
  | zero =>
    obtain ⟨n, rfl⟩ := Nat.exists_eq_add_one.mpr hi
    rfl
  | succ i ih =>
    obtain ⟨n, rfl⟩ := Nat.exists_eq_add_one.mpr (Nat.zero_lt_of_lt hi)
    exact ih (Nat.lt_of_succ_lt_succ hi) (gfTimes x)

theorem gfPow_eq_gfShift (i : Nat) : gfPow i = gfShift 1 i := by
  rw [gfPow, gfTable, nth_gfPowers (Nat.mod_lt i (by decide)), gfShift_one_mod gfShift_one_511]

theorem gfPow_ne_of_lt {i j : Nat} (hij : i < j) (hj : j < 511) : gfPow i ≠ gfPow j := by
  intro h
  rw [gfPow_eq_gfShift, gfPow_eq_gfShift] at h
  have hperiod : gfShift 1 (i + (511 - j)) = 1 := by
    rw [gfShift_add, h, ← gfShift_add, Nat.add_sub_cancel' (Nat.le_of_lt hj), gfShift_one_511]
  have hle := le_of_gfShift_one_eq_one (by omega) hperiod
  omega

theorem gfPow_ne_zero (i : Nat) : gfPow i ≠ 0 := by
  intro h
  have hzero : gfShift 1 (i + 510 * i) = 0 := by rw [gfShift_add, ← gfPow_eq_gfShift, h, gfShift_zero]
  have hone : gfShift 1 (i + 510 * i) = 1 := by
    rw [show i + 510 * i = 511 * i by omega, gfShift_one_mul gfShift_one_511]
  exact absurd (hone.symm.trans hzero) Nat.one_ne_zero

/-! ### The remainder modulo the generator -/

theorem syndrome_genPoly {k : Nat} (hk : k = 1 ∨ k = 3) : syndrome genPoly k 19 0 = 0 := by
  rcases hk with rfl | rfl
  · decide
  · have hhigh : syndrome (genPoly / 2 ^ 9) 3 10 0 = 129 := by simp [syndrome, gfShift, gfTimes, genPoly]
    rw [syndrome_split genPoly 3 9 10, hhigh]
    decide

theorem genRem_lt (v n : Nat) {r : Nat} (hr : r < 2 ^ 18) : genRem v n r < 2 ^ 18 := by
  induction n generalizing r with
  | zero => exact hr
  | succ n ih =>
    rw [genRem_succ]
    exact ih (polyReduce_lt rfl (by omega))

theorem syndrome_genRem {k : Nat} (hk : k = 1 ∨ k = 3) (v n : Nat) {r : Nat} (hr : r < 2 ^ 18) :
    syndrome (genRem v n r) k 18 0 = syndrome v k n (syndrome r k 18 0) := by
  induction n generalizing r with
  | zero => rfl
  | succ n ih =>
    have hx : 2 * r + v / 2 ^ n % 2 < 2 ^ 19 := by omega
    rw [genRem_succ, ih (polyReduce_lt rfl hx), syndrome_polyReduce (syndrome_genPoly hk) rfl hx,
      syndrome_two_mul_add r (Nat.mod_lt _ Nat.two_pos), ← syndrome_succ]

/-! ### Parities -/

theorem oddBits_succ (v n : Nat) : oddBits v (n + 1) = (bit v n ^^ oddBits v n) := rfl

theorem bit_xor (v w i : Nat) : bit (v ^^^ w) i = (bit v i ^^ bit w i) := by
  rw [bit_eq_testBit, bit_eq_testBit, bit_eq_testBit, Nat.testBit_xor]

theorem bit_two_pow (i j : Nat) : bit (2 ^ i) j = decide (i = j) := by rw [bit_eq_testBit, Nat.testBit_two_pow]

theorem oddBits_xor (v w n : Nat) : oddBits (v ^^^ w) n = (oddBits v n ^^ oddBits w n) := by
  induction n with
  | zero => rfl
  | succ n ih => rw [oddBits_succ, oddBits_succ, oddBits_succ, bit_xor, ih, Bool.xor_assoc, Bool.xor_assoc, Bool.xor_left_comm (bit w n)]

theorem oddBits_zero (n : Nat) : oddBits 0 n = false := by
  simpa using oddBits_xor 0 0 n

theorem oddBits_two_pow (i n : Nat) : oddBits (2 ^ i) n = decide (i < n) := by
  induction n with
  | zero => rfl
  | succ n ih =>
    rw [oddBits_succ, bit_two_pow, ih]
    rcases Nat.lt_trichotomy i n with h | h | h
    · rw [decide_eq_false (Nat.ne_of_lt h), decide_eq_true h, decide_eq_true (Nat.lt_succ_of_lt h), Bool.false_xor]
    · rw [decide_eq_true h, decide_eq_false (by omega), decide_eq_true (by omega), Bool.xor_false]
    · rw [decide_eq_false (Nat.ne_of_gt h), decide_eq_false (Nat.lt_asymm h), decide_eq_false (by omega), Bool.false_xor]

/-! ### The stored word (R392) -/

/-- Data and check bits of the stored word. -/
def checkedBits (d : Nat) : Nat := d % 2 ^ 256 * 2 ^ 18 + checkBits d

/-- The parity bit of the stored word, in its place. -/
def parityBit (d : Nat) : Nat := if oddBits (checkedBits d) 274 then 2 ^ 274 else 0

section
variable (d : Nat)

theorem checkBits_lt : checkBits d < 2 ^ 18 := genRem_lt _ _ (by decide)

theorem checkedBits_eq_xor : checkedBits d = d % 2 ^ 256 * 2 ^ 18 ^^^ checkBits d := mul_two_pow_add_eq_xor _ (checkBits_lt d)

theorem checkedBits_div : checkedBits d / 2 ^ 18 = d % 2 ^ 256 := by
  rw [checkedBits, Nat.mul_comm, Nat.mul_add_div (Nat.two_pow_pos 18), Nat.div_eq_of_lt (checkBits_lt d), Nat.add_zero]

theorem checkedBits_lt : checkedBits d < 2 ^ 274 :=
  mul_two_pow_add_lt (Nat.mod_lt _ (Nat.two_pow_pos 256)) (checkBits_lt d) rfl

theorem encodeWord_eq_xor : encodeWord d = parityBit d ^^^ checkedBits d := by
  change (if oddBits (checkedBits d) 274 then checkedBits d + 2 ^ 274 else checkedBits d) = _
  rw [parityBit]
  split
  case isTrue => rw [Nat.add_comm, ← Nat.one_mul (2 ^ 274), mul_two_pow_add_eq_xor 1 (checkedBits_lt d)]
  case isFalse => rw [Nat.zero_xor]

theorem parityBit_le : parityBit d ≤ 2 ^ 274 := by
  rw [parityBit]
  split
  · exact Nat.le_refl _
  · exact Nat.zero_le _

theorem encodeWord_lt : encodeWord d < 2 ^ 275 := by
  rw [encodeWord_eq_xor]
  exact xor_lt_two_pow_succ (parityBit_le d) (checkedBits_lt d) rfl

/-- The parity bit stands above the data. -/
theorem parityBit_div_mod : parityBit d / 2 ^ 18 % 2 ^ 256 = 0 := by
  rw [parityBit]
  split
  · rw [Nat.pow_div (by decide) Nat.two_pos, Nat.mod_self]
  · rfl

theorem wordData_encodeWord : wordData (encodeWord d) = d % 2 ^ 256 := by
  rw [wordData, encodeWord_eq_xor, Nat.xor_div_two_pow, Nat.xor_mod_two_pow, parityBit_div_mod, checkedBits_div, Nat.zero_xor,
    Nat.mod_mod]

/-- The stored word has even weight (R392). -/
theorem oddBits_encodeWord : oddBits (encodeWord d) 275 = false := by
  have htop : bit (checkedBits d) 274 = false := by rw [bit_eq_testBit, Nat.testBit_lt_two_pow (checkedBits_lt d)]
  have hparity : oddBits (parityBit d) 275 = oddBits (checkedBits d) 274 := by
    rw [parityBit]
    split
    case isTrue h => rw [oddBits_two_pow, h, decide_eq_true (by decide)]
    case isFalse h => rw [oddBits_zero, (Bool.not_eq_true _).mp h]
  rw [encodeWord_eq_xor, oddBits_xor, hparity, oddBits_succ (checkedBits d) 274, htop, Bool.false_xor, Bool.xor_self]

/-- The stored word without its parity bit is a multiple of the generator (R392), and the syndromes do not read the parity bit. -/
theorem syndrome_encodeWord {k : Nat} (hk : k = 1 ∨ k = 3) : syndrome (encodeWord d) k 274 0 = 0 := by
  have hparity : syndrome (parityBit d) k 274 0 = 0 := by
    rw [parityBit]
    split
    · exact syndrome_two_pow_self k 274
    · exact syndrome_zero k 274
  have hcheck : syndrome (checkBits d) k 274 0 = syndrome (d % 2 ^ 256 * 2 ^ 18) k 274 0 := by
    rw [syndrome_add_of_lt (checkBits_lt d) k 256, checkBits, syndrome_genRem hk _ _ (by decide), syndrome_zero]
  rw [encodeWord_eq_xor, checkedBits_eq_xor, syndrome_xor, syndrome_xor, hparity, hcheck, Nat.xor_self, Nat.xor_self]

end

/-! ### Decoding (R393) -/

/-- Neither the syndromes nor the parity see the stored word: the decoder finds the same in what was turned, whatever the data. -/
theorem decodeWord_encodeWord_xor (d v : Nat) : decodeWord (encodeWord d ^^^ v) = decodeWord v := by
  simp only [decodeWord, syndrome_xor, syndrome_encodeWord d (.inl rfl), syndrome_encodeWord d (.inr rfl), oddBits_xor,
    oddBits_encodeWord, Nat.zero_xor, Bool.false_xor]

/-- The syndromes of bit `i` name this bit and no other; the parity tells whether the parity bit is wrong beside it. -/
theorem decodeWord_of_syndromes {v i : Nat} (hi : i < 274) (h1 : syndrome v 1 274 0 = gfPow i) (h3 : syndrome v 3 274 0 = gfPow (3 * i)) :
    decodeWord v = some (if oddBits v 275 then [i] else [i, 274]) := by
  have hfind : (List.range 274).find? (fun j => gfPow j == gfPow i && gfPow (3 * j) == gfPow (3 * i)) = some i := by
    refine List.find?_range_eq_some.mpr ⟨by simp, List.mem_range.mpr hi, fun j hj => ?_⟩
    have hother : gfPow j ≠ gfPow i := gfPow_ne_of_lt hj (by omega)
    simp [hother]
  simp only [decodeWord, h1, h3, hfind, gfPow_ne_zero, false_and, if_false]
  split <;> rfl

theorem decodeWord_zero : decodeWord 0 = some [] := by
  simp only [decodeWord, syndrome_zero, oddBits_zero, and_self, if_true, Bool.false_eq_true, if_false]

theorem syndrome_bit {i k : Nat} (hi : i < 274) : syndrome (2 ^ i) k 274 0 = gfPow (k * i) := by
  rw [syndrome_two_pow hi, gfPow_eq_gfShift]

theorem decodeWord_bit {i : Nat} (hi : i < 275) : decodeWord (2 ^ i) = some [i] := by
  rcases Nat.lt_or_eq_of_le (Nat.le_of_lt_succ hi) with h | rfl
  · rw [decodeWord_of_syndromes h (by rw [syndrome_bit h, Nat.one_mul]) (syndrome_bit h), oddBits_two_pow, decide_eq_true hi, if_pos rfl]
  · simp only [decodeWord, syndrome_two_pow_self, oddBits_two_pow, hi, and_self, if_true, decide_true]

theorem decodeWord_bit_parity {i : Nat} (hi : i < 274) : decodeWord (2 ^ i ^^^ 2 ^ 274) = some [i, 274] := by
  have hsyn : ∀ k, syndrome (2 ^ i ^^^ 2 ^ 274) k 274 0 = gfPow (k * i) := fun k => by
    rw [syndrome_xor, syndrome_two_pow_self, Nat.xor_zero, syndrome_bit hi]
  have heven : oddBits (2 ^ i ^^^ 2 ^ 274) 275 = false := by
    rw [oddBits_xor, oddBits_two_pow, oddBits_two_pow, decide_eq_true (Nat.lt_trans hi (by decide)), decide_eq_true (by decide), Bool.xor_self]
  rw [decodeWord_of_syndromes hi (by rw [hsyn, Nat.one_mul]) (hsyn 3), heven, if_neg Bool.false_ne_true]

end Sys2Proof.Machine

section
open Sys2Proof Sys2Proof.Machine

/-- Settles O19: the code is linear, so that the decoder finds in a word with bits turned what it finds in these bits alone
(`decodeWord_encodeWord_xor`); and the powers of α up to 510 differ (`gfPow_ne_of_lt`), so that a single bit's syndromes name it. -/
theorem wordCodeCorrects : Obligations.WordCodeCorrects := by
  intro d hd
  refine ⟨encodeWord_lt d, (wordData_encodeWord d).trans (Nat.mod_eq_of_lt hd), oddBits_encodeWord d, ?_, fun i hi => ⟨?_, ?_⟩,
    fun i hi => ?_⟩
  · rw [← Nat.xor_zero (encodeWord d), decodeWord_encodeWord_xor, decodeWord_zero]
  · rw [decodeWord_encodeWord_xor, decodeWord_bit hi]
  · rw [turnBits, List.foldl_cons, List.foldl_nil, Nat.xor_assoc, Nat.xor_self, Nat.xor_zero]
  · rw [Nat.xor_assoc, decodeWord_encodeWord_xor, decodeWord_bit_parity hi]

end

namespace Sys2Proof.Machine

/-! ### The parts of the state as bits of a mask -/

/-- The bit by which a mask of `Touch` holds a part. Blocks past the last, in which no field lies, take bits above all others. -/
def Part.bit : Part → Nat
  | .chip => 0 | .sram => 1 | .flash => 2 | .sequencer => 3 | .leave => 4 | .clock => 5 | .grid => 6 | .lines => 7 | .sfm => 8 | .mrt => 9
  | .rfx => 10 | .mfe => 11 | .dch => 12 | .lce => 13 | .erf => 14 | .sec => 15 | .nvm => 16 | .packets => 17 | .arbiters => 18
  | .marks => 19 | .ports => 20 | .hostCore => 21 | .draws => 22 | .readings => 40 | .mirror => 41
  | .regs b => if b < 17 then 23 + b else 25 + b

/-- The part that a bit stands for. -/
def Part.ofBit (i : Nat) : Part :=
  if i < 23 then
    [Part.chip, .sram, .flash, .sequencer, .leave, .clock, .grid, .lines, .sfm, .mrt, .rfx, .mfe, .dch, .lce, .erf, .sec, .nvm, .packets,
      .arbiters, .marks, .ports, .hostCore, .draws].getD i .chip
  else if i < 40 then .regs (i - 23)
  else if i = 40 then .readings
  else if i = 41 then .mirror
  else .regs (i - 25)

theorem Part.ofBit_bit (p : Part) : Part.ofBit p.bit = p := by
  cases p with
  | regs b =>
    by_cases hb : b < 17
    · have hlow : 23 + b < 40 := by omega
      simp [Part.bit, Part.ofBit, hb, hlow]
    · have hhigh : ¬ 25 + b < 23 ∧ ¬ 25 + b < 40 ∧ 25 + b ≠ 40 ∧ 25 + b ≠ 41 := by omega
      simp only [Part.bit, Part.ofBit, hb, hhigh, if_false, Nat.add_sub_cancel_left]
  | _ => rfl

theorem Part.bit_injective : Function.Injective Part.bit := Function.LeftInverse.injective Part.ofBit_bit

/-- The mask of a list of parts. -/
def maskOf (l : List Part) : Nat := l.foldr (fun p m => 2 ^ p.bit ||| m) 0

/-- The mask holds just the parts that are listed: no two parts share a bit. -/
theorem hasBit_maskOf (l : List Part) (p : Part) : hasBit (maskOf l) p.bit = l.contains p := by
  rw [hasBit_eq]
  induction l with
  | nil => simp [maskOf]
  | cons q l ih =>
    have hq : Nat.testBit (2 ^ q.bit) p.bit = (p == q) := by
      rw [Nat.testBit_two_pow, Bool.eq_iff_iff, decide_eq_true_eq, beq_iff_eq, Part.bit_injective.eq_iff, eq_comm]
    rw [maskOf, List.foldr_cons, Nat.testBit_or, hq, ← maskOf, ih, List.contains_cons]

/-! ### What is left open by an equal share of a unit's state -/

theorem Pmu.eq_of_seq {p q : Pmu} (h : p.seq = q.seq) :
    p = { q with pending := p.pending, held := p.held, answers := p.answers, vldMs := p.vldMs, tjMs := p.tjMs, maxMs := p.maxMs } := by
  have hself : p = { p.seq with pending := p.pending, held := p.held, answers := p.answers
                                vldMs := p.vldMs, tjMs := p.tjMs, maxMs := p.maxMs } := rfl
  rw [hself, h]
  rfl

theorem Tbu.eq_of_grid {p q : Tbu} (h : p.grid = q.grid) :
    p = { q with time := p.time, cycles := p.cycles, slew := p.slew, slewAcc := p.slewAcc } := by
  have hself : p = { p.grid with time := p.time, cycles := p.cycles, slew := p.slew, slewAcc := p.slewAcc } := rfl
  rw [hself, h]
  rfl

theorem Hcp.eq_of_inner {p q : Hcp} (h : p.inner = q.inner) : p = { q with ports := p.ports } := by
  have hself : p = { p.inner with ports := p.ports } := rfl
  rw [hself, h]
  rfl

/-! ### The frame of every command -/

/-- An operation leaves each part that its mask does not hold. -/
theorem Touch.same_out {m : Nat} {s t : State} (h : Touch m s t) {p : Part} (hb : hasBit m p.bit = false) : p.same s t := by
  cases p with
  | chip => exact (touch_chip t h).out hb
  | sram =>
    have hcells : t.sram = s.sram := (touch_sram t h).out hb
    exact fun a n => by rw [memRead, memRead, hcells]
  | flash =>
    have hcells : t.flash = s.flash := (touch_flash t h).out hb
    exact fun a n => by rw [flashBytes, flashBytes, hcells]
  | sequencer => exact Pmu.eq_of_seq ((touch_seq t h).out hb)
  | leave => simpa [Part.same, Pmu.books] using (touch_books t h).out hb
  | readings => simpa [Part.same, Pmu.stamps] using (touch_stamps t h).out hb
  | clock => simpa [Part.same, Tbu.clock] using (touch_clock t h).out hb
  | grid => exact Tbu.eq_of_grid ((touch_grid t h).out hb)
  | lines => exact (touch_lines t h).out hb
  | sfm => exact (touch_sfm t h).out hb
  | mrt => exact (touch_mrt t h).out hb
  | rfx => exact (touch_rfx t h).out hb
  | mfe => exact (touch_mfe t h).out hb
  | dch => exact (touch_dch t h).out hb
  | lce => exact (touch_lce t h).out hb
  | erf => exact (touch_erf t h).out hb
  | sec => exact (touch_sec t h).out hb
  | nvm => exact (touch_nvm t h).out hb
  | packets => simpa [Part.same, Mqf.packets] using (touch_packets t h).out hb
  | arbiters => simpa [Part.same, Mqf.banks] using (touch_banks t h).out hb
  | marks => simpa [Part.same, Mqf.marks] using (touch_marks t h).out hb
  | ports => exact (touch_ports t h).out hb
  | hostCore => exact Hcp.eq_of_inner ((touch_inner t h).out hb)
  | draws => exact (touch_drawn t h).out hb
  | mirror => exact (touch_mir t h).out hb
  | regs b =>
    intro f hf
    have hblock : b < 17 := hf ▸ Nat.lt_succ_of_le (Nat.min_le_left _ _)
    rw [Part.bit, if_pos hblock, ← hf] at hb
    exact h.getF_out hb

/-- Every command touches no part but those listed for it: one case per command, each closed by the law of that command's meaning, whose
mask lies within that of its row of `mayTouch`. -/
theorem touch_exec (c : Instr) (s : State) : TouchBy (maskOf (mayTouch c)) s (exec c s) := by
  cases c <;> simp +decide [exec, mayTouch, Touch.refl]

end Sys2Proof.Machine

section
open Sys2Proof Sys2Proof.Machine

/-- Settles O15: a part that a command's row does not list lies outside the row's mask (`hasBit_maskOf`), which covers all that the command
touches (`touch_exec`). -/
theorem everyCommandKeepsItsFrame : Obligations.EveryCommandKeepsItsFrame := by
  intro c s t ht p hp
  have hrow : TouchBy (maskOf (mayTouch c)) s (exec c s) := touch_exec c s
  rw [ht] at hrow
  have hout : hasBit (maskOf (mayTouch c)) p.bit = false := by simpa [hasBit_maskOf] using hp
  exact Touch.same_out hrow hout

/-- Settles O5: what a step leaves is kept (`Inv.kept_next`), and so meets the invariant. -/
theorem everyStepKeepsInv : Obligations.EveryStepKeepsInv :=
  fun _ _ hs ht => (hs.kept_next ht).inv

/-- Settles O7: the queue is the part of `Kept` that every command and the idle cycle leave as it is. -/
theorem stepLeavesTheRestWaiting : Obligations.StepLeavesTheRestWaiting :=
  fun _ _ hs ht => (hs.kept_next ht).pending

/-- Settles O1: it is the second case of `step`. -/
theorem stepRunsFrontCommand : Obligations.StepRunsFrontCommand := fun _ _ _ => rfl

/-- Settles O3: after reset no cell and no register is listed, and the tables are of their sizes. -/
theorem resetMeetsInv : Obligations.ResetMeetsInv := ⟨reset_wf, rfl, rfl⟩

/-- Settles O8: the meaning of each command is a next state. -/
theorem everyCommandCompletes : Obligations.EveryCommandCompletes := by
  intro c s
  cases c <;> exact ⟨_, rfl⟩

end

namespace Sys2Proof.Machine

/-! ### The time base of an idle block (R66, R68) -/

theorem slewOf_zero {s : State} (hslew : s.tbu.slew = 0) (n : Nat) : (slewOf s n).1 = 0 := by
  rw [slewOf]
  split
  case isTrue => rfl
  case isFalse =>
    have hdue : (0 : Int) ≤ (s.tbu.slewAcc + n : Nat) / 2000 := by omega
    simpa [slewStep, hslew] using hdue

theorem trim_zero {s : State} (htrim : getF s F.TBU_TRIM_TRIM = 0) : trim s = 0 := by
  rw [trim, htrim]
  rfl

/-- With no trim and no slew mesh time advances by one tick a cycle. -/
theorem runTime_time {s : State} (htrim : getF s F.TBU_TRIM_TRIM = 0) (hslew : s.tbu.slew = 0) (hacc : s.tbu.trimAcc = 0) (n : Nat) :
    (runTime s n).tbu.time = s.tbu.time + BitVec.ofNat 64 n := by
  simp [runTime, slewOf_zero hslew n, trim_zero htrim, hacc]

theorem step_empty {s : State} (hq : s.pending = []) : step s = .next (idle s) := by rw [step, hq]

theorem idle_held {s : State} (hh : inHold s = true) : idle s = s := by rw [idle, if_pos hh]

theorem idle_running {s : State} (hh : inHold s = false) : idle s = runTime s (if timeStopped s then 3750 else 1) := by
  rw [idle, if_neg (by simp [hh])]
  split <;> rfl

end Sys2Proof.Machine

section
open Sys2Proof Sys2Proof.Machine

/-- Settles O2: an idle block runs its time base alone (`idle_running`), by one cycle or in ROOST by 3,750; that it does so with no command
waiting is the model's choice (log entry 8). -/
theorem emptyQueueIdles : Obligations.EmptyQueueIdles := by
  refine ⟨fun s hq hh => ?_, fun s hq hh htrim hslew hacc => ⟨idle s, step_empty hq, ?_, ?_⟩⟩
  · rw [step_empty hq, idle_held hh]
  · rw [idle_running hh]
    rfl
  · rw [idle_running hh, runTime_time htrim hslew hacc]
    split <;> rfl

end

namespace Sys2Proof.Machine

/-! ### The CRC of a Puluac packet (R417) -/

/-- One bit of the reflected division: the lowest bit leaves, and where it was 1 the polynomial is added. -/
def crcShift (c : Nat) : Nat := c / 2 ^^^ (if c.testBit 0 then 0x82F63B78 else 0)

/-- The register after a byte string, before the final XOR. -/
def crcReg (b : Bytes) : Nat := b.foldl (fun c x => crc32cStep (c ^^^ x.toNat) 8) 0xFFFFFFFF

theorem crc32c_eq_crcReg (b : Bytes) : crc32c b = crcReg b ^^^ 0xFFFFFFFF := rfl

theorem crc32cStep_succ (c n : Nat) : crc32cStep c (n + 1) = crc32cStep (crcShift c) n := by
  rw [crc32cStep, crcShift, Nat.testBit_zero]
  by_cases h : c % 2 = 1 <;> simp [h]

theorem crc32cStep_eq_iterate (c n : Nat) : crc32cStep c n = crcShift^[n] c := by
  induction n generalizing c with
  | zero => rfl
  | succ n ih => rw [crc32cStep_succ, ih, Function.iterate_succ_apply]

theorem crcReg_append (b : Bytes) (x : Byte) :
    crcReg (b ++ [x]) = (List.range 8).foldl (fun c _ => crcShift c) (crcReg b ^^^ x.toNat) := by
  rw [List.foldl_const, List.length_range, ← crc32cStep_eq_iterate, crcReg, List.foldl_append, ← crcReg]
  rfl

theorem packetBytes_crc (k : OutPkt) : ∃ b : Bytes, packetBytes k = b ++ leBytes (crc32c b) 4 := ⟨_, rfl⟩

theorem crcPoly_reflected : ∀ i, i < 32 → Nat.testBit 0x82F63B78 i = Nat.testBit 0x1EDC6F41 (31 - i) := by decide

/-- The check value that R417 states. -/
theorem crc32c_check : crc32c [0x31, 0x32, 0x33, 0x34, 0x35, 0x36, 0x37, 0x38, 0x39] = 0xE3069283 := by
  simp [crc32c, crc32cStep]

end Sys2Proof.Machine

section
open Sys2Proof Sys2Proof.Machine

/-- Settles O12: the register is `crcReg`, whose eight steps a byte are the iterated division of one bit (`crc32cStep_eq_iterate`). -/
theorem puluacCrcIsCrc32c : Obligations.PuluacCrcIsCrc32c :=
  ⟨packetBytes_crc, crcPoly_reflected, ⟨crcReg, rfl, crc32c_eq_crcReg, crcReg_append⟩, crc32c_check⟩

end

namespace Sys2Proof.Machine

/-! ### What the assertion of a reset leaves (R458, R461, R462, R464–R466) -/

theorem assertReset_held (s : State) (power aonLost : Bool) (cause : Nat) : HeldInReset s (assertReset s power aonLost cause) :=
  ⟨rfl, rfl, rfl, rfl, rfl, fun _ _ => rfl, fun _ _ => rfl, rfl, rfl, rfl, rfl, rfl, rfl, rfl, rfl, rfl, rfl, rfl, rfl, rfl, rfl⟩

/-- While AON is powered the kept registers stay, and every other has its reset value (R464). -/
theorem getF_assertReset (s : State) (power : Bool) (cause : Nat) (f : Field) :
    getF (assertReset s power false cause) f = if (keptKeys power).contains (fieldKey f) then getF s f else f.reset := by
  have hfind : assocFind? (assertReset s power false cause).regs (fieldKey f) =
      if (keptKeys power).contains (fieldKey f) then assocFind? s.regs (fieldKey f) else none :=
    assocFind_filter s.regs (fun k => (keptKeys power).contains k) (fieldKey f)
  rw [getF, hfind]
  split <;> rfl

/-- With AON every register is lost (R464). -/
theorem getF_assertReset_aonLost (s : State) (power : Bool) (cause : Nat) (f : Field) :
    getF (assertReset s power true cause) f = f.reset := rfl

theorem systemReset_holds (s : State) (cause : Nat) :
    HeldInReset s (systemReset s cause) ∧ RegsAfterSystemReset s (systemReset s cause) ∧
      (systemReset s cause).pmu.cause = causesSoFar s ||| cause :=
  ⟨assertReset_held s false false cause, getF_assertReset s false cause, rfl⟩

theorem powerOnReset_holds (s : State) (cause : Nat) :
    HeldInReset s (powerOnReset s false cause) ∧ RegsAfterPowerOn s (powerOnReset s false cause) ∧
      (powerOnReset s false cause).pmu.cause = causesSoFar s ||| cause :=
  ⟨assertReset_held s true false cause, getF_assertReset s true cause, rfl⟩

theorem resetNLow_eq (s : State) : exec .resetNLow s = .next (systemReset s 8) := rfl

theorem jtagSystemReset_open {s : State} (hd : s.chip.dbgClosed = false) (hs : s.pmu.shutdown = false) :
    exec .jtagSystemReset s = .next (systemReset s 64) := by
  change execJtagSystemReset s = _
  rw [execJtagSystemReset, if_neg (by simp [hd, hs])]

theorem jtagSystemReset_closed {s : State} (hd : s.chip.dbgClosed = true) : exec .jtagSystemReset s = .next s := by
  change execJtagSystemReset s = _
  rw [execJtagSystemReset, if_pos (.inl hd)]

theorem clockLoss_powered (pll : Fin 4) {s : State} (hs : s.pmu.shutdown = false) :
    exec (.clockLoss pll) s = .next (powerOnReset s false 2) := by
  change execClockLoss pll s = _
  rw [execClockLoss, if_neg (by simp [hs])]

/-! ### A rail that falls (R458) -/

/-- The state from which the loss of VDDAO resets: with AON go the shutdown and the causes noted so far. -/
def aonLost (s : State) : State := { s with pmu := { s.pmu with shutdown := false, cause := 0 } }

/-- A rail is shown missing. -/
def railShown (t : State) (rail : Nat) : State := setF t F.PMU_SUPPLY_GOOD (withBit 0xF rail false)

theorem supplyUndervoltage_core {rail : Fin 4} (s : State) (hr : rail.val < 3) :
    exec (.supplyUndervoltage rail) s = .next (railShown (powerOnReset s false (1 + 2 ^ (8 + rail.val))) rail) := by
  change Host.Outcome.next (railFell s rail.val) = _
  rw [railFell, if_neg (Nat.ne_of_lt hr), railShown]

theorem supplyUndervoltage_aon (s : State) :
    exec (.supplyUndervoltage 3) s = .next (railShown (powerOnReset (aonLost s) true (1 + 0xF00)) 3) := rfl

/-- The hold speaks of no register. -/
theorem HeldInReset.railShown {s t : State} (h : HeldInReset s t) (rail : Nat) : HeldInReset s (railShown t rail) := h

theorem getF_good_railShown (t : State) (rail : Fin 4) : getF (railShown t rail) F.PMU_SUPPLY_GOOD = 15 - 2 ^ rail.val := by
  have hcut : ∀ r : Fin 4, withBit 0xF r.val false % 2 ^ F.PMU_SUPPLY_GOOD.width = 15 - 2 ^ r.val := by decide
  rw [railShown, getF_setF_self, hcut]

theorem getF_railShown_other (t : State) (rail : Nat) {f : Field} (hf : fieldKey f ≠ fieldKey F.PMU_SUPPLY_GOOD) :
    getF (railShown t rail) f = getF t f := getF_setF_other _ _ _ _ hf

/-- No cause stays beside those of the loss of VDDAO, whether or not a reset was in progress. -/
theorem powerOnReset_aonLost_cause (s : State) (cause : Nat) : (powerOnReset (aonLost s) true cause).pmu.cause = cause := by
  change (if s.pmu.inReset then 0 else 0) ||| cause = cause
  rw [ite_self, Nat.zero_or]

end Sys2Proof.Machine

section
open Sys2Proof Sys2Proof.Machine

/-- Settles O9: each row by the reset that it asserts (`systemReset_holds`, `powerOnReset_holds`), an undervoltage beside it by the rail that
it shows missing. -/
theorem resetRowsHoldTheDevice : Obligations.ResetRowsHoldTheDevice := by
  refine ⟨fun s => ⟨_, resetNLow_eq s, systemReset_holds s 8⟩,
    fun s hd hs => ⟨_, jtagSystemReset_open hd hs, systemReset_holds s 64⟩, fun s => jtagSystemReset_closed,
    fun pll s hs => ⟨_, clockLoss_powered pll hs, powerOnReset_holds s 2⟩, fun rail s hr => ?_, fun s => ?_⟩
  · obtain ⟨hheld, hregs, hcause⟩ := powerOnReset_holds s (1 + 2 ^ (8 + rail.val))
    exact ⟨_, supplyUndervoltage_core s hr, hheld.railShown _, getF_good_railShown _ rail,
      fun f hf => (getF_railShown_other _ _ hf).trans (hregs f), hcause⟩
  · exact ⟨_, supplyUndervoltage_aon s, (assertReset_held s true true (1 + 0xF00)).railShown 3, getF_good_railShown _ 3,
      fun f hf => getF_railShown_other _ _ hf, powerOnReset_aonLost_cause s _⟩

end

namespace Sys2Proof.Machine

/-! ### Overvoltage, RTCK and the stretch (R458, R461, R466) -/

/-- The sticky bit of a rail is set. -/
def overvoltageShown (s : State) (rail : Nat) : State := setF s F.PMU_SUPPLY_OV (withBit (getF s F.PMU_SUPPLY_OV) rail true)

theorem supplyOvervoltage_running (rail : Fin 4) {s : State} (hh : inHold s = false) :
    exec (.supplyOvervoltage rail) s = .next (overvoltageShown s rail) := by
  change execSupplyOvervoltage rail s = _
  rw [execSupplyOvervoltage, if_neg (by simp [hh]), overvoltageShown]

theorem bit_ov_overvoltageShown (s : State) (rail r : Fin 4) :
    bit (getF (overvoltageShown s rail) F.PMU_SUPPLY_OV) r.val = (bit (getF s F.PMU_SUPPLY_OV) r.val || r == rail) := by
  rw [overvoltageShown, getF_setF_self, bit_mod_two_pow (w := F.PMU_SUPPLY_OV.width) _ r.isLt, bit_withBit]
  by_cases h : r = rail <;> simp [h, Fin.val_inj]

theorem rtckLoss_running {s : State} (hh : inHold s = false) : exec .rtckLoss s = .next (setFlag s F.PMU_PLLSTAT_RTCKLOST) := by
  change execRtckLoss s = _
  rw [execRtckLoss, if_neg (by simp [hh])]

/-- The stretch has begun: every rail shown good, the crystal running. -/
def stretched (s : State) : State :=
  setFlag (clearF { s with pmu := { s.pmu with stretch := true } } F.PMU_SUPPLY_GOOD) F.PMU_PLLSTAT_XO_OK

theorem resetStretchStart_held {s : State} (hr : s.pmu.inReset = true) (hs : s.pmu.shutdown = false) :
    exec .resetStretchStart s = .next (stretched s) := by
  change execResetStretchStart s = _
  rw [execResetStretchStart, if_pos (by simp [hr, hs]), stretched]

theorem getF_good_stretched (s : State) : getF (stretched s) F.PMU_SUPPLY_GOOD = 15 := by
  rw [stretched, getF_setFlag_other _ _ _ (by decide), getF_clearF_self]
  rfl

/-! ### The causes latched at the end of a reset (R466, R468) -/

/-- The causes noted in bits 0 to 6, each with its bit of PMU_RSTCAUSE. -/
def causeBits : List (Nat × Field) :=
  [(0, F.PMU_RSTCAUSE_SUPPLY), (1, F.PMU_RSTCAUSE_CLKFAIL), (2, F.PMU_RSTCAUSE_THERMEND), (3, F.PMU_RSTCAUSE_RESETN),
    (4, F.PMU_RSTCAUSE_DEVRESET), (5, F.PMU_RSTCAUSE_WDOG2), (6, F.PMU_RSTCAUSE_JTAG)]

/-- One cause of `c` is latched, if it was noted. -/
def latchCause (c : Nat) (s : State) (e : Nat × Field) : State := if bit c e.1 then setFlag s e.2 else s

/-- The causes in bits 0 to 6 are latched. -/
def bitsLatched (s : State) : State := causeBits.foldl (latchCause s.pmu.cause) s

theorem latchCauses_eq (s : State) : latchCauses s =
    setF (bitsLatched s) F.PMU_RSTCAUSE_RAIL (getF (bitsLatched s) F.PMU_RSTCAUSE_RAIL ||| bits s.pmu.cause 8 4) := rfl

section
variable {c : Nat} {l : List (Nat × Field)}

theorem getF_foldl_latchCause_other (s : State) {f : Field} (hf : ∀ e ∈ l, fieldKey f ≠ fieldKey e.2) :
    getF (l.foldl (latchCause c) s) f = getF s f := by
  induction l generalizing s with
  | nil => rfl
  | cons e l ih =>
    rw [List.foldl_cons, ih _ fun x hx => hf x (List.mem_cons_of_mem _ hx), latchCause]
    split
    · exact getF_setFlag_other s _ _ (hf e List.mem_cons_self)
    · rfl

/-- A noted cause is latched, and no later one of other bits takes it back. -/
theorem getF_foldl_latchCause_noted (s : State) (hl : (l.map (fun e => fieldKey e.2)).Nodup) {i : Nat} {f : Field} (hm : (i, f) ∈ l)
    (hc : bit c i = true) : getF (l.foldl (latchCause c) s) f = 1 % 2 ^ f.width := by
  induction l generalizing s with
  | nil => cases hm
  | cons e l ih =>
    obtain ⟨he, hl⟩ := List.nodup_cons.mp hl
    rcases List.mem_cons.mp hm with rfl | hm
    · rw [List.foldl_cons, getF_foldl_latchCause_other, latchCause, if_pos hc, getF_setFlag_self]
      exact fun x hx hk => he (List.mem_map.mpr ⟨x, hx, hk.symm⟩)
    · exact ih _ hl hm

end

theorem causeBits_nodup : (causeBits.map (fun e => fieldKey e.2)).Nodup := by decide

/-- The bits of the causes are flags, apart from the fields that the release writes beside them. -/
theorem causeBits_apart : ∀ e ∈ causeBits, e.2.width = 1 ∧ fieldKey e.2 ≠ fieldKey F.PMU_RSTCAUSE_RAIL ∧
    fieldKey e.2 ≠ fieldKey F.PMU_PLLSTAT_XO_OK ∧ fieldKey e.2 ≠ fieldKey F.ERF_EPOCH_EPOCH := by decide

theorem getF_latchCauses_noted (s : State) {i : Nat} {f : Field} (hm : (i, f) ∈ causeBits) (hc : bit s.pmu.cause i = true) :
    getF (latchCauses s) f = 1 := by
  obtain ⟨hwidth, hrail, -, -⟩ := causeBits_apart _ hm
  rw [latchCauses_eq, getF_setF_other _ _ _ _ hrail, bitsLatched, getF_foldl_latchCause_noted s causeBits_nodup hm hc, hwidth]
  rfl

/-- The latch of the causes writes registers of PMU alone. -/
theorem latchCauses_touch (s : State) : Touch 8388608 s (latchCauses s) := touch_latchCauses s (by decide) (.refl _ s)

/-! ### The release of a reset (R466) -/

theorem resetRelease_stretched (pairId cmsnN : Bool) {s : State} (hr : s.pmu.inReset = true) (ht : s.pmu.stretch = true)
    (hs : s.pmu.shutdown = false) : exec (.resetRelease pairId cmsnN) s = .next (releaseReset s pairId cmsnN) := by
  change execResetRelease pairId cmsnN s = _
  rw [execResetRelease, if_pos (by simp [hr, ht, hs])]

section
variable (s : State) (pairId cmsnN : Bool)

theorem releaseReset_touch : Touch 68727898120 s (releaseReset s pairId cmsnN) :=
  touch_releaseReset s pairId cmsnN (by decide) (.refl _ s)

theorem releaseReset_chip : (releaseReset s pairId cmsnN).chip = s.chip := (touch_chip _ (releaseReset_touch s pairId cmsnN)).out rfl

theorem releaseReset_pmu : (releaseReset s pairId cmsnN).pmu =
    { s.pmu with inReset := false, stretch := false, cause := 0, pairId := pairId, cmsnN := cmsnN } := by
  have hpmu : (latchCauses s).pmu = s.pmu := (latchCauses_touch s).pmu_out (by decide)
  rw [← hpmu]
  rfl

theorem releaseReset_opSeq : (releaseReset s pairId cmsnN).sec.opSeq = s.nvm.opSeq := by
  have hnvm : (latchCauses s).nvm = s.nvm := (touch_nvm _ (latchCauses_touch s)).out rfl
  rw [← hnvm]
  rfl

theorem getF_epoch_releaseReset : getF (releaseReset s pairId cmsnN) F.ERF_EPOCH_EPOCH = s.nvm.epoch % 2 ^ 32 := by
  have hnvm : (latchCauses s).nvm = s.nvm := (touch_nvm _ (latchCauses_touch s)).out rfl
  rw [← hnvm]
  exact getF_setF_self _ _ _

theorem getF_releaseReset_other {f : Field} (hx : fieldKey f ≠ fieldKey F.PMU_PLLSTAT_XO_OK)
    (he : fieldKey f ≠ fieldKey F.ERF_EPOCH_EPOCH) : getF (releaseReset s pairId cmsnN) f = getF (latchCauses s) f := by
  rw [releaseReset, getF_setF_other _ _ _ _ he]
  exact getF_setFlag_other _ _ _ hx

/-- A cause that was noted shows after the release. -/
theorem getF_cause_releaseReset {i : Nat} {f : Field} (hm : (i, f) ∈ causeBits) (hc : bit s.pmu.cause i = true) :
    getF (releaseReset s pairId cmsnN) f = 1 := by
  obtain ⟨-, -, hx, he⟩ := causeBits_apart _ hm
  rw [getF_releaseReset_other s _ _ hx he, getF_latchCauses_noted s hm hc]

end

/-- UNPROV shows whether ROOTHASH is unburnt, in every mode. -/
theorem fieldRead_unprov (s : State) (x : SrcState) (n ext : Nat) :
    fieldRead s x 0xA0004 n ext F.SEC_BOOTSTAT_UNPROV = b2n s.chip.rootHash.isNone := by
  have habsent : fieldAbsent s F.SEC_BOOTSTAT_UNPROV = false := rfl
  have hon : offReset s 0xA0004 F.SEC_BOOTSTAT_UNPROV.lo = false := Bool.and_false _
  have hlive : live s x 0xA0004 n F.SEC_BOOTSTAT_UNPROV.lo ext = some (b2n s.chip.rootHash.isNone) := rfl
  rw [fieldRead, habsent, hon, hlive]
  cases s.chip.rootHash <;> rfl

end Sys2Proof.Machine

section
open Sys2Proof Sys2Proof.Machine

/-- Settles O10: the three short rows by the registers that they write, the release by `releaseReset`, whose latch of the causes sets one flag
after another (`getF_foldl_latchCause_noted`). The epoch and OPSEQ come from the configuration record (R340, R380). -/
theorem resetEndsWithItsCauses : Obligations.ResetEndsWithItsCauses := by
  refine ⟨fun rail s hh => ⟨_, supplyOvervoltage_running rail hh, onlyRegs_setF _ _ _, bit_ov_overvoltageShown s rail⟩,
    fun s hh => ⟨_, rtckLoss_running hh, onlyRegs_setF _ _ _, getF_setFlag_self _ _⟩,
    fun s hr hs => ⟨_, resetStretchStart_held hr hs, rfl, getF_good_stretched s, getF_setFlag_self _ _, fun _ _ => rfl, fun _ _ => rfl⟩,
    fun pairId cmsnN s hr ht hs => ?_⟩
  have hcause {i : Nat} {f : Field} (hm : (i, f) ∈ causeBits) : bit s.pmu.cause i = true → getF (releaseReset s pairId cmsnN) f = 1 :=
    getF_cause_releaseReset s pairId cmsnN hm
  refine ⟨_, resetRelease_stretched pairId cmsnN hr ht hs, releaseReset_pmu s pairId cmsnN, hcause ?_, hcause ?_, hcause ?_, hcause ?_,
    hcause ?_, hcause ?_, hcause ?_, fun x n ext => ?_, getF_epoch_releaseReset s pairId cmsnN, releaseReset_opSeq s pairId cmsnN,
    (releaseReset_touch s pairId cmsnN).sameMemory (by decide)⟩
  case refine_8 => rw [fieldRead_unprov, releaseReset_chip]
  all_goals decide

end
